-- ==== Sys2Proof/Word.lean ====
section
/-! DEFINITION. The plainest arithmetic of words: a register, an object entry or a
multi-byte field is a `Nat` kept below `2 ^ width`; bytes of memory are `BitVec 8`
(R4: every multi-byte field is little-endian). -/

namespace Sys2Proof

/-- One byte of memory, flash or a frame. -/
abbrev Byte := BitVec 8

/-- The field of `n` bits of `w` that starts at bit `lo` (R4: bit 0 is the least significant). -/
def field (w lo n : Nat) : Nat := (w >>> lo) % 2 ^ n

/-- `w` with its field of `n` bits at `lo` replaced by the low `n` bits of `v`. -/
def setField (w lo n v : Nat) : Nat := w - (field w lo n <<< lo) + ((v % 2 ^ n) <<< lo)

/-- Round `n` up to a multiple of `k`. -/
def roundUp (n k : Nat) : Nat := (n + k - 1) / k * k

/-- `⌈n / k⌉`. -/
def ceilDiv (n k : Nat) : Nat := (n + k - 1) / k

/-- The two's-complement reading of the low `w` bits of `n`. -/
def toSigned (w n : Nat) : Int :=
  let v := n % 2 ^ w
  if v < 2 ^ (w - 1) then (v : Int) else (v : Int) - (2 ^ w : Nat)

/-- The `w`-bit word of an integer, modulo `2 ^ w`. -/
def ofSigned (w : Nat) (i : Int) : Nat := (i % ((2 ^ w : Nat) : Int)).toNat

/-- The `n` little-endian bytes of `w`, lowest address first (R4). -/
def toBytes : Nat → Nat → List Byte
  | 0, _ => []
  | n + 1, w => BitVec.ofNat 8 w :: toBytes n (w / 256)

/-- The number that little-endian bytes spell (R4). -/
def ofBytes : List Byte → Nat
  | [] => 0
  | b :: bs => b.toNat + 256 * ofBytes bs

/-- A truth value as a one-bit field. -/
def b2n (b : Bool) : Nat := if b then 1 else 0

end Sys2Proof
end

