-- ==== Sys2Proof/Syntax.lean ====
section
/-! DEFINITION. The commands. -/

namespace Sys2Proof

/-- One host WRITE burst: channel, bank, byte offset in the page, bytes (32 or 64), data, mask of masked-out bytes, and
whether the link ECC rejects it or has corrected it. -/
structure Burst where
  ch : Nat
  bank : Nat
  col : Nat
  n : Nat
  data : Nat
  mask : Nat
  ecc : Bool
  fixed : Bool
deriving DecidableEq, Repr

/-- What a Governor's control period measures (R431), in µW: fixed share, memory, link and compute demand, the fixed share
predicted at the loop floor, the module's power; the junctions of dies 0–3 and the hub (0.1 °C), each die's power, and
each rail's AVSBus read-back in mV (none: no answer). -/
structure Meas where
  fixed : Nat
  mem : Nat
  link : Nat
  comp : Nat
  fixedFloor : Nat
  total : Nat
  temps : List Int
  dies : List Nat
  rails : List (Option Nat)
deriving DecidableEq, Repr

/-- What the body segment and the unit flash answer to a command that needs them: the identities (vendor, product) and the
ring delay and state measured at Arm, whether a transfer succeeds, and the bytes it returns. -/
structure Seg where
  ids : List (Nat × Nat)
  delay : Nat
  ring : Nat
  ok : Bool
  data : List Byte
deriving DecidableEq, Repr

/-- The commands of the block: one constructor per row of the opcode table, in the table's order. Operands are numbers
unless a type is given; `id` numbers a descriptor in the table of outstanding ones, `path` is 0 for the host and 1 for the
supervisor. What the environment decides (a fault met, a measured value, a duration in ns) is an operand. -/
inductive Instr where
  /-- `HOST_DOORBELL_WRITE` (R322): a burst in the doorbell slots. -/
  | hostDoorbellWrite (b : Burst)
  /-- `DSP_DOORBELL_WRITE` (R54): `w` is the 64-bit word written to DSP_DOORBELL of die `die`. -/
  | dspDoorbellWrite (die : Nat) (w : Nat)
  /-- `DESCRIPTOR_SLOT_READ` (R55): of context `c`; `bad`: 0, or the slot (1 first, 2 second) whose read meets an
  uncorrectable error. -/
  | descriptorSlotRead (c : Nat) (bad : Nat)
  /-- `NOP` (R58): descriptor `id` of the table. -/
  | nop (id : Nat)
  /-- `GEMM` (R91): descriptor `id` of the table. -/
  | gemm (id : Nat)
  /-- `ELEMENTWISE` (R101): descriptor `id` of the table. -/
  | elementwise (id : Nat)
  /-- `NORMALISE` (R104): descriptor `id` of the table. -/
  | normalise (id : Nat)
  /-- `POOL` (R105): descriptor `id` of the table. -/
  | pool (id : Nat)
  /-- `CONVOLUTION_CHAIN` (R93): descriptor `id` of the table. -/
  | convolutionChain (id : Nat)
  /-- `HALO_FLAG_WAIT_END` (R98): a core of descriptor `id` has waited `ns`. -/
  | haloFlagWaitEnd (id : Nat) (ns : Nat)
  /-- `GATHER_ROWS` (R106). -/
  | gatherRows (id : Nat)
  /-- `CHANNEL_ARG_MAX` (R107). -/
  | channelArgMax (id : Nat)
  /-- `BOX_DECODE` (R109). -/
  | boxDecode (id : Nat)
  /-- `TOKEN_SAMPLING` (R111). -/
  | tokenSampling (id : Nat)
  /-- `TILE_PACK` (R112). -/
  | tilePack (id : Nat)
  /-- `FUSED_ATTENTION` (R129). -/
  | fusedAttention (id : Nat)
  /-- `PARTIAL_MERGE` (R132). -/
  | partialMerge (id : Nat)
  /-- `CACHE_APPEND` (R135). -/
  | cacheAppend (id : Nat)
  /-- `CACHE_REFILL` (R136). -/
  | cacheRefill (id : Nat)
  /-- `PAGE_ALLOCATE` (R124). -/
  | pageAllocate (id : Nat)
  /-- `PAGE_SHARE` (R124). -/
  | pageShare (id : Nat)
  /-- `PAGE_RELEASE` (R124). -/
  | pageRelease (id : Nat)
  /-- `PAGE_QUERY` (R124). -/
  | pageQuery (id : Nat)
  /-- `STREAM_OPEN` (R148). -/
  | streamOpen (id : Nat)
  /-- `STREAM_RESET` (R148). -/
  | streamReset (id : Nat)
  /-- `STREAM_PAUSE` (R148). -/
  | streamPause (id : Nat)
  /-- `STREAM_RESUME` (R148). -/
  | streamResume (id : Nat)
  /-- `STREAM_END` (R148). -/
  | streamEnd (id : Nat)
  /-- `STREAM_PIN` (R159). -/
  | streamPin (id : Nat)
  /-- `STREAM_UNPIN` (R160). -/
  | streamUnpin (id : Nat)
  /-- `STREAM_QUERY` (R148). -/
  | streamQuery (id : Nat)
  /-- `STREAM_COPY_OUT` (R148). -/
  | streamCopyOut (id : Nat)
  /-- `RECURRENT_CELL_CHUNK` (R153). -/
  | recurrentCellChunk (id : Nat)
  /-- `LINEAR_SCAN_CHUNK` (R156). -/
  | linearScanChunk (id : Nat)
  /-- `STREAM_MOVE_COMPLETE` (R149): of stream `x`; `err` is 0 or the tier fault that ended the move. -/
  | streamMoveComplete (x : Nat) (err : Nat)
  /-- `SOLVER_FACTOR` (R171). -/
  | solverFactor (id : Nat)
  /-- `SOLVER_FACTOR_AND_SOLVE` (R171). -/
  | solverFactorAndSolve (id : Nat)
  /-- `SOLVER_SOLVE_STORED` (R171). -/
  | solverSolveStored (id : Nat)
  /-- `QUADRATIC_PROGRAM` (R173). -/
  | quadraticProgram (id : Nat)
  /-- `SOLVER_STOP_INSTANT` (R179): engine `e` of the gang; `prog` tells for each of its problems how far it had come
  (0 first factorization, 1 after the iterate that follows, 2 refactorization, 3 ended before). -/
  | solverStopInstant (id : Nat) (e : Nat) (prog : List (Nat × Nat))
  /-- `MAP_DEFINE` (R192). -/
  | mapDefine (id : Nat)
  /-- `MAP_RETIRE` (R192). -/
  | mapRetire (id : Nat)
  /-- `MAP_RETIRE_FREE` (R192): map `n`. -/
  | mapRetireFree (n : Nat)
  /-- `MAP_QUERY` (R192). -/
  | mapQuery (id : Nat)
  /-- `MAP_UPDATE` (R194). -/
  | mapUpdate (id : Nat)
  /-- `MAP_UPDATE_COPY` (R194). -/
  | mapUpdateCopy (id : Nat)
  /-- `MAP_UPDATE_PUBLISH` (R194). -/
  | mapUpdatePublish (id : Nat)
  /-- `PATH_CHECK` (R198). -/
  | pathCheck (id : Nat)
  /-- `CHECK_STOP_INSTANT` (R200): `groups` of 32 sphere-samples have been examined. -/
  | checkStopInstant (id : Nat) (groups : Nat)
  /-- `OBJECT_CREATE` (R269). -/
  | objectCreate (id : Nat)
  /-- `OBJECT_DESTROY` (R270). -/
  | objectDestroy (id : Nat)
  /-- `OBJECT_QUERY` (R268). -/
  | objectQuery (id : Nat)
  /-- `OBJECT_SET_POLICY` (R264). -/
  | objectSetPolicy (id : Nat)
  /-- `OBJECT_PLACE` (R271): `n` entries before a cold read fails, if one does. -/
  | objectPlace (id : Nat) (n : Nat)
  /-- `OBJECT_PERSIST` (R272). -/
  | objectPersist (id : Nat)
  /-- `OPEN_PERSISTENT` (R272). -/
  | openPersistent (id : Nat)
  /-- `CLEAR_SUSPECT` (R283): `bad`: the handles in which an uncorrectable error remains. -/
  | clearSuspect (id : Nat) (bad : List Nat)
  /-- `DELETE_PERSISTENT` (R272). -/
  | deletePersistent (id : Nat)
  /-- `TILE_COPY` (R279). -/
  | tileCopy (id : Nat)
  /-- `UNIT_FLASH_READ` (R285). -/
  | unitFlashRead (id : Nat)
  /-- `BACKGROUND_EVICTION` (R280). -/
  | backgroundEviction
  /-- `SPILL_COMPLETE` (R281): of object `h`; `bad`: a program failure that the array cannot recover. -/
  | spillComplete (h : Nat) (bad : Bool)
  /-- `GANG_PLACEMENT` (R66). -/
  | gangPlacement (die : Nat)
  /-- `PREEMPTED_GANG_STOP` (R69): `bytes` is what its save area holds. -/
  | preemptedGangStop (id : Nat) (bytes : Nat)
  /-- `DESCRIPTOR_FINAL_RECORD` (R74): `energy` in µJ, as the Governor measured it. -/
  | descriptorFinalRecord (id : Nat) (energy : Nat)
  /-- `INTERIM_RECORD` (R75). -/
  | interimRecord (id : Nat)
  /-- `DESCRIPTOR_DEADLINE_PASS` (R71). -/
  | descriptorDeadlinePass (id : Nat)
  /-- `QUOTA_PERIOD_START` (R64). -/
  | quotaPeriodStart (c : Nat)
  /-- `SHARE_WINDOW_START` (R65). -/
  | shareWindowStart (die : Nat)
  /-- `CONTEXT_OPEN` (R53): on the context that the path (0 host, 1 supervisor) has selected. -/
  | contextOpen (path : Nat)
  /-- `CONTEXT_PAUSE` (R51): on the context that the path (0 host, 1 supervisor) has selected. -/
  | contextPause (path : Nat)
  /-- `CONTEXT_RESUME` (R51): on the context that the path (0 host, 1 supervisor) has selected. -/
  | contextResume (path : Nat)
  /-- `CONTEXT_FLUSH` (R52): on the context that the path (0 host, 1 supervisor) has selected. -/
  | contextFlush (path : Nat)
  /-- `CONTEXT_CLOSE` (R485): on the context that the path (0 host, 1 supervisor) has selected. -/
  | contextClose (path : Nat)
  /-- `HOST_READ_BURST` (R312): `n` bytes (32 or 64) from byte `col` of the page open in the bank. -/
  | hostReadBurst (ch : Nat) (bank : Nat) (col : Nat) (n : Nat)
  /-- `HOST_WRITE_BURST` (R316). -/
  | hostWriteBurst (b : Burst)
  /-- `COMMAND_RING_WINDOW_WRITE` (R325): a burst in the command-ring region. -/
  | commandRingWindowWrite (b : Burst)
  /-- `ACTIVATE` (R311). -/
  | activate (ch : Nat) (bank : Nat) (row : Nat)
  /-- `PRECHARGE` (R310). -/
  | precharge (ch : Nat) (bank : Nat)
  /-- `MODE_REGISTER_WRITE` (R314): `ps`: the read latency that the value selects at the channel's rate. -/
  | modeRegisterWrite (ch : Nat) (mr : Nat) (v : Nat) (ps : Nat)
  /-- `MODE_REGISTER_READ` (R314). -/
  | modeRegisterRead (ch : Nat) (mr : Nat)
  /-- `REFRESH` (R315): `kind` 0 all bank, 1 per bank, 2 RFM. -/
  | refresh (ch : Nat) (kind : Nat)
  /-- `SELF_REFRESH_ENTRY` (R315). -/
  | selfRefreshEntry (ch : Nat)
  /-- `SELF_REFRESH_EXIT` (R315). -/
  | selfRefreshExit (ch : Nat)
  /-- `POWER_DOWN_ENTRY_EXIT` (R310). -/
  | powerDownEntryExit (ch : Nat) (exit : Bool)
  /-- `WCK_SYNC_MPC` (R310): `op` 0 CAS, else the MPC operand. -/
  | wckSyncMpc (ch : Nat) (op : Nat)
  /-- `CHANNEL_TRAINING` (R313): a mode of Table 13-3 completes at set point `fsp`, `rate` MT/s. -/
  | channelTraining (ch : Nat) (mode : Nat) (fsp : Nat) (rate : Nat)
  /-- `HOST_CHANNEL_RESET` (R313). -/
  | hostChannelReset (ch : Nat)
  /-- `HP_RESET_APERTURES` (R336). -/
  | hpResetApertures (b : Burst)
  /-- `HP_RESET_RESTART` (R336). -/
  | hpResetRestart (b : Burst)
  /-- `STAGING_READ_REQUEST` (R328): a burst on a staging request slot. -/
  | stagingReadRequest (b : Burst)
  /-- `STAGING_WRITE_REQUEST` (R329): a burst on a staging request slot. -/
  | stagingWriteRequest (b : Burst)
  /-- `STAGING_RELEASE` (R326): a burst on a staging request slot. -/
  | stagingRelease (b : Burst)
  /-- `STAGING_CANCEL` (R326): a burst on a staging request slot. -/
  | stagingCancel (b : Burst)
  /-- `STAGING_BLOCKS_GRANTED` (R327). -/
  | stagingBlocksGranted
  /-- `STAGING_COPY_DONE` (R328): aperture `a`; `fault` 0 none, 1 ECC, 2 timeout, 3 link down, else router. -/
  | stagingCopyDone (a : Nat) (fault : Nat)
  /-- `APERTURE_WINDOW_WRITE` (R329): a burst in the staging region. -/
  | apertureWindowWrite (b : Burst)
  /-- `STAGING_BLOCK_DRAIN` (R329): block `k` of aperture `a`. -/
  | stagingBlockDrain (a : Nat) (k : Nat) (fault : Nat)
  /-- `WRITE_IDLE_TIMEOUT` (R330). -/
  | writeIdleTimeout (a : Nat)
  /-- `READ_HOLD_TIMEOUT` (R330). -/
  | readHoldTimeout (a : Nat)
  /-- `CHANNEL_INTERLEAVE_WRITE` (R319). -/
  | channelInterleaveWrite (path : Nat) (v : Nat)
  /-- `HOST_MAILBOX_MESSAGE_WRITE` (R332). -/
  | hostMailboxMessageWrite (b : Burst)
  /-- `HOST_MAILBOX_ACKNOWLEDGE` (R332). -/
  | hostMailboxAcknowledge (b : Burst)
  /-- `RESERVED_MAILBOX_MESSAGE` (R334). -/
  | reservedMailboxMessage (m : Nat)
  /-- `OBJECT_CHANNEL_READ` (R335). -/
  | objectChannelRead
  /-- `OBJECT_CHANNEL_WRITE` (R335): `x`: what the body segment answers. -/
  | objectChannelWrite (x : Seg)
  /-- `OBJECT_CHANNEL_READ_BUFFER` (R335). -/
  | objectChannelReadBuffer
  /-- `OBJECT_CHANNEL_WRITE_BUFFER` (R335). -/
  | objectChannelWriteBuffer (x : Seg)
  /-- `OD_ENTRY_WRITE` (R348). -/
  | odEntryWrite (path : Nat) (idx : Nat) (sub : Nat) (len : Nat) (v : Nat) (x : Seg)
  /-- `SDO_UPLOAD` (R363): `ca`: complete access. -/
  | sdoUpload (idx : Nat) (sub : Nat) (ca : Bool)
  /-- `SDO_DOWNLOAD` (R363). -/
  | sdoDownload (idx : Nat) (sub : Nat) (len : Nat) (v : Nat) (ca : Bool) (x : Seg)
  /-- `AL_STATE_REQUEST` (R361). -/
  | alStateRequest (r : Nat)
  /-- `SM2_WATCHDOG_EXPIRY` (R361). -/
  | sm2WatchdogExpiry
  /-- `SUPERVISOR_OUTPUT_FRAME` (R362). -/
  | supervisorOutputFrame (valid : Bool) (life : Nat) (hold : Nat)
  /-- `CLEAR_ERROR_HISTORY` (R365). -/
  | clearErrorHistory (path : Nat)
  /-- `RELEASE_CLAIM` (R346). -/
  | releaseClaim (path : Nat) (v : Nat)
  /-- `RELEASE_ALL_CLAIMS` (R346). -/
  | releaseAllClaims (path : Nat)
  /-- `MODULE_RESTART` (R352). -/
  | moduleRestart (path : Nat)
  /-- `ENTER_DECAF` (R352). -/
  | enterDecaf (path : Nat)
  /-- `LEAVE_DECAF` (R352). -/
  | leaveDecaf (path : Nat)
  /-- `REQUEST_SAFE_HOLD` (R352). -/
  | requestSafeHold (path : Nat)
  /-- `REQUEST_LEAVE_SAFE_HOLD` (R374). -/
  | requestLeaveSafeHold (path : Nat)
  /-- `GROUP_KIND_WRITE` (R354). -/
  | groupKindWrite (path : Nat) (gg : Nat) (v : Nat)
  /-- `GROUP_WRITE` (R355). -/
  | groupWrite (path : Nat) (gg : Nat) (ss : Nat) (len : Nat) (v : Nat)
  /-- `GROUP_READ` (R357). -/
  | groupRead (path : Nat) (gg : Nat) (ss : Nat)
  /-- `BROADCAST_COMPLETE` (R303). -/
  | broadcastComplete (x : Seg)
  /-- `DRAM_INTERLEAVE_WRITE` (R18). -/
  | dramInterleaveWrite (path : Nat) (v : Nat)
  /-- `FABRIC_REQUEST_TIMEOUT` (R401): `level` 0 die SRAM, 1 local DRAM, 2 peer die, 3 hub SRAM, 4 register page, 5
  cold tier; `a` the module address. -/
  | fabricRequestTimeout (id : Nat) (level : Nat) (a : Nat)
  /-- `TIER_FAULT` (R282): at address `a`; `k` numbers the tier faults in the order of their codes; from 6 on the
  engines of the descriptor. -/
  | tierFault (id : Nat) (a : Nat) (k : Nat)
  /-- `FENCE_RESPONSE` (R295). -/
  | fenceResponse (id : Nat) (a : Nat)
  /-- `FLIT_REPLAY` (R298). -/
  | flitReplay (l : Nat) (same : Bool)
  /-- `RECEIVER_LOSS_OF_LOCK` (R299). -/
  | receiverLossOfLock (l : Nat)
  /-- `RETRAIN_COMMAND` (R299). -/
  | retrainCommand (path : Nat) (d : Nat) (v : Nat)
  /-- `LINK_RETRAIN_END` (R300): `f` lanes have failed. -/
  | linkRetrainEnd (l : Nat) (f : Nat)
  /-- `ROUTER_ECC_ERROR` (R297). -/
  | routerEccError (g : Nat) (id : Nat) (corrected : Bool)
  /-- `JOB_ABORT_RECEIVE` (R305). -/
  | jobAbortReceive (d : Nat) (job : Nat)
  /-- `JOB_ABORT_RELAY` (R307). -/
  | jobAbortRelay (job : Nat)
  /-- `ENGINE_PROGRESS_TIMEOUT` (R401): an element: cores 0–255, clusters 256–287, clearance engines 288–291. -/
  | engineProgressTimeout (e : Nat)
  /-- `CORE_WATCHDOG_EXPIRY` (R401). -/
  | coreWatchdogExpiry (n : Nat)
  /-- `FENCE_DRAIN_END` (R407). -/
  | fenceDrainEnd (e : Nat)
  /-- `DOMAIN_RESET_END` (R408). -/
  | domainResetEnd (e : Nat)
  /-- `RESET_ESCALATION` (R410). -/
  | resetEscalation (e : Nat)
  /-- `REPLAY_START` (R411). -/
  | replayStart (e : Nat)
  /-- `REPLAY_OUTCOME` (R412). -/
  | replayOutcome (e : Nat) (how : Nat) (energy : Nat)
  /-- `REMAP_CLUSTER_RESET` (R415). -/
  | remapClusterReset (g : Nat)
  /-- `CORE_RESET_COMMAND` (R426). -/
  | coreResetCommand (path : Nat) (n : Nat)
  /-- `CORE_FENCE_PENDING_REMAP` (R414). -/
  | coreFencePendingRemap (path : Nat) (n : Nat)
  /-- `CLUSTER_RESET_COMMAND` (R415). -/
  | clusterResetCommand (path : Nat) (g : Nat)
  /-- `DIE_RECOVERY_COMMAND` (R416). -/
  | dieRecoveryCommand (path : Nat) (d : Nat)
  /-- `DIE_RECOVERY_END` (R418): `lanes`: failed lanes of its links; `bad`: elements that fail their sweeps. -/
  | dieRecoveryEnd (d : Nat) (lanes : List Nat) (bad : List Nat)
  /-- `DIE_OUT_OF_SERVICE` (R417). -/
  | dieOutOfService (d : Nat) (status : Nat)
  /-- `BARISTA_HEARTBEAT_LOSS` (R419). -/
  | baristaHeartbeatLoss
  /-- `BARISTA_CRASH` (R419). -/
  | baristaCrash
  /-- `HUB_UNCORRECTABLE_FAULT` (R419). -/
  | hubUncorrectableFault
  /-- `BARISTA_RESTART_COMPLETE` (R419). -/
  | baristaRestartComplete
  /-- `CLEAR_CRASH_FLAG` (R424). -/
  | clearCrashFlag (path : Nat)
  /-- `SHADOW_PLACE` (R379). -/
  | shadowPlace (id : Nat)
  /-- `PAIR_COMPARE` (R381): granules written by the home copy (address, mask) and by the shadow copy (with data),
  and the shadow's flags and status. -/
  | pairCompare (id : Nat) (home : List (Nat × Nat)) (shadow : List (Nat × Nat × Nat)) (flags : Nat) (status : Nat)
  /-- `SS1_DELAY_EXPIRY` (R372). -/
  | ss1DelayExpiry
  /-- `ALIVE_WINDOW_EXPIRY` (R385). -/
  | aliveWindowExpiry (w : Nat)
  /-- `GOLDEN_FRAME_CHECK` (R390). -/
  | goldenFrameCheck (id : Nat)
  /-- `SWEEP_SLICE_START` (R392). -/
  | sweepSliceStart (e : Nat)
  /-- `SWEEP_SLICE_END` (R392). -/
  | sweepSliceEnd (e : Nat) (ok : Bool)
  /-- `DIAGNOSTIC_INTERVAL_LAPSE` (R393). -/
  | diagnosticIntervalLapse (e : Nat)
  /-- `SAFE_STOP_TEST_PULSE` (R376): channel A (false) or B (true). -/
  | safeStopTestPulse (b : Bool)
  /-- `SAFE_STOP_READBACK_MISMATCH` (R376): the pin of a channel has read `level` for `ns`. -/
  | safeStopReadbackMismatch (b : Bool) (level : Bool) (ns : Nat)
  /-- `ISLAND_INTERNAL_FAULT` (R369). -/
  | islandInternalFault
  /-- `LIMIT_TABLE_COMMIT` (R387). -/
  | limitTableCommit (path : Nat) (crc : Nat)
  /-- `ESPRESSO_OUTPUT_ABSENT` (R377). -/
  | espressoOutputAbsent
  /-- `ISLAND_FRAME_SEND` (R377). -/
  | islandFrameSend
  /-- `FSOE_WATCHDOG_EXPIRY` (R255): `leaves`: the connection leaves Data. -/
  | fsoeWatchdogExpiry (c : Nat) (leaves : Bool)
  /-- `CYCLE_TICK` (R239): the ring state that the ports find. -/
  | cycleTick (ring : Nat)
  /-- `INPUT_FRAME_RETURN` (R242): a copy of input frame `k`; `e` ns from input completion to the doorbells; `reloc`:
  the template's relocations. -/
  | inputFrameReturn (k : Nat) (port : Nat) (wkc : Nat) (good : Bool) (data : List Byte) (e : Nat) (reloc : List Nat)
  /-- `INPUT_CUTOFF` (R243): `left`: SubDevices found to have left Op. -/
  | inputCutoff (e : Nat) (reloc : List Nat) (left : List Nat)
  /-- `SIDE_CYCLE_SUCCESS` (R248). -/
  | sideCycleSuccess (side : Nat)
  /-- `LIMIT_CHECK_DONE` (R249). -/
  | limitCheckDone
  /-- `BUDGET_END` (R250). -/
  | budgetEnd
  /-- `OUTPUT_FRAME_RETURN` (R243): copy `c`: output frame `c / 2` on port A (even) or B (odd). -/
  | outputFrameReturn (c : Nat) (wkc : Nat)
  /-- `STATE_MIRROR` (R253): items (0, stream, stream, 0) or (1, address, address, length). -/
  | stateMirror (l : List (Nat × Nat × Nat × Nat))
  /-- `ACYCLIC_FRAME` (R239). -/
  | acyclicFrame (l : List Byte) (back : List Nat)
  /-- `LOOP_ARM` (R257). -/
  | loopArm (path : Nat) (x : Seg)
  /-- `LOOP_START` (R257). -/
  | loopStart (path : Nat)
  /-- `LOOP_STOP` (R257). -/
  | loopStop (path : Nat)
  /-- `LOOP_DISARM` (R257). -/
  | loopDisarm (path : Nat)
  /-- `REJOIN_STANDBY` (R254). -/
  | rejoinStandby (path : Nat)
  /-- `BATTERY_DECAF_REQUEST` (R256). -/
  | batteryDecafRequest
  /-- `SUBDEVICE_SDO_UPLOAD` (R237). -/
  | subdeviceSdoUpload (path : Nat) (x : Seg)
  /-- `SUBDEVICE_SDO_DOWNLOAD` (R237). -/
  | subdeviceSdoDownload (path : Nat) (x : Seg)
  /-- `SUBDEVICE_EMERGENCY` (R237). -/
  | subdeviceEmergency (station : Nat) (msg : Nat)
  /-- `CSI2_FRAME_END` (R210): long packets (data type, payload) of the frame; its start was `ago` ns ago. -/
  | csi2FrameEnd (port : Nat) (vc : Nat) (frame : Nat) (ago : Nat) (bad : Bool) (pkts : List (Nat × List Byte))
  /-- `ETHERNET_DATAGRAM` (R213): `kind` 1 UDP over IPv4, 2 UDP over IPv6, 3 EtherType; `key` its port or type. -/
  | ethernetDatagram (port : Nat) (kind : Nat) (key : Nat) (vlan : Nat) (bad : Bool) (l : List Byte)
  /-- `IMU_DATA_READY` (R212). -/
  | imuDataReady (port : Nat)
  /-- `IMU_READ_END` (R212). -/
  | imuReadEnd (port : Nat) (l : List Byte)
  /-- `TDM_BLOCK_END` (R208). -/
  | tdmBlockEnd (n : Nat) (ago : Nat) (l : List Byte)
  /-- `INSTANT_CUT` (R217). -/
  | instantCut (t : Nat)
  /-- `INSTANT_RELEASE` (R221). -/
  | instantRelease (t : Nat) (pos : Nat)
  /-- `INSTANT_HOLD_LIMIT` (R221). -/
  | instantHoldLimit (t : Nat) (pos : Nat)
  /-- `SOURCE_ENABLE` (R235). -/
  | sourceEnable (path : Nat) (n : Nat)
  /-- `SOURCE_DISABLE` (R234). -/
  | sourceDisable (path : Nat) (n : Nat)
  /-- `VOTING_GROUP_ENABLE` (R230). -/
  | votingGroupEnable (path : Nat) (g : Nat)
  /-- `VOTING_GROUP_DISABLE` (R230). -/
  | votingGroupDisable (path : Nat) (g : Nat)
  /-- `FUSION_SET_ENABLE` (R217). -/
  | fusionSetEnable (path : Nat) (t : Nat)
  /-- `FUSION_SET_DISABLE` (R235). -/
  | fusionSetDisable (path : Nat) (t : Nat)
  /-- `INERTIAL_SOURCE_WRITE` (R233). -/
  | inertialSourceWrite (path : Nat) (v : Nat)
  /-- `RESET_POSE` (R231). -/
  | resetPose (path : Nat)
  /-- `CORE_MAILBOX_WRITE` (R421): 64 bytes `w` to the slot of core `n`. -/
  | coreMailboxWrite (n : Nat) (w : Nat)
  /-- `CONTROL_PERIOD` (R431). -/
  | controlPeriod (m : Meas)
  /-- `SHEDDING_LIFT` (R436). -/
  | sheddingLift
  /-- `THERMAL_EMERGENCY` (R441): die `d` (4 the hub) reads `t` (0.1 °C). -/
  | thermalEmergency (d : Nat) (t : Int)
  /-- `DROOP_DETECT` (R439): cores 0–255, meshes 256–259; `n` cycles. -/
  | droopDetect (e : Nat) (n : Nat)
  /-- `DROOP_STEP_EXPIRY` (R439). -/
  | droopStepExpiry
  /-- `TWIHUS_LEARN_STEP` (R438): phase `p` shows the stall fraction `num / den`. -/
  | twihusLearnStep (p : Nat) (num : Nat) (den : Nat)
  /-- `CLUSTER_GATE` (R443). -/
  | clusterGate (g : Nat)
  /-- `AVSBUS_TIMEOUT` (R464). -/
  | avsbusTimeout (d : Nat)
  /-- `CLEAR_BATTERY_LIMIT` (R430). -/
  | clearBatteryLimit (path : Nat)
  /-- `CLEAR_LEDGER` (R445). -/
  | clearLedger (path : Nat)
  /-- `CLEAR_LEARNED` (R438). -/
  | clearLearned (path : Nat) (p : Nat)
  /-- `STANDBY_POWER_ON` (R448): `seed`: what the PUF gives; hub SRAM beyond repair; a customer record that does not
  verify. -/
  | standbyPowerOn (seed : Nat) (hubBad : Bool) (custBad : Bool)
  /-- `IMAGE_HEADER_JUDGE` (R451). -/
  | imageHeaderJudge
  /-- `IMAGE_VERIFY` (R453): the next step of Table 18-2; `bad`: what fails in it (a PLL; dies; failed lanes of each
  link; elements). -/
  | imageVerify (bad : List Nat)
  /-- `ATTESTATION_REPORT` (R458). -/
  | attestationReport (path : Nat)
  /-- `CUSTOMER_BIND` (R460). -/
  | customerBind (path : Nat)
  /-- `CUSTOMER_REBIND` (R460). -/
  | customerRebind (path : Nat)
  /-- `CUSTOMER_UNBIND` (R460). -/
  | customerUnbind (path : Nat)
  /-- `RAISE_FLOOR` (R459). -/
  | raiseFloor (path : Nat)
  /-- `CUSTOMER_FLASH_WRITE` (R285): `x.ok`: the flash has taken the data. -/
  | customerFlashWrite (path : Nat) (x : Seg)
  /-- `MAIN_PG_LOSS` (R467). -/
  | mainPgLoss (ns : Nat)
  /-- `RESET_N_ASSERT` (R467). -/
  | resetNAssert (ns : Nat)
  /-- `HUB_BROWN_OUT` (R468). -/
  | hubBrownOut (ns : Nat)
  /-- `COMPUTE_BROWN_OUT` (R468). -/
  | computeBrownOut (ns : Nat)
  /-- `STANDBY_LOSS` (R468). -/
  | standbyLoss
  /-- `XTAL_CLOCK_LOSS` (R470). -/
  | xtalClockLoss (ns : Nat)
  /-- `XTAL_CLOCK_RESTORED` (R470). -/
  | xtalClockRestored (ns : Nat)
  /-- `BARISTA_HEARTBEAT_TICK` (R320). -/
  | baristaHeartbeatTick
  /-- `RC_COUNTER_READ` (R320): the register at module address `a`; for an HP_ register, channel `ch`. -/
  | rcCounterRead (a : Nat) (ch : Nat)
  /-- `MAIN_PG_ASSERT` (R465). -/
  | mainPgAssert
  /-- `SAF_DROPPED_WRITE` (R19). -/
  | safDroppedWrite
  /-- `SUPERVISOR_PORT_LINK_CHANGE` (R364). -/
  | supervisorPortLinkChange (b : Bool) (down : Bool)
deriving DecidableEq, Repr

end Sys2Proof
end

