-- ==== Sys2Proof/Config.lean ====
section
/-! DEFINITION. What the spec leaves open: free values without a body. No proof can see what they are, so a
statement holds whatever they are. -/

namespace Sys2Proof.Config

/-- A value that nothing fixes: the `i`-th value of draw `n`. State's `free` counts the draws
(log entry 2). -/
opaque free : Nat → Nat → Nat

/-- The result bits of a VXE function whose accuracy Table 02-9 bounds without fixing its bits: function code
of Table 04-10 (0x40 for exp2, 0x41 for log2, 0x42 for erf), FP32 bits in, FP32 bits out. A function of the
operand alone, since R45 makes it bit-identical for identical inputs (log entry 3). -/
opaque vxe : Nat → Nat → Nat

/-- SHA-512 of a byte string, as a number (FIPS 180-4 is named, not given, by the spec; log entry 4). -/
opaque sha512 : List Nat → Nat

/-- Does a P-521 signature (r, s as 132 bytes) over a digest verify under a public key (133 bytes)?
Arguments: key, digest, signature (log entry 4). -/
opaque verify : List Nat → Nat → List Nat → Bool

/-- The signature by the module's identity key over a digest, as 132 bytes; the argument is the reconstructed
seed (log entry 4). -/
opaque sign : Nat → Nat → Nat

/-- The public key derived from a seed by HKDF-SHA-512 (R457), as a number of 133 bytes (log entry 4). -/
opaque publicKey : Nat → Nat

/-- The boot ROM's digest of release key `i` (R453) and of factory key `i` (R455) (log entry 4). -/
opaque romDigest : Nat → Nat → Nat

/-- Ego-motion's quaternion functions, whose FP32 rounding R231 does not lay down: a vector rotated by a quaternion,
`normalise(q * exp_quat(h))`, and the normalised quaternion. Operands and results are FP32 bits; functions of the
operands alone (R231, R45; log entry 73). -/
opaque rotate : List Nat → List Nat → List Nat
opaque turn : List Nat → List Nat → List Nat
opaque normalise : List Nat → List Nat

/-- The unit-record partitions of the unit flash, written once at the factory (R455): a byte by flash offset
(log entry 80). -/
opaque unitRecord : Nat → Nat

/-- Mode registers 0, 4 and 8, whose fixed values are the standard's codes for the features of Tables 13-1 to 13-4, by
number (log entry 84). -/
opaque modeRegister : Nat → Nat

end Sys2Proof.Config
end

