-- ==== Sys2Proof/Machine/Num.lean ====
section
/-! DEFINITION. The thirteen number formats and their arithmetic (chapter 02): exact values, rounding to
nearest even, conversions, numeric flags. -/

namespace Sys2Proof.Machine

/-! ### Numeric flags (Table 02-7) -/

def flInvalid : Nat := 1
def flOverflow : Nat := 2
def flUnderflow : Nat := 4
def flSaturated : Nat := 8
def flNanInput : Nat := 16
def flNanScale : Nat := 32

/-- A computation that gathers numeric flags (R42). -/
abbrev Flg := StateM Nat

/-- Set numeric flags. -/
def raise (f : Nat) : Flg Unit := modify (fun g => g ||| f)

/-- Set a numeric flag where `c` holds. -/
def raiseIf (c : Bool) (f : Nat) : Flg Unit := if c then raise f else pure ()

/-! ### Exact values -/

/-- The exact value of an element: `fin neg m e` is `(-1)^neg · m · 2^e`, with signed zeros (R41). -/
inductive Val where
  | nan
  | inf (neg : Bool)
  | fin (neg : Bool) (m : Nat) (e : Int)
deriving DecidableEq, Repr

/-- An exact dyadic number `m · 2^e`. -/
structure Dy where
  m : Int
  e : Int
deriving DecidableEq, Repr

def dyZero : Dy := ⟨0, 0⟩

/-- `m · 2^(e - q)` as an integer, for `q ≤ e`. -/
def scaleTo (m : Int) (e q : Int) : Int := m * ((2 ^ (e - q).toNat : Nat) : Int)

def dyAdd (a b : Dy) : Dy :=
  let q := min a.e b.e
  ⟨scaleTo a.m a.e q + scaleTo b.m b.e q, q⟩

def dyNeg (a : Dy) : Dy := ⟨-a.m, a.e⟩

def dyMul (a b : Dy) : Dy := ⟨a.m * b.m, a.e + b.e⟩

def dyAbs (a : Dy) : Dy := ⟨(a.m.natAbs : Int), a.e⟩

/-- `a ≤ b`, exactly. -/
def dyLe (a b : Dy) : Bool :=
  let q := min a.e b.e
  decide (scaleTo a.m a.e q ≤ scaleTo b.m b.e q)

def dyLt (a b : Dy) : Bool := !(dyLe b a)

def dySum (l : List Dy) : Dy := l.foldl dyAdd dyZero

/-- The dyadic of a finite value; 0 for the others, which the callers treat first. -/
def toDy : Val → Dy
  | .fin n m e => ⟨if n then -(m : Int) else m, e⟩
  | _ => dyZero

/-- The value of a dyadic; an exact zero is +0 (R41). -/
def ofDy (d : Dy) : Val := .fin (decide (d.m < 0)) d.m.natAbs d.e

def valZero : Val := .fin false 0 0

def valNat (n : Nat) : Val := .fin false n 0

def valInt (i : Int) : Val := .fin (decide (i < 0)) i.natAbs 0

def isNan : Val → Bool
  | .nan => true
  | _ => false

def isInf : Val → Bool
  | .inf _ => true
  | _ => false

def isFin : Val → Bool
  | .fin _ _ _ => true
  | _ => false

def isZero : Val → Bool
  | .fin _ 0 _ => true
  | _ => false

def signOf : Val → Bool
  | .nan => false
  | .inf n => n
  | .fin n _ _ => n

def valNeg : Val → Val
  | .nan => .nan
  | .inf n => .inf !n
  | .fin n m e => .fin (!n) m e

def valAbs : Val → Val
  | .nan => .nan
  | .inf _ => .inf false
  | .fin _ m e => .fin false m e

/-- `a < b`; false where either is NaN. -/
def valLt : Val → Val → Bool
  | .nan, _ => false
  | _, .nan => false
  | .inf a, .inf b => a && !b
  | .inf a, .fin _ _ _ => a
  | .fin _ _ _, .inf b => !b
  | .fin n m e, .fin n' m' e' => dyLt (toDy (.fin n m e)) (toDy (.fin n' m' e'))

/-- `a ≤ b`; false where either is NaN. -/
def valLe (a b : Val) : Bool := !(isNan a) && !(isNan b) && !(valLt b a)

def valEq (a b : Val) : Bool := valLe a b && valLe b a

/-! ### Exact operations (R41); the result is rounded by the caller, once -/

/-- Exact sum; `∞ − ∞` is NaN with the invalid flag. -/
def addX (a b : Val) : Flg Val :=
  match a, b with
  | .nan, _ => pure .nan
  | _, .nan => pure .nan
  | .inf x, .inf y => if x = y then pure (.inf x) else do raise flInvalid; pure .nan
  | .inf x, .fin _ _ _ => pure (.inf x)
  | .fin _ _ _, .inf y => pure (.inf y)
  | .fin x m e, .fin y k f =>
    if m = 0 ∧ k = 0 then pure (.fin (x && y) 0 e)
    else pure (ofDy (dyAdd (toDy (.fin x m e)) (toDy (.fin y k f))))

/-- Exact product; `0 × ∞` is NaN with the invalid flag. -/
def mulX (a b : Val) : Flg Val :=
  match a, b with
  | .nan, _ => pure .nan
  | _, .nan => pure .nan
  | .inf x, .inf y => pure (.inf (x != y))
  | .inf x, .fin y m _ => if m = 0 then do raise flInvalid; pure .nan else pure (.inf (x != y))
  | .fin x m _, .inf y => if m = 0 then do raise flInvalid; pure .nan else pure (.inf (x != y))
  | .fin x m e, .fin y k f => pure (.fin (x != y) (m * k) (e + f))

/-- A quotient `m / k` to 160 bits and a sticky bit, which no rounding of this module can tell
from the exact quotient. -/
def quotSticky (m k : Nat) (e : Int) : Nat × Int :=
  let sh := Nat.log2 k + 160
  let n := m <<< sh
  (2 * (n / k) + (if n % k = 0 then 0 else 1), e - sh - 1)

/-- Exact quotient up to a sticky bit; `0 / 0` and `∞ / ∞` are NaN with the invalid flag. -/
def divX (a b : Val) : Flg Val :=
  match a, b with
  | .nan, _ => pure .nan
  | _, .nan => pure .nan
  | .inf _, .inf _ => do raise flInvalid; pure .nan
  | .inf x, .fin y _ _ => pure (.inf (x != y))
  | .fin x _ e, .inf y => pure (.fin (x != y) 0 e)
  | .fin x m e, .fin y k f =>
    if k = 0 then
      if m = 0 then do raise flInvalid; pure .nan else pure (.inf (x != y))
    else
      let q := quotSticky m k (e - f)
      pure (.fin (x != y) q.1 q.2)

/-- The integer square root by bits: `r` so far, bit `b` to try. -/
def isqrtBits (n : Nat) : Nat → Nat → Nat
  | 0, r => r
  | b + 1, r => isqrtBits n b (if (r + 2 ^ b) * (r + 2 ^ b) ≤ n then r + 2 ^ b else r)

/-- `⌊√n⌋`. -/
def isqrt (n : Nat) : Nat := isqrtBits n (Nat.log2 n / 2 + 1) 0

/-- Exact square root up to a sticky bit; of a negative number NaN with the invalid flag. -/
def sqrtX (a : Val) : Flg Val :=
  match a with
  | .nan => pure .nan
  | .inf false => pure (.inf false)
  | .inf true => do raise flInvalid; pure .nan
  | .fin n m e =>
    if m = 0 then pure (.fin n 0 e)
    else if n then do raise flInvalid; pure .nan
    else
      let odd := decide (e % 2 ≠ 0)
      let m := (if odd then 2 * m else m) <<< 256
      let e := (if odd then e - 1 else e) - 256
      let r := isqrt m
      pure (.fin false (2 * r + (if r * r = m then 0 else 1)) (e / 2 - 1))

/-! ### Formats (Tables 02-1 and 02-2) -/

def fmtFP64 : Nat := 0x01
def fmtFP32 : Nat := 0x02
def fmtBF16 : Nat := 0x03
def fmtFP16 : Nat := 0x04
def fmtE4M3 : Nat := 0x05
def fmtE5M2 : Nat := 0x06
def fmtMXE2M3 : Nat := 0x07
def fmtMXE3M2 : Nat := 0x08
def fmtMXFP4 : Nat := 0x09
def fmtMXINT8 : Nat := 0x0A
def fmtINT8 : Nat := 0x0B
def fmtINT4 : Nat := 0x0C
def fmtINT32 : Nat := 0x0D

/-- Codes 0x01–0x0D are the formats of R23. -/
def fmtValid (f : Nat) : Bool := decide (1 ≤ f ∧ f ≤ 13)

/-- Bits per element (Table 02-1). -/
def fmtBits (f : Nat) : Nat :=
  match f with
  | 1 => 64 | 2 => 32 | 3 => 16 | 4 => 16 | 5 => 8 | 6 => 8 | 7 => 6 | 8 => 6 | 9 => 4 | 10 => 8
  | 11 => 8 | 12 => 4 | 13 => 32 | _ => 0

/-- Microscaled formats carry one E8M0 scale per block of 32 (R26). -/
def fmtMx (f : Nat) : Bool := decide (7 ≤ f ∧ f ≤ 10)

/-- Two's-complement integer formats. -/
def fmtInt (f : Nat) : Bool := decide (11 ≤ f ∧ f ≤ 13)

/-- Exponent field width, fraction width and bias of a binary floating-point element. -/
def fmtExp (f : Nat) : Nat × Nat × Int :=
  match f with
  | 1 => (11, 52, 1023) | 2 => (8, 23, 127) | 3 => (8, 7, 127) | 4 => (5, 10, 15) | 5 => (4, 3, 7)
  | 6 => (5, 2, 15) | 7 => (2, 3, 1) | 8 => (3, 2, 3) | 9 => (2, 1, 1) | _ => (8, 23, 127)

/-- Formats whose all-ones exponent means infinity and NaN. -/
def fmtIeee (f : Nat) : Bool := decide (f ∈ [1, 2, 3, 4, 6])

/-- The magnitude code of the largest finite element (Table 02-2). -/
def fmtMaxCode (f : Nat) : Nat :=
  let (ew, fw, _) := fmtExp f
  if fmtIeee f then ((2 ^ ew - 1) <<< fw) - 1
  else if f = 5 then 0x7E
  else 2 ^ (ew + fw) - 1

/-- The magnitude code of infinity in a format that has one. -/
def fmtInfCode (f : Nat) : Nat :=
  let (ew, fw, _) := fmtExp f
  (2 ^ ew - 1) <<< fw

/-- The canonical quiet NaN (R39). -/
def fmtNan (f : Nat) : Nat :=
  match f with
  | 1 => 0x7FF8000000000000 | 2 => 0x7FC00000 | 3 => 0x7FC0 | 4 => 0x7E00 | 5 => 0x7F | 6 => 0x7E | _ => 0

/-- The value of a finite magnitude code of a floating-point element. -/
def codeVal (f : Nat) (neg : Bool) (c : Nat) : Val :=
  let (_, fw, bias) := fmtExp f
  let ex := c >>> fw
  let fr := c % 2 ^ fw
  if ex = 0 then .fin neg fr (1 - bias - fw)
  else .fin neg (2 ^ fw + fr) ((ex : Int) - bias - fw)

/-- The value an element's bits spell, its block scale apart (R24, Table 02-2). -/
def decodeElem (f : Nat) (w : Nat) : Val :=
  if fmtInt f then valInt (toSigned (fmtBits f) w)
  else if f = 10 then
    let i := toSigned 8 w
    .fin (decide (i < 0)) i.natAbs (-6)
  else
    let (ew, fw, _) := fmtExp f
    let c := w % 2 ^ (ew + fw)
    let neg := w.testBit (ew + fw)
    if fmtIeee f ∧ c ≥ fmtInfCode f then
      (if c = fmtInfCode f then .inf neg else .nan)
    else if f = 5 ∧ c = 0x7F then .nan
    else codeVal f neg c

/-- Apply a block scale (R26): 2^(S − 127), or NaN for 0xFF. -/
def scaleVal (sc : Nat) (v : Val) : Val :=
  if sc = 255 then .nan
  else match v with
    | .fin n m e => .fin n m (e + (sc : Int) - 127)
    | v => v

/-! ### Rounding (R37, R38) -/

/-- Round `m · 2^s` (s may be negative) to an integer, to nearest, ties to even. -/
def rneShift (m : Nat) (s : Int) : Nat :=
  if s ≥ 0 then m <<< s.toNat
  else
    let k := (-s).toNat
    let q := m >>> k
    let r := m % 2 ^ k
    let h := 2 ^ (k - 1)
    if r > h then q + 1 else if r = h then q + q % 2 else q

/-- The magnitude code that `m · 2^e` rounds to, with an unbounded exponent at the top. -/
def roundCode (f : Nat) (m : Nat) (e : Int) : Nat :=
  let (_, fw, bias) := fmtExp f
  if m = 0 then 0
  else
    let top := (Nat.log2 m : Int) + e
    let q := max top (1 - bias) - fw
    let r := rneShift m (e - q)
    ((q + fw + bias - 1).toNat <<< fw) + r

/-- The magnitude code of the smallest normal. -/
def fmtMinNormal (f : Nat) : Nat := 1 <<< (fmtExp f).2.1

/-- Round to a working format (FP32 or FP64) as an internal step does: beyond the largest finite value it
becomes an infinity with the overflow flag (R40); a non-zero value that rounds to a subnormal or to zero sets
underflow (R38). -/
def rndTo (f : Nat) (v : Val) : Flg Val :=
  match v with
  | .nan => pure .nan
  | .inf n => pure (.inf n)
  | .fin n m e => do
    let c := roundCode f m e
    if c > fmtMaxCode f then do raise flOverflow; pure (.inf n)
    else do
      raiseIf (m != 0 && decide (c < fmtMinNormal f)) flUnderflow
      pure (codeVal f n c)

def rnd32 (v : Val) : Flg Val := rndTo fmtFP32 v

/-- Round to the nearest integer, ties to even (R37). -/
def rneInt : Val → Int
  | .fin n m e => let r := rneShift m e; if n then -(r : Int) else r
  | _ => 0

/-- The least and greatest integer of an integer format. -/
def intMin (f : Nat) : Int := -((2 ^ (fmtBits f - 1) : Nat) : Int)
def intMax (f : Nat) : Int := ((2 ^ (fmtBits f - 1) : Nat) : Int) - 1

/-- Saturate an integer to an integer format (Table 02-5). That a non-zero value rounded to 0 raises no underflow here is
the model's choice (log entry 107). -/
def satInt (f : Nat) (i : Int) : Flg Nat :=
  if i < intMin f then do raise flSaturated; pure (ofSigned (fmtBits f) (intMin f))
  else if i > intMax f then do raise flSaturated; pure (ofSigned (fmtBits f) (intMax f))
  else pure (ofSigned (fmtBits f) i)

/-- The element bits with a sign over a magnitude code. -/
def withSign (f : Nat) (n : Bool) (c : Nat) : Nat :=
  c + (if n then 1 <<< (fmtBits f - 1) else 0)

/-- The bits of a value that `f` holds exactly. -/
def encodeExact (f : Nat) (v : Val) : Nat :=
  match v with
  | .nan => fmtNan f
  | .inf n => withSign f n (fmtInfCode f)
  | .fin n m e => withSign f n (roundCode f m e)

/-- Convert a value to a format without a block scale (Table 02-5); `ieee` is the overflow mode 0x2000:20, which governs
the table's first row alone: FP64 is no target of it, and an infinity stays one there. A finite value counts as beyond the
largest finite where its rounding is (R37, R39); rounding to 0 of an integer target raises no underflow (log entry 107). -/
def convert (f : Nat) (ieee : Bool) (v : Val) : Flg Nat :=
  let ieee := ieee || f == fmtFP64
  if fmtInt f then
    match v with
    | .nan => do raise flInvalid; pure 0
    | .inf n => do raise flSaturated; pure (ofSigned (fmtBits f) (if n then intMin f else intMax f))
    | v => satInt f (rneInt v)
  else
    match v with
    | .nan => pure (fmtNan f)
    | .inf n =>
      if f = 5 then do raise flSaturated; pure (withSign f n 0x7E)
      else if ieee then pure (withSign f n (fmtInfCode f))
      else do raise flSaturated; pure (withSign f n (fmtMaxCode f))
    | .fin n m e => do
      let c := roundCode f m e
      if c > fmtMaxCode f then
        if f = 5 ∨ ¬ ieee then do raise flSaturated; pure (withSign f n (fmtMaxCode f))
        else do raise flOverflow; pure (withSign f n (fmtInfCode f))
      else do
        raiseIf (m != 0 && decide (c < fmtMinNormal f)) flUnderflow
        pure (withSign f n c)

/-! ### Microscaled blocks (R27) -/

/-- `emax` of a microscaled element. -/
def mxEmax (f : Nat) : Int := if f = 7 ∨ f = 9 then 2 else if f = 8 then 4 else 0

/-- The magnitude of a block value when its scale is chosen: an infinity counts as the largest finite FP32. -/
def mxMag : Val → Dy
  | .nan => dyZero
  | .inf _ => ⟨(2 ^ 24 - 1 : Nat), 104⟩
  | .fin _ m e => ⟨m, e⟩

/-- The largest of some magnitudes. -/
def dyMax (l : List Dy) : Dy := l.foldl (fun a b => if dyLt a b then b else a) dyZero

/-- One element of a microscaled block against the block exponent `x`. An MXINT8 value that rounds to −2.0 is written 0x80,
which R24 reads as −2.0, while what lies beyond, and −∞, is written 0x81: the model's choice (log entry 107). -/
def mxElem (f : Nat) (x : Int) (v : Val) : Flg Nat :=
  match v with
  | .nan => pure 0
  | .inf n =>
    if f = 10 then do raise flSaturated; pure (if n then 0x81 else 0x7F)
    else do raise flSaturated; pure (withSign f n (fmtMaxCode f))
  | .fin n m e =>
    if f = 10 then
      let r := rneShift m (e - x + 6)
      if r > (if n then 128 else 127) then do raise flSaturated; pure (if n then 0x81 else 0x7F)
      else do
        raiseIf (m != 0 && r == 0) flUnderflow
        pure (if n then (256 - r) % 256 else r)
    else
      let c := roundCode f m (e - x)
      if c > fmtMaxCode f then do raise flSaturated; pure (withSign f n (fmtMaxCode f))
      else do
        raiseIf (m != 0 && decide (c < fmtMinNormal f)) flUnderflow
        pure (withSign f n c)

/-- Choose the scale of a block of 32 FP32 values and convert its elements (R27). -/
def mxBlock (f : Nat) (vs : List Val) : Flg (Nat × List Nat) :=
  if vs.any isNan then pure (255, vs.map (fun _ => 0))
  else
    let mx := dyMax (vs.map mxMag)
    if mx.m = 0 then pure (0, vs.map (fun _ => 0))
    else do
      let x := max (-127) (min 127 ((Nat.log2 mx.m.natAbs : Int) + mx.e - mxEmax f))
      let els ← vs.mapM (mxElem f x)
      pure ((x + 127).toNat, els)

/-! ### FP32 and FP64 arithmetic, one rounding per operation (R35, R36) -/

def addF (f : Nat) (a b : Val) : Flg Val := do rndTo f (← addX a b)
def subF (f : Nat) (a b : Val) : Flg Val := addF f a (valNeg b)
def mulF (f : Nat) (a b : Val) : Flg Val := do rndTo f (← mulX a b)
def divF (f : Nat) (a b : Val) : Flg Val := do rndTo f (← divX a b)
def sqrtF (f : Nat) (a : Val) : Flg Val := do rndTo f (← sqrtX a)
def fmaF (f : Nat) (a b c : Val) : Flg Val := do rndTo f (← addX (← mulX a b) c)

def add32 (a b : Val) : Flg Val := addF fmtFP32 a b
def sub32 (a b : Val) : Flg Val := subF fmtFP32 a b
def mul32 (a b : Val) : Flg Val := mulF fmtFP32 a b
def div32 (a b : Val) : Flg Val := divF fmtFP32 a b

/-- The FP32 value of bits. -/
def f32 (w : Nat) : Val := decodeElem fmtFP32 w

/-- The FP64 value of bits. -/
def f64 (w : Nat) : Val := decodeElem fmtFP64 w

/-- The bits of an FP32 value. -/
def bits32 (v : Val) : Nat := encodeExact fmtFP32 v

/-- The bits of an FP64 value. -/
def bits64 (v : Val) : Nat := encodeExact fmtFP64 v

/-- FP32 bits name a finite number. -/
def f32Finite (w : Nat) : Bool := isFin (f32 w)

/-- Run a flagged computation from no flags. -/
def runFlg {α : Type} (x : Flg α) : α × Nat := x.run 0

/-! ### Bounded reductions (R44, R46) -/

/-- The bound of Table 02-8 for the paths that round once per step: `1.01 · n · 2^-24 · Σ|x|`,
as "100 · |error| ≤ 101 · n · 2^-24 · Σ|x|". -/
def withinBound (n : Nat) (absSum exact cand : Dy) : Bool :=
  dyLe (dyMul ⟨100, 0⟩ (dyAbs (dyAdd cand (dyNeg exact)))) (dyMul ⟨101 * n, -24⟩ absSum)

/-- `⌈log2 k⌉`. -/
def clog2 (k : Nat) : Nat := if k ≤ 1 then 0 else Nat.log2 (k - 1) + 1

/-- The sides, negative or not, on which the terms of one sign alone pass the largest finite FP32, so that some order of
them overflows. -/
def overSides (terms : List Dy) : List Bool :=
  let side (neg : Bool) : Bool :=
    let d := dySum (terms.filter (fun t => decide (t.m < 0) == neg))
    decide (fmtMaxCode fmtFP32 < roundCode fmtFP32 d.m.natAbs d.e)
  [false, true].filter side

/-- Is a finite FP32 result within `n` of Table 02-8's steps of an exact value whose terms have the magnitudes `mag` in all,
and no −0 for an exact zero (R41)? -/
def reductionOk (n : Nat) (exact mag : Dy) (v : Val) : Bool :=
  isFin v && withinBound n mag exact (toDy v) && !(isZero v && signOf v && !(decide (exact.m < 0)))

/-- An FP32 result that the spec bounds and does not fix (R44, R46): the candidate `cand` where it lies within the bound of
Table 02-8, else the in-order value where that does, else the exact value rounded once. Where some order of the terms
overflows (R40), to an infinity of one of `sides`, it is free whether the accumulator does. -/
def chooseNear (n : Nat) (exact mag : Dy) (sides : List Bool) (cand : Nat) (inOrder : Flg Val) : Flg Val := do
  let (o, fl) := runFlg inOrder
  let c := f32 (cand % 2 ^ 32)
  if sides.isEmpty || cand / 2 ^ 32 % 4 == 0 then do
    raise (fl &&& (flInvalid ||| flUnderflow ||| flSaturated ||| flNanInput ||| flNanScale))
    if reductionOk n exact mag c then pure c
    else if reductionOk n exact mag o then pure o
    else rnd32 (ofDy exact)
  else if cand / 2 ^ 32 % 4 == 1 then do
    raise fl
    pure o
  else do
    raise (fl ||| flOverflow)
    pure (.inf (sides.getD (cand / 2 ^ 34 % 2) (sides.headD false)))

/-- The FP32 result of a reduction of exact terms, whose order the module leaves open (R44, R46). -/
def chooseWithin (n : Nat) (terms : List Dy) (cand : Nat) (inOrder : Flg Val) : Flg Val :=
  chooseNear n (dySum terms) (dySum (terms.map dyAbs)) (overSides terms) cand inOrder

/-- Sum values in order, each step rounded to FP32. -/
def sumInOrder (l : List Val) : Flg Val := l.foldlM (fun a x => add32 a x) valZero

/-- A VXE sum (Table 02-8): of up to two values one rounded addition, of more free within its bound; `cand` is the free
candidate. -/
def vxeSum (cand : Nat) (l : List Val) : Flg Val :=
  if l.length ≤ 2 || !(l.all isFin) then sumInOrder l
  else chooseWithin (clog2 l.length + 1) (l.map toDy) cand (sumInOrder l)

/-- The largest value and its lowest index, skipping NaN. -/
def argMax : List Val → Nat → Option (Nat × Val) → Option (Nat × Val)
  | [], _, b => b
  | v :: t, i, b =>
    if isNan v then argMax t (i + 1) b
    else
      match b with
      | none => argMax t (i + 1) (some (i, v))
      | some (j, w) => argMax t (i + 1) (if valLt w v then some (i, v) else some (j, w))

/-- Maximum that returns NaN when an input is NaN (R103); of +0 and −0, +0. -/
def maxNan (a b : Val) : Val :=
  if isNan a || isNan b then .nan
  else if valLt a b then b
  else if valLt b a then a
  else if signOf a then b else a

/-- Minimum that returns NaN when an input is NaN (R103); of +0 and −0, −0. -/
def minNan (a b : Val) : Val :=
  if isNan a || isNan b then .nan
  else if valLt a b then a
  else if valLt b a then b
  else if signOf a then a else b

/-! ### The MXE's sums -/

/-- Truncate a term toward zero at quantum `2^q` (R30). -/
def truncAt (q : Int) (d : Dy) : Dy :=
  if d.e ≥ q then d
  else
    let k := (q - d.e).toNat
    let r := d.m.natAbs >>> k
    ⟨if d.m < 0 then -(r : Int) else r, q⟩

/-- The exponent of a term's leading bit. -/
def leadExp (d : Dy) : Int := (Nat.log2 d.m.natAbs : Int) + d.e

/-- One step of R30: up to 16 exact products are added to the FP32 accumulator. -/
def step16 (acc : Val) (ps : List Val) : Flg Val := do
  if isFin acc && ps.all isFin then
    let ts := (acc :: ps).map toDy
    let nz := ts.filter (fun d => d.m ≠ 0)
    match nz with
    | [] => pure (if (acc :: ps).all signOf then Val.fin true 0 0 else valZero)
    | d :: t =>
      let top := t.foldl (fun m x => max m (leadExp x)) (leadExp d)
      rnd32 (ofDy (dySum (nz.map (truncAt (top - 63)))))
  else do
    let v ← ps.foldlM (fun a x => addX a x) acc
    rnd32 v

/-- Cut a list into pieces of `n` (fuel: its length). -/
def chunksOf {α : Type} (n : Nat) : Nat → List α → List (List α)
  | 0, _ => []
  | k + 1, l => if l.isEmpty then [] else l.take n :: chunksOf n k (l.drop n)

/-- The pieces of `l` of `n` elements each. -/
def pieces {α : Type} (n : Nat) (l : List α) : List (List α) := chunksOf n l.length l

end Sys2Proof.Machine
end

