-- ==== Sys2Proof/Machine/Map.lean ====
section
/-! DEFINITION. Sparse tables as plain data: a list of (key, value) pairs with strictly rising keys.
The block's numbered units (contexts, descriptors, object handles, pages, streams, entries) are held
so, in ONE canonical form, so that equal tables are equal lists. -/

namespace Sys2Proof

/-- A sparse table from numbers to `α`. -/
abbrev AMap (α : Type) := List (Nat × α)

namespace AMap

variable {α : Type}

/-- The entry of key `k`, if the table lists one. -/
def get? (k : Nat) : AMap α → Option α
  | [] => none
  | (j, v) :: t => if j = k then some v else get? k t

/-- The entry of key `k`, or `d` where none is listed. -/
def getD (k : Nat) (d : α) (t : AMap α) : α := (get? k t).getD d

/-- Insert or replace the entry of `k`, keeping the keys rising. -/
def ins (k : Nat) (v : α) : AMap α → AMap α
  | [] => [(k, v)]
  | (j, w) :: t =>
    if k < j then (k, v) :: (j, w) :: t
    else if k = j then (k, v) :: t
    else (j, w) :: ins k v t

/-- Remove every entry of `k`. -/
def del (k : Nat) : AMap α → AMap α
  | [] => []
  | (j, w) :: t => if j = k then del k t else (j, w) :: del k t

/-- Store `v` under `k` in a table whose unlisted keys read `d`: a value equal to `d` is not listed. -/
def put [DecidableEq α] (d : α) (k : Nat) (v : α) (t : AMap α) : AMap α :=
  if v = d then del k t else ins k v t

/-- Apply `f` to the entry of `k`, where one is listed. -/
def upd (k : Nat) (f : α → α) : AMap α → AMap α
  | [] => []
  | (j, w) :: t => if j = k then (j, f w) :: t else (j, w) :: upd k f t

/-- Apply `f` to every entry. -/
def mapV (f : Nat → α → α) : AMap α → AMap α
  | [] => []
  | (j, w) :: t => (j, f j w) :: mapV f t

/-- Keep the entries that meet `p`. -/
def keep (p : Nat → α → Bool) : AMap α → AMap α
  | [] => []
  | (j, w) :: t => if p j w then (j, w) :: keep p t else keep p t

/-- The first entry that meets `p`, in key order. -/
def first? (p : Nat → α → Bool) : AMap α → Option (Nat × α)
  | [] => none
  | (j, w) :: t => if p j w then some (j, w) else first? p t

/-- How many entries meet `p`. -/
def count (p : Nat → α → Bool) : AMap α → Nat
  | [] => 0
  | (j, w) :: t => (if p j w then 1 else 0) + count p t

/-- The keys rise strictly, and every key is above `lo` where `lo` is given. -/
def risesFrom : Option Nat → AMap α → Bool
  | _, [] => true
  | none, (j, _) :: t => risesFrom (some j) t
  | some i, (j, _) :: t => decide (i < j) && risesFrom (some j) t

/-- The canonical form: strictly rising keys. -/
def wf (t : AMap α) : Bool := risesFrom none t

/-- The canonical form of a table whose unlisted keys read `d`: rising keys, and no entry equal to `d`. -/
def wfD [DecidableEq α] (d : α) (t : AMap α) : Bool := wf t && t.all (fun p => decide (p.2 ≠ d))

end AMap

end Sys2Proof
end

