-- ==== Sys2Proof/Machine/Types.lean ====
section
/-! DEFINITION. The records that the block's state is made of: plain data, one structure per kind of unit. -/

namespace Sys2Proof.Machine

/-- How a descriptor ended: status code, outcome code and numeric flags (Table 03-10). -/
structure Result where
  status : Nat
  outcome : Nat
  flags : Nat
deriving DecidableEq, Repr

/-- Where an outstanding descriptor is: on the wait list, running on its cores, stopped with a save area
(preempted or paused, R69, R73), or on its shadow's comparison. -/
inductive DescSt where
  | waiting
  | running
  | stopped
deriving DecidableEq, Repr

/-- Why a running gang has been asked to stop at its next tile boundary (R69). -/
inductive StopWhy where
  | none
  | preempt      -- preempted by a higher class (R68)
  | decaf        -- paused on entry to Decaf (R73)
  | shed         -- paused by the Governor's shedding (R436)
  | quota        -- paused to the next quota period (Table 03-8)
  | reset        -- preempted by a reset or fence by command (Table 16-2)
deriving DecidableEq, Repr

/-- The shadow copy of a class S descriptor (R379–R383). -/
structure Shadow where
  die : Nat
  cores : List Nat
  placed : Bool
  /-- The shadow die's counter when it received the placement (R379). -/
  at_ : Nat
  /-- The island has given its verdict. -/
  judged : Bool
deriving DecidableEq, Repr

/-- An outstanding descriptor: admitted, without its final record (R51, R61). -/
structure Desc where
  ctx : Nat
  die : Nat
  seq : Nat
  cls : Nat
  job : Nat
  op : Nat
  phase : Nat
  /-- Its 64 or 128 bytes, little-endian. -/
  words : Nat
  recOff : Nat
  /-- The dispatch instant, on the home die's counter (R61). -/
  start : Nat
  /-- The instant of the effective deadline on the home die's counter, 0 for none (R70). -/
  due : Nat
  notice : Bool
  limit : Nat
  ordered : Bool
  /-- The overflow mode in force when it passed checking (R40). -/
  ieee : Bool
  /-- The solver defaults in force when it passed checking (R185). -/
  solv : List Nat
  /-- Its identity's register-page grants as it passed checking (R486). -/
  pageBits : Nat
  /-- What the dispatcher read beside the descriptor's bytes: a convolution's layer records at checking (R93); at placement a
  page list's capacity, the handles of a page operation or the records a query found (R115). -/
  tbl : List Nat
  /-- The cores it ran on when it was last stopped (R184). -/
  was : List Nat
  st : DescSt
  /-- While delayed: when the present delay reason began. While running: up to when its core time is charged. -/
  since : Nat
  /-- When the present waiting or paused episode began (R75). -/
  epAt : Nat
  reason : Nat
  delays : AMap Nat
  interim : Bool
  waited : Bool
  preempted : Bool
  why : StopWhy
  /-- The handle of the save area it holds, a kind 8 object (R69). -/
  save : Option Nat
  cores : List Nat
  placedAt : Nat
  /-- The deadline passed under the notice policy (Table 03-7). -/
  late : Bool
  objs : List Nat
  pages : List Nat
  strs : List Nat
  /-- Pinned map epochs: (map, generation) (R193). -/
  pins : List (Nat × Nat)
  /-- Progress of an operation of several steps. -/
  stage : Nat
  aux : List Nat
  stopAt : Nat
  result : Option Result
  replays : Nat
  shadow : Option Shadow
deriving DecidableEq, Repr

/-- Context states (Table 03-1). -/
inductive CtxSt where
  | closed | opened | paused | fenced | poisoned
deriving DecidableEq, Repr

/-- What a context's hardware holds beside its dictionary entries (R51, R54, R62, R64, R65). -/
structure Ctx where
  st : CtxSt
  prod : Nat
  cons : Nat
  /-- Reserved logical cores: home die, and shadow die for class S. -/
  rsv : List Nat
  /-- The clusters reserved whole, for class C. -/
  rsvCl : List Nat
  /-- The pool-memory reservation set aside at Open, MiB (R273). -/
  pool : Nat
  /-- Start of the present quota period and what remains of it (R64). -/
  periodAt : Nat
  remain : Int
  /-- The quota and the period length in force in this period (R76). -/
  quota : Nat
  period : Nat
  /-- Core-ns used in the present share window, and what the window owes (R65). -/
  used : Nat
  owed : Nat
  /-- The state it returns to when a fence ends (R405). -/
  back : CtxSt
deriving DecidableEq, Repr

/-- A context that was never opened. -/
def Ctx.zero : Ctx :=
  { st := .closed, prod := 0, cons := 0, rsv := [], rsvCl := [], pool := 0, periodAt := 0, remain := 0, quota := 0, period := 0,
    used := 0, owed := 0, back := .closed }

/-- Page states (Table 05-2). -/
inductive PageSt where
  | free | present | absent | refilling
deriving DecidableEq, Repr

/-- An entry of the page handle table (R120). -/
structure Page where
  st : PageSt
  refs : Nat
  fill : Nat
  /-- The fill it had when it was dropped, which ends a refill (R136). -/
  goal : Nat
  first : Nat
  die : Nat
  owner : Nat
  /-- CAR_TIME of the last read or write. -/
  stamp : Nat
  /-- The append that has claimed it (descriptor number), if any (R135). -/
  claim : Option Nat
  /-- An uncorrectable error was met in it: dropped once its holders have finished (R283). -/
  bad : Bool
deriving DecidableEq, Repr

def Page.zero : Page :=
  { st := .free, refs := 0, fill := 0, goal := 0, first := 0, die := 0, owner := 0, stamp := 0, claim := none,
    bad := false }

/-- Stream states (Table 06-2). -/
inductive StrSt where
  | free | swapped | resident | moving | pinned | lost
deriving DecidableEq, Repr

/-- An entry of the stream table (R142). -/
structure Strm where
  st : StrSt
  owner : Nat
  kind : Nat
  size : Nat
  states : Nat
  comp : Bool
  reset : Bool
  /-- The cluster and first slot while it has slots. -/
  cluster : Nat
  slot : Nat
  core : Nat
  /-- While Moving: true for a swap-in. -/
  movIn : Bool
  chunks : Nat
  stamp : Nat
  lastSeq : Nat
  /-- The handle of its kind 4 object (Table 11-2). -/
  obj : Nat
  /-- The state elements, FP32 bits, in the order of R145. -/
  data : List Nat
deriving DecidableEq, Repr

def Strm.zero : Strm :=
  { st := .free, owner := 0, kind := 0, size := 0, states := 0, comp := false, reset := false, cluster := 0,
    slot := 0, core := 0, movIn := false, chunks := 0, stamp := 0, lastSeq := 0, obj := 0, data := [] }

/-- Map states (0x2801:02). -/
inductive MapSt where
  | undef | defined | copying | retiring
deriving DecidableEq, Repr

/-- A signed-distance map (R189–R194). -/
structure SdMap where
  st : MapSt
  gen : Nat
  nx : Nat
  ny : Nat
  nz : Nat
  um : Nat
  ox : Nat
  oy : Nat
  oz : Nat
  unkFree : Bool
  outFree : Bool
  pool : Nat
  spare : Nat
  owner : Nat
  /-- The descriptor number of a retire that waits for the last update and pin. -/
  retire : Option Nat
  /-- The descriptor number of the update that waits or copies. -/
  update : Option Nat
  suspect : Bool
deriving DecidableEq, Repr

def SdMap.zero : SdMap :=
  { st := .undef, gen := 0, nx := 0, ny := 0, nz := 0, um := 0, ox := 0, oy := 0, oz := 0, unkFree := false,
    outFree := false, pool := 0, spare := 0, owner := 0, retire := none, update := none, suspect := false }

/-- Object states (Table 11-4). -/
inductive ObjSt where
  | free | present | cold | discarded | placing | destroying
deriving DecidableEq, Repr

/-- An entry of Carafe's object handle table (Table 11-3). -/
structure Obj where
  st : ObjSt
  kind : Nat
  fmt : Nat
  tier : Nat
  die : Nat
  cluster : Nat
  flags : Nat
  owner : Nat
  size : Nat
  foot : Nat
  addr : Nat
  prev : Nat
  name : Nat
  suspect : Bool
  /-- The suspect mark records a data error, which a later reader meets again (R283). -/
  badData : Bool
  suspectOff : Nat
  coldCur : Bool
  /-- Bytes its cold content occupies, before rounding to units (R276). -/
  stored : Nat
  /-- The version of the persistent copy it was opened from, 0 for none (R272). -/
  openVer : Nat
  lost : Bool
  stamp : Nat
  /-- Operations and staging requests that hold it, descriptors apart. -/
  holds : Nat
deriving DecidableEq, Repr

def Obj.zero : Obj :=
  { st := .free, kind := 0, fmt := 0, tier := 0, die := 0, cluster := 0, flags := 0, owner := 0, size := 0,
    foot := 0, addr := 0, prev := 0, name := 0, suspect := false, badData := false, suspectOff := 0,
    coldCur := false, stored := 0, openVer := 0, lost := false, stamp := 0, holds := 0 }

/-- A persistent copy in the cold tier (R272). -/
structure Copy where
  kind : Nat
  fmt : Nat
  flags : Nat
  size : Nat
  /-- The handle that made it or was opened from it, while that object is not Free. -/
  maker : Option Nat
  stored : Nat
  ver : Nat
  data : List Host.Cell
deriving DecidableEq, Repr

/-- A spill in progress (pass 3 of R280). -/
structure Spill where
  obj : Nat
  trigger : Nat
deriving DecidableEq, Repr

/-- A logical core and the physical slot that serves it (R12, R405–R415). -/
structure Core where
  slot : Nat
  fenced : Bool
  /-- 0 none, 1 draining, 2 in reset. -/
  rst : Nat
  drainAt : Nat
  /-- Its physical core is to be replaced at the next cluster reset. -/
  remap : Bool
  /-- The fence lasts (a defective core whose spare is used). -/
  dead : Bool
  /-- The context whose operands its tile store last held; 16,384 for none. -/
  last : Nat
  pinned : Option Nat
deriving DecidableEq, Repr

/-- A cluster (R12, R62, R296, R443). -/
structure Clus where
  /-- 0 spare unused, 1 used since test, 2 used since an in-service remap (Table 01-3). -/
  spare : Nat
  rst : Nat
  drainAt : Nat
  gated : Bool
  idleAt : Nat
  slvFenced : Bool
  slvDead : Bool
  /-- GOV_TIME at which the present gating began. -/
  gateAt : Nat
  /-- Times of its router's uncorrectable errors, newest first (R297). -/
  unc : List Nat
deriving DecidableEq, Repr

/-- A compute die. -/
structure Die where
  /-- 0 in service, 1 in recovery, 2 out of service. -/
  st : Nat
  recAt : Nat
  running : Bool
  windowAt : Nat
  windowLen : Nat
  cleFenced : Bool
  cleDead : Bool
  /-- The clearance engine's reset: 0 none, 1 draining, 2 in reset. -/
  cleRst : Nat
  cleDrainAt : Nat
  /-- The last producer count kept for each context while the die recovers (R418). -/
  kept : AMap Nat
  /-- Doorbells (context, count) that wait for the hub link, in the order of their writes (R10, R54, R299). -/
  doors : List (Nat × Nat)
  /-- Interim records (hub offset, bytes) that wait for the hub link. -/
  notes : List (Nat × List Byte)
  retried : Bool
  /-- The descriptor for which shared cores that become free are held, and the cores that were free when it came
  to head the order (R67). -/
  head : Option Nat
  allow : List Nat
  /-- The check that the clearance engine ran when a check was last placed on it (R188). -/
  check : Option Nat
deriving DecidableEq, Repr

/-- One link of a die: 0 the hub link, 1–3 its peer links (R298–R301). -/
structure Link where
  /-- 0 down, 1 training, 2 full, 3 full with spares, 4 half. -/
  st : Nat
  /-- Times of replays within the last millisecond. -/
  times : List Nat
  consec : Nat
  tries : Nat
deriving DecidableEq, Repr

/-- A job abort in progress (R305–R307). -/
structure Abort where
  origin : Nat
  at_ : Nat
  /-- The dies that have not acknowledged. -/
  wait : List Nat
  /-- The dies it was relayed to through the hub. -/
  relayed : List Nat
  /-- The originating die has been reset since, so that its counter's values are void (R22). -/
  orphan : Bool
deriving DecidableEq, Repr

end Sys2Proof.Machine
end

