-- ==== Sys2Proof/Machine/Blocks.lean ====
section
/-! DEFINITION. The records of the hub die's blocks: host port, dictionary server, safety island, recovery
sequencer. -/

namespace Sys2Proof.Machine

/-! ### Host port (chapter 13) -/

/-- One host channel. -/
structure Chan where
  /-- The row recorded for each bank (R311). -/
  rows : AMap Nat
  /-- Mode registers as written (R314). -/
  mrs : AMap Nat
  trained : Bool
  idle : Bool
  /-- MT/s of the set point in use. -/
  rate : Nat
  /-- Training results held (R313): bit 0 command bus, 1 WCK levelling, 2 read calibration, 3 write training. -/
  calib : Nat
  /-- MT/s of each frequency set point, as it was trained. -/
  rates : AMap Nat
  /-- What the channel's last READ or MRR burst returned, and its bytes. -/
  out : Nat
  outLen : Nat
deriving DecidableEq, Repr

def Chan.zero : Chan :=
  { rows := [], mrs := [], trained := false, idle := false, rate := 0, calib := 0, rates := [], out := 0, outLen := 0 }

/-- One staging aperture (R326–R330). -/
structure Aper where
  /-- 0 idle, 1 staging, 2 ready, 3 writing, 4 draining, 5 done, 6 ended. -/
  st : Nat
  status : Nat
  request : Nat
  limit : Nat
  moved : Nat
  ctx : Nat
  handle : Nat
  off : Nat
  len : Nat
  /-- Staging blocks it has, and how many it waits for. -/
  blocks : Nat
  want : Nat
  /-- Sectors covered, ascending, and blocks drained, ascending. -/
  covered : List Nat
  drained : List Nat
  /-- A write to a drained block was discarded. -/
  noted : Bool
  /-- The bytes in its blocks, by window offset. -/
  data : List Host.Cell
  /-- HP_TIME of the last WRITE, or of the entry into state 2. -/
  at_ : Nat
  ready : Bool
  /-- It is the boot-mode aperture (R337, R451). -/
  boot : Bool
deriving DecidableEq, Repr

def Aper.zero : Aper :=
  { st := 0, status := 0, request := 0, limit := 0, moved := 0, ctx := 0, handle := 0, off := 0, len := 0, blocks := 0,
    want := 0, covered := [], drained := [], noted := false, data := [], at_ := 0, ready := false, boot := false }

/-- A mailbox with its acknowledge register (Table 13-11). The message is a number of 64 bytes. -/
structure Mbox where
  msg : Nat
  full : Bool
  code : Nat
  taken : Nat
  written : Nat
  coll : Nat
  /-- The waiting message replaced an unread one; and so had the last one taken. -/
  exceed : Bool
  lastOver : Bool
deriving DecidableEq, Repr

def Mbox.zero : Mbox :=
  { msg := 0, full := false, code := 0, taken := 0, written := 0, coll := 0, exceed := false, lastOver := false }

/-! ### The dictionary server (chapter 14) -/

/-- A notice that Barista owes while it does not run: kind, status, source, detail. -/
structure Owed where
  kind : Nat
  status : Nat
  src : Nat
  detail : List Byte
deriving DecidableEq, Repr

/-- An answer to an SDO: the module status, the abort code (0 for none), and the value read. -/
structure SdoAnswer where
  status : Nat
  abort : Nat
  len : Nat
  value : Nat
deriving DecidableEq, Repr

/-- A group write that is being carried as a broadcast (R302, R355): the path that answers, the host's tag, the
group, subindex, length and value. -/
structure Bcast where
  path : Nat
  tag : Option Nat
  gg : Nat
  sub : Nat
  len : Nat
  value : Nat
deriving DecidableEq, Repr

/-- Barista, the module state machine and the supervisor segment. -/
structure Mod where
  /-- Module state code (Table 14-3). -/
  st : Nat
  /-- Barista's counter at the last change. -/
  at_ : Nat
  /-- Decaf in force. -/
  decaf : Bool
  /-- HP_STATE barista: 0 running, 1 starting, 2 in reset, 3 not responding, 4 halted. -/
  barista : Nat
  bootMode : Bool
  crash : Bool
  beat : Nat
  /-- Barista's counter at the last heartbeat. -/
  beatAt : Nat
  /-- Number of the last event notice. -/
  notices : Nat
  owed : List Owed
  /-- Claimed entries (R346). -/
  claims : List Nat
  /-- Error entries, newest first (R365). -/
  errs : List Nat
  /-- AL state 1, 2, 4, 8, and AL status code. -/
  al : Nat
  alCode : Nat
  /-- Life count and Decaf hold as last applied through the process image. -/
  rxLife : Nat
  rxHold : Nat
  /-- The next valid output frame is applied in full. -/
  rxFull : Bool
  sdo : SdoAnswer
  /-- CoE emergency messages sent: error code, error register, source field. -/
  emcy : List (Nat × Nat × Nat)
  /-- Supervisor ports A and B down. -/
  portA : Bool
  portB : Bool
  /-- The Governor throttles for thermal reasons; the body segment is down (R364). -/
  thermal : Bool
  bodyDown : Bool
  /-- The last Barista restarts, newest first, on REC_TIME (R419). -/
  restarts : List Nat
  /-- The status of the last dictionary access by the host path. -/
  hostSt : Nat
  /-- The value that its last read returned. -/
  hostVal : Nat
  bcast : Option Bcast
deriving DecidableEq, Repr

/-! ### The safety island (chapter 15) -/

/-- A task monitor's running state (R384, R385). -/
structure Mon where
  miss : Nat
  /-- SAF_TIME at which the present alive window closes; 0 before the first opens. -/
  ends : Nat
  good : Bool
deriving DecidableEq, Repr

def Mon.zero : Mon := { miss := 0, ends := 0, good := false }

/-- A verified context's running state (R389–R391). -/
structure Ver where
  /-- Consecutive unchecked frames. -/
  count : Nat
  /-- The golden input in the slot, and whether it is newly rotated. -/
  input : Nat
  fresh : Bool
  /-- A descriptor of the present frame ended badly. -/
  bad : Bool
  /-- Golden mismatches since power-on. -/
  mism : Nat
deriving DecidableEq, Repr

def Ver.zero : Ver := { count := 0, input := 0, fresh := false, bad := false, mism := 0 }

/-- An element's structural test (R392, R393). -/
structure Tst where
  tested : Bool
  /-- Slices of the present sweep that have passed. -/
  slices : Nat
  /-- A slice runs. -/
  run : Bool
  /-- SAF_TIME of the last full sweep. -/
  at_ : Nat
  /-- A sweep is owed ahead of any other slice (R382), or after a reset (R408). -/
  owed : Bool
  mism : Nat
  /-- What the ledger attributed to the last Cupping slice, µJ (R74, R445). -/
  energy : Nat
deriving DecidableEq, Repr

def Tst.zero : Tst := { tested := false, slices := 0, run := false, at_ := 0, owed := false, mism := 0, energy := 0 }

structure Isl where
  causes : Nat
  /-- Divergence and recovery reports of the fusion engine (R225, R386). -/
  reports : Nat
  /-- 0 not held, 1 SS1 delay running, 2 STO. -/
  safe : Nat
  first : Nat
  /-- SAF_TIME at which the SS1 delay runs out. -/
  ss1End : Nat
  /-- The SS1 request in the Main frames. -/
  ss1Req : Bool
  /-- Pin levels as read back. -/
  pinA : Bool
  pinB : Bool
  /-- SAF_TIME at which the present pulse of A and of B ends; 0 for none. -/
  pulseA : Nat
  pulseB : Nat
  /-- SAF_TIME of the last pulse of A, and of B. -/
  lastA : Nat
  lastB : Nat
  /-- The adopted limit table, 16 B entries as numbers, and one verified that waits for a cycle boundary. -/
  table : List Nat
  verified : Bool
  nextTab : Option (List Nat)
  /-- The value last sent for each vector index (FP32 bits). -/
  sent : AMap Nat
  mons : AMap Mon
  vers : AMap Ver
  tests : AMap Tst
  /-- SAF_TIME of the last output frame of the Espresso block, and of the island's own. -/
  frameAt : Nat
  ownAt : Nat
  /-- FSoE connections that have failed. -/
  fsoe : List Nat
  /-- The FSoE state of each connection, and SAF_TIME of its last SubInstance frame (R255). -/
  fsoeSt : AMap Nat
  fsoeAt : AMap Nat
  /-- The cycle period and the connections copied at Arm: output offset, safe data length, ID, STO permit bit, SS1
  request bit; and whether the island sends frames of its own (R377). -/
  period : Nat
  conns : List (List Nat)
  own : Bool
  /-- Shadow dies for whose present absence cause 5 has been raised (R383). -/
  gone : List Nat
deriving DecidableEq, Repr

/-! ### The recovery sequencer (chapter 16) -/

/-- A hang being worked on (R405–R413). Element numbers: cores 0–255, clusters 256–287, clearance engines
288–291. -/
structure Hang where
  elem : Nat
  die : Nat
  /-- 0x05F0 engine progress, 0x05F1 core watchdog. -/
  level : Nat
  /-- Suspects still to replay, oldest first. -/
  todo : List Nat
  /-- The suspect being replayed and its quarantine unit (a core, cluster or engine element). -/
  now : Option (Nat × Nat)
  guilty : Bool
  /-- Class S or C work was active in it. -/
  sc : Bool
deriving DecidableEq, Repr

structure Recov where
  hangs : List Hang
  /-- REC_TIME of the last unexplained hang of each element. -/
  hist : AMap Nat
  /-- Number of the last sequencer event. -/
  event : Nat
  /-- The last 32 sequencer events, newest first: REC_TIME, kind, status, element. -/
  trail : List (Nat × Nat × Nat × Nat)
  /-- Number of the last crash record. -/
  record : Nat
  /-- Contexts whose unavailability interval is open (R425); 16,384 stands for the Espresso loop. -/
  down : List Nat
  /-- Core mailboxes (R421). -/
  mboxes : AMap Mbox
  /-- REC_TIME of HP_STATE heartbeat's last step. -/
  beatAt : Nat
  /-- Descriptors stopped by a fence: each keeps its context Fenced until its final record (R406). -/
  fencing : List Nat
  /-- Job aborts held at Fenced contexts. -/
  heldAborts : List Nat
  /-- Barista stays halted until a module restart (R419). -/
  halted : Bool
deriving DecidableEq, Repr

end Sys2Proof.Machine
end

