-- ==== Sys2Proof/Machine/Units.lean ====
section
/-! DEFINITION. The records of the hub's sensor and loop blocks, the Governor, and the unit: fusion engine, Espresso
block, Governor, board pins and the security engines. -/

namespace Sys2Proof.Machine

/-! ### The fusion engine (chapter 09) -/

/-- What a source's hardware holds beside its entries. -/
structure Src where
  /-- Number of the last sample that was written. -/
  seq : Nat
  /-- The latest sample: slot, start, arrival, bytes, frame number, damaged, late. -/
  slot : Nat
  start : Nat
  arr : Nat
  bytes : Nat
  frame : Nat
  damaged : Bool
  late : Bool
  /-- The last 64 intervals between arrivals, newest first; the next interval spans a dropped or damaged sample. -/
  ivals : List Nat
  broken : Bool
  /-- Hashes of the previous samples, newest first. -/
  hashes : List Nat
  sawFrame : Bool
  suspects : Nat
  goods : Nat
  frozen : Bool
  div : Bool
  /-- Diverged as a member of a pair (R225): the other members. -/
  pairs : List Nat
  owing : Bool
  /-- A sample was dropped since the previous record. -/
  dropped : Bool
  /-- For each set, the sequence used at its previous instant. -/
  used : AMap Nat
  /-- For each slot, the unreleased instants that name it. -/
  held : AMap Nat
  /-- An Ethernet frame in progress: its datagrams, bytes stored, start and damage; or an SPI read in progress, `parts` saying
  that an edge was dropped while it runs. -/
  parts : Nat
  fill : List Byte
  skip : List (Nat × Nat)
  began : Nat
  bad : Bool
  busy : Bool
  /-- Sequence fields of the datagrams of the frame in progress. -/
  seqs : List Nat
  /-- The latest record carries 0x0581; the latest sample's values (FP32 bits). -/
  exceed : Bool
  vals : List Nat
deriving DecidableEq, Repr

def Src.zero : Src :=
  { seq := 0, slot := 0xFFFF, start := 0, arr := 0, bytes := 0, frame := 0, damaged := false, late := false, ivals := [],
    broken := false, hashes := [], sawFrame := false, suspects := 0, goods := 0, frozen := false, div := false, pairs := [],
    owing := false, dropped := false, used := [], held := [], parts := 0, fill := [], skip := [], began := 0, bad := false,
    busy := false, seqs := [], exceed := false, vals := [] }

/-- A voting group's running state (R228, R229). -/
structure Grp where
  /-- 0 full, 1 degraded, 2 lost, 3 unused. -/
  verdict : Nat
  outvoted : List Nat
  /-- Consecutive votes of each member out of tolerance (or, once outvoted, within it). -/
  runs : AMap Nat
deriving DecidableEq, Repr

def Grp.zero : Grp := { verdict := 3, outvoted := [], runs := [] }

/-- An instant that its consumer has not released: its ring position, number, time, and the slots it names. -/
structure Inst where
  pos : Nat
  num : Nat
  at_ : Nat
  names : List (Nat × Nat)
deriving DecidableEq, Repr

structure FSet where
  num : Nat
  /-- The cuts that wait, oldest first; in timer pacing the next firing time. -/
  cuts : List Nat
  insts : List Inst
deriving DecidableEq, Repr

def FSet.zero : FSet := { num := 0, cuts := [], insts := [] }

/-- Ego-motion (R231, R232): FP32 bits. -/
structure Ego where
  q : List Nat
  v : List Nat
  p : List Nat
  steps : Nat
  gen : Nat
  skipped : Bool
  valid : Bool
  reset : Bool
  /-- Sequence of the last odometry sample used, and of the last inertial sample seen. -/
  odo : Nat
  seen : Nat
  /-- Last bias-corrected rate and acceleration, the last step's dt and the arrival of its sample. -/
  w : List Nat
  a : List Nat
  dt : Nat
  upd : Nat
deriving DecidableEq, Repr

/-- The reset pose: q = (1, 0, 0, 0). -/
def Ego.zero : Ego :=
  { q := [0x3F800000, 0, 0, 0], v := [0, 0, 0], p := [0, 0, 0], steps := 0, gen := 0, skipped := false, valid := false,
    reset := false, odo := 0, seen := 0, w := [0, 0, 0], a := [0, 0, 0], dt := 0, upd := 0 }

structure Fse where
  srcs : AMap Src
  grps : AMap Grp
  sets : AMap FSet
  ego : Ego
deriving DecidableEq, Repr

def Fse.zero : Fse := { srcs := [], grps := [], sets := [], ego := Ego.zero }

/-! ### The Espresso block (chapter 10) -/

structure Esp where
  /-- 0 Off, 1 Armed, 2 Run. -/
  st : Nat
  /-- 0 line, 1 closed ring, 2 broken, 3 no frame returning. -/
  ring : Nat
  /-- The roles are exchanged: 0x2700:0C's context is the primary. -/
  swapped : Bool
  /-- The standby was selected in this cycle: it is the primary from the next one on (R252). -/
  takeover : Bool
  /-- One side is absent; a rejoin is asked for. -/
  absent : Bool
  rejoin : Bool
  /-- Start has been commanded, and Run begins at the next tick; cycles of fallback left after Stop. -/
  start : Bool
  stopLeft : Nat
  cycle : Nat
  tickAt : Nat
  /-- In a cycle: 0 none, 1 input awaited, 2 program runs, 3 limit check runs, 4 outputs sent, 5 record written. -/
  phase : Nat
  /-- The input frames of this cycle that are complete, the merged image and working counters so far. -/
  done : List Nat
  merging : List Byte
  wkcIn : Nat
  wkcOut : Nat
  /-- The last valid image, the input age, and when input was complete or cut off. -/
  image : List Byte
  age : Nat
  inAt : Nat
  inNs : Nat
  ready : Bool
  /-- Template rung at; the table numbers of this cycle's first sequence on each side. -/
  seqP : Nat
  seqS : Nat
  /-- The side that succeeded: 0 primary, 1 standby, which waits in phase 2 while the primary has not failed. -/
  side : Option Nat
  /-- The last output image sent. -/
  out : List Byte
  compute : Nat
  /-- Statuses and flags of the cycle record in the making; the status of the previous cycle. -/
  stats : List Nat
  flags : Nat
  src : Nat
  prev : Nat
  /-- Consecutive missed or held cycles, and whether the run has been reported. -/
  run : Nat
  told : Bool
  /-- Battery: the last valid state of charge, flags; since when below or above the thresholds (0 none). -/
  soc : Nat
  critical : Bool
  lowAt : Nat
  highAt : Nat
  /-- The state of each SubDevice, by index: 0 Init, 1 Pre-Op, 2 Safe-Op, 3 Op (R237). -/
  sub : AMap Nat
  /-- Emergency messages logged: station, bytes. -/
  log : List (Nat × Nat)
  /-- Mirrors skipped. -/
  skips : Nat
  mirrored : Bool
  /-- Cycle period copied to the island at Arm. -/
  period : Nat
  /-- Output frames in flight whose working counter is awaited, the copies of them that have returned (2·frame + port), and the
  sums of their counters so far (R242). -/
  outLeft : Nat
  outDone : List Nat
  outSums : AMap Nat
  /-- An SDO command that waits for a place among the acyclic frames: upload, success, the data that the SubDevice answers (R239). -/
  sdo : Option (Bool × Bool × List Byte)
  acyclic : Nat
  /-- Working counters summed so far, by input frame; the sequence number that follows the last submitted one on the
  primary and on the standby. -/
  wkcs : AMap Nat
  nextP : Nat
  nextS : Nat
deriving DecidableEq, Repr

def Esp.zero : Esp :=
  { st := 0, ring := 0, swapped := false, takeover := false, absent := false, rejoin := false, start := false, stopLeft := 0, cycle := 0,
    tickAt := 0, phase := 0, done := [], merging := [], wkcIn := 0, wkcOut := 0, image := [], age := 0, inAt := 0,
    inNs := 0, ready := false, seqP := 0, seqS := 0, side := none, out := [], compute := 0, stats := [], flags := 0,
    src := 0xFF, prev := 0, run := 0, told := false, soc := 0, critical := false, lowAt := 0, highAt := 0, sub := [],
    log := [], skips := 0, mirrored := false, period := 0, outLeft := 0, outDone := [],
    outSums := [], sdo := none, acyclic := 0, wkcs := [], nextP := 0,
    nextS := 0 }

/-! ### The Governor (chapter 17) -/

structure Gov where
  /-- The effective cap of the last control period, in mW, and its reason's bit. -/
  cap : Nat
  capWhy : Nat
  reasons : Nat
  floorHeld : Bool
  exceed : Bool
  emerg : Bool
  /-- GOV_TIME of the last control period. -/
  at_ : Nat
  /-- Thermal throttle: acting, grid steps taken down, and time of the last step up. -/
  therm : Bool
  steps : Nat
  upAt : Nat
  /-- Droop step: in force until this GOV_TIME, 0 for none. -/
  droopEnd : Nat
  /-- Steps taken down because a rail's read-back falls short, and since when it does (0 none), by die. -/
  vsteps : Nat
  short : AMap Nat
  /-- Power predicted at the start of shedding, mW, and since when the cap has covered it (0 none). -/
  record : Nat
  coverAt : Nat
  mw : Nat
  fixed : Nat
  /-- Hottest junction, INTEGER16 word, and its die. -/
  hottest : Nat
  hotDie : Nat
  band : Nat
  allocMem : Nat
  allocLink : Nat
  /-- A battery limit has been received since it was last cleared (FP32 bits). -/
  batt : Option Nat
  /-- Phases that had a descriptor placed since the last control period. -/
  phases : List Nat
  learnAt : AMap Nat
  alert : Bool
  /-- Droop events of each island in this control period: cores 0–255, meshes 256–259. -/
  droops : AMap Nat
  /-- GOV_TIME of the last AVSBus response of each die's regulator. -/
  avs : AMap Nat
deriving DecidableEq, Repr

def Gov.zero : Gov :=
  { cap := 0, capWhy := 0, reasons := 0, floorHeld := false, exceed := false, emerg := false, at_ := 0, therm := false,
    steps := 0, upAt := 0, droopEnd := 0, vsteps := 0, short := [], record := 0, coverAt := 0, mw := 0, fixed := 0, hottest := 0,
    hotDie := 0, band := 0, allocMem := 0, allocLink := 0, batt := none, phases := [], learnAt := [], alert := false,
    droops := [], avs := [] }

/-! ### The unit: pins, bring-up, identity (chapters 18, 19) -/

structure UnitRec where
  serial : Nat
  variant : Nat
  rev : Nat
  clock : Nat
  cap : Nat
  revoked : Nat
  floor : Nat
  /-- The voltage table, mV: 17 rows of four bands (R435), and the slot of each cluster's defect-map entry (R456). -/
  volt : List Nat
  defects : List Nat
  /-- The copy is in use. -/
  copy : Bool
  /-- The identity public key, as a number of 133 bytes. -/
  key : Nat
deriving DecidableEq, Repr

/-- The customer record in force. -/
structure Cust where
  seq : Nat
  bound : Bool
  require : Bool
  floor : Nat
  cid : Nat
  key : Nat
  /-- Which sector holds it. -/
  sector : Nat
deriving DecidableEq, Repr

structure Brd where
  stbyPg : Bool
  mainPg : Bool
  /-- RESET_N is released. -/
  resetN : Bool
  /-- The reference clock runs; the hub and compute groups are held in reset. -/
  xtal : Bool
  held : Bool
  /-- The last step of Tables 18-1 and 18-2 that has ended. -/
  step : Nat
  /-- Barista's counter when aperture 0 reached state 5. -/
  doneAt : Nat
  /-- MAIN_PG is awaited at step 8 since. -/
  waitAt : Nat
  /-- The seed that the PUF gave at the last rise of the standby rail. -/
  seed : Nat
  unit : UnitRec
  cust : Option Cust
  /-- The image in use: security version, key index, digest, version string; its customer signature verified. -/
  imgVer : Nat
  imgKey : Nat
  digest : Nat
  version : Nat
  custOk : Bool
  /-- The image header has been judged for the present attempt. -/
  judged : Bool
  /-- The module waits in Boot-ROM for MAIN_PG to return (R467). -/
  pgWait : Bool
  /-- Barista answered 3 or 4 before the restart that still runs (R425). -/
  unplanned : Bool
deriving DecidableEq, Repr

end Sys2Proof.Machine
end

