-- ==== Sys2Proof/Machine/State.lean ====
section
/-! DEFINITION. The machine's state, its faults and refusals, and the state after reset. -/

namespace Sys2Proof.Machine

/-- Faults of a step. No command of this block stops it: an error is a status code, a record or a register bit. -/
inductive Fault where
  /-- Raised by nothing: stresses beyond Table 19-4, at which no operation is specified (R474), are no command
  of this block. Safe: it allows no run. -/
  | beyondRatings
deriving DecidableEq, Repr

/-- Refusals of a step. -/
inductive Refusal where
  /-- Raised by `exec` for a row that has no meaning in this model yet. Safe: no claim about it can be proved. -/
  | notModelled (mnemonic : String)
deriving DecidableEq, Repr

/-- The block's state. -/
structure State where
  /-- The commands that wait, first in, first out. -/
  pending : List Sys2Proof.Instr
  /-- How many free values have been drawn (the model's own field, not the spec's). -/
  free : Nat
  mem : List Host.Cell
  flash : List Host.Cell
  dict : AMap Nat
  regs : AMap Nat
  descs : AMap Desc
  nextId : Nat
  ctxs : AMap Ctx
  cores : AMap Core
  clus : AMap Clus
  dies : AMap Die
  links : AMap Link
  aborts : AMap Abort
  pages : AMap Page
  strs : AMap Strm
  maps : AMap SdMap
  objs : AMap Obj
  copies : AMap Copy
  spills : List Spill
  chans : AMap Chan
  apers : AMap Aper
  /-- Apertures that wait for staging blocks, in the order their requests were accepted (R327). -/
  stageQ : List Nat
  h2b : AMap Mbox
  b2h : AMap Mbox
  md : Mod
  isl : Isl
  rcv : Recov
  fse : Fse
  esp : Esp
  gov : Gov
  brd : Brd
  /-- Frames and datagrams that the module has put on the body segment, newest first (the last 64). -/
  wire : List (List Byte)
deriving DecidableEq, Repr

/-! ### The state after reset: Boot-ROM and boot mode (R337, R448, R450) -/

/-- Barista and the supervisor segment in Boot-ROM: boot mode, Barista starting, segment in Init. -/
def Mod.boot : Mod :=
  { st := 1, at_ := 0, decaf := false, barista := 1, bootMode := true, crash := false, beat := 0, beatAt := 0, notices := 0,
    owed := [], claims := [], errs := [], al := 1, alCode := 0, rxLife := 0, rxHold := 0, rxFull := true,
    sdo := { status := 0, abort := 0, len := 0, value := 0 }, emcy := [], portA := false, portB := false, thermal := false,
    bodyDown := false, restarts := [], hostSt := 0, hostVal := 0, bcast := none }

/-- The island at power-on: STO with cause 0, both SAFE_STOP channels low (R369, Table 15-8). -/
def Isl.boot : Isl :=
  { causes := 1, reports := 0, safe := 2, first := 0, ss1End := 0, ss1Req := false, pinA := false, pinB := false, pulseA := 0,
    pulseB := 0, lastA := 0, lastB := 0, table := [], verified := false, nextTab := none, sent := [], mons := [], vers := [],
    tests := [], frameAt := 0, ownAt := 0, fsoe := [], fsoeSt := [], fsoeAt := [], period := 0, conns := [], own := false,
    gone := [] }

def Recov.boot : Recov :=
  { hangs := [], hist := [], event := 0, trail := [], record := 0, down := [], mboxes := [], beatAt := 0, fencing := [],
    heldAborts := [], halted := false }

/-- Table 17-3, 50–85 °C, in mV at 400 to 2,000 MHz, with the steps between its columns interpolated. -/
def typicalVolts : List Nat :=
  [520, 530, 540, 550, 560, 570, 580, 590, 600, 620, 640, 655, 670, 685, 700, 712, 725]

/-- The unit record of the unit that is modelled: a BG-485 with the typical voltage table and no slot set aside (DESIGN
CHOICE, log entry 81). STANDBY_POWER_ON replaces it by what the flash holds. -/
def UnitRec.typical : UnitRec :=
  { serial := 1, variant := 1, rev := 0xB1, clock := 2000, cap := 150, revoked := 0, floor := 0,
    volt := typicalVolts.flatMap (fun v => [v + 25, v, v, v + 10]), defects := List.replicate 32 0xFF, copy := false, key := 0 }

/-- The board at reset: standby and hub rails good, RESET_N released, the clock running, MAIN_PG not yet asserted, no image
(R448, Table 19-2). -/
def Brd.boot : Brd :=
  { stbyPg := true, mainPg := false, resetN := true, xtal := true, held := false, step := 1, doneAt := 0, waitAt := 0, seed := 0,
    unit := UnitRec.typical, cust := none, imgVer := 0, imgKey := 0, digest := 0, version := 0, custOk := false,
    judged := false, pgWait := false, unplanned := false }

/-- Aperture 0 as boot mode presets it (R337, R451). -/
def Aper.preset : Aper :=
  { Aper.zero with st := 3, limit := 1048576, len := 16777216, blocks := 16, boot := true }

/-- The module right after reset: Boot-ROM, aperture 0 preset, the island holding STO; everything else empty. -/
def State.reset : State :=
  { pending := [], free := 0, mem := [], flash := [], dict := [], regs := [], descs := [], nextId := 0, ctxs := [], cores := [],
    clus := [], dies := [], links := [], aborts := [], pages := [], strs := [], maps := [], objs := [], copies := [],
    spills := [], chans := [], apers := [(0, Aper.preset)], stageQ := [], h2b := [], b2h := [], md := Mod.boot,
    isl := Isl.boot, rcv := Recov.boot, fse := Fse.zero, esp := Esp.zero, gov := Gov.zero, brd := Brd.boot, wire := [] }

end Sys2Proof.Machine
end

