-- ==== Sys2Proof/Machine/Ops.lean ====
section
/-! DEFINITION. The named operations over the state: dictionary entries, block registers, memory, free values. -/

namespace Sys2Proof.Machine

/-! ### Object-dictionary entries that are stored -/

/-- The key of an entry: index, subindex and, for a windowed entry, the unit shown. -/
def odKey (idx sub inst : Nat) : Nat := (idx * 256 + sub) * 65536 + inst

/-- Default values other than 0 of stored entries, as the entries' tables give them. -/
def odDflt (idx sub : Nat) : Nat :=
  if idx = 0x5000 then
    (if sub = 0x04 then 3 else if sub = 0x07 then 1 else if sub = 0x0A then 16 else if sub = 0x12 then 8
     else if sub = 0x14 then 10000000 else 0)
  else if idx < 0x2600 then
    (if idx = 0x2100 then
      (if sub = 0x03 then 30 else if sub = 0x0B then 100 else if sub = 0x0C then 95 else if sub = 0x19 then 5
       else if sub = 0x1A then 1000 else 0)
     else if 0x2120 ≤ idx ∧ idx < 0x2124 then (if sub = 2 ∨ sub = 3 then 25 else 0)
     else if idx = 0x2200 then
      (if sub = 6 then 500 else if sub = 7 then 2000 else if sub = 8 then 10000 else if sub = 9 then 3
       else if sub = 0x0A then 1 else 0)
     else if idx = 0x2202 then
      (if sub = 2 ∨ sub = 3 then 2 else if sub = 8 ∨ sub = 9 ∨ sub = 0x0B ∨ sub = 0x0C then 0 else 1)
     else if 0x2220 ≤ idx ∧ idx < 0x2260 then
      (if sub = 1 then 0xFFFF else if sub = 3 then 1 else if sub = 4 then 1000000 else 0)
     else if 0x2260 ≤ idx ∧ idx < 0x2270 then (if sub = 1 then 0xFFFF else if sub = 7 then 1 else 0)
     else if 0x2280 ≤ idx ∧ idx < 0x22C0 then (if sub = 2 then 0xFF else 0)
     else if idx = 0x2400 then
      (if sub = 3 then 8192 else if sub = 5 then 512 else if sub = 6 then 1024 else if sub = 7 then 20 else 0)
     else if idx = 0x2402 then (if sub = 1 then 0x400000 else if sub = 3 then 65536 else 0)
     else if idx = 0x2500 then (if sub = 2 ∨ sub = 3 then 1000 else 0)
     else 0)
  else if idx < 0x2700 then
    (if 0x2610 ≤ idx ∧ idx < 0x2650 then
      (if sub = 6 then 64 else if sub = 7 then 4 else if sub = 9 then 33333333 else if sub = 0x0A then 100000000
       else if sub = 0x0B then 10000000000 else if sub = 0x0C then 4 else if sub = 0x0D then 2
       else if sub = 0x0E then 4 else if sub = 0x0F then 2 else if sub = 0x19 then 14
       else if sub = 0x1B ∨ sub = 0x1C then 0x3F800000 else 0)
     else if 0x2650 ≤ idx ∧ idx < 0x2660 then (if sub = 3 then 0xFFFF else if sub = 5 then 1 else 0)
     else if 0x2660 ≤ idx ∧ idx < 0x2670 then
      (if sub = 3 then 1 else if sub = 5 then 3 else if sub = 6 then 0x3D4CCCCD else if sub = 7 then 0x3F000000
       else if sub = 8 then 3 else 0)
     else if 0x2670 ≤ idx ∧ idx < 0x2678 then
      (if sub = 4 then 2000000 else if sub = 6 then 8 else if sub = 7 then 100000000 else if sub = 8 then 0xFFFF
       else 0)
     else if idx = 0x2680 then
      (if sub = 1 ∨ sub = 3 then 0xFF
       else if sub = 4 then 0x3F800000
       else if sub = 7 then 0xC11CE80A * 2 ^ 64
       else if sub = 8 then 0x3CA3D70A else 0)
     else 0)
  else if idx = 0x2700 then
    (if sub = 3 then 250000 else if sub = 4 then 80000 else if sub = 0x0B ∨ sub = 0x0C then 0xFFFF
     else if sub = 0x0F then 1 else if sub = 0x11 then 3 else if sub = 0x16 then 16 else if sub = 0x20 then 15
     else if sub = 0x21 then 25 else if sub = 0x22 then 1000000 else 0)
  else if idx = 0x2900 then
    (if sub = 1 then 0x3D70000000000000 else if sub = 2 then 0x3EB0000000000000
     else if sub = 3 then 0x3E50000000000000 else if sub = 4 then 0x3F30000000000000 else 0)
  else if idx = 0x2A00 then
    (if sub = 2 then 10000000 else if sub = 4 then 100000 else if sub = 5 then 25 else 0)
  else if 0x3100 ≤ idx ∧ idx < 0x3200 then
    (if idx = 0x31FD then (if sub = 1 then 3 else if sub = 2 then 2 ^ 4 - 1 else 0)
     else if idx = 0x31FE then (if sub = 1 then 2 else if sub = 2 then 2 ^ 32 - 1 else 0)
     else if idx = 0x31FF then (if sub = 1 then 1 else if sub = 2 then 2 ^ 256 - 1 else 0)
     else 0)
  else if 0x4000 ≤ idx ∧ idx < 0x4100 then (if sub = 5 then 1 else if sub = 0x10 then 1 else 0)
  else if 0x4100 ≤ idx ∧ idx < 0x4120 then (if sub = 0x40 then 1 else 0)
  else if 0x4200 ≤ idx ∧ idx < 0x4204 then (if sub = 0x10 then 1 else 0)
  else 0

/-- A stored entry's value; `inst` is the context for 0x5000, the identity for 0x2003:02, else 0. -/
def State.od (s : State) (idx sub : Nat) (inst : Nat := 0) : Nat :=
  AMap.getD (odKey idx sub inst) (odDflt idx sub) s.dict

/-- Store an entry's value; a default value is not listed. -/
def State.setOd (s : State) (idx sub v : Nat) (inst : Nat := 0) : State :=
  { s with dict := AMap.put (odDflt idx sub) (odKey idx sub inst) v s.dict }

/-- Add 1 to a counting entry of `w` bits. -/
def State.bumpOd (s : State) (idx sub : Nat) (n : Nat := 1) (w : Nat := 32) (inst : Nat := 0) : State :=
  s.setOd idx sub ((s.od idx sub inst + n) % 2 ^ w) inst

/-! ### Block registers that are stored -/

/-- A stored block register by module address; unlisted reads 0, the reset value of every counting register. -/
def State.reg (s : State) (a : Nat) : Nat := AMap.getD a 0 s.regs

def State.setReg (s : State) (a v : Nat) : State := { s with regs := AMap.put 0 a v s.regs }

/-- Add to a 64-bit counting register. -/
def State.bumpReg (s : State) (a : Nat) (n : Nat := 1) : State := s.setReg a ((s.reg a + n) % 2 ^ 64)

def baseHP : Nat := 0x040000000000
def baseMBX : Nat := 0x040000010000
def baseGOV : Nat := 0x040000020000
def baseSAF : Nat := 0x040000030000
def baseREC : Nat := 0x040000040000
def baseFSE : Nat := 0x040000050000
def baseESP : Nat := 0x040000060000
def baseCAR : Nat := 0x040000070000
def baseDSP (d : Nat) : Nat := 0x040010000000 + d * 0x10000000
def baseCLE (d : Nat) : Nat := 0x040010010000 + d * 0x10000000
def baseSLV (g : Nat) : Nat := 0x040010100000 + g / 8 * 0x10000000 + g % 8 * 0x10000

/-- The key of Barista's own time counter, which no register page shows (R22). -/
def keyBarista : Nat := 0x050000000000

/-- A dispatcher's counter (DSP_TIME). -/
def State.dspTime (s : State) (d : Nat) : Nat := s.reg (baseDSP d)
/-- Carafe's counter (CAR_TIME). -/
def State.carTime (s : State) : Nat := s.reg baseCAR
def State.govTime (s : State) : Nat := s.reg baseGOV
def State.fseTime (s : State) : Nat := s.reg baseFSE
def State.espTime (s : State) : Nat := s.reg baseESP
def State.safTime (s : State) : Nat := s.reg baseSAF
def State.recTime (s : State) : Nat := s.reg baseREC
def State.hpTime (s : State) : Nat := s.reg (baseHP + 0x10)
def State.barTime (s : State) : Nat := s.reg keyBarista

/-! ### Free values -/

/-- Take the next draw of free values. -/
def State.draw (s : State) : Nat × State := (s.free, { s with free := s.free + 1 })

/-! ### Memory -/

/-- A byte of a canonical cell list; an unlisted address reads `d`. -/
def cellGet (d : Byte) (a : Nat) (m : List Host.Cell) : Byte := AMap.getD a d m

/-- Write a byte; a byte equal to `d` is not listed. -/
def cellSet (d : Byte) (a : Nat) (b : Byte) (m : List Host.Cell) : List Host.Cell := AMap.put d a b m

/-- Where the address spaces behind module memory begin: page backing, cold content by handle. -/
def kvBase : Nat := 2 ^ 48
def coldBase : Nat := 2 ^ 49
def coldSpan : Nat := 2 ^ 37

/-- DRAM die interleave (R17): the die and offset of DRAM address `a`. -/
def dramDie (il : Bool) (a : Nat) : Nat := if il then a / 4096 % 4 else a / 2 ^ 34
def dramOff (il : Bool) (a : Nat) : Nat := if il then a / 16384 * 4096 + a % 4096 else a % 2 ^ 34

def State.interleaved (s : State) : Bool := s.od 0x2000 0x10 == 1

/-- The hub SRAM's own address of an address of its window (R16); any other address is its own. -/
def unalias (a : Nat) : Nat :=
  if 0x020080000000 ≤ a ∧ a < 0x020082000000 then a - 0x020080000000 + 0x030000000000 else a

/-- The location that a module address names: the hub SRAM window is an alias (R16), DRAM goes by die and
offset (R17). -/
def State.loc (s : State) (a : Nat) : Nat :=
  if a < 2 ^ 36 then dramDie s.interleaved a * 2 ^ 34 + dramOff s.interleaved a
  else unalias a

/-- Is the address in the block register space (Table 01-6)? -/
def isRegSpace (a : Nat) : Bool := decide (0x040000000000 ≤ a ∧ a < 0x040050000000)

/-- A byte of memory at a module address; memory that nothing has written reads 0 (log entry 6). A stored
register shows its value. -/
def State.byteAt (s : State) (a : Nat) : Byte :=
  if isRegSpace a then BitVec.ofNat 8 (s.reg (a / 8 * 8) >>> (8 * (a % 8)))
  else cellGet 0 (s.loc a) s.mem

/-- `n` bytes at an address, little-endian. -/
def State.rd (s : State) (a : Nat) : Nat → Nat
  | 0 => 0
  | n + 1 => (s.byteAt a).toNat + 256 * s.rd (a + 1) n

/-- `n` bytes at an address as a list. -/
def State.rdBytes (s : State) (a : Nat) : Nat → List Byte
  | 0 => []
  | n + 1 => s.byteAt a :: s.rdBytes (a + 1) n

/-- Write one byte at a module address; the register space is not memory. -/
def State.wrByte (s : State) (a : Nat) (b : Byte) : State :=
  if isRegSpace a then s else { s with mem := cellSet 0 (s.loc a) b s.mem }

/-- Write bytes from an address upward. -/
def State.wr (s : State) (a : Nat) : List Byte → State
  | [] => s
  | b :: bs => (s.wrByte a b).wr (a + 1) bs

/-- Write the `n` little-endian bytes of a number. -/
def State.wrN (s : State) (a n w : Nat) : State := s.wr a (toBytes n w)

/-- Hub SRAM by offset. -/
def hub (o : Nat) : Nat := 0x030000000000 + o
def hubSize : Nat := 0x2000000

def State.rdHub (s : State) (o n : Nat) : Nat := s.rd (hub o) n
def State.wrHub (s : State) (o n w : Nat) : State := s.wrN (hub o) n w

/-- Remove the cells of a range of locations, which then read as unwritten. -/
def cellClear (lo n : Nat) (m : List Host.Cell) : List Host.Cell :=
  AMap.keep (fun a _ => !(decide (lo ≤ a ∧ a < lo + n))) m

/-- The cells of a range, moved to begin at 0. -/
def cellSlice (lo n : Nat) (m : List Host.Cell) : List Host.Cell :=
  (m.filter (fun c => decide (lo ≤ c.1 ∧ c.1 < lo + n))).map (fun c => (c.1 - lo, c.2))

/-- Write cells, moved to begin at `lo`. -/
def cellPaste (d : Byte) (lo : Nat) (cs m : List Host.Cell) : List Host.Cell :=
  cs.foldl (fun m c => cellSet d (lo + c.1) c.2 m) m

/-- The written cells of a range of module addresses, moved to begin at 0: those whose location is the
location of an address of the range; of a register page, the bytes that its registers show. -/
def State.slice (s : State) (a n : Nat) : List Host.Cell :=
  if (a < 2 ^ 36 ∧ s.interleaved) ∨ isRegSpace a then
    (List.range n).filterMap (fun i => let b := s.byteAt (a + i); if b = 0 then none else some (i, b))
  else cellSlice (s.loc a) n s.mem

/-- Write cells from address `a` upward, over `n` bytes that read 0 elsewhere. -/
def State.paste (s : State) (a n : Nat) (cs : List Host.Cell) : State :=
  if a < 2 ^ 36 ∧ s.interleaved then
    cs.foldl (fun s c => s.wrByte (a + c.1) c.2) ((List.range n).foldl (fun s i => s.wrByte (a + i) 0) s)
  else { s with mem := cellPaste 0 (s.loc a) cs (cellClear (s.loc a) n s.mem) }

/-- Make `n` bytes at an address undefined: each takes a free value. -/
def State.scribble (s : State) (a n : Nat) : State :=
  let (k, s) := s.draw
  s.wr a ((List.range n).map (fun i => BitVec.ofNat 8 (Config.free k i)))

/-- Copy `n` bytes of memory. -/
def State.copyMem (s : State) (src dst n : Nat) : State := s.paste dst n (s.slice src n)

/-! ### The end of a command -/

/-- The canonical form of memory: addresses rise strictly, and no listed byte is what an unlisted one reads as. -/
def Memory.wf (m : List Host.Cell) : Bool := AMap.wfD (0 : Byte) m

/-- The canonical form of the unit flash, whose unlisted bytes read 0xFF (erased). -/
def Flash.wf (m : List Host.Cell) : Bool := AMap.wfD (0xFF : Byte) m

/-- A list of cells in canonical form, with the same byte at every address; a canonical list is itself. -/
def cellCanon (d : Byte) (m : List Host.Cell) : List Host.Cell :=
  if AMap.wfD d m then m else m.foldr (fun c t => cellSet d c.1 c.2 t) []

/-- How every command ends: the block is in state `t`, the queue is as the command found it, and memory and flash are in
canonical form. -/
def State.done (s t : State) : Host.Outcome State Fault Refusal :=
  .next { t with pending := s.pending, mem := cellCanon 0 t.mem, flash := cellCanon 0xFF t.flash }

/-! ### The record tables -/

def State.ctx (s : State) (c : Nat) : Ctx := AMap.getD c Ctx.zero s.ctxs
def State.setCtx (s : State) (c : Nat) (x : Ctx) : State := { s with ctxs := AMap.put Ctx.zero c x s.ctxs }

def State.page (s : State) (h : Nat) : Page := AMap.getD h Page.zero s.pages
def State.setPage (s : State) (h : Nat) (p : Page) : State := { s with pages := AMap.put Page.zero h p s.pages }

def State.strm (s : State) (n : Nat) : Strm := AMap.getD n Strm.zero s.strs
def State.setStrm (s : State) (n : Nat) (x : Strm) : State := { s with strs := AMap.put Strm.zero n x s.strs }

def State.sdMap (s : State) (m : Nat) : SdMap := AMap.getD m SdMap.zero s.maps
def State.setMap (s : State) (m : Nat) (x : SdMap) : State := { s with maps := AMap.put SdMap.zero m x s.maps }

def State.obj (s : State) (h : Nat) : Obj := AMap.getD h Obj.zero s.objs
def State.setObj (s : State) (h : Nat) (o : Obj) : State := { s with objs := AMap.put Obj.zero h o s.objs }

/-- A logical core as it ships: its own slot, in service. -/
def Core.ship (n : Nat) : Core :=
  { slot := n % 8, fenced := false, rst := 0, drainAt := 0, remap := false, dead := false, last := 16384,
    pinned := none }

def Clus.ship : Clus :=
  { spare := 0, rst := 0, drainAt := 0, gated := false, idleAt := 0, slvFenced := false, slvDead := false,
    gateAt := 0, unc := [] }

def Die.ship : Die :=
  { st := 0, recAt := 0, running := false, windowAt := 0, windowLen := 10000000, cleFenced := false,
    cleDead := false, cleRst := 0, cleDrainAt := 0, kept := [], doors := [], notes := [], retried := false, head := none, allow := [],
    check := none }

def Link.ship : Link := { st := 0, times := [], consec := 0, tries := 0 }

def State.core (s : State) (n : Nat) : Core := AMap.getD n (Core.ship n) s.cores
def State.setCore (s : State) (n : Nat) (c : Core) : State :=
  { s with cores := AMap.put (Core.ship n) n c s.cores }

def State.clu (s : State) (g : Nat) : Clus := AMap.getD g Clus.ship s.clus
def State.setClu (s : State) (g : Nat) (c : Clus) : State := { s with clus := AMap.put Clus.ship g c s.clus }

def State.die (s : State) (d : Nat) : Die := AMap.getD d Die.ship s.dies
def State.setDie (s : State) (d : Nat) (x : Die) : State := { s with dies := AMap.put Die.ship d x s.dies }

/-- Links are numbered 0–3 for the hub links of the dies, 4–9 for the peer links (0,1) (0,2) (0,3) (1,2) (1,3)
(2,3). -/
def peerLink (a b : Nat) : Nat :=
  let lo := min a b
  let hi := max a b
  if lo = 0 then 3 + hi else if lo = 1 then 5 + hi else 9

def State.link (s : State) (l : Nat) : Link := AMap.getD l Link.ship s.links
def State.setLink (s : State) (l : Nat) (x : Link) : State := { s with links := AMap.put Link.ship l x s.links }

/-- The table's descriptor `id`, if it is outstanding. -/
def State.desc? (s : State) (id : Nat) : Option Desc := AMap.get? id s.descs
def State.setDesc (s : State) (id : Nat) (d : Desc) : State := { s with descs := AMap.ins id d s.descs }
def State.delDesc (s : State) (id : Nat) : State := { s with descs := AMap.del id s.descs }
def State.updDesc (s : State) (id : Nat) (f : Desc → Desc) : State := { s with descs := AMap.upd id f s.descs }

/-- `n` bytes of a descriptor at byte `o` (Table 03-3 and the operation tables). -/
def Desc.f (d : Desc) (o n : Nat) : Nat := (d.words >>> (8 * o)) % 2 ^ (8 * n)

end Sys2Proof.Machine
end

