-- ==== Sys2Proof/Machine/VxeFn.lean ====
section
/-! DEFINITION. The vector engine's functions and the bounds of Table 02-9: each function's exact value to some 150
bits, and the free results that lie within its bound (R45, R47, R79). -/

namespace Sys2Proof.Machine

/-! ### Fixed point with 320 fraction bits, in which the exact values are formed (log entry 3) -/

def fxBits : Nat := 320
def fxOne : Int := ((2 ^ fxBits : Nat) : Int)

/-- ln 2, π and 2/√π. -/
def fxLn2 : Int := 0xb17217f7d1cf79abc9e3b39803f2f6af40f343267298b62d8a0d175b8baafa2be7b876206debac98
def fxPi : Int := 0x3243f6a8885a308d313198a2e03707344a4093822299f31d0082efa98ec4e6c89452821e638d01378
def fxTwoRootPi : Int := 0x120dd750429b6d11ae3a914fed7fd8688281341d7587cea2e7342b06199cc416180eb39f0b24e1e23

def fxMul (a b : Int) : Int := a * b / fxOne
def fxDiv (a b : Int) : Int := a * fxOne / b

/-- The fixed-point number of a dyadic, rounded down. -/
def fxOf (d : Dy) : Int :=
  let s := d.e + fxBits
  if 0 ≤ s then d.m * ((2 ^ s.toNat : Nat) : Int) else d.m / ((2 ^ (-s).toNat : Nat) : Int)

/-- The dyadic of a fixed-point number times `2^k`. -/
def fxDy (x : Int) (k : Int := 0) : Dy := ⟨x, k - fxBits⟩

/-- The power series of `e^r` for `|r| < 1`, from its `n`-th term inward. -/
def expSeries (r : Int) : Nat → Int → Int
  | 0, acc => acc
  | n + 1, acc => expSeries r n (fxOne + fxMul r acc / (n + 1))

/-- `e^(k ln 2 + r)`. -/
def expParts (k r : Int) : Dy := fxDy (expSeries r 60 fxOne) k

/-- `e^x`. -/
def expDy (x : Int) : Dy :=
  let k := (2 * x + fxLn2) / (2 * fxLn2)
  expParts k (x - k * fxLn2)

/-- `2^x`. -/
def exp2Dy (x : Int) : Dy :=
  let k := (2 * x + fxOne) / (2 * fxOne)
  expParts k (fxMul (x - k * fxOne) fxLn2)

/-- The series of `artanh z / z` in `z²`. -/
def atanhSeries (z2 : Int) : Nat → Int → Int
  | 0, acc => acc
  | n + 1, acc => atanhSeries z2 n (fxOne / (2 * n + 1) + fxMul z2 acc)

/-- `ln (m · 2^e)` in fixed point, for `m > 0`. -/
def lnFx (m : Nat) (e : Int) : Int :=
  let k : Int := Nat.log2 m
  let a := fxOf ⟨m, -k⟩
  let (a, k) := if 3 * fxOne < 2 * a then (a / 2, k + 1) else (a, k)
  let z := fxDiv (a - fxOne) (a + fxOne)
  2 * fxMul z (atanhSeries (fxMul z z) 80 0) + (e + k) * fxLn2

/-- The series of `sin r / r` (`o = 1`) and of `cos r` (`o = 0`) in `r²`. -/
def trigSeries (o : Nat) (r2 : Int) : Nat → Int → Int
  | 0, acc => acc
  | n + 1, acc => trigSeries o r2 n (fxOne - fxMul r2 acc / ((2 * n + 1 + o) * (2 * n + 2 + o)))

def sinSmall (r : Int) : Int := fxMul r (trigSeries 1 (fxMul r r) 40 fxOne)
def cosSmall (r : Int) : Int := trigSeries 0 (fxMul r r) 40 fxOne

/-- `sin (x + q·π/2)`. -/
def sinFx (x : Int) (q : Int) : Int :=
  let n := (4 * x + fxPi) / (2 * fxPi)
  let r := x - n * fxPi / 2
  let q := (n + q) % 4
  if q = 0 then sinSmall r else if q = 1 then cosSmall r else if q = 2 then -(sinSmall r) else -(cosSmall r)

/-- The series of `erf`: `√π/2 · e^(x²) · erf x / x` in `2x²`. -/
def erfSeries (t : Int) : Nat → Int → Int
  | 0, acc => acc
  | n + 1, acc => erfSeries t n (fxOne + fxMul t acc / (2 * n + 3))

/-- `erf x` for `x ≥ 0`; from 6 on it lies within `2^-55` of 1. -/
def erfFx (x : Int) : Int :=
  if 6 * fxOne ≤ x then fxOne - ((2 ^ (fxBits - 56) : Nat) : Int)
  else
    let x2 := fxMul x x
    fxMul (fxMul (fxMul (fxOf (expDy (-x2))) fxTwoRootPi) x) (erfSeries (2 * x2) 200 fxOne)

/-- A fixed-point number held within `±2^12`, beyond which no function of Table 02-9 but the trigonometric changes. -/
def fxClamp (x : Int) : Int := max (-(4096 * fxOne)) (min (4096 * fxOne) x)

/-- The exact value of function `code` (Table 04-10; 0x40 for exp2, 0x41 for log2, 0x42 for erf) at a finite argument,
to some 150 bits; none for a code or an argument without one. -/
def funcDy (code : Nat) (neg : Bool) (m : Nat) (e : Int) : Option Dy :=
  let x := fxOf ⟨if neg then -(m : Int) else m, e⟩
  let xc := fxClamp x
  let a : Int := xc.natAbs
  let sgn (y : Int) : Dy := fxDy (if neg then -y else y)
  match code with
  | 0x0D => some (expDy xc)
  | 0x40 => some (exp2Dy xc)
  | 0x0E => if m = 0 ∨ neg then none else some (fxDy (lnFx m e))
  | 0x41 => if m = 0 ∨ neg then none else some (fxDy (fxDiv (lnFx m e) fxLn2))
  | 0x0F =>
    let t := fxOf (expDy (-2 * (min a (128 * fxOne))))
    some (sgn (fxDiv (fxOne - t) (fxOne + t)))
  | 0x10 =>
    let t := expDy (-a)
    let u := fxOne + fxOf t
    some (if neg then fxDy (fxDiv t.m u) (t.e + fxBits) else fxDy (fxDiv fxOne u))
  | 0x16 => some (fxDy (sinFx x 0))
  | 0x17 => some (fxDy (sinFx x 1))
  | 0x42 => some (sgn (erfFx a))
  | _ => none

/-- The exponent of the last place of the FP32 numbers around a value (Table 02-9's ulp). -/
def ulpExp (d : Dy) : Int := if d.m = 0 then -149 else max ((Nat.log2 d.m.natAbs : Int) + d.e - 23) (-149)

/-- A result as a dyadic, an infinity counting as the number `2^128` that follows the largest finite one. -/
def resultDy : Val → Dy
  | .inf n => ⟨if n then -1 else 1, 128⟩
  | v => toDy v

/-- An error bound: `n` ulp of the exact value, or `2^-20`; the exact value's own error, below `2^-30` of the bound, is
taken off. -/
def ulpTol (n : Nat) (a : Dy) : Dy := ⟨(n * 2 ^ 30 : Nat) - 1, ulpExp a - 30⟩
def absTol : Dy := ⟨2 ^ 30 - 1, -50⟩

/-- The result of a function with exact value `a` (a zero of sign `neg`) and error bound `tol`: the free candidate where it
lies within the bound, else the value rounded to nearest; with overflow and underflow as R38 and R42 have them. -/
def freeNear (tol a : Dy) (neg : Bool) (cand : Nat) : Flg Val := do
  let c := f32 cand
  let near := !(isNan c) && dyLe (dyAbs (dyAdd (resultDy c) (dyNeg a))) tol
    && (!(isZero c) || signOf c == (if a.m = 0 then neg else decide (a.m < 0)))
  let r := if near then c
    else (runFlg (rnd32 (.fin (if a.m = 0 then neg else decide (a.m < 0)) a.m.natAbs a.e))).1
  raiseIf (isInf r) flOverflow
  raiseIf (a.m != 0 && decide (bits32 r % 2 ^ 31 < fmtMinNormal 2)) flUnderflow
  pure r

/-- The bound of Table 02-9 for a function at a finite argument. -/
def funcTol (code m : Nat) (e : Int) (a : Dy) : Dy :=
  if (code = 0x16 ∨ code = 0x17) ∧ dyLt ⟨65536, 0⟩ ⟨m, e⟩ then absTol
  else ulpTol (if code = 0x0F ∨ code = 0x10 ∨ code = 0x42 then 3 else 2) a

/-- A function whose bits Table 02-9 leaves open: NaN of a NaN; of a finite argument a free FP32 result within the
table's bound; where the spec states no value (an infinite argument, the logarithm of 0) any free one (log entry 3). -/
def vxeOpen (code : Nat) (v : Val) : Flg Val :=
  let w := Config.vxe code (bits32 v) % 2 ^ 32
  match v with
  | .nan => pure .nan
  | .inf _ => pure (f32 w)
  | .fin n m e =>
    match funcDy code n m e with
    | some a => freeNear (funcTol code m e a) a n w
    | none => pure (f32 w)

/-- A logarithm: of a negative number NaN with the invalid flag (R41). -/
def vxeLog (code : Nat) (v : Val) : Flg Val :=
  if !(isNan v) && signOf v && !(isZero v) then do raise flInvalid; pure .nan else vxeOpen code v

/-- A free result within 1 ulp of an exact finite value, whose other outcomes are IEEE 754's (Table 02-9). -/
def within1Ulp (cand : Nat) (x : Val) : Flg Val :=
  match x with
  | .fin n m e => let a := toDy (.fin n m e); freeNear (ulpTol 1 a) a n cand
  | v => pure v

/-- 1/a to 1 ulp. -/
def vxeRecip (v : Val) : Flg Val := do
  within1Ulp (Config.vxe 0x0C (bits32 v) % 2 ^ 32) (← divX (valNat 1) v)

/-- 1/√a to 1 ulp. -/
def vxeRsqrt (v : Val) : Flg Val := do
  within1Ulp (Config.vxe 0x0B (bits32 v) % 2 ^ 32) (← divX (valNat 1) (← sqrtX v))

def vxeExp (v : Val) : Flg Val := vxeOpen 0x0D v
def vxeExp2 (v : Val) : Flg Val := vxeOpen 0x40 v
def vxeLn (v : Val) : Flg Val := vxeLog 0x0E v
def vxeTanh (v : Val) : Flg Val := vxeOpen 0x0F v
def vxeSigmoid (v : Val) : Flg Val := vxeOpen 0x10 v
def vxeErf (v : Val) : Flg Val := vxeOpen 0x42 v

def valOne : Val := valNat 1
def valHalf : Val := .fin false 1 (-1)

/-- ReLU; NaN stays NaN (R41). -/
def vxeRelu (v : Val) : Val := maxNan v valZero

/-- GELU, erf form: x/2 · (1 + erf(x/√2)). -/
def vxeGelu (v : Val) : Flg Val := do
  let e ← vxeErf (← mul32 v (f32 0x3F3504F3))
  mul32 (← mul32 v valHalf) (← add32 valOne e)

/-- SiLU: x · sigmoid(x). -/
def vxeSilu (v : Val) : Flg Val := do mul32 v (← vxeSigmoid v)

/-- The activations of Table 04-6. -/
def activate (a : Nat) (v : Val) : Flg Val :=
  match a with
  | 1 => pure (vxeRelu v)
  | 2 => vxeGelu v
  | 3 => vxeSilu v
  | 4 => vxeTanh v
  | 5 => vxeSigmoid v
  | _ => pure v

end Sys2Proof.Machine
end

