-- ==== Sys2Proof/Machine/Operands.lean ====
section
/-! DEFINITION. Operand forms: tile-form and linear matrices, dense and 2:4 sparse (R80–R84), and how the
engines load and store them (R35). -/

namespace Sys2Proof.Machine

/-- A range of module addresses that a descriptor names. -/
structure Rng where
  a : Nat
  n : Nat
  wr : Bool
  tile : Bool
deriving DecidableEq, Repr

/-- Do two ranges share a byte? The hub SRAM window names the hub SRAM's own bytes (R16). -/
def overlap (a n b m : Nat) : Bool :=
  let a := unalias a
  let b := unalias b
  decide (n ≠ 0 ∧ m ≠ 0 ∧ a < b + m ∧ b < a + n)

/-! ### Sizes (Table 04-3, R81, R83) -/

def tileRows (f : Nat) : Nat := if f = 1 then 16 else if f = 7 ∨ f = 8 ∨ f = 9 ∨ f = 12 then 64 else 32
def tileElemBytes (f : Nat) : Nat := tileRows f * 32 * fmtBits f / 8
def tileFooter (f : Nat) : Nat := if fmtMx f then tileRows f else 0
def tileBytes (f : Nat) (sparse : Bool) : Nat :=
  if sparse then tileElemBytes f / 2 + tileFooter f + 4 * tileRows f else tileElemBytes f + tileFooter f

/-- Bytes of a matrix of `r` rows and `c` columns in tile form. -/
def matBytes (f : Nat) (sparse : Bool) (r c : Nat) : Nat :=
  ceilDiv r (tileRows f) * ceilDiv c 32 * tileBytes f sparse

/-- Bytes of a linear operand of `n` elements. -/
def linBytes (f n : Nat) : Nat := ceilDiv (n * fmtBits f) 8

/-- The alignment of a linear base (R83). -/
def linAlign (f : Nat) : Nat := if fmtBits f < 8 then 1 else fmtBits f / 8

/-! ### Reading elements -/

/-- `n` bits at bit `b` above an address. -/
def State.rdBits (s : State) (a b n : Nat) : Nat :=
  (s.rd (a + b / 8) ((b % 8 + n + 7) / 8) >>> (b % 8)) % 2 ^ n

/-- The value of loaded bits with their block scale, with the NaN flags (R42). -/
def loadBits (f sc w : Nat) : Flg Val := do
  if fmtMx f && sc == 255 then do
    raise (flNanScale ||| flNanInput)
    pure .nan
  else do
    let v := decodeElem f w
    let v := if fmtMx f then scaleVal sc v else v
    raiseIf (isNan v) flNanInput
    pure v

/-- The base of the tile that holds (r, c) of a matrix of `cs` columns. -/
def tileAt (f : Nat) (sparse : Bool) (base cs r c : Nat) : Nat :=
  base + (r / tileRows f * ceilDiv cs 32 + c / 32) * tileBytes f sparse

/-- Element (r, c) of a dense tile-form matrix (R81); the caller keeps r and c inside. -/
def State.elemAt (s : State) (f base cs r c : Nat) : Flg Val :=
  let t := tileAt f false base cs r c
  let w := s.rdBits t (((r % tileRows f) * 32 + c % 32) * fmtBits f) (fmtBits f)
  loadBits f (s.byteAt (t + tileElemBytes f + r % tileRows f)).toNat w

/-- The metadata nibble of the group of (r, c) in a 2:4 sparse matrix (R84). -/
def State.sparseNib (s : State) (f base cs r c : Nat) : Nat :=
  let t := tileAt f true base cs r c
  s.rdBits (t + tileElemBytes f / 2 + tileFooter f + 4 * (r % tileRows f)) (4 * (c % 32 / 4)) 4

/-- Is the nibble a pair i0 < i1? -/
def nibOk (x : Nat) : Bool := decide (x % 4 < x / 4)

/-- Element (r, c) of a 2:4 sparse matrix (R84); every element of a block with scale 0xFF is NaN, kept or not (R26). -/
def State.sparseElem (s : State) (f base cs r c : Nat) : Flg Val :=
  let t := tileAt f true base cs r c
  let nib := s.sparseNib f base cs r c
  let g := c % 32 / 4
  let sc := (s.byteAt (t + tileElemBytes f / 2 + r % tileRows f)).toNat
  let el (k : Nat) := loadBits f sc (s.rdBits t (((r % tileRows f) * 16 + 2 * g + k) * fmtBits f) (fmtBits f))
  if c % 4 = nib % 4 then el 0 else if c % 4 = nib / 4 then el 1
  else if fmtMx f && sc == 255 then loadBits f sc 0
  else pure valZero

/-- A dense matrix in tile form, as rows. -/
def State.loadMat (s : State) (f base rs cs : Nat) : Flg (List (List Val)) :=
  (List.range rs).mapM (fun r => (List.range cs).mapM (fun c => s.elemAt f base cs r c))

/-- A 2:4 sparse matrix, as rows. -/
def State.loadSparse (s : State) (f base rs cs : Nat) : Flg (List (List Val)) :=
  (List.range rs).mapM (fun r => (List.range cs).mapM (fun c => s.sparseElem f base cs r c))

/-- Does every metadata nibble of the matrix name a pair (R84)? -/
def State.sparseOk (s : State) (f base rs cs : Nat) : Bool :=
  (List.range rs).all (fun r => (List.range (ceilDiv cs 4)).all (fun g => nibOk (s.sparseNib f base cs r (4 * g))))

/-- A linear operand (R83). -/
def State.loadLin (s : State) (f base n : Nat) : Flg (List Val) :=
  (List.range n).mapM (fun i => loadBits f 0 (s.rdBits base (i * fmtBits f) (fmtBits f)))

/-- What a VXE load makes of an element for FP32 work (R35): FP64 converts to FP32 under the overflow mode (Table 02-5),
INT32 rounds to FP32, the rest is exact. -/
def vxeIn (ieee : Bool) (f : Nat) (v : Val) : Flg Val :=
  if f = 1 then do pure (f32 (← convert fmtFP32 ieee v)) else if f = 13 then rnd32 v else pure v

def vxeInAll (ieee : Bool) (f : Nat) (l : List Val) : Flg (List Val) := l.mapM (vxeIn ieee f)

/-! ### Writing -/

/-- Bits of equal-width elements packed from the least significant upward (R25). -/
def packBits (w : Nat) : List Nat → Nat
  | [] => 0
  | x :: xs => x % 2 ^ w + packBits w xs * 2 ^ w

def row (m : List (List Val)) (r : Nat) : List Val := m.getD r []
def at_ (l : List Val) (c : Nat) : Val := l.getD c valZero

/-- Convert a block of 32 values: its scale byte and its element bits. -/
def convBlock (f : Nat) (ieee : Bool) (vs : List Val) : Flg (Nat × List Nat) :=
  if fmtMx f then mxBlock f vs else do pure (0, ← vs.mapM (convert f ieee))

/-- The bytes of a matrix in tile form; `conv` converts each block of 32 along a row. -/
def tileStoreWith (f rs cs : Nat) (conv : List Val → Flg (Nat × List Nat)) (m : List (List Val)) :
    Flg (List Byte) := do
  let tiles ← (List.range (ceilDiv rs (tileRows f))).mapM (fun i =>
    (List.range (ceilDiv cs 32)).mapM (fun j => do
      let blocks ← (List.range (tileRows f)).mapM (fun r =>
        let l := row m (i * tileRows f + r)
        conv ((List.range 32).map (fun c => if j * 32 + c < cs then at_ l (j * 32 + c) else valZero)))
      let els := (blocks.map (fun b => toBytes (4 * fmtBits f) (packBits (fmtBits f) b.2))).flatten
      let sc := if fmtMx f then blocks.map (fun b => BitVec.ofNat 8 b.1) else []
      pure (els ++ sc)))
  pure (tiles.flatten.flatten)

/-- The bytes of a matrix converted to `f` in tile form (R81). -/
def tileStore (f : Nat) (ieee : Bool) (rs cs : Nat) (m : List (List Val)) : Flg (List Byte) :=
  tileStoreWith f rs cs (convBlock f ieee) m

/-- The bytes of a linear operand converted to `f`; the bits above the last element are zero (R83). -/
def linStore (f : Nat) (ieee : Bool) (l : List Val) : Flg (List Byte) := do
  let els ← l.mapM (convert f ieee)
  pure (toBytes (linBytes f l.length) (packBits (fmtBits f) els))

/-- The two largest magnitudes of a group of four, ties to lower index: the pair i0 < i1 (R112). -/
def prunePair (vs : List Val) : Nat × Nat :=
  let mags := vs.map (fun v => match v with | .nan => Val.inf false | v => valAbs v)
  let best (skip : Nat) : Nat :=
    ((List.range 4).foldl (fun (b : Option Nat) i =>
      if i = skip then b
      else match b with
        | none => some i
        | some j => if valLt (mags.getD j valZero) (mags.getD i valZero) then some i else some j) none).getD 0
  let a := best 4
  let b := best a
  (min a b, max a b)

/-- The bytes of a matrix pruned to 2:4 sparse tiles (R84, R112). -/
def sparseStore (f : Nat) (ieee : Bool) (rs cs : Nat) (m : List (List Val)) : Flg (List Byte) := do
  let tiles ← (List.range (ceilDiv rs (tileRows f))).mapM (fun i =>
    (List.range (ceilDiv cs 32)).mapM (fun j => do
      let rows ← (List.range (tileRows f)).mapM (fun r => do
        let l := row m (i * tileRows f + r)
        let vs := (List.range 32).map (fun c => if j * 32 + c < cs then at_ l (j * 32 + c) else valZero)
        let prs := (List.range 8).map (fun g => prunePair ((vs.drop (4 * g)).take 4))
        let kept := (List.range 32).map (fun c =>
          let p := prs.getD (c / 4) (0, 1)
          if c % 4 = p.1 ∨ c % 4 = p.2 then at_ vs c else valZero)
        let (sc, els) ← convBlock f ieee kept
        let compact := ((List.range 8).map (fun g =>
          let p := prs.getD g (0, 1)
          [els.getD (4 * g + p.1) 0, els.getD (4 * g + p.2) 0])).flatten
        pure (sc, compact, packBits 4 (prs.map (fun p => p.1 + 4 * p.2))))
      let els := (rows.map (fun x => toBytes (2 * fmtBits f) (packBits (fmtBits f) x.2.1))).flatten
      let sc := if fmtMx f then rows.map (fun x => BitVec.ofNat 8 x.1) else []
      let meta_ := (rows.map (fun x => toBytes 4 x.2.2)).flatten
      pure (els ++ sc ++ meta_)))
  pure (tiles.flatten.flatten)

/-! ### Reductions on the VXE (Table 02-8) -/

/-- A VXE dot product: fused multiply–adds in order; of one product fixed, of more free within its bound (Table 02-8). -/
def vxeDot (cand : Nat) (xs ys : List Val) : Flg Val :=
  let ps := xs.zip ys
  let inOrder := ps.foldlM (fun a p => fmaF fmtFP32 p.1 p.2 a) valZero
  if ps.length ≤ 1 || !(xs.all isFin && ys.all isFin) then inOrder
  else chooseWithin (clog2 ps.length + 1) (ps.map (fun p => dyMul (toDy p.1) (toDy p.2))) cand inOrder

/-! ### The MXE (R28–R33) -/

/-- The row of Table 02-3 a format belongs to; 0 for none. -/
def mxeGroup (f : Nat) : Nat :=
  if f = 11 ∨ f = 12 then 1 else if f = 5 ∨ f = 6 then 2 else if 7 ≤ f ∧ f ≤ 10 then 3 else if f = 3 then 4
  else if f = 4 then 5 else if f = 2 then 6 else 0

def mxePair (a b : Nat) : Bool := mxeGroup a != 0 && mxeGroup a == mxeGroup b

/-- The 12-bit high part of an FP32 significand and the low part (R31). -/
def splitHi (v : Val) : Val :=
  match v with
  | .fin n m e => if m < 4096 then v else let k := Nat.log2 m - 11; .fin n (m >>> k) (e + k)
  | v => v

def splitLo (v : Val) : Val :=
  match v with
  | .fin n m e => if m < 4096 then .fin n 0 e else let k := Nat.log2 m - 11; .fin n (m % 2 ^ k) e
  | _ => valZero

/-- One block of R29: the exact block sum, rounded to FP32, then added to the accumulator. -/
def mxeBlock (acc : Val) (ps : List (Val × Val)) : Flg Val := do
  let sum ← ps.foldlM (fun a p => do addX a (← mulX p.1 p.2)) valZero
  add32 acc (← rnd32 sum)

/-- One step of R30 over up to 16 pairs. -/
def mxeStep (acc : Val) (ps : List (Val × Val)) : Flg Val := do
  let prods ← ps.mapM (fun p => mulX p.1 p.2)
  step16 acc prods

/-- The exact product of two FP32 numbers as the four passes of R31 form it: high·high, high·low, low·high, low·low. -/
def mulPasses (a b : Val) : Flg Val :=
  match a, b with
  | .fin _ (_ + 1) _, .fin _ (_ + 1) _ =>
    let p (x y : Val) := dyMul (toDy x) (toDy y)
    pure (ofDy (dySum [p (splitHi a) (splitHi b), p (splitHi a) (splitLo b), p (splitLo a) (splitHi b),
      p (splitLo a) (splitLo b)]))
  | _, _ => mulX a b

/-- One step of R31: 16 exact FP32 products accumulate as R30 lays down, with one rounding (log entry 108). -/
def mxeStep32 (acc : Val) (ps : List (Val × Val)) : Flg Val := do
  step16 acc (← ps.mapM (fun p => mulPasses p.1 p.2))

/-- An FP32 accumulation on the MXE for the group of the pair: of one block or step fixed by R29 and R30, of more free
within the bound of Table 02-8. -/
def mxeDot (grp cand : Nat) (xs ys : List Val) : Flg Val :=
  let ps := xs.zip ys
  let len := if grp = 2 ∨ grp = 3 then 32 else 16
  let step := if grp = 2 ∨ grp = 3 then mxeBlock else if grp = 6 then mxeStep32 else mxeStep
  let inOrder := (pieces len ps).foldlM step valZero
  if ps.length ≤ len || !(ps.all (fun p => isFin p.1 && isFin p.2)) then inOrder
  else chooseWithin (ceilDiv ps.length len + 1) (ps.map (fun p => dyMul (toDy p.1) (toDy p.2))) cand inOrder

/-- The largest INT32. -/
def int32Max : Int := 2 ^ 31 - 1
def int32Min : Int := -(2 ^ 31)

/-- Hold an integer within INT32. -/
def clamp32 (i : Int) : Int := max int32Min (min int32Max i)

/-- An INT32 accumulation (R32): exact where no order can saturate. Elsewhere the order of the products decides: where
their sum is no INT32 every order saturates, else it is free whether one does; a saturated result is free between that of
the order with the positive products first and that with the negative ones first, and sets overflow. -/
def mxeDotInt (cand : Nat) (xs ys : List Val) : Flg Int := do
  let ps := (xs.zip ys).map (fun p => rneInt p.1 * rneInt p.2)
  let pos := ps.foldl (fun a p => if p > 0 then a + p else a) 0
  let neg := ps.foldl (fun a p => if p < 0 then a + p else a) 0
  let sum := pos + neg
  if pos ≤ int32Max ∧ int32Min ≤ neg then pure sum
  else if int32Min ≤ sum ∧ sum ≤ int32Max ∧ cand % 2 = 0 then pure sum
  else do
    raise flOverflow
    let lo := clamp32 (clamp32 pos + neg)
    let hi := clamp32 (clamp32 neg + pos)
    pure (max lo (min hi (toSigned 32 (cand / 2))))

/-- Saturate an accumulator sum to INT32 (R32, R91). -/
def sat32 (i : Int) : Flg Int :=
  if i < int32Min then do raise flOverflow; pure int32Min
  else if i > int32Max then do raise flOverflow; pure int32Max
  else pure i

end Sys2Proof.Machine
end

