-- ==== Sys2Proof/Machine/OpInfo.lean ====
section
/-! DEFINITION. What checking needs to know of an operation (Table 03-5), and the shared helpers of the
operations' own checks (R87). -/

namespace Sys2Proof.Machine

/-- What an operation runs on (R66, R165, R188, R268). -/
inductive Unit_ where
  | cores
  | solver
  | clearance
  | carafe
deriving DecidableEq, Repr

/-- What the dispatcher judges of one descriptor, in the order of Table 03-5. -/
structure OpInfo where
  ext : Bool
  /-- Reserved bit ranges (first bit, length) of the operation's bytes, and of what they point to. -/
  resv : List (Nat × Nat)
  resvOk : Bool
  /-- Check 9: the first status that applies. -/
  fmt : Option Nat
  /-- Check 12, in the order of R87. -/
  lim : Option Nat
  /-- Check 13. -/
  fit : Option Nat
  /-- Check 14: the operand and result ranges. -/
  rngs : List Rng
  /-- Judged at the position of check 14 beside the ranges. -/
  pos14 : Option Nat
  gang : Nat
  unit : Unit_
deriving DecidableEq, Repr

/-- The status of the first condition that does not hold. -/
def firstFail : List (Bool × Nat) → Option Nat
  | [] => none
  | (ok, st) :: t => if ok then firstFail t else some st

/-- Is every format code of a list valid (R23)? -/
def fmtsValid (l : List Nat) : Bool := l.all fmtValid

/-- `lo ≤ x ≤ hi`. -/
def within (x lo hi : Nat) : Bool := decide (lo ≤ x ∧ x ≤ hi)

def aligned (a k : Nat) : Bool := a % k == 0

/-- No written range of the list overlaps a read one (R87 step 3). -/
def outsClear (l : List Rng) : Bool :=
  l.all (fun w => !w.wr || l.all (fun r => r.wr || !(overlap w.a w.n r.a r.n)))

def rdTile (a n : Nat) : Rng := ⟨a, n, false, true⟩
def rdLin (a n : Nat) : Rng := ⟨a, n, false, false⟩
def wrTile (a n : Nat) : Rng := ⟨a, n, true, true⟩
def wrLin (a n : Nat) : Rng := ⟨a, n, true, false⟩

/-- Does a byte range lie in hub SRAM outside the staging SRAM? `stg` is where staging begins. -/
def inHub (a n : Nat) : Bool :=
  decide (0x030000000000 ≤ a ∧ a + n ≤ 0x030002000000) || decide (0x020080000000 ≤ a ∧ a + n ≤ 0x020082000000)

/-- The header's format bytes. -/
def Desc.inF (d : Desc) : Nat := d.f 2 1
def Desc.outF (d : Desc) : Nat := d.f 3 1

/-- A status code's class (Table 00-6). -/
def stClass (st : Nat) : Nat := st / 256

end Sys2Proof.Machine
end

