-- ==== Sys2Proof/Machine/Carafe.lean ====
section
/-! DEFINITION. Carafe (chapter 11): footprints, quotas, allocation, eviction, holds, and the operations on
objects, tiles and unit flash. -/

namespace Sys2Proof.Machine

def mib : Nat := 1048576
def kib64 : Nat := 65536

/-! ### Contexts as Carafe sees them -/

def State.cls (s : State) (c : Nat) : Nat := s.od 0x5000 0x04 c
def State.home (s : State) (c : Nat) : Nat := s.od 0x5000 0x06 c
def State.shadowDie (s : State) (c : Nat) : Nat := s.od 0x5000 0x07 c
def State.ident (s : State) (c : Nat) : Nat := s.od 0x5000 0x08 c

/-- Class S or C: its quota is a reservation (R273). -/
def State.isSC (s : State) (c : Nat) : Bool := decide (s.cls c ≤ 1)

/-! ### Objects -/

def Obj.comp (o : Obj) : Bool := o.flags.testBit 0
def Obj.spillPol (o : Obj) : Bool := o.flags.testBit 1
def Obj.fallback (o : Obj) : Bool := o.flags.testBit 2
def Obj.sparse (o : Obj) : Bool := o.flags.testBit 3

/-- The tier whose memory an address names: 0 DRAM, 1 lake, 2 cluster SRAM. -/
def addrTier (a : Nat) : Nat :=
  if a < 2 ^ 36 then 0 else if a % 0x20000000 ≥ 0x06000000 then 1 else 2

/-- Does the object occupy memory of its tier? -/
def Obj.inMem (o : Obj) : Bool :=
  decide (o.kind ≠ 3) && (decide (o.st = .present) || decide (o.st = .destroying) || decide (o.st = .placing))

/-- The unit of a tier (R263). -/
def tierUnit (t : Nat) : Nat := if t = 0 ∨ t = 3 then kib64 else 4096

/-- The footprint of R267 in tier `t`. -/
def footprint (kind fmt flags size t : Nat) : Nat :=
  if kind = 3 then 0
  else
    let tags := if flags.testBit 0
      then roundUp (2 * ceilDiv size (max 1 (tileBytes fmt (flags.testBit 3)))) 64 else 0
    roundUp (size + tags) (tierUnit t)

/-- State bytes of a stream (Table 06-3). -/
def strBytes (kind size states : Nat) (comp : Bool) : Nat :=
  match kind with
  | 1 => if comp then 12 * size else 8 * size
  | 2 => if comp then 8 * size else 4 * size
  | _ => if comp then 8 * size * states else 4 * size * states

def Strm.bytes (x : Strm) : Nat := strBytes x.kind x.size x.states x.comp

/-- Does a page have its 64 KiB of backing (Table 05-2)? -/
def Page.backed (p : Page) : Bool := decide (p.st = .present) || decide (p.st = .refilling)

def natSum {α : Type} (f : α → Nat) (l : List α) : Nat := l.foldl (fun n x => n + f x) 0

/-- The sum of a context's footprints (R273); each of its pages that is not Free counts 64 KiB, with backing or without
(R121). -/
def State.usage (s : State) (c : Nat) : Nat :=
  natSum (fun p => if p.2.owner = c then (if p.2.st = .free ∨ p.2.st = .cold ∨ p.2.st = .discarded then 0
      else p.2.foot) else 0) s.objs
  + natSum (fun p => if p.2.owner = c ∧ p.2.st ≠ .free then kib64 else 0) s.pages

/-- Would `more` bytes keep the context within its quota or reservation (R273)? -/
def State.quotaOk (s : State) (c more : Nat) : Bool :=
  let q := s.od 0x5000 0x17 c
  if s.isSC c then decide (s.usage c + more ≤ (s.ctx c).pool * mib)
  else decide (q = 0) || decide (s.usage c + more ≤ q * mib)

/-! ### Free memory -/

/-- DRAM in use on die `d`, or on all under interleave: objects of every kind and pages (R267). -/
def State.dramUsed (s : State) (d : Nat) : Nat :=
  natSum (fun p => if p.2.inMem ∧ p.2.addr < 2 ^ 36 ∧ (s.interleaved ∨ p.2.addr / 2 ^ 34 = d) then p.2.foot else 0)
    s.objs
  + natSum (fun p => if p.2.backed ∧ (s.interleaved ∨ p.2.die = d) then kib64 else 0) s.pages

/-- The pool of one stack, or of all under interleave, in bytes (R263). -/
def State.poolSize (s : State) : Nat := (if s.interleaved then 64512 else 16128) * mib

def State.dramFree (s : State) (d : Nat) : Nat := s.poolSize - s.dramUsed d

/-- Free DRAM over the whole pool. -/
def State.poolFree (s : State) : Nat :=
  if s.interleaved then s.dramFree 0 else s.dramFree 0 + s.dramFree 1 + s.dramFree 2 + s.dramFree 3

/-- What the reservations of class S and C contexts still keep aside (R273). -/
def State.rsvUnused (s : State) (except : Nat) : Nat :=
  natSum (fun p => if p.1 = except then 0 else p.2.pool * mib - s.usage p.1) s.ctxs

/-- Does any object of any kind lie in DRAM, or any key-value page exist (R18)? -/
def State.anyDram (s : State) : Bool :=
  s.objs.any (fun p => (p.2.inMem && decide (p.2.addr < 2 ^ 36)) || (p.2.kind == 3 && decide (p.2.st ≠ .free)))
  || s.pages.any (fun p => decide (p.2.st ≠ .free))

/-- Has `n` bytes of DRAM free room for context `c` on die `d`? -/
def State.roomFor (s : State) (c d n : Nat) : Bool :=
  decide (n ≤ s.dramFree d) && (s.isSC c || decide (n + s.rsvUnused c ≤ s.poolFree))

/-! ### Addresses -/

/-- The first address and the size of a tier's memory on a die (Tables 01-6, 01-7; R144, R263). -/
def State.tierBase (s : State) (t d k : Nat) : Nat × Nat :=
  if t = 0 then (if s.interleaved then (0, 63 * 1024 * mib) else (d * 2 ^ 34, 16128 * mib))
  else if t = 1 then (0x020000000000 + d * 0x20000000 + 0x06000000, 16 * mib)
  else (0x020000000000 + d * 0x20000000 + 0x04000000 + k * 0x00400000, 3 * mib)

/-- Do `n` bytes at `a` overlap no object in memory, object `h` apart? -/
def State.addrFree (s : State) (h a n : Nat) : Bool :=
  s.objs.all (fun p => p.1 == h || !(p.2.inMem) || !(overlap a n p.2.addr p.2.foot))

/-- Is `a` an aligned address of the tier with `n` free bytes? -/
def State.addrOk (s : State) (h t d k a n : Nat) : Bool :=
  let (b, sz) := s.tierBase t d k
  decide (b ≤ a ∧ a + n ≤ b + sz) && a % tierUnit t == 0 && s.addrFree h a n

/-- An address for `n` bytes: the preferred one where it is free, else the free choice where it fits, else the
lowest that does (the spec fixes no choice; log entry 30). -/
def State.findAddr (s : State) (h t d k n prefer cand : Nat) : Option Nat :=
  let (b, _) := s.tierBase t d k
  let ends := s.objs.filterMap (fun p => if p.2.inMem then some (roundUp (p.2.addr + p.2.foot) (tierUnit t)) else none)
  let tries := (if prefer = 0 then [] else [prefer]) ++ [cand, b] ++ ends
  tries.find? (fun a => s.addrOk h t d k a n)

/-! ### Holds (R266) -/

/-- The objects whose address range a range of a descriptor touches. -/
def State.objsAt (s : State) (rs : List Rng) : List Nat :=
  s.objs.filterMap (fun p =>
    if p.2.inMem && rs.any (fun r => overlap r.a r.n p.2.addr p.2.size) then some p.1 else none)

def State.objHeld (s : State) (h : Nat) : Bool :=
  let o := s.obj h
  decide (0 < o.holds) || s.descs.any (fun p => p.2.objs.contains h)
    || (o.kind == 5 && s.maps.any (fun p => decide (p.2.st ≠ MapSt.undef) && decide (o.addr ≤ p.2.pool ∧ p.2.pool < o.addr + o.size)))

def State.pageHeld (s : State) (h : Nat) : Bool := s.descs.any (fun p => p.2.pages.contains h)

def State.strHeld (s : State) (n : Nat) : Bool := s.descs.any (fun p => p.2.strs.contains n)

/-- Is an object chosen for a spill? Its grant is revoked from that moment (R281). -/
def State.spilling (s : State) (h : Nat) : Bool := s.spills.any (fun p => p.obj == h)

/-- Is a page in error to be dropped: its holders have ended, it is not pinned, and R137 does not spare it (R283)? -/
def State.dropsBad (s : State) (h : Nat) (p : Page) : Bool :=
  p.bad && !(s.pageHeld h) && decide (p.refs < 65535) && decide (p.st = .present) && !(s.isSC p.owner)

/-- Free the objects that are Destroying and no longer held (R270), and the pages whose count is 0 and whose
last holder has ended (R123), and drop the pages in error (R137, R283). -/
def State.sweepHolds (s : State) : State :=
  let s := { s with objs := AMap.keep (fun h (o : Obj) => !(decide (o.st = ObjSt.destroying) && !(s.objHeld h))) s.objs }
  let kept := AMap.keep (fun h (p : Page) => !(p.refs == 0 && !(s.pageHeld h))) s.pages
  let n := AMap.count s.dropsBad kept
  let drop (h : Nat) (p : Page) : Page := if s.dropsBad h p then { p with st := .absent, goal := p.fill, bad := false } else p
  let s := { s with pages := AMap.mapV drop kept }
  if n = 0 then s else s.bumpOd 0x2410 0x05 n

/-- Make a page Free: it is no longer listed, and its backing reads 0. -/
def State.freePage (s : State) (h : Nat) : State :=
  { s.setPage h Page.zero with mem := cellClear (kvBase + h * kib64) kib64 s.mem }

/-! ### Eviction (R137, R280, R281) -/

/-- Write a 16 B notice into the eviction ring (R281). -/
def State.evictNotice (s : State) (h st trig owner : Nat) : State :=
  let size := s.od 0x2400 0x11
  let n := s.reg (baseCAR + 0x8000) + 1
  let s := s.setReg (baseCAR + 0x8000) n
  if size = 0 then s
  else
    let o := s.od 0x2400 0x10 + (n - 1) % size * 16
    (s.wr (hub (o + 4)) (toBytes 4 h ++ toBytes 1 st ++ toBytes 1 trig ++ toBytes 2 owner ++ toBytes 4 0)).wrHub o 4 n

/-- Drop a KV page to Absent, freeing its 64 KiB (R137). -/
def State.dropPage (s : State) (h trig : Nat) : State :=
  let p := s.page h
  ((({ s.setPage h { p with st := .absent, goal := p.fill } with
      mem := cellClear (kvBase + h * kib64) kib64 s.mem }).bumpOd 0x2410 0x05).bumpReg (baseCAR + 0x10)
    |>.bumpOd 0x2400 0x09).evictNotice h 0x10 trig p.owner

/-- May Carafe drop the page (R137)? -/
def State.dropable (s : State) (h : Nat) : Bool :=
  let p := s.page h
  decide (p.st = .present) && decide (1 ≤ p.refs ∧ p.refs < 65535) && p.claim.isNone && !(s.pageHeld h) && !(s.isSC p.owner)

/-- May Carafe evict the object at all (R266, R274, Table 11-2)? -/
def State.evictable (s : State) (h : Nat) : Bool :=
  let o := s.obj h
  decide (o.st = .present) && decide (o.kind = 0 ∨ o.kind = 1 ∨ o.kind = 2 ∨ o.kind = 6) && decide (o.addr < 2 ^ 36)
    && !(s.isSC o.owner) && !(s.objHeld h) && !(s.spilling h)

/-- End an object's stay in memory: Cold where its content is in the cold tier, else Discarded (R281). -/
def State.evictObj (s : State) (h trig : Nat) (toCold : Bool) : State :=
  let o := s.obj h
  let o' := { o with st := if toCold then .cold else .discarded, prev := o.addr, addr := 0,
                     coldCur := toCold, lost := !toCold || o.lost }
  (((s.setObj h o').bumpReg (baseCAR + 0x10)).bumpOd 0x2400 0x09).evictNotice h (if toCold then 2 else 3) trig o.owner

/-- Bytes of the cold tier in use (64 KiB units). -/
def State.coldUsed (s : State) : Nat :=
  natSum (fun p => if (p.2.coldCur ∨ p.2.st = .cold) ∧ ((AMap.get? p.2.name s.copies).bind (fun c => c.maker) ≠ some p.1)
    then roundUp p.2.stored kib64 else 0) s.objs
  + natSum (fun p => roundUp p.2.stored kib64) s.copies

def coldCap : Nat := 2 ^ 40

/-- The age stamp that makes the oldest candidate. -/
def oldest (l : List (Nat × Nat)) : Option Nat :=
  (l.foldl (fun (b : Option (Nat × Nat)) p => match b with
    | none => some p
    | some q => if p.2 < q.2 then some p else some q) none).map (fun p => p.1)

/-- Is a page or an object address on die `d`; 4 stands for any? -/
def State.onDie (s : State) (die d : Nat) : Bool := s.interleaved || d == 4 || die == d

/-- Pass 1: what needs no write, oldest first. Keys: objects 2h, pages 2h+1. -/
def State.pass1 (s : State) (d : Nat) : Option Nat :=
  oldest ((s.objs.filterMap (fun p =>
      if s.evictable p.1 && (p.2.coldCur || !(p.2.spillPol)) && s.onDie (p.2.addr / 2 ^ 34) d
      then some (2 * p.1, p.2.stamp) else none))
    ++ (s.pages.filterMap (fun p =>
      if s.dropable p.1 && p.2.refs == 1 && s.onDie p.2.die d then some (2 * p.1 + 1, p.2.stamp) else none)))

/-- Pass 2: shared pages. -/
def State.pass2 (s : State) (d : Nat) : Option Nat :=
  if s.od 0x2410 0x07 = 0 then
    oldest (s.pages.filterMap (fun p =>
      if s.dropable p.1 && s.onDie p.2.die d then some (2 * p.1 + 1, p.2.stamp) else none))
  else none

/-- Pass 3: objects to spill, skipped when the cold tier is full. -/
def State.pass3 (s : State) (d : Nat) : Option Nat :=
  oldest (s.objs.filterMap (fun p =>
    if s.evictable p.1 && p.2.spillPol && !(p.2.coldCur) && s.onDie (p.2.addr / 2 ^ 34) d
        && decide (s.coldUsed + roundUp p.2.size kib64 ≤ coldCap)
    then some (p.1, p.2.stamp) else none))

/-- One eviction of pass 1 or 2 on die `d`. -/
def State.evictOne (s : State) (d trig : Nat) : Option State :=
  match s.pass1 d with
  | some k => some (if k % 2 = 0 then s.evictObj (k / 2) trig (s.obj (k / 2)).coldCur else s.dropPage (k / 2) trig)
  | none =>
    match s.pass2 d with
    | some k => some (s.dropPage (k / 2) trig)
    | none => none

/-- Evict without writes until `goal` holds; `fuel` bounds the candidates. -/
def evictUntil (d trig : Nat) (goal : State → Bool) : Nat → State → State
  | 0, s => s
  | n + 1, s =>
    if goal s then s
    else match s.evictOne d trig with
      | some s' => evictUntil d trig goal n s'
      | none => s

def State.evictFuel (s : State) : Nat := s.objs.length + s.pages.length

/-- The DRAM that spills in progress will free on die `d`. -/
def State.spillFoot (s : State) (d : Nat) : Nat :=
  natSum (fun p => let o := s.obj p.obj; if s.onDie (o.addr / 2 ^ 34) d then o.foot else 0) s.spills

/-- Start spills of pass 3 until what they will free, with what is free, meets `need`. -/
def spillUntil (d trig need : Nat) : Nat → State → State
  | 0, s => s
  | n + 1, s =>
    if need ≤ s.dramFree d + s.spillFoot d then s
    else match s.pass3 d with
      | some h => spillUntil d trig need n { s with spills := s.spills ++ [{ obj := h, trigger := trig }] }
      | none => s

/-- How an allocation of DRAM ends. -/
inductive Room where
  | ok (s : State)
  | wait (s : State)
  | none_ (s : State)

/-- Make room for `n` bytes of context `c` on die `d` (R280): evict, then spill; `wait` while a spill runs. -/
def State.makeRoom (s : State) (c d n : Nat) : Room :=
  let s := evictUntil d 1 (fun s => s.roomFor c d n) s.evictFuel s
  if s.roomFor c d n then .ok s
  else
    let s := spillUntil d 1 (roundUp n kib64 + (if s.isSC c then 0 else s.rsvUnused c)) s.evictFuel s
    if s.spills.isEmpty then .none_ s else .wait s

/-! ### Pages: allocation (R124, R137) -/

/-- The lowest `n` Free handles from `h` on that nothing holds (fuel: how many handles to look at). -/
def State.freeHandles (s : State) (n : Nat) : Nat → Nat → List Nat
  | 0, _ => []
  | fuel + 1, h =>
    if n = 0 ∨ h ≥ 1048576 then []
    else if (AMap.get? h s.pages).isNone ∧ ¬ s.pageHeld h then h :: s.freeHandles (n - 1) fuel (h + 1)
    else s.freeHandles n fuel (h + 1)

/-- The first die of a list that has room for one more page of context `c`, after drops; what is dropped stays dropped
(R281). -/
def State.pageRoom (c : Nat) : List Nat → State → Option Nat × State
  | [], s => (none, s)
  | d :: t, s =>
    let s := evictUntil d 1 (fun s => s.roomFor c d kib64) s.evictFuel s
    if s.roomFor c d kib64 then (some d, s) else State.pageRoom c t s

/-- The dies in the order in which a page looks for room: the hinted one first. -/
def hintDies (hint : Nat) : List Nat := if hint < 4 then hint :: [0, 1, 2, 3].filter (· ≠ hint) else [0, 1, 2, 3]

/-- A die for one more page: one that has room, else one where drops make it. -/
def State.pageDie (s : State) (c hint : Nat) : Option Nat × State :=
  match (hintDies hint).find? (fun d => s.roomFor c d kib64) with
  | some d => (some d, s)
  | none => State.pageRoom c (hintDies hint) s

/-- Make handle `h` a new page on die `d`. Its operation claims it, so that what the operation allocates next does not drop
it (R124: all or nothing). -/
def State.newPage (s : State) (c d h first : Nat) : State :=
  let s' := s.setPage h { Page.zero with
    st := .present, refs := 1, first := first, die := d, owner := c, stamp := s.carTime, claim := some 0 }
  { s' with mem := cellClear (kvBase + h * kib64) kib64 s'.mem }

/-- Does the context have a kind 3 object (R265)? -/
def State.hasCache (s : State) (c : Nat) : Bool :=
  s.objs.any (fun p => p.2.owner == c && p.2.kind == 3 && decide (p.2.st = .present))

/-- Allocate a page for each of `firsts`, all or none (R124): the handles, and the state, in which what was dropped to make
room stays dropped (R281). -/
def allocPages (c hint : Nat) : List Nat → State → Option (List Nat) × State
  | [], s => (some [], s)
  | f :: t, s =>
    match s.freeHandles 1 (s.pages.length + s.descs.length * 65536 + 1) 0 with
    | [] => (none, s)
    | h :: _ =>
      if s.quotaOk c kib64 then
        match s.pageDie c hint with
        | (none, s') => (none, s')
        | (some d, s') =>
          match allocPages c hint t (s'.newPage c d h f) with
          | (some hs, s'') => (some (h :: hs), s'')
          | (none, s'') => (none, s''.freePage h)
      else (none, s)

/-- Start on-demand spills for `n` pages of context `c` (pass 3 of R280): none where no spill can free room. -/
def State.pageSpill (s : State) (c hint n : Nat) : Option State :=
  if s.quotaOk c (n * kib64) then
    let s' := (hintDies hint).foldl (fun (s : State) d =>
      if s.spills.isEmpty then spillUntil d 1 (n * kib64 + (if s.isSC c then 0 else s.rsvUnused c)) s.evictFuel s else s) s
    if s'.spills.isEmpty then none else some s'
  else none

/-! ### Objects the module creates itself: stream backings and save areas (Table 11-2) -/

/-- The lowest Free object handle. -/
def freeHandle (t : AMap Obj) : Nat → Nat → Option Nat
  | 0, _ => none
  | n + 1, h => if (AMap.get? h t).isNone then some h else freeHandle t n (h + 1)

def State.newHandle (s : State) : Option Nat := freeHandle s.objs (min 65536 (s.objs.length + 1)) 0

/-- Create a DRAM object of kind `kind` and `size` bytes for context `c` on die `d`: the handle, and the state.
`foot` is its footprint; `charge` says whether the context's quota is judged (R69). -/
def State.makeObj (s : State) (kind c d size foot : Nat) (charge : Bool) : Option (Nat × State) :=
  if charge && !(s.quotaOk c foot) then none
  else
    let s := evictUntil d 1 (fun s => s.roomFor c d foot) s.evictFuel s
    if !(s.roomFor c d foot) then none
    else match s.newHandle with
      | none => none
      | some h =>
        let (k, s) := s.draw
        let cand := Config.free k 0 / kib64 * kib64
        match s.findAddr h 0 d 0 foot 0 cand with
        | none => none
        | some a => some (h, s.setObj h { Obj.zero with
            st := .present, kind := kind, die := d, owner := c, size := size, foot := foot, addr := a,
            stamp := s.carTime })

/-- Where an object that could not be made now may be made once spills have freed room (pass 3 of R280): the state with those
spills begun. -/
def State.makeSpill (s : State) (c d foot : Nat) (charge : Bool) : Option State :=
  if charge && !(s.quotaOk c foot) then none
  else match s.makeRoom c d foot with
    | .wait s' => some s'
    | _ => none

/-- Free an object's entry and memory. -/
def State.dropObj (s : State) (h : Nat) : State := { s with objs := AMap.del h s.objs }

/-! ### Tier faults and suspects (R282, R283) -/

/-- Is a status one of the tier faults (R282, R284)? -/
def isTierFault (st : Nat) : Bool := [0x05A0, 0x05A1, 0x05A2, 0x05A5, 0x05A6, 0x05A7].contains st

/-- Count a request that ended with a tier fault, on a die (CAR_TIER_FAULTS, 0x2400:0B, 0x4200+d:62). -/
def State.countTier (s : State) (die st : Nat) : State :=
  if isTierFault st then ((s.bumpReg (baseCAR + 0x30)).bumpOd 0x2400 0x0B).bumpOd (0x4200 + die) 0x62 else s

/-- Mark the object that holds module address `a` suspect (R283); `data` says that the mark records a data error. An address
from `kvBase` on names a byte of a key-value page, which is in error until it is dropped. -/
def State.suspectAt (s : State) (a : Nat) (data : Bool) : State :=
  if kvBase ≤ a ∧ a < kvBase + 1048576 * kib64 then
    let h := (a - kvBase) / kib64
    if data && decide ((s.page h).st = .present) then s.setPage h { s.page h with bad := true } else s
  else match s.objsAt [⟨a, 1, false, false⟩] with
  | h :: _ =>
    let o := s.obj h
    s.setObj h (if o.suspect then { o with badData := o.badData || data }
      else { o with suspect := true, badData := data, suspectOff := a - o.addr })
  | [] => s

end Sys2Proof.Machine
end

