-- ==== Sys2Proof/Machine/CarafeOps.lean ====
section
/-! DEFINITION. The operations of chapter 11: object control, tile copy, unit-flash read. -/

namespace Sys2Proof.Machine

/-- How a Carafe operation answers: done with a status, or waiting for a spill (R281). -/
inductive CRes where
  | done (s : State) (st : Nat)
  | wait (s : State)

/-! ### Object records (Table 11-3) -/

/-- Record `i` of an object control descriptor, as a number of 64 bytes. -/
def objRec (s : State) (d : Desc) (i : Nat) : Nat := s.rd (d.f 24 6 + 64 * i) 64

def objRecs (s : State) (d : Desc) : List Nat := (List.range (d.f 30 2)).map (objRec s d)

def rHandle (w : Nat) : Nat := field w 0 32
def rKind (w : Nat) : Nat := field w 32 8
def rFmt (w : Nat) : Nat := field w 40 8
def rTier (w : Nat) : Nat := field w 48 8
def rDie (w : Nat) : Nat := field w 56 8
def rClus (w : Nat) : Nat := field w 64 8
def rFlags (w : Nat) : Nat := field w 72 8
def rSize (w : Nat) : Nat := field w 128 64
def rName (w : Nat) : Nat := field w 256 128

/-- The code of an object state (Table 11-4). -/
def objStCode : ObjSt → Nat
  | .free => 0 | .present => 1 | .cold => 2 | .discarded => 3 | .placing => 4 | .destroying => 5

/-- Record byte 11. -/
def State.objCond (s : State) (h : Nat) : Nat :=
  let o := s.obj h
  b2n o.suspect + 2 * b2n o.coldCur + 4 * b2n o.lost + 8 * b2n (s.objHeld h)
    + 16 * b2n (o.name != 0 && (AMap.get? o.name s.copies).isSome)

/-- The whole record of a handle (R268); of a Free handle, zeros beside the handle. -/
def State.objRecord (s : State) (h : Nat) : List Byte :=
  let o := s.obj h
  if o.st = .free then toBytes 4 h ++ toBytes 60 0
  else
    toBytes 4 h ++ toBytes 1 o.kind ++ toBytes 1 o.fmt ++ toBytes 1 o.tier ++ toBytes 1 o.die ++ toBytes 1 o.cluster
    ++ toBytes 1 o.flags ++ toBytes 1 (objStCode o.st) ++ toBytes 1 (s.objCond h) ++ toBytes 2 o.owner ++ toBytes 2 0
    ++ toBytes 8 o.size ++ toBytes 8 (if o.st = .present then o.addr else 0) ++ toBytes 16 o.name
    ++ toBytes 8 (if o.suspect then o.suspectOff else 0) ++ toBytes 4 ((s.carTime - o.stamp) / 1000) ++ toBytes 4 0

/-- Write the record of handle `h` to entry `i`. -/
def wrObjRec (s : State) (d : Desc) (i h : Nat) : State := s.wr (d.f 24 6 + 64 * i) (s.objRecord h)

def objectInfo (_s : State) (d : Desc) : OpInfo :=
  let op := d.f 32 1
  let n := d.f 30 2
  let writes := op == 1 || op == 3 || op == 5 || op == 7
  { ext := false, resv := [(33 * 8, 31 * 8)], resvOk := true,
    fmt := firstFail [(d.inF == 0 && d.outF == 0, 0x0330)],
    lim := firstFail
      [(aligned (d.f 24 6) 1, 0x0325), (within n 1 256 && within op 1 9, 0x030B)],
    fit := none, rngs := [⟨d.f 24 6, 64 * n, writes, false⟩], pos14 := none, gang := 1, unit := .carafe }

/-- An operation holds the objects it works on while it does so (R266), or lets them go. -/
def State.holdAll (s : State) (hs : List Nat) (up : Bool) : State :=
  hs.foldl (fun s h => s.setObj h { s.obj h with holds := if up then (s.obj h).holds + 1 else (s.obj h).holds - 1 }) s

/-! ### Create (R269) -/

/-- Does the record keep Table 11-2 and Table 11-3? -/
def createOk (s : State) (c w : Nat) : Bool :=
  let kind := rKind w
  let tier := rTier w
  let fl := rFlags w
  let size := rSize w
  (match kind with
    | 0 => decide (tier ≤ 3) | 1 => decide (tier ≤ 3) | 2 => decide (tier ≤ 2) | 3 => decide (tier = 0)
    | 5 => decide (tier = 0) | 6 => decide (tier = 0) | 7 => decide (tier = 1 ∨ tier = 2) | _ => false)
  && decide (rDie w ≤ 4) && decide (rClus w ≤ 7) && decide (fl < 16)
  && (if fl.testBit 0 then decide (kind ≤ 3) && fmtValid (rFmt w)
        && (!(fl.testBit 3) || decide (1 ≤ mxeGroup (rFmt w) ∧ mxeGroup (rFmt w) ≤ 3))
      else rFmt w == 0 && !(fl.testBit 3))
  && (if kind = 3 then size == 0 && !(s.objs.any (fun p => p.2.owner == c && p.2.kind == 3))
      else match tier with
        | 0 => within size 1 ((if s.interleaved then 64512 else 16128) * mib)
        | 1 => within size 1 (16 * mib)
        | 2 => within size 1 (3 * mib)
        | _ => within size 1 (64 * 1024 * mib))

/-- Is cluster `g` reserved by a context other than `c` (R269)? -/
def State.clusterOther (s : State) (c g : Nat) : Bool := s.ctxs.any (fun p => p.1 != c && p.2.rsvCl.contains g)

/-- The dies an entry may go to, in the order tried. -/
def State.diesFor (s : State) (die : Nat) : List Nat :=
  if s.interleaved then [0] else if die < 4 then [die] else [0, 1, 2, 3]

/-- An SRAM address for the entry, if a tier on a die it may use has room. -/
def sramPlace (s : State) (c h w cand : Nat) : Option (Nat × Nat) :=
  let dies := if rDie w < 4 then [rDie w] else [0, 1, 2, 3]
  let n := footprint (rKind w) (rFmt w) (rFlags w) (rSize w) (rTier w)
  dies.findSome? (fun d =>
    if rTier w = 2 ∧ s.clusterOther c (8 * d + rClus w) then none
    else (s.findAddr h (rTier w) d (rClus w) n 0 cand).map (fun a => (d, a)))

/-- Place one new object in DRAM. -/
def dramPlace (s : State) (c h w cand : Nat) : List Nat → CRes × Option (Nat × Nat)
  | [] => (.done s 0x05A9, none)
  | d :: t =>
    let n := footprint (rKind w) (rFmt w) (rFlags w) (rSize w) 0
    match s.makeRoom c d n with
    | .ok s' =>
      match s'.findAddr h 0 d 0 n 0 cand with
      | some a => (.done s' 0, some (d, a))
      | none => dramPlace s c h w cand t
    | .wait s' => (.wait s', none)
    | .none_ s' => dramPlace s' c h w cand t

/-- The new object's entry, held by the create (R266). -/
def newObj (s : State) (c d a foot w : Nat) (st : ObjSt) : Obj :=
  { Obj.zero with st := st, kind := rKind w, fmt := rFmt w, tier := rTier w, die := rDie w, cluster := rClus w,
                  flags := rFlags w, owner := c, size := rSize w, foot := foot, addr := a, prev := d,
                  stamp := s.carTime, holds := 1 }

/-- Create the entries in order; `.done _ 0` when all are there. -/
def createAll (c : Nat) : List Nat → State → List Nat → CRes × List Nat
  | [], s, hs => (.done s 0, hs)
  | w :: t, s, hs =>
    match s.newHandle with
    | none => (.done s 0x05AD, hs)
    | some h =>
      let (k, s) := s.draw
      let cand := Config.free k 0 / kib64 * kib64
      if rKind w = 3 then createAll c t (s.setObj h (newObj s c 0 0 0 w .present)) (hs ++ [h])
      else if rTier w = 3 then
        if s.coldUsed + roundUp (rSize w) kib64 ≤ coldCap then
          createAll c t (s.setObj h { newObj s c 0 0 0 w .cold with stored := rSize w }) (hs ++ [h])
        else (.done s 0x05AB, hs)
      else
        let viaDram (s : State) : CRes × Option (Nat × Nat) := dramPlace s c h w cand (s.diesFor (rDie w))
        let n := footprint (rKind w) (rFmt w) (rFlags w) (rSize w) (rTier w)
        let n0 := footprint (rKind w) (rFmt w) (rFlags w) (rSize w) 0
        let (r, pl, foot) :=
          if rTier w = 0 then let x := viaDram s; (x.1, x.2, n)
          else match sramPlace s c h w cand with
            | some p => (.done s 0, some p, n)
            | none =>
              if (rFlags w).testBit 2 then
                if s.quotaOk c n0 then let x := viaDram s; (x.1, x.2, n0) else (.done s 0x05A8, none, n0)
              else (.done s 0x05A9, none, n)
        match r, pl with
        | .done s' _, some (d, a) =>
          let s' := s'.setObj h (newObj s' c d a foot w .present)
          createAll c t (s'.scribble a (rSize w)) (hs ++ [h])
        | r, _ => (r, hs)

/-- Create: all or nothing (R269). A failure or a wait keeps only the evictions and the spills begun (R281). -/
def createRun (s : State) (d : Desc) : CRes :=
  let ws := objRecs s d
  let c := d.ctx
  if !(ws.all (createOk s c)) || decide (1 < ws.countP (fun w => rKind w == 3)) then .done s 0x05AA
  else
    let total := natSum (fun w => if rTier w = 3 then 0
      else footprint (rKind w) (rFmt w) (rFlags w) (rSize w) (rTier w)) ws
    if !(s.quotaOk c total) then .done s 0x05A8
    else if s.objs.length + ws.length > 65536 then .done s 0x05AD
    else match createAll c ws s [] with
      | (.done s' 0, hs) => .done (((List.range hs.length).zip hs).foldl (fun s p => wrObjRec s d p.1 p.2) (s'.holdAll hs false)) 0
      | (.done s' st, hs) => .done (hs.foldl (fun s h => s.dropObj h) s') st
      | (.wait s', hs) => .wait (hs.foldl (fun s h => s.dropObj h) s')

/-! ### The other operations on handles -/

/-- Does a record name a handle of the context that is not Free (R264)? -/
def ownHandle (s : State) (c w : Nat) : Bool :=
  decide (rHandle w < 65536) && decide ((s.obj (rHandle w)).st ≠ .free) && decide ((s.obj (rHandle w)).owner = c)

/-- Kinds visible to query only (Table 11-2). -/
def queryOnly (s : State) (w : Nat) : Bool := let k := (s.obj (rHandle w)).kind; k == 4 || k == 8

/-- Destroy one object (R265, R270). -/
def destroyObj (s : State) (h : Nat) : State :=
  let o := s.obj h
  let s := s.setObj h { o with st := .destroying }
  let s := if o.kind = 3 then
      { s with pages := AMap.mapV (fun _ p => if p.owner = o.owner then { p with refs := 0 } else p) s.pages }
    else s
  { s.sweepHolds with spills := s.spills.filter (fun p => p.obj != h) }

def destroyRun (s : State) (d : Desc) : CRes :=
  let ws := objRecs s d
  if !(ws.all (ownHandle s d.ctx)) then .done s 0x05AA
  else if ws.any (fun w => queryOnly s w || decide ((s.obj (rHandle w)).st = .destroying)) then .done s 0x05A4
  else .done (ws.foldl (fun s w => destroyObj s (rHandle w)) s) 0

def queryRun (s : State) (d : Desc) : CRes :=
  let ws := objRecs s d
  if !(ws.all (fun w => decide (rHandle w < 65536)
      && (decide ((s.obj (rHandle w)).st = .free) || decide ((s.obj (rHandle w)).owner = d.ctx)))) then .done s 0x05AA
  else .done (((List.range ws.length).zip ws).foldl (fun s p => wrObjRec s d p.1 (rHandle p.2)) s) 0

def setPolicyRun (s : State) (d : Desc) : CRes :=
  let ws := objRecs s d
  if !(ws.all (ownHandle s d.ctx)) then .done s 0x05AA
  else if !(ws.all (fun w => let o := s.obj (rHandle w)
      !(queryOnly s w) && (decide (o.st = .present) || decide (o.st = .cold)))) then .done s 0x05A4
  else .done (ws.foldl (fun s w =>
    let o := s.obj (rHandle w)
    s.setObj (rHandle w) { o with flags := setField o.flags 1 1 (field (rFlags w) 1 1) }) s) 0

/-- Bring one Cold or Discarded object up to its tier (R271). -/
def placeOne (s : State) (c h : Nat) : CRes :=
  let o := s.obj h
  let (k, s) := s.draw
  let cand := Config.free k 0 / kib64 * kib64
  let n (t : Nat) := footprint o.kind o.fmt o.flags o.size t
  let dies := if s.interleaved ∧ o.tier = 0 then [0] else if o.die < 4 then [o.die] else [0, 1, 2, 3]
  let put (s : State) (a foot : Nat) : CRes :=
    let s := s.setObj h { o with st := .present, addr := a, foot := foot, stamp := s.carTime }
    let s := if o.st = .cold then
        let t := s.paste a o.size (cellSlice (coldBase + h * coldSpan) o.size s.mem)
        t.bumpReg (baseCAR + 0x20) o.stored
      else s.paste a o.size []
    .done s 0
  if !(s.quotaOk c (n o.tier)) then .done s 0x05A8
  else if o.tier = 0 then
    dies.foldr (fun d rest =>
      match s.makeRoom c d (n 0) with
      | .ok s' =>
        match s'.findAddr h 0 d 0 (n 0) (if addrTier o.prev = 0 then o.prev else 0) cand with
        | some a => put s' a (n 0)
        | none => rest
      | .wait s' => .wait s'
      | .none_ _ => rest) (.done s 0x05A9)
  else
    match dies.findSome? (fun d =>
      if o.tier = 2 ∧ s.clusterOther c (8 * d + o.cluster) then none
      else s.findAddr h o.tier d o.cluster (n o.tier) o.prev cand) with
    | some a => put s a (n o.tier)
    | none =>
      if o.fallback then
        if !(s.quotaOk c (n 0)) then .done s 0x05A8
        else dies.foldr (fun d rest =>
          match s.makeRoom c d (n 0) with
          | .ok s' =>
            match s'.findAddr h 0 d 0 (n 0) 0 cand with
            | some a => put s' a (n 0)
            | none => rest
          | .wait s' => .wait s'
          | .none_ _ => rest) (.done s 0x05A9)
      else .done s 0x05A9

/-- Place entries in order; each placed entry's record is written back, as it reads once the place lets go of it. -/
def placeAll (d : Desc) : List (Nat × Nat) → State → Nat → CRes
  | [], s, st => .done s st
  | (i, h) :: t, s, st =>
    let o := s.obj h
    if o.st = .present then placeAll d t s (if st = 0 then 0x01A1 else min st 0x01A1)
    else match placeOne s d.ctx h with
      | .done s' 0 => placeAll d t (s'.wr (d.f 24 6 + 64 * i) ((s'.holdAll [h] false).objRecord h))
          (if o.st = .discarded then (if st = 0 then 0x01A2 else st) else st)
      | .done s' st' => .done s' st'
      | .wait s' => .wait s'

def placeJudge (s : State) (d : Desc) : Nat :=
  let ws := objRecs s d
  if !(ws.all (ownHandle s d.ctx)) then 0x05AA
  else if !(ws.all (fun w => let o := s.obj (rHandle w)
      !(queryOnly s w) && decide (o.tier ≤ 2)
      && (decide (o.st = .present) || decide (o.st = .cold) || decide (o.st = .discarded)))) then 0x05A4
  else 0

/-- A place that waits for a spill has placed nothing yet: its objects and records are as they were, and only the evictions
made and the spills begun stay (R271, R281). -/
def placeBack (s : State) (d : Desc) (hs : List Nat) (t : State) : State :=
  let t := hs.foldl (fun t h => if (s.obj h).st = .present then t else t.setObj h (s.obj h)) t
  (t.wr (d.f 24 6) (s.rdBytes (d.f 24 6) (64 * hs.length))).setReg (baseCAR + 0x20) (s.reg (baseCAR + 0x20))

/-- Place the first `n` entries; `n` is the count but where a cold read fails (R271). -/
def placeRun (s : State) (d : Desc) (n : Nat) : CRes :=
  let ws := objRecs s d
  match placeJudge s d with
  | 0 =>
    let hs := ws.map rHandle
    match placeAll d (((List.range ws.length).zip hs).take n) (s.holdAll hs true) 0 with
    | .done s' st => .done (s'.holdAll hs false) st
    | .wait s' => .wait (placeBack s d hs (s'.holdAll hs false))
  | st => .done s st

/-- Is the name free for this object to persist under (R272)? -/
def nameOk (s : State) (h name : Nat) : Bool :=
  match AMap.get? name s.copies with
  | none => true
  | some cp =>
    match cp.maker with
    | none => true
    | some m => m == h || decide ((s.obj m).st = .free) || cp.ver == (s.obj h).openVer

/-- Stored bytes of content: compressed where the codec applies, never more than the content (R275, R276). -/
def storedBytes (comp : Bool) (k size : Nat) : Nat := if comp then Config.free k 0 % (size + 1) else size

def persistOne (s : State) (w : Nat) : State :=
  let h := rHandle w
  let o := s.obj h
  let (k, s) := s.draw
  let st := storedBytes o.comp k o.size
  let cells := s.slice o.addr o.size
  let s := { s with
    copies := AMap.ins (rName w) { kind := o.kind, fmt := o.fmt, flags := o.flags, size := o.size, maker := some h,
                                   stored := st, ver := s.nextId + 1, data := cells } s.copies,
    nextId := s.nextId + 1,
    mem := cellPaste 0 (coldBase + h * coldSpan) cells (cellClear (coldBase + h * coldSpan) o.size s.mem) }
  (s.setObj h { o with name := rName w, coldCur := true, stored := st }).bumpReg (baseCAR + 0x28) st

def persistRun (s : State) (d : Desc) : CRes :=
  let ws := objRecs s d
  let news := (ws.map rName).eraseDups.filter (fun n => (AMap.get? n s.copies).isNone)
  if !(ws.all (ownHandle s d.ctx)) then .done s 0x05AA
  else if !(ws.all (fun w => let o := s.obj (rHandle w); decide (o.st = .present) && decide (o.kind ≤ 1))) then
    .done s 0x05A4
  else if !(ws.all (fun w => rName w != 0 && nameOk s (rHandle w) (rName w))) then .done s 0x05AC
  else if s.copies.length + news.length > 16384
      || s.coldUsed + natSum (fun w => roundUp (s.obj (rHandle w)).size kib64) ws > coldCap then .done s 0x05AB
  else .done (ws.foldl persistOne s) 0

/-- Open one persistent copy (R272). -/
def openOne (s : State) (d : Desc) (i w : Nat) : State :=
  match s.newHandle, AMap.get? (rName w) s.copies with
  | some h, some cp =>
    let s := s.setObj h { Obj.zero with
      st := .cold, kind := cp.kind, fmt := cp.fmt, tier := rTier w, die := rDie w, cluster := rClus w,
      flags := cp.flags, owner := d.ctx, size := cp.size, name := rName w, coldCur := true, stored := cp.stored,
      openVer := cp.ver, stamp := s.carTime }
    wrObjRec { s with
      mem := cellPaste 0 (coldBase + h * coldSpan) cp.data (cellClear (coldBase + h * coldSpan) cp.size s.mem) } d i h
  | _, _ => s

def openPersRun (s : State) (d : Desc) : CRes :=
  let ws := objRecs s d
  if !(ws.all (fun w => rName w != 0 && (AMap.get? (rName w) s.copies).isSome)) then .done s 0x05AC
  else if !(ws.all (fun w => decide (rDie w ≤ 4) && decide (rClus w ≤ 7) && (match AMap.get? (rName w) s.copies with
      | none => false
      | some cp => match rTier w with
        | 0 => decide (cp.size ≤ (if s.interleaved then 64512 else 16128) * mib)
        | 1 => decide (cp.size ≤ 16 * mib) | 2 => decide (cp.size ≤ 3 * mib) | 3 => true | _ => false))) then
    .done s 0x05AA
  else if s.objs.length + ws.length > 65536 then .done s 0x05AD
  else .done (((List.range ws.length).zip ws).foldl (fun s p => openOne s d p.1 p.2) s) 0

/-- Clear suspect (R283): `bad` lists the handles in which an uncorrectable error remains. -/
def clearSuspectRun (s : State) (d : Desc) (bad : List Nat) : CRes :=
  let ws := objRecs s d
  if !(ws.all (ownHandle s d.ctx)) then .done s 0x05AA
  else if !(ws.all (fun w => !(queryOnly s w) && decide ((s.obj (rHandle w)).st = .present))) then .done s 0x05A4
  else
    let s' := ws.foldl (fun s w =>
      let o := s.obj (rHandle w)
      if bad.contains (rHandle w) then s
      else s.setObj (rHandle w) { o with suspect := false, badData := false, suspectOff := 0 }) s
    .done s' (if ws.any (fun w => bad.contains (rHandle w)) then 0x05A0 else 0)

def deletePersRun (s : State) (d : Desc) : CRes :=
  let ws := objRecs s d
  if !(ws.all (fun w => rName w != 0 && (AMap.get? (rName w) s.copies).isSome)) then .done s 0x05AC
  else .done (ws.foldl (fun s w => { s with copies := AMap.del (rName w) s.copies }) s) 0

/-! ### Tile copy (R279) -/

def tcBytes (d : Desc) : Nat :=
  if (d.f 72 1).testBit 2 then d.f 64 8 else d.f 60 4 * tileBytes d.inF ((d.f 72 1).testBit 3)

def tileCopyInfo (_s : State) (d : Desc) : OpInfo :=
  let fl := d.f 72 1
  let srcCold := fl.testBit 0
  let dstCold := fl.testBit 1
  let lin := fl.testBit 2
  let n := tcBytes d
  let unit := if lin then 64 else max 1 (tileBytes d.inF (fl.testBit 3))
  let rs := (if srcCold then [] else [⟨d.f 24 6, n, false, !lin⟩])
    ++ (if dstCold then [] else [⟨d.f 30 6, n, true, !lin⟩])
  { ext := true, resv := [(72 * 8 + 4, 4), (73 * 8, 55 * 8)], resvOk := true,
    fmt := firstFail [(if lin then d.inF == 0 && d.outF == 0 else fmtsValid [d.inF, d.outF], 0x0330)],
    lim := firstFail
      [(srcCold || lin || aligned (d.f 24 6) 64, 0x0325), (dstCold || lin || aligned (d.f 30 6) 64, 0x0325),
       (outsClear rs, 0x0322),
       (!(srcCold && dstCold) && d.inF == d.outF
          && (if lin then d.f 60 4 == 0 && within (d.f 64 8) 1 68719476736
              else within (d.f 60 4) 1 16777216 && d.f 64 8 == 0)
          && (!srcCold || d.f 44 8 % unit == 0) && (!dstCold || d.f 52 8 % unit == 0)
          && (!(fl.testBit 3) || (!lin && decide (1 ≤ mxeGroup d.inF ∧ mxeGroup d.inF ≤ 3))), 0x03A0)],
    fit := none, rngs := rs, pos14 := none, gang := 1, unit := .carafe }

/-- The objects wholly covered by a written range. -/
def State.covered (s : State) (a n : Nat) : List Nat :=
  s.objs.filterMap (fun p =>
    if p.2.inMem && decide (a ≤ p.2.addr ∧ p.2.addr + p.2.size ≤ a + n) then some p.1 else none)

/-- A cold side of a tile copy: the handle names a Cold object of the context (0x05AA), within its size (0x05A4). -/
def coldSide (s : State) (d : Desc) (h off : Nat) (lin : Bool) : Nat :=
  let o := s.obj h
  if !(decide (h < 65536) && decide (o.st = .cold) && decide (o.owner = d.ctx) && (!lin || !(o.comp))) then 0x05AA
  else if off + tcBytes d ≤ o.size then 0 else 0x05A4

/-- Count bytes through the codecs for the compressed objects a written range touches (R275, Table 11-13). -/
def State.codecCount (s : State) (a n : Nat) : State :=
  if (s.objsAt [⟨a, n, true, true⟩]).any (fun h => (s.obj h).comp) then
    let (k, s) := s.draw
    (s.bumpReg (baseCAR + 0x38) n).bumpReg (baseCAR + 0x40) (Config.free k 0 % (n + 1))
  else s

def tileCopyRun (s : State) (d : Desc) : CRes :=
  let fl := d.f 72 1
  let lin := fl.testBit 2
  let n := tcBytes d
  if fl.testBit 0 then
    match coldSide s d (d.f 36 4) (d.f 44 8) lin with
    | 0 =>
      let s := s.paste (d.f 30 6) n (cellSlice (coldBase + d.f 36 4 * coldSpan + d.f 44 8) n s.mem)
      let s := (s.bumpReg (baseCAR + 0x20) n).codecCount (d.f 30 6) n
      .done ((s.covered (d.f 30 6) n).foldl (fun s h =>
        s.setObj h { s.obj h with suspect := false, badData := false, lost := false, suspectOff := 0 }) s) 0
    | st => .done s st
  else if fl.testBit 1 then
    match coldSide s d (d.f 40 4) (d.f 52 8) lin with
    | 0 =>
      let h := d.f 40 4
      let lo := coldBase + h * coldSpan + d.f 52 8
      let s := { s with mem := cellPaste 0 lo (s.slice (d.f 24 6) n) (cellClear lo n s.mem) }
      let o := s.obj h
      let whole := decide (d.f 52 8 = 0 ∧ n = o.size)
      let s := s.setObj h { o with coldCur := true, suspect := o.suspect && !whole, badData := o.badData && !whole,
                                   lost := o.lost && !whole }
      .done (s.bumpReg (baseCAR + 0x28) n) 0
    | st => .done s st
  else
    let s := (s.copyMem (d.f 24 6) (d.f 30 6) n).codecCount (d.f 30 6) n
    .done ((s.covered (d.f 30 6) n).foldl (fun s h =>
      s.setObj h { s.obj h with suspect := false, badData := false, lost := false, suspectOff := 0 }) s) 0

/-! ### Unit-flash read (R285) -/

/-- The readable partitions of Table 11-9. -/
def flashParts : List (Nat × Nat) :=
  [(0x000000, 0x40000), (0x040000, 0x40000), (0x080000, 0x40000), (0x100000, 0x200000), (0x400000, 0xC00000)]

def flashReadInfo (_s : State) (d : Desc) : OpInfo :=
  let o := d.f 24 4
  let n := d.f 28 4
  { ext := false, resv := [(38 * 8, 26 * 8)], resvOk := true,
    fmt := firstFail [(d.inF == 0 && d.outF == 0, 0x0330)],
    lim := firstFail
      [(within n 1 12582912, 0x030B),
       (flashParts.any (fun p => decide (p.1 ≤ o ∧ o + n ≤ p.1 + p.2)), 0x03A2)],
    fit := none, rngs := [wrLin (d.f 32 6) n], pos14 := none, gang := 1, unit := .carafe }

/-- A byte of unit flash: the unit-record partitions hold what the factory wrote (free), erased flash reads 0xFF. -/
def State.flashAt (s : State) (o : Nat) : Byte :=
  if o < 0x80000 then BitVec.ofNat 8 (Config.unitRecord o) else cellGet 0xFF o s.flash

def State.flashBytes (s : State) (o n : Nat) : List Byte := (List.range n).map (fun i => s.flashAt (o + i))

def State.wrFlash (s : State) (o : Nat) : List Byte → State
  | [] => s
  | b :: bs => { s with flash := cellSet 0xFF o b s.flash }.wrFlash (o + 1) bs

/-- `n` little-endian bytes of flash as a number. -/
def State.rdFlash (s : State) (o n : Nat) : Nat := ofBytes (s.flashBytes o n)

def flashReadRun (s : State) (d : Desc) : CRes :=
  .done (s.wr (d.f 32 6) (s.flashBytes (d.f 24 4) (d.f 28 4))) 0

end Sys2Proof.Machine
end

