-- ==== Sys2Proof/Machine/Dense.lean ====
section
/-! DEFINITION. Matrix, vector and convolution operations (chapter 04): their checks and what they compute. -/

namespace Sys2Proof.Machine

/-! ### GEMM (R90–R92) -/

/-- GEMM's checks. An output in FP64, which R33 and Table 02-4 do not list, is refused 0x0331. -/
def gemmInfo (_s : State) (d : Desc) : OpInfo :=
  let m := d.f 48 4
  let n := d.f 52 4
  let k := d.f 56 4
  let bf := d.f 60 1
  let bias := (d.f 61 1).testBit 0
  let sp := (d.f 61 1).testBit 1
  let res := (d.f 61 1).testBit 2
  let rf := d.f 70 1
  let ints := mxeGroup d.inF == 1
  let rs := [rdTile (d.f 24 6) (matBytes d.inF false m k), rdTile (d.f 30 6) (matBytes bf sp n k),
      wrTile (d.f 36 6) (matBytes d.outF false m n)]
    ++ (if bias then [rdLin (d.f 42 6) (4 * n)] else [])
    ++ (if res then [rdTile (d.f 64 6) (matBytes rf false m n)] else [])
  { ext := true, resv := [(61 * 8 + 3, 5), (71 * 8, 8), (80 * 8, 48 * 8)], resvOk := true,
    fmt := firstFail
      [(fmtsValid [d.inF, bf, d.outF] && (if res then fmtValid rf else rf == 0), 0x0330),
       (mxeGroup d.inF != 0 && mxeGroup bf != 0 && d.outF != fmtFP64, 0x0331), (mxePair d.inF bf, 0x0332)],
    lim := firstFail
      [(within (d.f 63 1) 1 64, 0x030B),
       (aligned (d.f 24 6) 64 && aligned (d.f 30 6) 64 && aligned (d.f 36 6) 64
          && (!bias || aligned (d.f 42 6) 4) && (!res || aligned (d.f 64 6) 64), 0x0325),
       (outsClear rs, 0x0322),
       (within m 1 1048576 && within n 1 1048576 && within k 1 1048576 && decide (d.f 62 1 ≤ 5), 0x030B),
       (!(ints && d.outF == 13 && (d.f 62 1 != 0 || res)), 0x0323),
       (!(!ints && d.outF == 13), 0x0323),
       (!sp || (mxeGroup bf ≥ 1 && mxeGroup bf ≤ 3), 0x0324)],
    fit := none, rngs := rs, pos14 := none, gang := d.f 63 1, unit := .cores }

/-- The epilogue of R91 on one accumulator: the value that is then converted to the output format. The product
and the bias are one rounding, each other step one more (log entry 20). -/
def epilogue (outF act : Nat) (scale : Val) (zp : Int) (acc : Val) (bias res : Option Val) : Flg Val := do
  let f ← rnd32 acc
  let f ← match bias with
    | some b => do fmaF fmtFP32 f scale (← rnd32 b)
    | none => do fmaF fmtFP32 f scale valZero
  let f ← activate act f
  let f ← match res with
    | some r => add32 f r
    | none => pure f
  if outF = 11 ∨ outF = 12 then
    match f with
    | .fin _ _ _ => pure (valInt (rneInt f + zp))
    | f => pure f
  else pure f

/-- The values GEMM writes, row by row; `k` is the draw of free values. -/
def gemmRows (s : State) (d : Desc) (k : Nat) : Flg (List (List Val)) := do
  let m := d.f 48 4
  let n := d.f 52 4
  let kk := d.f 56 4
  let bf := d.f 60 1
  let fl := d.f 61 1
  let grp := mxeGroup d.inF
  let as ← s.loadMat d.inF (d.f 24 6) m kk
  let bs ← if fl.testBit 1 then s.loadSparse bf (d.f 30 6) n kk else s.loadMat bf (d.f 30 6) n kk
  let bias ← if fl.testBit 0 then
      do pure (some (← s.loadLin (if grp = 1 then 13 else 2) (d.f 42 6) n)) else pure none
  let res ← if fl.testBit 2 then
      do pure (some (← (← s.loadMat (d.f 70 1) (d.f 64 6) m n).mapM (vxeInAll d.ieee (d.f 70 1)))) else pure none
  (List.range m).mapM (fun i => (List.range n).mapM (fun j => do
    let b := bias.map (fun l => at_ l j)
    let r := res.map (fun l => at_ (row l i) j)
    if grp = 1 then
      let acc ← mxeDotInt (Config.free k (i * n + j)) (row as i) (row bs j)
      if d.outF = 13 then do
        let x ← sat32 (acc + (match b with | some v => rneInt v | none => 0))
        pure (valInt x)
      else epilogue d.outF (d.f 62 1) (f32 (d.f 72 4)) (toSigned 32 (d.f 76 4)) (valInt acc) b r
    else do
      let acc ← mxeDot grp (Config.free k (i * n + j)) (row as i) (row bs j)
      epilogue d.outF (d.f 62 1) (f32 (d.f 72 4)) (toSigned 32 (d.f 76 4)) acc b r))

/-- GEMM: the state after it, its status and its flags. -/
def gemmRun (s : State) (d : Desc) : State × Nat × Nat :=
  let m := d.f 48 4
  let n := d.f 52 4
  if (d.f 61 1).testBit 1 && !(s.sparseOk (d.f 60 1) (d.f 30 6) n (d.f 56 4)) then
    ((s.scribble (d.f 36 6) (matBytes d.outF false m n)).bumpOd (0x4200 + d.die) 0x21, 0x0541, 0)
  else
    let (k, s1) := s.draw
    let (bytes, fl) := runFlg (do tileStore d.outF d.ieee m n (← gemmRows s d k))
    (s1.wr (d.f 36 6) bytes, 0x0000, fl)

/-! ### Convolution chains (R93–R100) -/

/-- Record `l` of the layer table, as a number of 64 bytes. -/
def convLayer (s : State) (d : Desc) (l : Nat) : Nat := s.rd (d.f 36 6 + 64 * l) 64

def lf (w o n : Nat) : Nat := (w >>> (8 * o)) % 2 ^ (8 * n)

/-- Does the layer table lie where R87 step 2 asks? -/
def convTblOk (d : Desc) : Bool := inHub (d.f 36 6) (64 * d.f 52 1) && aligned (d.f 36 6) 64

/-- The layer records, as the dispatcher reads them during checking (chapter 04, "Convolution chains"). -/
def convLayers (s : State) (d : Desc) : List Nat :=
  if convTblOk d then (List.range (min (d.f 52 1) 4)).map (convLayer s d) else []

/-- An output extent of R94: none where the numerator is negative. -/
def extent (inn padA padB dil filt stride : Nat) : Option Nat :=
  if inn + padA + padB < dil * (filt - 1) + 1 then none
  else some ((inn + padA + padB - dil * (filt - 1) - 1) / stride + 1)

def layerOutH (w : Nat) : Option Nat :=
  extent (lf w 16 2) (lf w 34 1) (lf w 35 1) (lf w 32 1) (lf w 28 1) (max 1 (lf w 30 1))
def layerOutW (w : Nat) : Option Nat :=
  extent (lf w 18 2) (lf w 36 1) (lf w 37 1) (lf w 33 1) (lf w 29 1) (max 1 (lf w 31 1))

def layerCg (w : Nat) : Nat := lf w 20 4 / max 1 (lf w 50 4)

/-- Columns of a layer's weight matrix (Table 04-8). -/
def layerCols (w : Nat) : Nat := lf w 28 1 * lf w 29 1 * roundUp (layerCg w) 32

/-- The input formats of the layers: in_format, then each layer's output. -/
def layerIns (d : Desc) (ls : List Nat) : List Nat := d.inF :: ls.map (fun w => lf w 48 1)

/-- A layer's own limits (Table 04-8, R95). -/
def layerLimits (w : Nat) : Bool :=
  within (lf w 16 2) 1 16384 && within (lf w 18 2) 1 16384 && within (lf w 20 4) 1 65536
  && within (lf w 24 4) 1 65536 && within (lf w 28 1) 1 15 && within (lf w 29 1) 1 15
  && within (lf w 30 1) 1 8 && within (lf w 31 1) 1 8 && within (lf w 32 1) 1 8 && within (lf w 33 1) 1 8
  && decide (lf w 34 1 ≤ lf w 32 1 * (lf w 28 1 - 1)) && decide (lf w 35 1 ≤ lf w 32 1 * (lf w 28 1 - 1))
  && decide (lf w 36 1 ≤ lf w 33 1 * (lf w 29 1 - 1)) && decide (lf w 37 1 ≤ lf w 33 1 * (lf w 29 1 - 1))
  && within (lf w 38 2) 1 256 && decide (lf w 14 1 ≤ 5)
  && within (lf w 50 4) 1 (lf w 20 4) && lf w 20 4 % max 1 (lf w 50 4) == 0 && lf w 24 4 % max 1 (lf w 50 4) == 0
  && (lf w 50 4 == 1 || (decide (lf w 20 4 / max 1 (lf w 50 4) ≤ 64) && decide (lf w 24 4 / max 1 (lf w 50 4) ≤ 64)))

/-- Is the chain consistent (R94)? -/
def chainOk : List Nat → Bool
  | a :: b :: t =>
    decide (layerOutH a = some (lf b 16 2) ∧ layerOutW a = some (lf b 18 2) ∧ lf a 24 4 = lf b 20 4
      ∧ lf a 38 2 = lf b 38 2) && chainOk (b :: t)
  | _ => true

/-- The working set of R100, in bits. -/
def workingSet : List Nat → List Nat → Nat
  | w :: ws, f :: fs =>
    (lf w 32 1 * (lf w 28 1 - 1) + 1 + lf w 30 1) * lf w 18 2 * roundUp (lf w 20 4) 32 * fmtBits f
      + workingSet ws fs
  | _, _ => 0

/-- Image rows of a layer's output over the whole batch. -/
def layerRows (w : Nat) : Nat := lf w 38 2 * (layerOutH w).getD 0

/-- Bytes of an intermediate layer's tensor and flags in scratch (R98). -/
def scratchTensor (w : Nat) : Nat :=
  roundUp (matBytes (lf w 48 1) false (layerRows w * (layerOutW w).getD 0) (lf w 24 4)) 64
def scratchFlags (w : Nat) : Nat := roundUp (4 * layerRows w) 64

def scratchNeed (ls : List Nat) : Nat :=
  ls.dropLast.foldl (fun a w => a + scratchTensor w + scratchFlags w) 0

def convRngs (d : Desc) (ls : List Nat) : List Rng :=
  let first := ls.headD 0
  let last := ls.getLastD 0
  let wts := (ls.map (fun w =>
    rdTile (lf w 0 6) (matBytes (lf w 12 1) ((lf w 13 1).testBit 1) (lf w 24 4) (layerCols w))
      :: (if (lf w 13 1).testBit 0 then [rdLin (lf w 6 6) (4 * lf w 24 4)] else []))).flatten
  [rdTile (d.f 24 6) (matBytes d.inF false (lf first 38 2 * lf first 16 2 * lf first 18 2) (lf first 20 4)),
   wrTile (d.f 30 6) (matBytes d.outF false (layerRows last * (layerOutW last).getD 0) (lf last 24 4)),
   rdLin (d.f 36 6) (64 * ls.length)] ++ wts
  ++ (if d.f 53 1 = 1 then [wrLin (d.f 42 6) (d.f 48 4)] else [])

/-- The checks of a convolution, over the layer records read at checking (`Desc.tbl`). R87 gives its steps 1 to 3 an order
and step 4, the own limits, none: the model judges Table 04-7's and 04-8's ranges first, then 0x0321, 0x0320, 0x0323, 0x0324,
0x0326 (DESIGN CHOICE, log entry 113). An FP64 layer output, which R33 does not list, is refused 0x0331. -/
def convInfo (_s : State) (d : Desc) : OpInfo :=
  let tblOk := convTblOk d
  let ls := d.tbl
  let ins := layerIns d ls
  let z := ls.zip ins
  let rs := convRngs d ls
  { ext := false, resv := [(55 * 8, 72)],
    resvOk := ls.all (fun w => lf w 13 1 / 4 == 0 && lf w 15 1 == 0 && lf w 49 1 == 0 && lf w 54 10 == 0),
    fmt := firstFail
      [(fmtsValid [d.inF, d.outF] && ls.all (fun w => fmtValid (lf w 12 1) && fmtValid (lf w 48 1)), 0x0330),
       (d.outF != fmtFP64 && z.all (fun p => lf p.1 48 1 != fmtFP64
          && (lf p.1 50 4 != 1 || (mxeGroup p.2 != 0 && mxeGroup (lf p.1 12 1) != 0))), 0x0331),
       (z.all (fun p => lf p.1 50 4 != 1 || mxePair p.2 (lf p.1 12 1)), 0x0332)],
    lim := firstFail
      [(within (d.f 54 1) 1 64, 0x030B),
       (aligned (d.f 24 6) 64 && aligned (d.f 30 6) 64 && tblOk && (d.f 53 1 != 1 || aligned (d.f 42 6) 64)
          && ls.all (fun w => aligned (lf w 0 6) 64 && (!((lf w 13 1).testBit 0) || aligned (lf w 6 6) 4)), 0x0325),
       (outsClear rs, 0x0322),
       (within (d.f 52 1) 1 4 && decide (d.f 53 1 ≤ 1) && ls.all layerLimits, 0x030B),
       (ls.all (fun w => (layerOutH w).isSome && (layerOutW w).isSome), 0x0321),
       (chainOk ls && lf (ls.getLastD 0) 48 1 == d.outF, 0x0320),
       (z.all (fun p =>
          let ints := fmtInt p.2 && fmtInt (lf p.1 12 1)
          lf p.1 48 1 != 13 || (ints && lf p.1 14 1 == 0)), 0x0323),
       (ls.all (fun w => !((lf w 13 1).testBit 1)
          || (lf w 50 4 == 1 && mxeGroup (lf w 12 1) ≥ 1 && mxeGroup (lf w 12 1) ≤ 3)), 0x0324),
       (decide (workingSet ls ins ≤ 786432 * 8), 0x0326)],
    fit := firstFail [(d.f 53 1 != 1 || decide (scratchNeed ls ≤ d.f 48 4), 0x030A)],
    rngs := rs, pos14 := none, gang := d.f 54 1, unit := .cores }

/-- One output element of a convolution layer: the taps' input and weight values over the group's channels, each tap padded
to a multiple of 32 with zero inputs on the MXE (groups = 1, R95). -/
def convTaps (w : Nat) (inp wts : List (List Val)) (b y x oc : Nat) : List Val × List Val :=
  let fh := lf w 28 1
  let fw := lf w 29 1
  let cg := layerCg w
  let cp := roundUp cg 32
  let grp := oc / (lf w 24 4 / max 1 (lf w 50 4))
  let ps := (List.range (fh * fw)).map (fun t =>
    let yy := y * lf w 30 1 + t / fw * lf w 32 1
    let xx := x * lf w 31 1 + t % fw * lf w 33 1
    let ins := decide (lf w 34 1 ≤ yy ∧ yy < lf w 34 1 + lf w 16 2 ∧ lf w 36 1 ≤ xx ∧ xx < lf w 36 1 + lf w 18 2)
    let r := row inp ((b * lf w 16 2 + (yy - lf w 34 1)) * lf w 18 2 + (xx - lf w 36 1))
    (List.range (if lf w 50 4 = 1 then cp else cg)).map (fun c =>
      (if ins && decide (c < cg) then at_ r (grp * cg + c) else valZero, at_ (row wts oc) (t * cp + c))))
  ps.flatten.unzip

/-- Convert values to a format and read them back, block by block along the row. -/
def roundTrip (f : Nat) (ieee : Bool) (l : List Val) : Flg (List Val) := do
  let bl ← (pieces 32 l).mapM (fun p => do
    let (sc, els) ← convBlock f ieee p
    pure (els.map (fun e => let v := decodeElem f e; if fmtMx f then scaleVal sc v else v)))
  pure bl.flatten

/-- The values one layer forms before conversion, row by row of its output tensor. -/
def convLayerRows (s : State) (ieee : Bool) (w inF k : Nat) (inp : List (List Val)) : Flg (List (List Val)) := do
  let wf := lf w 12 1
  let oc := lf w 24 4
  let oh := (layerOutH w).getD 0
  let ow := (layerOutW w).getD 0
  let wts ← if (lf w 13 1).testBit 1 then s.loadSparse wf (lf w 0 6) oc (layerCols w)
            else s.loadMat wf (lf w 0 6) oc (layerCols w)
  let ints := fmtInt inF && fmtInt wf
  let bias ← if (lf w 13 1).testBit 0 then
      do pure (some (← s.loadLin (if ints then 13 else 2) (lf w 6 6) oc)) else pure none
  let scale := f32 (lf w 40 4)
  let zp := toSigned 32 (lf w 44 4)
  (List.range (lf w 38 2 * oh * ow)).mapM (fun r => (List.range oc).mapM (fun o => do
    let (xs, ys) := convTaps w inp wts (r / (oh * ow)) (r / ow % oh) (r % ow) o
    let b := bias.map (fun l => at_ l o)
    let cand := Config.free k (r * oc + o)
    if ints then
      let acc ← if lf w 50 4 = 1 then mxeDotInt cand xs ys
        else pure (toSigned 32 (ofSigned 32 ((xs.zip ys).foldl (fun a p => a + rneInt p.1 * rneInt p.2) 0)))
      if lf w 48 1 = 13 then do
        pure (valInt (← sat32 (acc + (match b with | some v => rneInt v | none => 0))))
      else epilogue (lf w 48 1) (lf w 14 1) scale zp (valInt acc) b none
    else do
      let acc ← if lf w 50 4 = 1 then mxeDot (mxeGroup inF) cand xs ys
        else vxeDot cand (← vxeInAll ieee inF xs) (← vxeInAll ieee wf ys)
      epilogue (lf w 48 1) (lf w 14 1) scale zp acc b none))

/-- Run the layers: the last layer's values, and the writes to scratch in exchange mode (R98). -/
def convChain (s : State) (ieee : Bool) (exch : Bool) (k : Nat) :
    List Nat → Nat → List (List Val) → Nat → List (Nat × List Byte) → Flg (List (List Val) × List (Nat × List Byte))
  | [], _, inp, _, ws => pure (inp, ws)
  | [w], inF, inp, _, ws => do pure (← convLayerRows s ieee w inF k inp, ws)
  | w :: t, inF, inp, sc, ws => do
    let m ← convLayerRows s ieee w inF (k + t.length) inp
    let of_ := lf w 48 1
    let bytes ← tileStore of_ ieee m.length (lf w 24 4) m
    let back ← m.mapM (roundTrip of_ ieee)
    let flags := ((List.range (layerRows w)).map (fun _ => toBytes 4 1)).flatten
    let ws := if exch then ws ++ [(sc, bytes), (sc + scratchTensor w, flags)] else ws
    convChain s ieee exch k t of_ back (sc + scratchTensor w + scratchFlags w) ws

/-- Write zero to every row flag of the intermediate layers, at placement in exchange mode (R98). -/
def convClear (s : State) (d : Desc) : State :=
  if d.f 53 1 = 1 then
    (d.tbl.dropLast.foldl (fun (p : State × Nat) w =>
      (p.1.wr (p.2 + scratchTensor w) (toBytes (4 * layerRows w) 0), p.2 + scratchTensor w + scratchFlags w))
      (s, d.f 42 6)).1
  else s

/-- Take `n` draws of free values at once. -/
def State.draws (s : State) (n : Nat) : Nat × State := (s.free, { s with free := s.free + n })

def convSparseOk (s : State) (ls : List Nat) : Bool :=
  ls.all (fun w => !((lf w 13 1).testBit 1) || s.sparseOk (lf w 12 1) (lf w 0 6) (lf w 24 4) (layerCols w))

/-- A convolution's effect, over the layer records as the dispatcher read them at checking (R93). -/
def convRun (s : State) (d : Desc) : State × Nat × Nat :=
  let ls := d.tbl
  let first := ls.headD 0
  let last := ls.getLastD 0
  let rows := layerRows last * (layerOutW last).getD 0
  let st := if d.stage = 1 then 0x0120 else 0x0000
  if !(convSparseOk s ls) then
    ((s.scribble (d.f 30 6) (matBytes d.outF false rows (lf last 24 4))).bumpOd (0x4200 + d.die) 0x21, 0x0541, 0)
  else
    let (k, s1) := s.draws ls.length
    let ((bytes, ws), fl) := runFlg (do
      let inp ← s.loadMat d.inF (d.f 24 6) (lf first 38 2 * lf first 16 2 * lf first 18 2) (lf first 20 4)
      let (m, ws) ← convChain s d.ieee (d.f 53 1 == 1) k ls d.inF inp (d.f 42 6) []
      pure (← tileStore d.outF d.ieee rows (lf last 24 4) m, ws))
    ((ws.foldl (fun s p => s.wr p.1 p.2) s1).wr (d.f 30 6) bytes, st, fl)

/-! ### Elementwise (R101–R103) -/

/-- Does function `c` take a second operand; a third? -/
def ewB (c : Nat) : Bool := decide ((1 ≤ c ∧ c ≤ 7) ∨ c = 0x15 ∨ c = 0x18)
def ewC (c : Nat) : Bool := decide (c = 5 ∨ c = 0x15 ∨ c = 0x18)
/-- Are integer formats allowed (Table 04-10)? -/
def ewInt (c : Nat) : Bool := decide (c ∈ [1, 2, 3, 6, 7, 8, 9, 0x11, 0x14, 0x15, 0x18])

/-- The range an operand of a mode covers (Table 04-9). -/
def ewRng (a f mode rows cols : Nat) : Rng :=
  match mode with
  | 0 => rdTile a (matBytes f false rows cols)
  | 1 => rdLin a (linBytes f rows)
  | 2 => rdLin a (linBytes f cols)
  | _ => rdLin a (linBytes f 1)

def ewAligned (a f mode : Nat) : Bool := if mode = 0 then aligned a 64 else aligned a (linAlign f)

/-- The checks of an elementwise descriptor. The status of three refusals is the model's choice, 0x0323, since the spec names
none (DESIGN CHOICE, log entry 114): a microscaled linear operand (R83); requantize with an output that is no integer format,
or with b not FP32 or c not INT32 (R101). -/
def elementwiseInfo (_s : State) (d : Desc) : OpInfo :=
  let rows := d.f 48 4
  let cols := d.f 52 4
  let fn := d.f 56 1
  let bf := d.f 57 1
  let cf := d.f 58 1
  let bm := d.f 59 1 % 4
  let cm := d.f 59 1 / 4 % 4
  let out := wrTile (d.f 42 6) (matBytes d.outF false rows cols)
  let a := rdTile (d.f 24 6) (matBytes d.inF false rows cols)
  let others := (if ewB fn then [ewRng (d.f 30 6) bf bm rows cols] else [])
    ++ (if ewC fn then [ewRng (d.f 36 6) cf cm rows cols] else [])
  let inPlace := d.f 42 6 == d.f 24 6 && d.outF == d.inF
  let anyInt := fmtInt d.inF || fmtInt d.outF || (ewB fn && fmtInt bf) || (ewC fn && fmtInt cf)
  { ext := false, resv := [(59 * 8 + 4, 4), (61 * 8, 24)], resvOk := true,
    fmt := firstFail
      [(fmtsValid [d.inF, d.outF] && (if ewB fn then fmtValid bf else bf == 0)
          && (if ewC fn then fmtValid cf else cf == 0), 0x0330)],
    lim := firstFail
      [(within (d.f 60 1) 1 64, 0x030B),
       (aligned (d.f 24 6) 64 && aligned (d.f 42 6) 64 && (!(ewB fn) || ewAligned (d.f 30 6) bf bm)
          && (!(ewC fn) || ewAligned (d.f 36 6) cf cm), 0x0325),
       ((inPlace || !(overlap out.a out.n a.a a.n)) && others.all (fun r => !(overlap out.a out.n r.a r.n)), 0x0322),
       (within rows 1 16777216 && within cols 1 1048576 && within fn 1 0x18, 0x030B),
       (ewInt fn || !anyInt, 0x0323),
       (!(ewB fn && bm != 0 && fmtMx bf) && !(ewC fn && cm != 0 && fmtMx cf), 0x0323),
       (fn != 0x15 || (bf == 2 && cf == 13 && fmtInt d.outF), 0x0323)],
    fit := none, rngs := a :: out :: others, pos14 := none, gang := d.f 60 1, unit := .cores }

/-- INT32 arithmetic of an elementwise function (R35). A product or magnitude beyond INT32 has no stated result:
it is a free function of the operands (log entry 21). -/
def ewIntFn (c : Nat) (a b cc : Int) : Int :=
  let wrap (i : Int) : Int := toSigned 32 (ofSigned 32 i)
  let open_ (i : Int) : Int :=
    if int32Min ≤ i ∧ i ≤ int32Max then i
    else toSigned 32 (Config.vxe (0x100 + c) (ofSigned 32 a * 2 ^ 32 + ofSigned 32 b))
  match c with
  | 1 => wrap (a + b)
  | 2 => wrap (a - b)
  | 3 => open_ (a * b)
  | 6 => max a b
  | 7 => min a b
  | 8 => open_ (a.natAbs : Int)
  | 9 => open_ (-a)
  | 0x11 => max a 0
  | 0x18 => min (max a b) cc
  | _ => a

/-- FP32 elementwise function. -/
def ewFn (c : Nat) (a b cc : Val) : Flg Val :=
  match c with
  | 1 => add32 a b
  | 2 => sub32 a b
  | 3 => mul32 a b
  | 4 => div32 a b
  | 5 => fmaF fmtFP32 a b cc
  | 6 => pure (maxNan a b)
  | 7 => pure (minNan a b)
  | 8 => pure (valAbs a)
  | 9 => pure (valNeg a)
  | 0x0A => sqrtF fmtFP32 a
  | 0x0B => vxeRsqrt a
  | 0x0C => vxeRecip a
  | 0x0D => vxeExp a
  | 0x0E => vxeLn a
  | 0x0F => vxeTanh a
  | 0x10 => vxeSigmoid a
  | 0x11 => pure (vxeRelu a)
  | 0x12 => vxeGelu a
  | 0x13 => vxeSilu a
  | 0x16 => vxeOpen 0x16 a
  | 0x17 => vxeOpen 0x17 a
  | 0x18 => pure (minNan (maxNan a b) cc)
  | _ => pure a

/-- Load operand b or c of element (r, j). -/
def ewOperand (s : State) (a f mode cols r j : Nat) : Flg Val :=
  match mode with
  | 0 => s.elemAt f a cols r j
  | 1 => loadBits f 0 (s.rdBits a (r * fmtBits f) (fmtBits f))
  | 2 => loadBits f 0 (s.rdBits a (j * fmtBits f) (fmtBits f))
  | _ => loadBits f 0 (s.rdBits a 0 (fmtBits f))

def ewElem (s : State) (d : Desc) (r j : Nat) : Flg Val := do
  let fn := d.f 56 1
  let bf := d.f 57 1
  let cf := d.f 58 1
  let cols := d.f 52 4
  let a ← s.elemAt d.inF (d.f 24 6) cols r j
  let b ← if ewB fn then ewOperand s (d.f 30 6) bf (d.f 59 1 % 4) cols r j else pure valZero
  let c ← if ewC fn then ewOperand s (d.f 36 6) cf (d.f 59 1 / 4 % 4) cols r j else pure valZero
  if fn = 0x15 then do
    let p ← mul32 (← vxeIn d.ieee d.inF a) b
    match p with
    | .fin _ _ _ => pure (valInt (rneInt p + rneInt c))
    | p => pure p
  else if fmtInt d.inF && fmtInt d.outF && (!(ewB fn) || fmtInt bf) && (!(ewC fn) || fmtInt cf) then
    pure (valInt (ewIntFn fn (rneInt a) (rneInt b) (rneInt c)))
  else do
    ewFn fn (← vxeIn d.ieee d.inF a) (← vxeIn d.ieee bf b) (← vxeIn d.ieee cf c)

def elementwiseRun (s : State) (d : Desc) : State × Nat × Nat :=
  let rows := d.f 48 4
  let cols := d.f 52 4
  let (bytes, fl) := runFlg (do
    let m ← (List.range rows).mapM (fun r => (List.range cols).mapM (fun j => ewElem s d r j))
    tileStore d.outF d.ieee rows cols m)
  (s.wr (d.f 42 6) bytes, 0x0000, fl)

/-! ### Normalise (R104) -/

def normaliseInfo (_s : State) (d : Desc) : OpInfo :=
  let rows := d.f 48 4
  let cols := d.f 52 4
  let fl := d.f 61 1
  let eps := f32 (d.f 56 4)
  let rs := [rdTile (d.f 24 6) (matBytes d.inF false rows cols), wrTile (d.f 30 6) (matBytes d.outF false rows cols)]
    ++ (if fl.testBit 0 then [rdLin (d.f 36 6) (4 * cols)] else [])
    ++ (if fl.testBit 1 then [rdLin (d.f 42 6) (4 * cols)] else [])
  { ext := false, resv := [(61 * 8 + 2, 6), (63 * 8, 8)], resvOk := true,
    fmt := firstFail [(fmtsValid [d.inF, d.outF], 0x0330), (d.outF != 1, 0x0331)],
    lim := firstFail
      [(within (d.f 62 1) 1 64, 0x030B),
       (aligned (d.f 24 6) 64 && aligned (d.f 30 6) 64 && (!(fl.testBit 0) || aligned (d.f 36 6) 4)
          && (!(fl.testBit 1) || aligned (d.f 42 6) 4), 0x0325),
       (outsClear rs, 0x0322),
       (within rows 1 16777216 && within cols 1 65536 && within (d.f 60 1) 1 4
          && isFin eps && (!(signOf eps) || isZero eps), 0x030B),
       (!(fmtInt d.outF), 0x0323)],
    fit := none, rngs := rs, pos14 := none, gang := d.f 62 1, unit := .cores }

/-- One row of a normalise descriptor; `k`, `i` number its free sums. -/
def normRow (mode cols : Nat) (eps : Val) (gamma beta : Option (List Val)) (k i : Nat) (xs : List Val) :
    Flg (List Val) := do
  let n := valNat cols
  let gb (j : Nat) (v : Val) : Flg Val := do
    let v ← match gamma with
      | some g => mul32 v (at_ g j)
      | none => pure v
    match beta with
      | some b => add32 v (at_ b j)
      | none => pure v
  let js := List.range cols
  match mode with
  | 1 => do
    let mean ← div32 (← vxeSum (Config.free k (2 * i)) xs) n
    let dev ← xs.mapM (fun x => sub32 x mean)
    let sq ← dev.mapM (fun x => mul32 x x)
    let var ← div32 (← vxeSum (Config.free k (2 * i + 1)) sq) n
    let den ← sqrtF fmtFP32 (← add32 var eps)
    (js.zip dev).mapM (fun p => do gb p.1 (← div32 p.2 den))
  | 2 => do
    let sq ← xs.mapM (fun x => mul32 x x)
    let ms ← div32 (← vxeSum (Config.free k (2 * i)) sq) n
    let den ← sqrtF fmtFP32 (← add32 ms eps)
    (js.zip xs).mapM (fun p => do
      let v ← div32 p.2 den
      match gamma with
      | some g => mul32 v (at_ g p.1)
      | none => pure v)
  | 3 => do
    let mx := xs.foldl maxNan (.inf true)
    let es ← xs.mapM (fun x => do vxeExp (← sub32 x mx))
    let sum ← vxeSum (Config.free k (2 * i)) es
    es.mapM (fun e => div32 e sum)
  | _ => (js.zip xs).mapM (fun p => gb p.1 p.2)

def normaliseRun (s : State) (d : Desc) : State × Nat × Nat :=
  let rows := d.f 48 4
  let cols := d.f 52 4
  let fl := d.f 61 1
  let (k, s1) := s.draw
  let (bytes, flg) := runFlg (do
    let m ← s.loadMat d.inF (d.f 24 6) rows cols
    let g ← if fl.testBit 0 then do pure (some (← s.loadLin 2 (d.f 36 6) cols)) else pure none
    let b ← if fl.testBit 1 then do pure (some (← s.loadLin 2 (d.f 42 6) cols)) else pure none
    let out ← ((List.range rows).zip m).mapM (fun p => do
      normRow (d.f 60 1) cols (f32 (d.f 56 4)) g b k p.1 (← vxeInAll d.ieee d.inF p.2))
    tileStore d.outF d.ieee rows cols out)
  (s1.wr (d.f 30 6) bytes, 0x0000, flg)

/-! ### Pool (R105) -/

def poolOutH (d : Desc) : Option Nat :=
  if d.f 54 1 = 4 then some 1 else extent (d.f 38 2) (d.f 50 1) (d.f 51 1) 1 (d.f 46 1) (max 1 (d.f 48 1))
def poolOutW (d : Desc) : Option Nat :=
  if d.f 54 1 = 4 then some 1 else extent (d.f 40 2) (d.f 52 1) (d.f 53 1) 1 (d.f 47 1) (max 1 (d.f 49 1))

def poolInfo (_s : State) (d : Desc) : OpInfo :=
  let ch := d.f 42 4
  let rs := [rdTile (d.f 24 6) (matBytes d.inF false (d.f 36 2 * d.f 38 2 * d.f 40 2) ch),
    wrTile (d.f 30 6) (matBytes d.outF false (d.f 36 2 * (poolOutH d).getD 0 * (poolOutW d).getD 0) ch)]
  { ext := false, resv := [(56 * 8, 64)], resvOk := true,
    fmt := firstFail [(fmtsValid [d.inF, d.outF], 0x0330)],
    lim := firstFail
      [(within (d.f 55 1) 1 64, 0x030B), (aligned (d.f 24 6) 64 && aligned (d.f 30 6) 64, 0x0325),
       (outsClear rs, 0x0322),
       (within (d.f 36 2) 1 256 && within (d.f 38 2) 1 16384 && within (d.f 40 2) 1 16384 && within ch 1 65536
          && within (d.f 54 1) 1 4
          && (d.f 54 1 == 4 || (within (d.f 46 1) 1 16 && within (d.f 47 1) 1 16 && within (d.f 48 1) 1 16
              && within (d.f 49 1) 1 16 && decide (d.f 50 1 < d.f 46 1) && decide (d.f 51 1 < d.f 46 1)
              && decide (d.f 52 1 < d.f 47 1) && decide (d.f 53 1 < d.f 47 1))), 0x030B),
       ((poolOutH d).isSome && (poolOutW d).isSome, 0x0321)],
    fit := none, rngs := rs, pos14 := none, gang := d.f 55 1, unit := .cores }

/-- The real inputs of one pooling window, for one channel. -/
def poolWindow (d : Desc) (inp : List (List Val)) (b y x c : Nat) : List Val :=
  let h := d.f 38 2
  let w := d.f 40 2
  if d.f 54 1 = 4 then (List.range (h * w)).map (fun i => at_ (row inp (b * h * w + i)) c)
  else
    (List.range (d.f 46 1 * d.f 47 1)).filterMap (fun t =>
      let yy := y * d.f 48 1 + t / d.f 47 1
      let xx := x * d.f 49 1 + t % d.f 47 1
      if d.f 50 1 ≤ yy ∧ yy < d.f 50 1 + h ∧ d.f 52 1 ≤ xx ∧ xx < d.f 52 1 + w then
        some (at_ (row inp ((b * h + (yy - d.f 50 1)) * w + (xx - d.f 52 1))) c)
      else none)

def poolRun (s : State) (d : Desc) : State × Nat × Nat :=
  let oh := (poolOutH d).getD 0
  let ow := (poolOutW d).getD 0
  let ch := d.f 42 4
  let rows := d.f 36 2 * oh * ow
  let exact := fmtInt d.inF && fmtInt d.outF && d.f 54 1 == 1
  let (k, s1) := s.draw
  let (bytes, fl) := runFlg (do
    let m ← s.loadMat d.inF (d.f 24 6) (d.f 36 2 * d.f 38 2 * d.f 40 2) ch
    let m ← if exact then pure m else m.mapM (vxeInAll d.ieee d.inF)
    let out ← (List.range rows).mapM (fun r => (List.range ch).mapM (fun c => do
      let win := poolWindow d m (r / (oh * ow)) (r / ow % oh) (r % ow) c
      if d.f 54 1 = 1 then
        match win with
        | [] => pure valZero
        | v :: t => pure (t.foldl maxNan v)
      else do
        let sum ← vxeSum (Config.free k (r * ch + c)) win
        div32 sum (valNat (if d.f 54 1 = 2 then d.f 46 1 * d.f 47 1 else win.length))))
    tileStore d.outF d.ieee rows ch out)
  (s1.wr (d.f 30 6) bytes, 0x0000, fl)

/-! ### Gather rows (R106) -/

def gatherInfo (_s : State) (d : Desc) : OpInfo :=
  let rs := [rdTile (d.f 24 6) (matBytes d.inF false (d.f 42 4) (d.f 46 4)), rdLin (d.f 30 6) (4 * d.f 50 4),
    wrTile (d.f 36 6) (matBytes d.outF false (d.f 50 4) (d.f 46 4))]
  { ext := false, resv := [(55 * 8, 72)], resvOk := true,
    fmt := firstFail [(fmtsValid [d.inF, d.outF], 0x0330)],
    lim := firstFail
      [(within (d.f 54 1) 1 64, 0x030B),
       (aligned (d.f 24 6) 64 && aligned (d.f 30 6) 4 && aligned (d.f 36 6) 64, 0x0325),
       (outsClear rs, 0x0322),
       (within (d.f 42 4) 1 16777216 && within (d.f 46 4) 1 65536 && within (d.f 50 4) 1 1048576, 0x030B)],
    fit := none, rngs := rs, pos14 := none, gang := d.f 54 1, unit := .cores }

/-- The indices of a gather, and which of them are out of range. -/
def gatherBad (s : State) (d : Desc) : Nat :=
  (List.range (d.f 50 4)).foldl (fun n i => if s.rd (d.f 30 6 + 4 * i) 4 < d.f 42 4 then n else n + 1) 0

def gatherRun (s : State) (d : Desc) : State × Nat × Nat :=
  let n := d.f 50 4
  let len := d.f 46 4
  let exact := fmtInt d.inF && fmtInt d.outF
  let bad := gatherBad s d
  let (bytes, fl) := runFlg (do
    let out ← (List.range n).mapM (fun i => do
      let ix := s.rd (d.f 30 6 + 4 * i) 4
      if ix < d.f 42 4 then do
        let r ← (List.range len).mapM (fun c => s.elemAt d.inF (d.f 24 6) len ix c)
        if exact then pure r else vxeInAll d.ieee d.inF r
      else pure ((List.range len).map (fun _ => valZero)))
    tileStore d.outF d.ieee n len out)
  ((if bad = 0 then s else s.bumpOd (0x4200 + d.die) 0x22 bad).wr (d.f 36 6) bytes,
    if bad = 0 then 0x0000 else 0x0121, fl)

/-! ### Channel arg-max (R107) -/

def argMaxInfo (_s : State) (d : Desc) : OpInfo :=
  let px := d.f 42 4
  let ch := d.f 46 4
  let wv := (d.f 50 1).testBit 0
  let rs := [rdTile (d.f 24 6) (matBytes d.inF false px ch), wrLin (d.f 30 6) (linBytes d.outF px)]
    ++ (if wv then [wrLin (d.f 36 6) (4 * px)] else [])
  { ext := false, resv := [(50 * 8 + 1, 7), (52 * 8, 96)], resvOk := true,
    fmt := firstFail [(fmtsValid [d.inF, d.outF], 0x0330), (d.outF == 13 || d.outF == 11, 0x0331)],
    lim := firstFail
      [(within (d.f 51 1) 1 64, 0x030B),
       (aligned (d.f 24 6) 64 && aligned (d.f 30 6) (linAlign d.outF) && (!wv || aligned (d.f 36 6) 4), 0x0325),
       (outsClear rs, 0x0322),
       (within px 1 16777216 && within ch 1 65536 && (d.outF == 13 || decide (ch ≤ 128)), 0x030B)],
    fit := none, rngs := rs, pos14 := none, gang := d.f 51 1, unit := .cores }

/-- Channel arg-max; integers compare exactly, before any rounding to FP32. -/
def argMaxRun (s : State) (d : Desc) : State × Nat × Nat :=
  let px := d.f 42 4
  let ch := d.f 46 4
  let (k, s1) := s.draw
  let ((ib, vb), fl) := runFlg (do
    let m ← s.loadMat d.inF (d.f 24 6) px ch
    let m ← if fmtInt d.inF then pure m else m.mapM (vxeInAll d.ieee d.inF)
    let best := (List.range px).map (fun r =>
      (argMax (row m r) 0 none).getD (0, f32 (Config.free k r % 2 ^ 32)))
    let ib ← linStore d.outF d.ieee (best.map (fun p => valNat p.1))
    let vb ← linStore 2 d.ieee (best.map (fun p => p.2))
    pure (ib, vb))
  let s2 := s1.wr (d.f 30 6) ib
  (if (d.f 50 1).testBit 0 then s2.wr (d.f 36 6) vb else s2, 0x0000, fl)

/-! ### Box decode and suppression (R108, R109) -/

/-- The checks of a box decode. Microscaled deltas, a linear operand that R83 rules out without a status, are refused 0x0323
(DESIGN CHOICE, log entry 114). -/
def boxInfo (_s : State) (d : Desc) : OpInfo :=
  let an := d.f 48 4
  let cl := d.f 52 2
  let sf := d.f 54 1
  let iou := f32 (d.f 60 4)
  let rs := [rdLin (d.f 24 6) (16 * an), rdLin (d.f 30 6) (linBytes d.inF (4 * an)),
    rdTile (d.f 36 6) (matBytes sf false an cl), wrLin (d.f 42 6) (32 + 32 * d.f 82 2)]
  { ext := true, resv := [(55 * 8 + 3, 5), (85 * 8, 43 * 8)], resvOk := true,
    fmt := firstFail [(fmtsValid [d.inF, d.outF, sf], 0x0330), (d.outF == 2, 0x0331)],
    lim := firstFail
      [(within (d.f 84 1) 1 8, 0x030B),
       (aligned (d.f 24 6) 4 && aligned (d.f 30 6) (linAlign d.inF) && aligned (d.f 36 6) 64
          && aligned (d.f 42 6) 32, 0x0325),
       (outsClear rs, 0x0322),
       (within an 1 262144 && within cl 1 1024 && valLe valZero iou && valLe iou valOne
          && within (d.f 80 2) 1 256 && within (d.f 82 2) 1 1024, 0x030B),
       (!(fmtMx d.inF), 0x0323)],
    fit := none, rngs := rs, pos14 := none, gang := d.f 84 1, unit := .cores }

/-- A decoded box: ymin, xmin, ymax, xmax. -/
structure Box where
  y0 : Val
  x0 : Val
  y1 : Val
  x1 : Val
deriving DecidableEq, Repr

def clip01 (v : Val) : Val := minNan (maxNan v valZero) valOne

def boxDecode (s : State) (d : Desc) (a : Nat) : Flg Box := do
  let an ← s.loadLin 2 (d.f 24 6 + 16 * a) 4
  let de ← (List.range 4).mapM (fun i => do
    let f := d.inF
    vxeIn d.ieee f (← loadBits f 0 (s.rdBits (d.f 30 6) ((4 * a + i) * fmtBits f) (fmtBits f))))
  let v (i : Nat) := f32 (d.f (64 + 4 * i) 4)
  let cy ← add32 (at_ an 0) (← mul32 (← mul32 (at_ de 0) (v 0)) (at_ an 2))
  let cx ← add32 (at_ an 1) (← mul32 (← mul32 (at_ de 1) (v 1)) (at_ an 3))
  let h ← mul32 (at_ an 2) (← vxeExp (← mul32 (at_ de 2) (v 2)))
  let w ← mul32 (at_ an 3) (← vxeExp (← mul32 (at_ de 3) (v 3)))
  let h2 ← mul32 h valHalf
  let w2 ← mul32 w valHalf
  let b : Box := { y0 := ← sub32 cy h2, x0 := ← sub32 cx w2, y1 := ← add32 cy h2, x1 := ← add32 cx w2 }
  pure (if (d.f 55 1).testBit 2 then
    { y0 := clip01 b.y0, x0 := clip01 b.x0, y1 := clip01 b.y1, x1 := clip01 b.x1 } else b)

def boxArea (b : Box) : Flg Val := do mul32 (← sub32 b.y1 b.y0) (← sub32 b.x1 b.x0)

def boxIou (p q : Box) : Flg Val := do
  let h ← sub32 (minNan p.y1 q.y1) (maxNan p.y0 q.y0)
  let w ← sub32 (minNan p.x1 q.x1) (maxNan p.x0 q.x0)
  let inter ← mul32 (maxNan h valZero) (maxNan w valZero)
  let den ← sub32 (← add32 (← boxArea p) (← boxArea q)) inter
  if isZero den then pure valZero else div32 inter den

/-- A candidate: anchor, score, box. -/
structure Cand where
  anchor : Nat
  cls : Nat
  score : Val
  box : Box
deriving DecidableEq, Repr

/-- Insert by score descending, ties by `tie`. -/
def candInsert (tie : Cand → Cand → Bool) (c : Cand) : List Cand → List Cand
  | [] => [c]
  | e :: t =>
    if valLt e.score c.score || (!(valLt c.score e.score) && tie c e) then c :: e :: t
    else e :: candInsert tie c t

def candSort (tie : Cand → Cand → Bool) (l : List Cand) : List Cand := l.foldr (candInsert tie) []

/-- Suppression within one class (R109). -/
def suppress (iou : Val) (maxN : Nat) : List Cand → List Cand → Flg (List Cand)
  | [], kept => pure kept
  | c :: t, kept =>
    if kept.length ≥ maxN then pure kept
    else do
      let ok ← kept.foldlM (fun (b : Bool) k => do
        let i ← boxIou c.box k.box
        pure (b && valLe i iou)) true
      suppress iou maxN t (if ok then kept ++ [c] else kept)

def boxRecord (c : Cand) : List Byte :=
  toBytes 4 (bits32 c.box.y0) ++ toBytes 4 (bits32 c.box.x0) ++ toBytes 4 (bits32 c.box.y1)
    ++ toBytes 4 (bits32 c.box.x1) ++ toBytes 4 (bits32 c.score) ++ toBytes 4 c.cls ++ toBytes 8 c.anchor

def boxRun (s : State) (d : Desc) : State × Nat × Nat :=
  let an := d.f 48 4
  let cl := d.f 52 2
  let sf := d.f 54 1
  let fl := d.f 55 1
  let thr := f32 (d.f 56 4)
  let classes := (List.range cl).drop (if fl.testBit 1 then 1 else 0)
  let ((kept, passed), flg) := runFlg (do
    let boxes ← (List.range an).mapM (boxDecode s d)
    let sc ← s.loadMat sf (d.f 36 6) an cl
    let sc ← sc.mapM (fun r => do
      let r ← vxeInAll d.ieee sf r
      if fl.testBit 0 then r.mapM vxeSigmoid else pure r)
    let cands := classes.map (fun c =>
      candSort (fun a b => decide (a.anchor < b.anchor)) ((List.range an).filterMap (fun a =>
        let v := at_ (row sc a) c
        match boxes[a]? with
        | some b => if valLe thr v then some { anchor := a, cls := c, score := v, box := b } else none
        | none => none)))
    let kept ← cands.mapM (fun l => suppress (f32 (d.f 60 4)) (d.f 80 2) l [])
    pure (kept.flatten, cands.foldl (fun n l => n + l.length) 0))
  let order := candSort (fun a b => decide (a.cls < b.cls ∨ (a.cls = b.cls ∧ a.anchor < b.anchor))) kept
  let outl := order.take (d.f 82 2)
  let s1 := s.wr (d.f 42 6 + 32) (outl.map boxRecord).flatten
  (s1.wr (d.f 42 6) (toBytes 4 outl.length ++ toBytes 4 passed ++ toBytes 4 (order.length - outl.length)
    ++ toBytes 20 0), 0x0000, flg)

/-! ### Token sampling (R110, R111) -/

def samplingInfo (_s : State) (d : Desc) : OpInfo :=
  let rows := d.f 42 4
  let voc := d.f 46 4
  let fl := d.f 52 1
  let tk := d.f 50 2
  let temp := f32 (d.f 56 4)
  let topp := f32 (d.f 60 4)
  let rs := [rdTile (d.f 24 6) (matBytes d.inF false rows voc), wrLin (d.f 30 6) (4 * rows)]
    ++ (if fl.testBit 0 then [wrLin (d.f 36 6) (4 * rows)] else [])
  { ext := true, resv := [(52 * 8 + 2, 6), (54 * 8, 16), (76 * 8, 52 * 8)], resvOk := true,
    fmt := firstFail [(fmtsValid [d.inF, d.outF], 0x0330), (d.outF == 13, 0x0331)],
    lim := firstFail
      [(within (d.f 53 1) 1 8, 0x030B),
       (aligned (d.f 24 6) 64 && aligned (d.f 30 6) 4 && (!(fl.testBit 0) || aligned (d.f 36 6) 4), 0x0325),
       (outsClear rs, 0x0322),
       (within rows 1 256 && within voc 1 1048576 && decide (tk ≤ 1024 ∧ tk ≤ voc)
          && decide (d.f 53 1 ≤ rows)
          && (fl.testBit 1 || (isFin temp && valLt valZero temp))
          && valLt valZero topp && valLe topp valOne, 0x030B),
       (!(tk == 0) || valEq topp valOne, 0x0323)],
    fit := none, rngs := rs, pos14 := none, gang := d.f 53 1, unit := .cores }

/-- The module's counter mixer (R111): the 24 bits of u. -/
def drawMix (seed ctr : Nat) : Nat :=
  let m := 2 ^ 64
  let x := (seed ^^^ ((ctr + 1) * 0xA5C39E1F6B2D4817 % m)) % m
  let x := ((x ^^^ (x >>> 31)) * 0x8F3C5A27E1D496B1) % m
  let x := ((x ^^^ (x >>> 29)) * 0xC2B61E9D4A7F3085) % m
  let x := x ^^^ (x >>> 32)
  x >>> 40

/-- Insert an (index, value) pair by value descending, ties to lower index. -/
def idxInsert (p : Nat × Val) : List (Nat × Val) → List (Nat × Val)
  | [] => [p]
  | q :: t => if valLt q.2 p.2 || (!(valLt p.2 q.2) && decide (p.1 < q.1)) then p :: q :: t
              else q :: idxInsert p t

def idxSort (l : List (Nat × Val)) : List (Nat × Val) := l.foldr idxInsert []

/-- The shortest prefix whose running sum reaches `goal`, and its sum. -/
def topPrefix (goal : Val) : List (Nat × Val) → List (Nat × Val) → Val → Flg (List (Nat × Val) × Val)
  | [], acc, sum => pure (acc.reverse, sum)
  | p :: t, acc, sum => do
    let sum ← add32 sum p.2
    if valLe goal sum then pure ((p :: acc).reverse, sum) else topPrefix goal t (p :: acc) sum

/-- The first of the prefix whose running sum exceeds `goal`; the last where none does. -/
def pickToken (goal : Val) : List (Nat × Val) → Val → Nat × Val → Flg (Nat × Val)
  | [], _, last => pure last
  | p :: t, sum, _ => do
    let sum ← add32 sum p.2
    if valLt goal sum then pure p else pickToken goal t sum p

/-- One row of R111: the token and its log-probability. -/
def sampleRow (d : Desc) (k r : Nat) (xs : List Val) : Flg (Nat × Val) := do
  let greedy := (d.f 52 1).testBit 1
  let z ← xs.mapM (fun x =>
    if isNan x then pure (Val.inf true) else if greedy then pure x else div32 x (f32 (d.f 56 4)))
  if z.all (fun v => decide (v = .inf true)) then do
    raise flInvalid
    pure (0, .nan)
  else
    let zi := (List.range z.length).zip z
    if greedy then do
      let (tok, m) := (argMax z 0 none).getD (0, valZero)
      let ps ← z.mapM (fun v => do vxeExp (← sub32 v m))
      let sum ← vxeSum (Config.free k r) ps
      pure (tok, ← vxeLn (← div32 (at_ ps tok) sum))
    else do
      let cand := if d.f 50 2 = 0 then zi else (idxSort zi).take (d.f 50 2)
      let m := cand.foldl (fun a p => maxNan a p.2) (.inf true)
      let ps ← cand.mapM (fun p => do pure (p.1, ← vxeExp (← sub32 p.2 m)))
      let sum ← vxeSum (Config.free k r) (ps.map (fun p => p.2))
      let (pre, sum') ← topPrefix (← mul32 (f32 (d.f 60 4)) sum) (idxSort ps) [] valZero
      let u : Val := .fin false (drawMix (d.f 64 8) (d.f 72 4 + r)) (-24)
      let tok ← pickToken (← mul32 u sum') pre valZero (pre.headD (0, valZero))
      pure (tok.1, ← vxeLn (← div32 tok.2 sum'))

def samplingRun (s : State) (d : Desc) : State × Nat × Nat :=
  let rows := d.f 42 4
  let voc := d.f 46 4
  let (k, s1) := s.draw
  let (toks, fl) := runFlg ((List.range rows).mapM (fun r => do
    let xs ← (List.range voc).mapM (fun c => s.elemAt d.inF (d.f 24 6) voc r c)
    sampleRow d k r (← vxeInAll d.ieee d.inF xs)))
  let s2 := s1.wr (d.f 30 6) (toks.map (fun p => toBytes 4 p.1)).flatten
  (if (d.f 52 1).testBit 0 then s2.wr (d.f 36 6) (toks.map (fun p => toBytes 4 (bits32 p.2))).flatten else s2,
    0x0000, fl)

/-! ### Tile pack and unpack (R112) -/

def packRowBytes (f cols : Nat) : Nat := linBytes f cols

/-- The linear side's range: rows at the pitch. -/
def packLin (f rows cols pitch : Nat) : Nat := (rows - 1) * pitch + packRowBytes f cols

def packInfo (_s : State) (d : Desc) : OpInfo :=
  let rows := d.f 36 4
  let cols := d.f 40 4
  let pitch := d.f 44 4
  let dir := d.f 48 1
  let sp := (d.f 50 1).testBit 0
  let linF := if dir = 0 then d.inF else d.outF
  let rs := if dir = 0 then
      [rdLin (d.f 24 6) (packLin d.inF rows cols pitch), wrTile (d.f 30 6) (matBytes d.outF sp rows cols)]
    else [rdTile (d.f 24 6) (matBytes d.inF false rows cols), wrLin (d.f 30 6) (packLin d.outF rows cols pitch)]
  { ext := false, resv := [(50 * 8 + 1, 7), (51 * 8, 104)], resvOk := true,
    fmt := firstFail [(fmtsValid [d.inF, d.outF], 0x0330)],
    lim := firstFail
      [(within (d.f 49 1) 1 64, 0x030B),
       (if dir = 0 then aligned (d.f 24 6) (linAlign d.inF) && aligned (d.f 30 6) 64
        else aligned (d.f 24 6) 64 && aligned (d.f 30 6) (linAlign d.outF), 0x0325),
       (outsClear rs, 0x0322),
       (within rows 1 16777216 && within cols 1 1048576 && decide (dir ≤ 1), 0x030B),
       (!(fmtMx linF), 0x0323),
       (!sp || (dir == 0 && mxeGroup d.outF ≥ 1 && mxeGroup d.outF ≤ 3), 0x0324)],
    fit := firstFail [(decide (packRowBytes linF cols ≤ pitch), 0x030A)],
    rngs := rs, pos14 := none, gang := d.f 49 1, unit := .cores }

def packRun (s : State) (d : Desc) : State × Nat × Nat :=
  let rows := d.f 36 4
  let cols := d.f 40 4
  let pitch := d.f 44 4
  let exact := fmtInt d.inF && fmtInt d.outF
  if d.f 48 1 = 0 then
    let (bytes, fl) := runFlg (do
      let m ← (List.range rows).mapM (fun r => do
        let l ← s.loadLin d.inF (d.f 24 6 + r * pitch) cols
        if exact then pure l else vxeInAll d.ieee d.inF l)
      if (d.f 50 1).testBit 0 then sparseStore d.outF d.ieee rows cols m
      else tileStore d.outF d.ieee rows cols m)
    (s.wr (d.f 30 6) bytes, 0x0000, fl)
  else
    let (ls, fl) := runFlg ((List.range rows).mapM (fun r => do
      let l ← (List.range cols).mapM (fun c => s.elemAt d.inF (d.f 24 6) cols r c)
      let l ← if exact then pure l else vxeInAll d.ieee d.inF l
      linStore d.outF d.ieee l))
    (((List.range rows).zip ls).foldl (fun s p => s.wr (d.f 30 6 + p.1 * pitch) p.2) s, 0x0000, fl)

end Sys2Proof.Machine
end

