-- ==== Sys2Proof/Machine/Attention.lean ====
section
/-! DEFINITION. Attention and the key-value cache (chapter 05). -/

namespace Sys2Proof.Machine

/-- How the reading at placement ends: the descriptor runs, faults, or waits with a delay reason. -/
inductive PRes where
  | ok (s : State)
  | fault (s : State) (st : Nat)
  | wait (s : State) (reason : Nat)

/-! ### Cache geometry (R116, R117) -/

structure KvGeom where
  kvh : Nat
  hd : Nat
  pt : Nat
  hpp : Nat
  fmt : Nat
deriving DecidableEq, Repr

def kvTile (f : Nat) : Nat := if f = 3 ∨ f = 4 then 2048 else 1024
def KvGeom.bHead (g : KvGeom) : Nat := 2 * (g.pt / 32) * (g.hd / 32) * kvTile g.fmt
def KvGeom.groups (g : KvGeom) : Nat := g.kvh / max 1 g.hpp

def KvGeom.ok (g : KvGeom) : Bool :=
  decide (g.hd ∈ [32, 64, 128, 256]) && decide (g.pt ∈ [32, 64, 128, 256, 512]) && within g.hpp 1 16
  && decide (g.kvh % max 1 g.hpp = 0) && decide (g.hpp * g.bHead ≤ 65536)

def kvFmtOk (f : Nat) : Bool := decide (f ∈ [3, 4, 5, 6])

/-- Where head slot `sl` of page `h` begins. -/
def KvGeom.slotAt (g : KvGeom) (h sl : Nat) : Nat := kvBase + h * kib64 + sl * g.bHead

/-- Key element: position row `p`, dimension `c`. -/
def keyElem (s : State) (g : KvGeom) (h sl p c : Nat) : Flg Val := s.elemAt g.fmt (g.slotAt h sl) g.hd p c

/-- Value element: stored transposed, head_dim rows by page_tokens columns. -/
def valElem (s : State) (g : KvGeom) (h sl p c : Nat) : Flg Val :=
  s.elemAt g.fmt (g.slotAt h sl + g.bHead / 2) g.pt c p

/-! ### Page lists (R118, R119) -/

def plV (s : State) (a : Nat) : Nat := s.rd a 4
def plC (s : State) (a : Nat) : Nat := s.rd (a + 4) 4

def plHeaderOk (s : State) (a : Nat) : Bool :=
  decide (plV s a ≤ plC s a) && within (plC s a) 1 8192 && decide (s.rd (a + 8) 8 = 0)

/-- Where entry `i` of group `q` lies in a list of capacity `c`. -/
def plSlot (a c q i : Nat) : Nat := a + 16 + 4 * (q * c + i)
def plEntryAddr (s : State) (a q i : Nat) : Nat := plSlot a (plC s a) q i
def plEntry (s : State) (a q i : Nat) : Nat := s.rd (plEntryAddr s a q i) 4

/-- The recorded length L, or none where the list breaks R119. -/
def plLength (s : State) (a : Nat) (g : KvGeom) : Option Nat :=
  let v := plV s a
  if v = 0 then some 0
  else
    let f := (s.page (plEntry s a 0 (v - 1))).fill
    if (List.range g.groups).all (fun q =>
        decide ((s.page (plEntry s a q (v - 1))).fill = f)
        && (List.range (v - 1)).all (fun i => decide ((s.page (plEntry s a q i)).fill = g.pt)))
    then some ((v - 1) * g.pt + f) else none

/-! ### Absence report (R138) -/

/-- Write the report: first such page, its group and index, and how many there are. -/
def absenceReport (s : State) (die rep : Nat) (bad : List (Nat × Nat × Nat)) : State :=
  match bad with
  | [] => s
  | (q, i, h) :: _ =>
    let p := s.page h
    (s.wr rep (toBytes 4 i ++ toBytes 4 h ++ toBytes 4 p.first ++ toBytes 4 p.fill ++ toBytes 2 q
      ++ toBytes 4 bad.length ++ toBytes 10 0)).bumpOd (0x4200 + die) 0x31

/-- The pages of indices `i0 ≤ i < i1`, group by group: (group, index, handle). -/
def plPages (s : State) (a groups i0 i1 : Nat) : List (Nat × Nat × Nat) :=
  ((List.range groups).map (fun q => (List.range (i1 - i0)).map (fun j => (q, i0 + j, plEntry s a q (i0 + j))))).flatten

/-- Is a handle's page Present? -/
def presentPage (s : State) (h : Nat) : Bool := decide (h < 1048576) && decide ((s.page h).st = .present)

/-! ### Page handle operations (R124, R125) -/

def pageInfo (_s : State) (d : Desc) : OpInfo :=
  let n := d.f 36 4
  let op := d.f 40 1
  { ext := false, resv := [(42 * 8, 22 * 8)], resvOk := true,
    fmt := firstFail [(d.inF == 0 && d.outF == 0, 0x0330)],
    lim := firstFail
      [(aligned (d.f 24 6) 4 && (op != 4 || aligned (d.f 30 6) 4), 0x0325),
       (op != 4 || !(overlap (d.f 24 6) (4 * n) (d.f 30 6) (16 * n)), 0x0322),
       (within n 1 4096 && within op 1 4 && decide (d.f 41 1 ≤ 4), 0x030B)],
    fit := none,
    rngs := ⟨d.f 24 6, 4 * n, op == 1, false⟩ :: (if op = 4 then [wrLin (d.f 30 6) (16 * n)] else []),
    pos14 := none, gang := 1, unit := .cores }

/-- The list of a page operation as it stands in memory. -/
def pageHandles (s : State) (d : Desc) : List Nat := (List.range (d.f 36 4)).map (fun i => s.rd (d.f 24 6 + 4 * i) 4)

/-- Allocate: all or nothing; it waits while an on-demand spill may make room. What was dropped for it stays dropped
(R281). -/
def pageAllocRun (s : State) (d : Desc) : CRes :=
  let n := d.f 36 4
  if !(s.hasCache d.ctx) then .done s 0x0545
  else match allocPages d.ctx (d.f 41 1) ((List.range n).map (fun _ => 0)) s with
    | (some hs, s') =>
      let s' := hs.foldl (fun s h => s.setPage h { s.page h with claim := none }) s'
      .done (s'.wr (d.f 24 6) (hs.map (fun h => toBytes 4 h)).flatten) 0
    | (none, s') =>
      match s'.pageSpill d.ctx (d.f 41 1) n with
      | some s'' => .wait s''
      | none => .done s' 0x0545

/-- The lower of two notices; 0 stands for none. -/
def minNotice (a b : Nat) : Nat := if a = 0 then b else if b = 0 then a else min a b

/-- Share or release one handle. -/
def refOne (share : Bool) (r : State × Nat) (h : Nat) : State × Nat :=
  let (s, n) := r
  let p := s.page h
  if h ≥ 1048576 ∨ p.st = .free then (s, minNotice n 0x0133)
  else if p.refs = 65535 then (s, minNotice n 0x0132)
  else if share then
    (s.setPage h { p with refs := p.refs + 1 }, if p.refs + 1 = 65535 then minNotice n 0x0131 else n)
  else if p.refs ≤ 1 ∧ ¬ s.pageHeld h then (s.freePage h, n)
  else (s.setPage h { p with refs := p.refs - 1 }, n)

/-- Share: of the handles as the list named them at placement (R115). -/
def pageShareRun (s : State) (d : Desc) : CRes :=
  let r := d.tbl.foldl (refOne true) (s, 0)
  .done r.1 r.2

/-- Release: a page that nothing refers to or holds is Free at once (R123), so that a later mention of it is skipped (R125). -/
def pageReleaseRun (s : State) (d : Desc) : CRes :=
  let r := d.tbl.foldl (refOne false) (s, 0)
  .done r.1 r.2

def pageStCode : PageSt → Nat
  | .free => 0 | .present => 1 | .absent => 2 | .refilling => 3

def pageQueryRec (s : State) (h : Nat) : List Byte :=
  let p := if h < 1048576 then s.page h else Page.zero
  toBytes 4 h ++ toBytes 1 (pageStCode p.st) ++ toBytes 1 p.die ++ toBytes 2 p.refs ++ toBytes 4 p.first
    ++ toBytes 2 p.fill ++ toBytes 2 0

/-- Query: the records of the entries as they stood at placement (R115, R122). -/
def pageQueryRun (s : State) (d : Desc) : CRes :=
  .done (s.wr (d.f 30 6) (d.tbl.map (toBytes 16)).flatten) 0

/-- What a page operation reads when it is placed (R115): the handles of its list, or for a query their entries. -/
def pagePlace (s : State) (id : Nat) (d : Desc) : PRes :=
  let hs := if d.f 40 1 = 1 then [] else pageHandles s d
  .ok (s.updDesc id (fun x => { x with tbl := if d.f 40 1 = 4 then hs.map (fun h => ofBytes (pageQueryRec s h)) else hs }))

/-! ### Fused attention (R126–R131) -/

def attnGeom (d : Desc) : KvGeom :=
  { kvh := d.f 56 2, hd := d.f 58 2, pt := d.f 60 2, hpp := d.f 62 1, fmt := d.f 92 1 }

def attnSplit (d : Desc) : Bool := (d.f 90 1).testBit 0

/-- Query rows in all: q_heads × q_len. -/
def attnR (d : Desc) : Nat := d.f 54 2 * d.f 64 4

/-- The stride of a segment record (R131). -/
def segStride (r hd : Nat) : Nat := roundUp (8 * r) 64 + ceilDiv r 32 * (hd / 32) * 4096

def attnItems (d : Desc) : Nat :=
  let g := d.f 54 2 / max 1 (d.f 56 2)
  d.f 56 2 * ceilDiv (g * d.f 64 4) 32 * d.f 88 1

def attnInfo (_s : State) (d : Desc) : OpInfo :=
  let g := attnGeom d
  let sp := attnSplit d
  let r := attnR d
  let sc := f32 (d.f 84 4)
  let rs := [rdTile (d.f 24 6) (matBytes d.inF false r g.hd), rdLin (d.f 36 6) 16, wrLin (d.f 48 6) 32]
    ++ (if sp then [wrTile (d.f 42 6 + d.f 89 1 * segStride r g.hd) (d.f 88 1 * segStride r g.hd)]
        else [wrTile (d.f 30 6) (matBytes d.outF false r g.hd)])
  { ext := true, resv := [(90 * 8 + 1, 7), (93 * 8, 35 * 8)], resvOk := true,
    fmt := firstFail
      [(fmtsValid [d.inF, d.outF, g.fmt], 0x0330), (kvFmtOk d.inF && kvFmtOk g.fmt, 0x0331),
       (mxePair d.inF g.fmt, 0x0332)],
    lim := firstFail
      [(within (d.f 91 1) 1 64, 0x030B),
       (aligned (d.f 24 6) 64 && aligned (d.f 36 6) 64 && aligned (d.f 48 6) 32 && inHub (d.f 48 6) 32
          && (if sp then aligned (d.f 42 6) 64 else aligned (d.f 30 6) 64), 0x0325),
       (outsClear rs, 0x0322),
       (g.ok, 0x0340),
       (within (d.f 54 2) 1 256 && within g.kvh 1 256 && within (d.f 64 4) 1 8192
          && within (d.f 76 4) 1 4194304, 0x030B),
       (d.f 54 2 % max 1 g.kvh == 0, 0x0341),
       (if sp then d.outF == 2 else decide (d.outF ∈ [2, 3, 4, 5, 6]), 0x0342),
       (within (d.f 88 1) 1 64 && (sp || (d.f 88 1 == 1)) && decide (d.f 88 1 ≤ d.f 76 4)
          && decide (d.f 89 1 + d.f 88 1 ≤ 64), 0x0342),
       (decide (d.f 63 1 ≤ 2) && (if d.f 63 1 = 2 then within (d.f 80 4) 1 4194304 else d.f 80 4 == 0)
          && isFin sc && !(isZero sc), 0x0343),
       (decide (d.f 91 1 ≤ attnItems d), 0x030B)],
    fit := none, rngs := rs, pos14 := none, gang := d.f 91 1, unit := .cores }

/-- The positions some row may see, as a half-open range (R128). -/
def attnNeeded (d : Desc) : Nat × Nat :=
  let a := d.f 72 4
  let b := a + d.f 76 4
  let q0 := d.f 68 4
  let hi := if d.f 63 1 = 0 then b else min b (q0 + d.f 64 4)
  let lo := if d.f 63 1 = 2 then max a (q0 + 1 - d.f 80 4) else a
  (lo, hi)

/-- A fault at placement leaves the operation's tile-form outputs undefined (R88, R138). -/
def attnFault (s : State) (d : Desc) (st : Nat) : PRes :=
  .fault ((attnInfo s d).rngs.foldl (fun s r => if r.wr && r.tile then s.scribble r.a r.n else s) s) st

/-- What placement reads (R115, R118, R119, R126, R128, R138). The recorded length and the page list's entries are then fixed
in `aux`: L, v, the handles. -/
def attnPlace (s : State) (id : Nat) (d : Desc) : PRes :=
  let g := attnGeom d
  let a := d.f 36 6
  let fin := d.f 72 4 + d.f 76 4
  if !(plHeaderOk s a) || decide (plC s a * g.pt < fin) || decide (plV s a * g.pt < fin) then attnFault s d 0x0544
  else
    let (lo, hi) := attnNeeded d
    let need := if lo < hi then plPages s a g.groups (lo / g.pt) (ceilDiv hi g.pt) else []
    let bad := need.filter (fun p => !(presentPage s p.2.2))
    if !bad.isEmpty then attnFault (absenceReport s d.die (d.f 48 6) bad) d 0x0542
    else match plLength s a g with
      | none => attnFault s d 0x0544
      | some len =>
        if len < fin then attnFault s d 0x0544
        else
          let all := plPages s a g.groups 0 (plV s a)
          let s1 := need.foldl (fun s p => s.setPage p.2.2 { s.page p.2.2 with stamp := s.carTime }) s
          .ok (s1.updDesc id (fun x => { x with
            pages := need.map (fun p => p.2.2), aux := len :: plV s a :: all.map (fun p => p.2.2) }))

/-- Does query row `i` see position `p` (R128)? -/
def attnSees (d : Desc) (i p : Nat) : Bool :=
  match d.f 63 1 with
  | 0 => true
  | 1 => decide (p ≤ d.f 68 4 + i)
  | _ => decide (d.f 68 4 + i < p + d.f 80 4 ∧ p ≤ d.f 68 4 + i)

/-- One query row's running state: m, l and O. -/
structure AttnRow where
  m : Val
  l : Val
  o : List Val
deriving DecidableEq, Repr

/-- The format p is converted to (R129). -/
def pvFmt (f : Nat) : Nat := if f = 3 then 3 else if f = 4 then 4 else 5

/-- One key block of R129: the keys and values of its 32 positions, no key where the row does not see the position (its score
is −∞, its p is 0); `k`, `i` number its free sums. -/
def attnBlock (d : Desc) (g : KvGeom) (c2 : Val) (q : List Val) (k i : Nat) (st : AttnRow)
    (kvs : List (Option (List Val) × List Val)) : Flg AttnRow := do
  let sc ← ((List.range kvs.length).zip kvs).mapM (fun p =>
    match p.2.1 with
    | some ks => do mul32 (← mxeDot (mxeGroup d.inF) (Config.free k (i * 1024 + p.1)) q ks) c2
    | none => pure (.inf true))
  let mb := sc.foldl maxNan st.m
  if mb = .inf true then pure st
  else do
    let a ← if st.m = .inf true then pure valZero else do vxeExp2 (← sub32 st.m mb)
    let ps ← (sc.zip kvs).mapM (fun x => if x.2.1.isSome then do vxeExp2 (← sub32 x.1 mb) else pure valZero)
    let sum ← vxeSum (Config.free k (i * 1024 + 32)) ps
    let l ← fmaF fmtFP32 st.l a sum
    let pc ← roundTrip (pvFmt g.fmt) d.ieee ps
    let o ← ((List.range g.hd).zip st.o).mapM (fun p => do
      let col := kvs.map (fun kv => at_ kv.2 p.1)
      let pv ← mxeDot (mxeGroup (pvFmt g.fmt)) (Config.free k (i * 1024 + 64 + p.1)) pc col
      fmaF fmtFP32 p.2 a pv)
    pure { m := mb, l := l, o := o }

/-- One query row over one segment: the blocks of 32 positions that hold a seen one, in ascending order; rows at or beyond the
recorded length are never read (R135). -/
def attnRow (s : State) (d : Desc) (g : KvGeom) (c2 : Val) (k r : Nat) (head i p0 p1 : Nat) (q : List Val) :
    Flg AttnRow := do
  let j := head / (d.f 54 2 / max 1 g.kvh)
  let len := d.aux.headD 0
  let v := d.aux.getD 1 0
  let start : AttnRow := { m := .inf true, l := valZero, o := (List.range g.hd).map (fun _ => valZero) }
  (List.range (ceilDiv p1 32 - p0 / 32)).foldlM (fun st b => do
    let blk := p0 / 32 + b
    let ps := (List.range 32).map (fun x => blk * 32 + x)
    let sees (p : Nat) : Bool := decide (p0 ≤ p ∧ p < p1) && attnSees d i p
    if !(ps.any sees) then pure st
    else do
      let kvs ← ps.mapM (fun p => do
        let h := d.aux.getD (2 + j / max 1 g.hpp * v + p / g.pt) 0
        let sl := j % max 1 g.hpp
        let ks ← if sees p then do pure (some (← (List.range g.hd).mapM (fun c => keyElem s g h sl (p % g.pt) c)))
          else pure none
        let vs ← (List.range g.hd).mapM (fun c => if p < len then valElem s g h sl (p % g.pt) c else pure valZero)
        pure (ks, vs))
      attnBlock d g c2 q k (r * 262144 + blk) st kvs) start

/-- Segment `k` of the attended positions (R128). -/
def attnSeg (d : Desc) (k : Nat) : Nat × Nat :=
  (d.f 72 4 + k * d.f 76 4 / max 1 (d.f 88 1), d.f 72 4 + (k + 1) * d.f 76 4 / max 1 (d.f 88 1))

/-- Every row of one segment. -/
def attnRows (s : State) (d : Desc) (k seg : Nat) : Flg (List AttnRow) := do
  let g := attnGeom d
  let c2 ← mul32 (f32 (d.f 84 4)) (f32 0x3FB8AA3B)
  let qs ← s.loadMat d.inF (d.f 24 6) (attnR d) g.hd
  let (p0, p1) := attnSeg d seg
  ((List.range (attnR d)).zip qs).mapM (fun x =>
    attnRow s d g c2 k (seg * attnR d + x.1) (x.1 / d.f 64 4) (x.1 % d.f 64 4) p0 p1 x.2)

/-- A segment record (R131). -/
def segRecord (rows : List AttnRow) (hd : Nat) : Flg (List Byte) := do
  let ml := (rows.map (fun r => toBytes 4 (bits32 r.m) ++ toBytes 4 (bits32 r.l))).flatten
  let pad := List.replicate (roundUp (8 * rows.length) 64 - 8 * rows.length) (0 : Byte)
  let o ← tileStore 2 true rows.length hd (rows.map (fun r => r.o))
  pure (ml ++ pad ++ o)

/-- Pages read now are as old as this moment (R120). -/
def State.touchPages (s : State) (hs : List Nat) : State :=
  hs.foldl (fun s h => if (s.page h).st = .free then s else s.setPage h { s.page h with stamp := s.carTime }) s

def attnRun (s : State) (d : Desc) : State × Nat × Nat :=
  let g := attnGeom d
  let (k, s1) := s.draw
  let s1 := s1.touchPages d.pages
  if attnSplit d then
    let (segs, fl) := runFlg ((List.range (d.f 88 1)).mapM (fun seg => do
      segRecord (← attnRows s d k seg) g.hd))
    (((List.range (d.f 88 1)).zip segs).foldl (fun s p =>
      s.wr (d.f 42 6 + (d.f 89 1 + p.1) * segStride (attnR d) g.hd) p.2) s1, 0x0000, fl)
  else
    let ((bytes, empty), fl) := runFlg (do
      let rows ← attnRows s d k 0
      let out ← rows.mapM (fun r =>
        if r.m = .inf true then pure r.o else r.o.mapM (fun x => div32 x r.l))
      pure (← tileStore d.outF d.ieee (attnR d) g.hd out, rows.countP (fun r => decide (r.m = .inf true))))
    ((if empty = 0 then s1 else s1.bumpOd (0x4200 + d.die) 0x30 empty).wr (d.f 30 6) bytes,
      if empty = 0 then 0x0000 else 0x0130, fl)

/-! ### Partial merge (R132) -/

def mergeInfo (_s : State) (d : Desc) : OpInfo :=
  let r := d.f 36 4
  let hd := d.f 40 2
  let rs := [rdTile (d.f 24 6 + d.f 42 1 * segStride r hd) (d.f 43 1 * segStride r hd),
    wrTile (d.f 30 6) (matBytes d.outF false r hd)]
  { ext := false, resv := [(45 * 8, 19 * 8)], resvOk := true,
    fmt := firstFail [(fmtsValid [d.inF, d.outF], 0x0330), (d.inF == 2, 0x0331)],
    lim := firstFail
      [(within (d.f 44 1) 1 64, 0x030B), (aligned (d.f 24 6) 64 && aligned (d.f 30 6) 64, 0x0325),
       (outsClear rs, 0x0322), (within r 1 2097152, 0x030B), (decide (hd ∈ [32, 64, 128, 256]), 0x0340),
       (decide (d.f 42 1 ≤ 63) && within (d.f 43 1) 1 64 && decide (d.f 42 1 + d.f 43 1 ≤ 64)
          && decide (d.outF ∈ [2, 3, 4, 5, 6]), 0x0342)],
    fit := none, rngs := rs, pos14 := none, gang := d.f 44 1, unit := .cores }

/-- Merge one row; none where it has no seen position. -/
def mergeRow (hd : Nat) (segs : List AttnRow) : Flg (Option (List Val)) := do
  let mx := segs.foldl (fun a r => maxNan a r.m) (.inf true)
  if mx = .inf true then pure none
  else do
    let live := segs.filter (fun r => decide (r.m ≠ .inf true))
    let fs ← live.mapM (fun r => do pure (r, ← vxeExp2 (← sub32 r.m mx)))
    let l ← fs.foldlM (fun a p => do add32 a (← mul32 p.1.l p.2)) valZero
    let o ← (List.range hd).mapM (fun c => do
      let x ← fs.foldlM (fun a p => do add32 a (← mul32 (at_ p.1.o c) p.2)) valZero
      div32 x l)
    pure (some o)

def mergeRun (s : State) (d : Desc) : State × Nat × Nat :=
  let r := d.f 36 4
  let hd := d.f 40 2
  let ((bytes, empty), fl) := runFlg (do
    let rows ← (List.range r).mapM (fun i => do
      let segs ← (List.range (d.f 43 1)).mapM (fun j => do
        let a := d.f 24 6 + (d.f 42 1 + j) * segStride r hd
        let ml ← s.loadLin 2 (a + 8 * i) 2
        let o ← (List.range hd).mapM (fun c => s.elemAt 2 (a + roundUp (8 * r) 64) hd i c)
        pure ({ m := at_ ml 0, l := at_ ml 1, o := o } : AttnRow))
      mergeRow hd segs)
    let out := rows.map (fun x => x.getD ((List.range hd).map (fun _ => valZero)))
    pure (← tileStore d.outF d.ieee r hd out, rows.countP (fun x => x.isNone)))
  ((if empty = 0 then s else s.bumpOd (0x4200 + d.die) 0x30 empty).wr (d.f 30 6) bytes,
    if empty = 0 then 0x0000 else 0x0130, fl)

/-! ### Cache append and refill (R135, R136) -/

def appGeom (d : Desc) : KvGeom :=
  { kvh := d.f 56 2, hd := d.f 58 2, pt := d.f 60 2, hpp := d.f 62 1, fmt := d.outF }

def appRefill (d : Desc) : Bool := (d.f 63 1).testBit 0

def appendInfo (_s : State) (d : Desc) : OpInfo :=
  let g := appGeom d
  let n := matBytes d.inF false (g.kvh * d.f 52 4) g.hd
  let rs := [rdTile (d.f 24 6) n, rdTile (d.f 30 6) n, wrLin (d.f 36 6) 16, wrLin (d.f 42 6) 32]
  { ext := true, resv := [(63 * 8 + 1, 7), (66 * 8, 62 * 8)], resvOk := true,
    fmt := firstFail [(fmtsValid [d.inF, d.outF], 0x0330), (kvFmtOk d.outF, 0x0331)],
    lim := firstFail
      [(within (d.f 65 1) 1 16, 0x030B),
       (aligned (d.f 24 6) 64 && aligned (d.f 30 6) 64 && aligned (d.f 36 6) 64 && aligned (d.f 42 6) 32
          && inHub (d.f 42 6) 32, 0x0325),
       (outsClear rs, 0x0322),
       (within (d.f 52 4) 1 8192 && within g.kvh 1 256 && decide (d.f 64 1 ≤ 4), 0x030B),
       (g.ok, 0x0340), (decide (d.f 65 1 ≤ g.groups), 0x030B)],
    fit := none, rngs := rs, pos14 := none, gang := d.f 65 1, unit := .cores }

/-- Copy on write of one group's last page: a new page takes its positions, the list entry its handle, and the
old page loses a count (R135 step 4). Answers whether a page could be had. -/
def copyOnWrite (s : State) (id : Nat) (d : Desc) (q i h : Nat) : Bool × State :=
  let p := s.page h
  match allocPages d.ctx (d.f 64 1) [p.first] s with
  | (some [h'], s') =>
    let s1 := s'.setPage h' { s'.page h' with fill := p.fill, claim := some id }
    let s1 := { s1 with mem := cellPaste 0 (kvBase + h' * kib64) (cellSlice (kvBase + h * kib64) kib64 s1.mem) s1.mem }
    let s1 := s1.wrN (plEntryAddr s1 (d.f 36 6) q i) 4 h'
    let p' := s1.page h
    (true, (s1.setPage h { p' with refs := if p'.refs = 65535 then 65535 else p'.refs - 1, claim := none,
                                   stamp := s.carTime }).bumpOd 0x2410 0x06)
  | (_, s') => (false, s')

/-- What an early end of an append does: the pages that step 5 allocated are released, to become Free once the append has
ended (R123, R135), and its claims are given up. -/
def appendUndo (s : State) (id : Nat) (news : List Nat) : State :=
  let undo (h : Nat) (p : Page) : Page :=
    let p := if p.claim = some id then { p with claim := none } else p
    if news.contains h ∧ p.refs ≠ 65535 then { p with refs := p.refs - 1 } else p
  { s with pages := AMap.mapV undo s.pages }

/-- No page is left for an append. Where an on-demand spill may free room it waits (R281), holding what it has claimed and
copied; else it faults. The copies of step 4 and what was dropped stand either way. -/
def appendShort (s : State) (id : Nat) (d : Desc) (held : List Nat) (n : Nat) : PRes :=
  match s.pageSpill d.ctx (d.f 64 1) n with
  | some s' => .wait (s'.updDesc id (fun x => { x with pages := held, aux := [] })) 0x0A
  | none => .fault (appendUndo s id []) 0x0545

/-- Steps 1–5 of R135. `aux` is: L, v, the pages per group, how many pages step 5 allocated, those, then the handles of the
pages written, group by group; `tbl` is the list's capacity. -/
def appendPlace (s : State) (id : Nat) (d : Desc) : PRes :=
  let g := appGeom d
  let a := d.f 36 6
  let pos := d.f 48 4
  let n := d.f 52 4
  let v := plV s a
  let lastI := pos / g.pt
  let endI := ceilDiv (pos + n) g.pt
  let old := if lastI < v then plPages s a g.groups lastI (lastI + 1) else []
  let free := old.filter (fun p => decide (p.2.2 ≥ 1048576) || decide ((s.page p.2.2).st = .free))
  let bad := old.filter (fun p => !(presentPage s p.2.2))
  if !(plHeaderOk s a) then .fault s 0x0544
  else if lastI + 1 = v ∧ ¬ free.isEmpty then .fault (absenceReport s d.die (d.f 42 6) bad) 0x0542
  else match plLength s a g with
    | none => .fault s 0x0544
    | some len =>
      if pos ≠ len then .fault s 0x0543
      else if plC s a < endI then .fault s 0x0544
      else
        if !bad.isEmpty then .fault (absenceReport s d.die (d.f 42 6) bad) 0x0542
        else if old.any (fun p => (s.page p.2.2).claim.any (· ≠ id)) then .fault s 0x0543
        else if !(s.hasCache d.ctx) && (decide (v < endI) || old.any (fun p => decide (1 < (s.page p.2.2).refs))) then
          .fault s 0x0545
        else
          let s1 := old.foldl (fun s p => s.setPage p.2.2 { s.page p.2.2 with claim := some id }) s
          let (made, s2) := old.foldl (fun (r : Bool × State) p =>
            if !r.1 || decide ((r.2.page p.2.2).refs ≤ 1) then r else copyOnWrite r.2 id d p.1 p.2.1 p.2.2) (true, s1)
          let cur (q : Nat) : List Nat := if lastI < v then [plEntry s2 a q lastI] else []
          let held := old.map (fun p => p.2.2) ++ ((List.range g.groups).map cur).flatten
          if !made then appendShort s2 id d held old.length
          else
            let firsts := ((List.range g.groups).map (fun _ =>
              (List.range (endI - v)).map (fun j => (v + j) * g.pt))).flatten
            match allocPages d.ctx (d.f 64 1) firsts s2 with
            | (none, s3) => appendShort s3 id d held (g.groups * (endI - v))
            | (some news, s3) =>
              let s3 := news.foldl (fun s h => s.setPage h { s.page h with claim := some id }) s3
              let hs := ((List.range g.groups).map (fun q => cur q ++ (news.drop (q * (endI - v))).take (endI - v))).flatten
              .ok (s3.updDesc id (fun x => { x with
                pages := held ++ news, tbl := [plC s a],
                aux := len :: v :: (endI - min lastI v) :: news.length :: (news ++ hs) }))

/-- The bytes of one new row element: convert and place it (R39, R117). -/
def kvWrite (s : State) (g : KvGeom) (h sl p c : Nat) (isV : Bool) (w : Nat) : State :=
  let base := g.slotAt h sl + (if isV then g.bHead / 2 else 0)
  let r := if isV then c else p
  let cc := if isV then p else c
  let cols := if isV then g.pt else g.hd
  let t := tileAt g.fmt false base cols r cc
  let b := ((r % 32) * 32 + cc % 32) * (fmtBits g.fmt / 8)
  { s with mem := (toBytes (fmtBits g.fmt / 8) w).zipIdx.foldl (fun m x => cellSet 0 (t + b + x.2) x.1 m) s.mem }

/-- The converted new rows: for head, row: the key bits and the value bits. -/
def appendBits (s : State) (d : Desc) (g : KvGeom) : Flg (List (List (Nat × Nat))) := do
  let n := d.f 52 4
  (List.range (g.kvh * n)).mapM (fun r => (List.range g.hd).mapM (fun c => do
    let k ← vxeIn d.ieee d.inF (← s.elemAt d.inF (d.f 24 6) g.hd r c)
    let v ← vxeIn d.ieee d.inF (← s.elemAt d.inF (d.f 30 6) g.hd r c)
    pure (← convert g.fmt d.ieee k, ← convert g.fmt d.ieee v)))

/-- Write the new rows; `pg q i` is the handle of group `q`'s page `i`. -/
def writeRows (s : State) (d : Desc) (g : KvGeom) (pg : Nat → Nat → Nat) (m : List (List (Nat × Nat))) : State :=
  let n := d.f 52 4
  (List.range (g.kvh * n)).foldl (fun s r =>
    let head := r / n
    let p := d.f 48 4 + r % n
    let h := pg (head / max 1 g.hpp) (p / g.pt)
    (List.range g.hd).foldl (fun s c =>
      let kv := (m.getD r []).getD c (0, 0)
      kvWrite (kvWrite s g h (head % max 1 g.hpp) (p % g.pt) c false kv.1) g h (head % max 1 g.hpp) (p % g.pt) c
        true kv.2) s) s

/-- Steps 6 and 7 of R135. -/
def appendRun (s : State) (d : Desc) : State × Nat × Nat :=
  let g := appGeom d
  let a := d.f 36 6
  let v := d.aux.getD 1 0
  let per := d.aux.getD 2 0
  let nNew := d.aux.getD 3 0
  let hs := d.aux.drop (4 + nNew)
  let pos := d.f 48 4
  let i0 := min (pos / g.pt) v
  let pg (q i : Nat) : Nat := hs.getD (q * per + (i - i0)) 0
  let (m, fl) := runFlg (appendBits s d g)
  let s1 := writeRows s d g pg m
  let fin := pos + d.f 52 4
  let s2 := (List.range g.groups).foldl (fun s q => (List.range per).foldl (fun s j =>
    let h := pg q (i0 + j)
    let s := s.setPage h { s.page h with
      fill := min g.pt (fin - (i0 + j) * g.pt), claim := none, stamp := s.carTime }
    if i0 + j ≥ v then s.wrN (plSlot a (d.tbl.headD 0) q (i0 + j)) 4 h else s) s) s1
  (s2.wrN a 4 (ceilDiv fin g.pt), 0x0000, fl)

/-- What a refill needs at placement (R136). `aux` is: v, first index, then the handles, group by group. -/
def refillPlace (s : State) (id : Nat) (d : Desc) : PRes :=
  let g := appGeom d
  let a := d.f 36 6
  let pos := d.f 48 4
  let i0 := pos / g.pt
  let i1 := ceilDiv (pos + d.f 52 4) g.pt
  if !(plHeaderOk s a) || decide (plV s a < i1) then .fault s 0x0544
  else
    let ps := plPages s a g.groups i0 i1
    let free := ps.filter (fun p => decide (p.2.2 ≥ 1048576) || decide ((s.page p.2.2).st = .free))
    if !free.isEmpty then .fault (absenceReport s d.die (d.f 42 6) free) 0x0542
    else if ps.any (fun p => (s.page p.2.2).claim.isSome) then .fault s 0x0543
    else if !(ps.all (fun p =>
        let pg := s.page p.2.2
        let off := if p.2.1 = i0 then pos % g.pt else 0
        (decide (pg.st = .absent) && off == 0 || decide (pg.st = .refilling) && pg.fill == off)
          && (p.2.1 != i0 || decide (pos = pg.first + off)))) then .fault s 0x0546
    else
      let s1 := ps.foldl (fun s p => s.setPage p.2.2 { s.page p.2.2 with claim := some id }) s
      .ok (s1.updDesc id (fun x => { x with
        pages := ps.map (fun p => p.2.2), aux := plV s a :: i0 :: (i1 - i0) :: 0 :: ps.map (fun p => p.2.2) }))

/-- The first refill write gives each Absent page fresh backing, on its own die or on any that has room, and makes it
Refilling with fill 0 (R136). Answers how many it cannot give. -/
def refillBack : List Nat → State → Nat × State
  | [], s => (0, s)
  | h :: t, s =>
    let p := s.page h
    if p.st ≠ .absent then refillBack t s
    else match s.pageDie p.owner p.die with
      | (some di, s') =>
        refillBack t { s'.setPage h { s'.page h with st := .refilling, fill := 0, die := di } with
          mem := cellClear (kvBase + h * kib64) kib64 s'.mem }
      | (none, s') => (t.length + 1, s')

/-- Refill: rewrite the rows in place; a page becomes Present when its fill is back (R136). -/
def refillRun (s : State) (d : Desc) : State × Nat × Nat :=
  let g := appGeom d
  let pos := d.f 48 4
  let fin := pos + d.f 52 4
  let i0 := pos / g.pt
  let per := d.aux.getD 2 0
  let hs := d.aux.drop 4
  let pg (q i : Nat) : Nat := hs.getD (q * per + (i - i0)) 0
  let (m, fl) := runFlg (appendBits s d g)
  let s1 := writeRows s d g pg m
  let s2 := (List.range g.groups).foldl (fun s q => (List.range per).foldl (fun s j =>
    let h := pg q (i0 + j)
    let p := s.page h
    let fill := min g.pt (fin - (i0 + j) * g.pt)
    s.setPage h { p with fill := fill, claim := none, stamp := s.carTime,
                         st := if p.goal ≤ fill then .present else .refilling }) s) s1
  (s2, 0x0000, fl)

end Sys2Proof.Machine
end

