-- ==== Sys2Proof/Machine/Streams.lean ====
section
/-! DEFINITION. Streams and recurrent operators (chapter 06). -/

namespace Sys2Proof.Machine

/-! ### Checks (Tables 06-4, 06-7, 06-9) -/

/-- Does a kind and size keep Table 06-3? -/
def strSizeOk (kind size states : Nat) : Bool :=
  (decide (kind = 1 ∨ kind = 2) && size % 32 == 0 && within size 32 4096)
    || (decide (kind = 3) && size % 64 == 0 && within size 64 16384 && within states 1 64)

def streamInfo (s : State) (d : Desc) : OpInfo :=
  let n := d.f 36 2
  let op := d.f 38 1
  let openOk := strSizeOk (d.f 39 1) (d.f 40 4) (d.f 44 1)
    && decide (strBytes (d.f 39 1) (d.f 40 4) (d.f 44 1) ((d.f 45 1).testBit 0) ≤ 131072)
  { ext := false, resv := [(45 * 8 + 1, 7), (47 * 8, 17 * 8)], resvOk := true,
    fmt := firstFail [(d.inF == 0 && d.outF == 0, 0x0330)],
    lim := firstFail
      [(aligned (d.f 24 6) 4 && (op < 8 || aligned (d.f 30 6) 4), 0x0325),
       (op != 8 || !(overlap (d.f 24 6) (4 * n) (d.f 30 6) (32 * n)), 0x0322),
       (within n 1 256 && within op 1 9, 0x030B),
       (op != 1 || openOk, 0x0350),
       (op != 6 || (s.cls d.ctx == 1 && (s.ctx d.ctx).rsvCl.contains (d.f 46 1 / 8)), 0x0351)],
    fit := none, rngs := rdLin (d.f 24 6) (4 * n) :: (if op = 8 then [wrLin (d.f 30 6) (32 * n)] else []),
    pos14 := none, gang := 1, unit := .cores }

def gates (kind : Nat) : Nat := if kind = 1 then 4 else 3

def cellInfo (_s : State) (d : Desc) : OpInfo :=
  let h := d.f 60 2
  let g := gates (d.f 62 1)
  let b := d.f 63 1
  let t := d.f 64 4
  let wf := d.f 68 1
  let fl := d.f 69 1
  let rs := [rdLin (d.f 24 6) (4 * b), rdTile (d.f 30 6) (matBytes d.inF false (t * b) (g * h)),
      rdTile (d.f 36 6) (matBytes wf false (g * h) h),
      wrTile (d.f 48 6) (matBytes d.outF false (if fl.testBit 1 then t * b else b) h)]
    ++ (if fl.testBit 2 then [rdLin (d.f 42 6) (4 * g * h)] else [])
    ++ (if fl.testBit 0 then [rdLin (d.f 54 6) (ceilDiv (t * b) 8)] else [])
  { ext := true, resv := [(69 * 8 + 3, 5), (71 * 8, 57 * 8)], resvOk := true,
    fmt := firstFail
      [(fmtsValid [d.inF, d.outF, wf], 0x0330), (decide (wf ∈ [2, 3, 4, 5, 6, 7, 8, 9, 10]), 0x0331)],
    lim := firstFail
      [(within (d.f 70 1) 1 8, 0x030B),
       (aligned (d.f 24 6) 4 && aligned (d.f 30 6) 64 && aligned (d.f 36 6) 64 && aligned (d.f 48 6) 64
          && (!(fl.testBit 2) || aligned (d.f 42 6) 4), 0x0325),
       (outsClear rs, 0x0322),
       (decide (d.f 62 1 = 1 ∨ d.f 62 1 = 2) && strSizeOk (d.f 62 1) h 1 && within b 1 32 && within t 1 65536,
          0x0350)],
    fit := none, rngs := rs, pos14 := none, gang := d.f 70 1, unit := .cores }

def scanInfo (_s : State) (d : Desc) : OpInfo :=
  let t := d.f 28 4
  let dd := d.f 64 4
  let n := d.f 68 1
  let am := d.f 69 1
  let om := d.f 70 1
  let fl := d.f 71 1
  let fits := decide (4 * dd * n ≤ 131072)
  let rs := [rdTile (d.f 32 6) (matBytes d.inF false t (if am = 0 then dd * n else dd)),
      rdTile (d.f 38 6) (matBytes (d.f 72 1) false t (dd * n))]
    ++ (if om = 0 then [rdTile (d.f 44 6) (matBytes (d.f 73 1) false t n),
          wrTile (d.f 50 6) (matBytes d.outF false t dd)] else [])
    ++ (if om = 1 then [wrTile (d.f 50 6) (matBytes d.outF false t (dd * n))] else [])
    ++ (if fl.testBit 0 then [rdLin (d.f 56 6) (ceilDiv t 8)] else [])
    ++ (if fl.testBit 2 then [rdLin (d.f 80 6) (4 * dd * n)] else [])
  { ext := true, resv := [(62 * 8, 16), (71 * 8 + 3, 5), (75 * 8, 40), (86 * 8, 42 * 8)], resvOk := true,
    fmt := firstFail
      [(fmtsValid [d.inF, d.f 72 1] && (if om = 0 then fmtValid (d.f 73 1) else d.f 73 1 == 0)
          && (if om = 2 then d.outF == 0 else fmtValid d.outF), 0x0330)],
    lim := firstFail
      [(within (d.f 74 1) 1 8, 0x030B),
       (aligned (d.f 32 6) 64 && aligned (d.f 38 6) 64 && (om != 0 || aligned (d.f 44 6) 64)
          && (om == 2 || aligned (d.f 50 6) 64) && (!(fl.testBit 2) || aligned (d.f 80 6) 4), 0x0325),
       (outsClear rs, 0x0322),
       (decide (am ≤ 1) && decide (om ≤ 2), 0x030B),
       (decide (d.f 24 4 < 65536) && strSizeOk 3 dd n && fits && within t 1 65536, 0x0350)],
    fit := none, rngs := rs, pos14 := none, gang := d.f 74 1, unit := .cores }

/-! ### Slots and moves (R144, R149, R150) -/

def Strm.slots (x : Strm) : Nat := ceilDiv x.bytes 8192

/-- The bytes of a stream's state in the layout of R145. -/
def Strm.image (e : Strm) : List Byte := (e.data.map (fun w => toBytes 4 w)).flatten

/-- The module address of a stream's first slot (R144). -/
def Strm.slotAddr (e : Strm) : Nat :=
  0x020000000000 + e.cluster / 8 * 0x20000000 + 0x04000000 + e.cluster % 8 * 0x00400000 + 0x00300000 + e.slot * 0x2000

/-- The state of stream `x` stands in its slots while it is Resident (R144, R147), and, as it was when it last left them or an
Unpin copied it, in its backing (R149, R160). -/
def State.laySlots (s : State) (x : Nat) : State :=
  let e := s.strm x
  if e.st = .resident then s.wr e.slotAddr e.image else s

def State.layBacking (s : State) (x : Nat) : State :=
  let e := s.strm x
  if (s.obj e.obj).kind = 4 then s.wr (s.obj e.obj).addr e.image else s

/-- The slots in use in a cluster, apart from those of the streams in `out`: (first, count). -/
def State.slotUse (s : State) (g : Nat) (out : List Nat) : List (Nat × Nat) :=
  s.strs.filterMap (fun p =>
    if (p.2.st = .resident ∨ p.2.st = .moving) ∧ p.2.cluster = g ∧ ¬ out.contains p.1
    then some (p.2.slot, p.2.slots) else none)

/-- The lowest run of `n` free slots beside `used`. -/
def freeRun (used : List (Nat × Nat)) (n : Nat) : Option Nat :=
  (List.range (129 - n)).find? (fun j => used.all (fun u => !(overlap j n u.1 u.2)))

/-- The streams that slot demand may take from a cluster, oldest first (R150). -/
def State.slotVictims (s : State) (g : Nat) : List Nat :=
  let c := s.strs.filterMap (fun p =>
    if p.2.st = .resident ∧ p.2.cluster = g ∧ ¬ s.strHeld p.1 ∧ ¬ s.isSC p.2.owner then some (p.1, p.2.stamp) else none)
  (c.mergeSort (fun a b => decide (a.2 ≤ b.2))).map (fun p => p.1)

/-- The streams being swapped out of a cluster. -/
def State.leaving (s : State) (g : Nat) : List Nat :=
  s.strs.filterMap (fun p => if p.2.st = .moving ∧ ¬ p.2.movIn ∧ p.2.cluster = g then some p.1 else none)

/-- How many of a cluster's victims must go before a run of `n` fits, beside those already leaving. -/
def State.outsFor (s : State) (g n : Nat) : Option (List Nat) :=
  let v := s.slotVictims g
  ((List.range (v.length + 1)).find? (fun k =>
    (freeRun (s.slotUse g (s.leaving g ++ v.take k)) n).isSome)).map (fun k => v.take k)

/-- How a claim of slots ends: a place, a wait for the streams named, or no place. -/
inductive SlotRes where
  | at_ (s : State) (cluster slot : Nat)
  | wait (s : State) (outs : List Nat)
  | none_
deriving DecidableEq, Repr

/-- Clusters of a die whose SRAM can take slots. -/
def State.slotClusters (s : State) (d : Nat) : List Nat :=
  ((List.range 8).map (fun k => 8 * d + k)).filter (fun g => (s.clu g).rst == 0)

/-- Find `n` slots on die `d` (R150): a free run where there is one, in a cluster the spec leaves open (log entry
42); else slot demand on the cluster that needs the fewest swap-outs. -/
def State.claimSlots (s : State) (d n : Nat) : SlotRes :=
  let (k, s1) := s.draw
  let gs := s.slotClusters d
  let gs' := gs.rotateLeft (Config.free k 0 % 8)
  match gs'.findSome? (fun g => (freeRun (s.slotUse g []) n).map (fun j => (g, j))) with
  | some (g, j) => .at_ s1 g j
  | none =>
    let best := gs.foldl (fun (b : Option (Nat × List Nat)) g => match s.outsFor g n, b with
      | none, b => b
      | some l, none => some (g, l)
      | some l, some q => if l.length < q.2.length then some (g, l) else some q) none
    match best with
    | none => .none_
    | some (g, outs) =>
      let s2 := outs.foldl (fun s x => (s.setStrm x { s.strm x with st := .moving, movIn := false }).bumpOd 0x2420 0x05) s
      .wait s2 (s2.leaving g)

/-- Start a swap-in of stream `x`: Moving, with its slots claimed (R149). -/
def State.startIn (s : State) (x g j : Nat) : State :=
  s.setStrm x { s.strm x with st := .moving, movIn := true, cluster := g, slot := j }

/-- Bring every listed stream toward Resident: those that are Swapped start their swap-in. Answers the state, the
streams awaited, and whether slot demand failed. -/
def swapInAll (home : Nat) : List Nat → State → State × List Nat × Bool
  | [], s => (s, [], false)
  | x :: t, s =>
    let st := (s.strm x).st
    if st = .swapped ∨ st = .lost then
      match s.claimSlots home (s.strm x).slots with
      | .at_ s' g j => let r := swapInAll home t (s'.startIn x g j); (r.1, x :: r.2.1, r.2.2)
      | .wait s' outs => let r := swapInAll home t s'; (r.1, x :: outs ++ r.2.1, r.2.2)
      | .none_ => (s, [], true)
    else if st = .moving then let r := swapInAll home t s; (r.1, x :: r.2.1, r.2.2)
    else swapInAll home t s

/-! ### Placement (R141, R143, R146, R149, R159) -/

def isChunk (d : Desc) : Bool := decide (d.op = 0x0210 ∨ d.op = 0x0220)

/-- The stream numbers a descriptor names. -/
def strNames (s : State) (d : Desc) : List Nat :=
  if d.op = 0x0200 then (List.range (d.f 36 2)).map (fun i => s.rd (d.f 24 6 + 4 * i) 4)
  else if d.op = 0x0210 then (List.range (d.f 63 1)).map (fun i => s.rd (d.f 24 6 + 4 * i) 4)
  else if d.op = 0x0220 then [d.f 24 4] else []

def distinct (l : List Nat) : Bool :=
  match l with
  | [] => true
  | x :: t => !(t.contains x) && distinct t

/-- The fault that a stream control list meets when it is read, if any. -/
def ctlFault (s : State) (d : Desc) (l : List Nat) : Option Nat :=
  let op := d.f 38 1
  let bad (x : Nat) : Bool := decide (x ≥ 65536)
  let free (x : Nat) : Bool := decide ((s.strm x).st = .free)
  let other (x : Nat) : Bool := !(free x) && (s.strm x).owner != d.ctx
  if l.any bad || !(distinct l) then some 0x0550
  else if op = 1 then (if !(l.all free) then some 0x0551 else none)
  else if op = 8 then (if l.any other then some 0x0550 else none)
  else if op = 6 ∧ (l.any other) then some 0x0351
  else if l.any (fun x => free x || other x) then some 0x0550
  else if op = 6 ∧ l.any (fun x => 4096 < (s.strm x).bytes) then some 0x0351
  else if (op = 3 ∨ op = 4 ∨ op = 6 ∨ op = 7 ∨ op = 9) ∧ l.any (fun x => decide ((s.strm x).st = .lost)) then some 0x0553
  else if op = 6 ∧ l.any (fun x =>
      (match (s.core (d.f 46 1)).pinned with | some y => y != x | none => false)) then some 0x0554
  else if op = 6 ∧ 1 < l.length then some 0x0554
  else none

/-- The fault that a chunk meets when its streams are read, if any. -/
def chunkFault (s : State) (d : Desc) (l : List Nat) : Option Nat :=
  let kind := if d.op = 0x0210 then d.f 62 1 else 3
  let size := if d.op = 0x0210 then d.f 60 2 else d.f 64 4
  let gang := if d.op = 0x0210 then d.f 70 1 else d.f 74 1
  let okS (x : Nat) : Bool :=
    let e := s.strm x
    decide (x < 65536) && decide (e.st ≠ .free) && e.owner == d.ctx && e.kind == kind && e.size == size
      && (kind != 3 || e.states == d.f 68 1)
  if !(l.all okS) || !(distinct l) then some 0x0550
  else if l.any (fun x => decide ((s.strm x).st = .lost) && !((s.strm x).reset)) then some 0x0553
  else if l.any (fun x => decide ((s.strm x).st = .pinned)) && decide (1 < l.length ∨ 1 < gang) then some 0x0555
  else none

/-- Reading the stream table when a descriptor is placed. It waits while an earlier descriptor of its context that names one
of its streams has no final record (R146, Table 06-11). -/
def streamPlace (s : State) (id : Nat) (d : Desc) : PRes :=
  let l := strNames s d
  if s.descs.any (fun p => decide (p.1 < id) && p.2.ctx == d.ctx
      && (p.2.strs ++ strNames s p.2).any (fun x => l.contains x)) then .wait s 0x04
  else if isChunk d then
    match chunkFault s d l with
    | some st => .fault s st
    | none =>
      let r := swapInAll d.die l s
      if r.2.2 then .fault r.1 0x0552
      else if r.2.1.isEmpty then .ok (r.1.updDesc id (fun x => { x with strs := l }))
      else
        let s1 := if d.reason = 0x0A then r.1 else r.1.bumpOd (0x4200 + d.die) 0x41
        .wait (s1.updDesc id (fun x => { x with aux := r.2.1 })) 0x0A
  else
    match ctlFault s d l with
    | some st => .fault s st
    | none => .ok (s.updDesc id (fun x => { x with strs := l }))

/-- The core on which alone a chunk may be placed: the pin core of its Pinned stream (R159). -/
def pinCoreOf (s : State) (d : Desc) : Option Nat :=
  if isChunk d then
    match strNames s d with
    | x :: _ => if (s.strm x).st = .pinned then some (s.strm x).core else none
    | [] => none
  else none

/-- Bytes a copy-out writes (R148). -/
def copyOutBytes (s : State) (d : Desc) : Nat :=
  let l := strNames s d
  natSum (fun x => roundUp (s.strm x).bytes 64) l.dropLast + (match l.getLast? with | some x => (s.strm x).bytes | none => 0)

/-! ### Stream control (Table 06-5) -/

/-- Note a control operation on a stream. -/
def State.touch (s : State) (x seq : Nat) (changed : Bool) : State :=
  let e := s.strm x
  s.setStrm x { e with stamp := s.carTime, lastSeq := if changed then seq else e.lastSeq }

def strZeros (e : Strm) : List Nat := List.replicate (e.bytes / 4) 0

/-- Open: all or nothing; a stream that another Open has taken since placement is not Free (R148). -/
def streamOpenRun (s : State) (d : Desc) : CRes :=
  let kind := d.f 39 1
  let states := if kind = 3 then d.f 44 1 else 1
  let comp := (d.f 45 1).testBit 0
  let bytes := strBytes kind (d.f 40 4) states comp
  let foot := roundUp bytes 8192
  let n := d.strs.length
  if d.strs.any (fun x => decide ((s.strm x).st ≠ .free)) then .done s 0x0551
  else if !(s.quotaOk d.ctx (n * foot)) then .done s 0x0552
  else match s.makeRoom d.ctx d.die (n * roundUp foot kib64) with
    | .wait s' => .wait s'
    | .none_ s' => .done s' 0x0552
    | .ok s' =>
      match d.strs.foldl (fun (r : Option State) x => r.bind (fun s =>
        (s.makeObj 4 d.ctx d.die bytes foot true).map (fun p =>
          p.2.setStrm x { Strm.zero with
            st := .swapped, owner := d.ctx, kind := kind, size := d.f 40 4, states := states, comp := comp,
            reset := true, obj := p.1, stamp := s.carTime, lastSeq := d.seq,
            data := List.replicate (bytes / 4) 0 }))) (some s') with
      | some s2 => .done s2 0x0000
      | none => .done s' 0x0552

def streamResetRun (s : State) (d : Desc) : CRes :=
  .done (d.strs.foldl (fun s x =>
    let e := s.strm x
    (s.setStrm x { e with reset := true, st := if e.st = .lost then .swapped else e.st }).touch x d.seq true) s) 0x0000

/-- A status of 0x0140 where some listed stream was skipped. -/
def skipSt (skipped : Bool) : Nat := if skipped then 0x0140 else 0x0000

/-- Pause: Resident streams move out; the operation ends when their moves have. -/
def streamPauseRun (s : State) (id : Nat) (d : Desc) : CRes :=
  if d.stage = 0 then
    if d.strs.any (fun x => decide ((s.strm x).st = .moving)) then .wait s
    else
      let skipped := d.strs.any (fun x => decide ((s.strm x).st ≠ .resident))
      let s1 := d.strs.foldl (fun s x =>
        let e := s.strm x
        (if e.st = .resident then s.setStrm x { e with st := .moving, movIn := false } else s).touch x d.seq
          (decide (e.st = .resident))) s
      let s2 := s1.updDesc id (fun y => { y with stage := 1, aux := [b2n skipped] })
      if d.strs.any (fun x => decide ((s1.strm x).st = .moving)) then .wait s2 else .done s2 (skipSt skipped)
  else if d.strs.any (fun x => decide ((s.strm x).st = .moving)) then .wait s
  else .done s (skipSt (d.aux.headD 0 == 1))

/-- A stream operation waits for the moves of the streams `xs`, which it keeps in `tbl`: a fault of one ends it (R151). -/
def State.awaits (s : State) (id : Nat) (xs : List Nat) : State := s.updDesc id (fun y => { y with tbl := xs })

/-- Resume: Swapped streams are swapped in ahead of need; `aux` keeps the streams that it skips. -/
def streamResumeRun (s : State) (id : Nat) (d : Desc) : CRes :=
  let skipped := if d.stage = 0 then d.strs.filter (fun x =>
      decide ((s.strm x).st = .resident ∨ (s.strm x).st = .pinned)) else d.aux
  let s1 := s.updDesc id (fun y => { y with stage := 1, aux := skipped })
  let r := swapInAll d.die (d.strs.filter (fun x => decide ((s.strm x).st ≠ .lost))) s1
  if r.2.2 then .done r.1 0x0552
  else if !(r.2.1.isEmpty) then .wait (r.1.awaits id r.2.1)
  else .done (d.strs.foldl (fun s x => s.touch x d.seq (!(skipped.contains x))) r.1) (skipSt (!(skipped.isEmpty)))

/-- Free a stream: its slots, its bank and its backing. -/
def State.endStream (s : State) (x : Nat) : State :=
  let e := s.strm x
  let s := if e.st = .pinned then s.setCore e.core { s.core e.core with pinned := none } else s
  (s.dropObj e.obj).setStrm x Strm.zero

def streamEndRun (s : State) (d : Desc) : CRes :=
  if d.strs.any (fun x => decide ((s.strm x).st = .moving)) then .wait s
  else .done (d.strs.foldl (fun s x => if (s.strm x).st = .free then s else s.endStream x) s) 0x0000

/-- Pin: the state goes to an accumulator bank of pin_core (R159). A Swapped stream comes in through slots, which may make
slot demand (R150; log entry 116). A core that another Pin has taken since placement faults 0x0554. -/
def streamPinRun (s : State) (id : Nat) (d : Desc) : CRes :=
  let c := d.f 46 1
  let ins := swapInAll d.die (d.strs.filter (fun x => decide ((s.strm x).st = .swapped ∨ (s.strm x).st = .moving))) s
  if (match (s.core c).pinned with | some y => !(d.strs.contains y) | none => false) then .done s 0x0554
  else if ins.2.2 then .done ins.1 0x0552
  else if !(ins.2.1.isEmpty) then .wait (ins.1.awaits id ins.2.1)
  else
    let r := d.strs.foldl (fun (r : State × Bool) x =>
      let e := r.1.strm x
      if e.st = .pinned then (r.1.touch x d.seq false, true)
      else (((r.1.setStrm x { e with st := .pinned, core := c, cluster := 0, slot := 0 }).setCore c
        { r.1.core c with pinned := some x }).touch x d.seq true, r.2)) (s, false)
    .done r.1 (skipSt r.2)

/-- Unpin one stream after another: slots are claimed for each and the state goes to slots and to backing (R150, R160). Where
its die has no room, the stream is swapped out and the operation fails (R150, R151). -/
def unpinAll (id : Nat) (d : Desc) : List Nat → State → Bool → CRes
  | [], s, sk => .done s (skipSt sk)
  | x :: t, s, sk =>
    let e := s.strm x
    if e.st = .pinned then
      match s.claimSlots d.die e.slots with
      | .at_ s' g j =>
        unpinAll id d t (((((s'.setCore e.core { s'.core e.core with pinned := none }).setStrm x
          { e with st := .resident, cluster := g, slot := j, core := 0 }).touch x d.seq true).laySlots x).layBacking x) sk
      | .wait s' outs => .wait (s'.awaits id outs)
      | .none_ =>
        .done ((((s.setCore e.core { s.core e.core with pinned := none }).setStrm x
          { e with st := .swapped, core := 0 }).touch x d.seq true).layBacking x) 0x0552
    else unpinAll id d t (s.touch x d.seq false) true

def streamUnpinRun (s : State) (id : Nat) (d : Desc) : CRes :=
  if d.strs.any (fun x => decide ((s.strm x).st = .moving)) then .wait s
  else
    let sk := if d.stage = 0 then d.strs.any (fun x => decide ((s.strm x).st ≠ .pinned)) else d.aux.headD 0 == 1
    let s1 := s.updDesc id (fun y => { y with stage := 1, aux := [b2n sk] })
    match unpinAll id d d.strs s1 sk with
    | .done s' st => .done s' (if st = 0x0552 then st else skipSt sk)
    | .wait s' => .wait s'

def strCode : StrSt → Nat
  | .free => 0 | .swapped => 1 | .resident => 2 | .moving => 3 | .pinned => 4 | .lost => 5

/-- Does the entry have slots? -/
def Strm.inSlots (e : Strm) : Bool := decide (e.st = .resident) || decide (e.st = .moving)

/-- The query record (Table 06-6). -/
def strRecord (s : State) (x : Nat) : List Byte :=
  let e := s.strm x
  if e.st = .free then toBytes 4 x ++ toBytes 28 0
  else
    let inSl := e.inSlots
    let pin := decide (e.st = .pinned)
    toBytes 4 x ++ toBytes 1 (strCode e.st) ++ toBytes 1 e.kind
      ++ toBytes 1 (b2n e.reset + 2 * b2n e.comp + 4 * b2n inSl + 8 * b2n pin + 16 * b2n (s.strHeld x))
      ++ toBytes 1 e.slots ++ toBytes 4 e.bytes ++ toBytes 2 e.owner ++ toBytes 1 (if inSl then e.cluster else 0)
      ++ toBytes 1 (if pin then e.core else 0) ++ toBytes 8 e.chunks ++ toBytes 4 ((s.carTime - e.stamp) / 1000)
      ++ toBytes 4 e.lastSeq

def streamQueryRun (s : State) (d : Desc) : CRes :=
  let s1 := s.wr (d.f 30 6) (d.strs.map (strRecord s)).flatten
  .done (d.strs.foldl (fun s x => if (s.strm x).st = .free then s else s.touch x d.seq false) s1) 0x0000

/-- Copy out: the state of stream i after the states before it, each rounded up to 64 B. -/
def copyOutAll : List Nat → Nat → State → State
  | [], _, s => s
  | x :: t, a, s =>
    let e := s.strm x
    copyOutAll t (a + roundUp e.bytes 64) (s.wr a e.image)

def streamCopyOutRun (s : State) (d : Desc) : CRes :=
  if d.strs.any (fun x => decide ((s.strm x).st = .moving)) then .wait s
  else .done (d.strs.foldl (fun s x => s.touch x d.seq false) (copyOutAll d.strs (d.f 30 6) s)) 0x0000

/-! ### Moves end; streams are lost (R149, R151, Table 06-11) -/

/-- A stream becomes Lost. -/
def State.loseStream (s : State) (x : Nat) : State :=
  let e := s.strm x
  let s := if e.st = .pinned then s.setCore e.core { s.core e.core with pinned := none } else s
  (s.setStrm x { e with st := .lost, cluster := 0, slot := 0, core := 0 }).bumpOd 0x2420 0x06

/-- Every stream that meets `p` becomes Lost. -/
def State.loseStreams (s : State) (p : Nat → Strm → Bool) : State :=
  s.strs.foldl (fun s x => if p x.1 x.2 then s.loseStream x.1 else s) s

/-- Does a descriptor need the move of stream `x`: a chunk or an operation that waits for it, or a Pause, Pin, Unpin, Resume
or Copy out that names it? A Query and an End need no state. -/
def Desc.needsMove (d : Desc) (x : Nat) : Bool :=
  (decide (d.st = .waiting) && isChunk d && d.aux.contains x)
    || (decide (d.st = .running) && d.op == 0x0200 && [3, 4, 6, 7, 9].contains (d.f 38 1)
      && (d.strs.contains x || d.tbl.contains x))

/-- End the descriptors that needed a move of stream `x`, with a tier-fault status (R151). -/
def State.failMovers (s : State) (x st : Nat) : State :=
  { s with descs := AMap.mapV (fun _ (d : Desc) =>
      if d.result.isNone && d.needsMove x
      then { d with result := some { status := st, outcome := 9, flags := 0 } } else d) s.descs }

/-- A swap ends well (`err` 0) or on a tier fault. -/
def moveComplete (s : State) (x err : Nat) : State :=
  let e := s.strm x
  if e.st ≠ .moving then s
  else if err = 0 then
    if e.movIn then
      ((s.setStrm x { e with st := .resident, data := if e.reset then strZeros e else e.data }).laySlots x).bumpOd 0x2420 0x04
    else (s.setStrm x { e with st := .swapped, cluster := 0, slot := 0 }).layBacking x
  else if err = 0x05A0 ∨ err = 0x05A2 ∨ err = 0x05A5 then ((s.failMovers x err).loseStream x).countTier (s.obj e.obj).die err
  else s

/-! ### Recurrent cells (R153) -/

/-- The format h is converted to before each step's reduction. -/
def partner (wf : Nat) : Nat :=
  if wf = 5 ∨ wf = 6 then 5 else if fmtMx wf then 10 else wf

/-- The update of a state element: plain, or compensated by R43; answers the element and its term. -/
def update (comp : Bool) (sv cv a b : Val) : Flg (Val × Val) :=
  if comp then do
    let x ← fmaF fmtFP32 (← sub32 a valOne) sv b
    let y ← sub32 x cv
    let t ← add32 sv y
    let c ← sub32 (← sub32 t sv) y
    pure (t, c)
  else do pure (← fmaF fmtFP32 a sv b, cv)

/-- A cell's state: h, c and the compensation terms. -/
structure Cell where
  h : List Val
  c : List Val
  k : List Val
deriving DecidableEq, Repr

def vals (l : List Nat) : List Val := l.map f32
def zerosV (n : Nat) : List Val := List.replicate n valZero

def cellOf (e : Strm) : Cell :=
  let v := vals e.data
  let n := e.size
  if e.kind = 1 then { h := v.take n, c := (v.drop n).take n, k := if e.comp then v.drop (2 * n) else zerosV n }
  else { h := v.take n, c := zerosV n, k := if e.comp then v.drop n else zerosV n }

def cellZero (n : Nat) : Cell := { h := zerosV n, c := zerosV n, k := zerosV n }

def cellData (e : Strm) (x : Cell) : List Nat :=
  (x.h ++ (if e.kind = 1 then x.c else []) ++ (if e.comp then x.k else [])).map bits32

/-- One step of one stream. `gx` is its row of input gates; `w` the weights; `k`, `i` number the free sums. -/
def cellStep (kind n : Nat) (comp ieee : Bool) (wf : Nat) (w : List (List Val)) (bias : List Val) (k i : Nat)
    (gx : List Val) (x : Cell) : Flg Cell := do
  let hp ← roundTrip (partner wf) ieee x.h
  let gate (q u : Nat) : Flg Val := do
    let j := q * n + u
    add32 (← mxeDot (mxeGroup wf) (Config.free k (i * 16384 + j)) (row w j) hp) (at_ bias j)
  let us ← (List.range n).mapM (fun u => do
    if kind = 1 then do
      let ig ← vxeSigmoid (← add32 (at_ gx u) (← gate 0 u))
      let fg ← vxeSigmoid (← add32 (at_ gx (n + u)) (← gate 1 u))
      let gg ← vxeTanh (← add32 (at_ gx (2 * n + u)) (← gate 2 u))
      let og ← vxeSigmoid (← add32 (at_ gx (3 * n + u)) (← gate 3 u))
      let (c, kt) ← update comp (at_ x.c u) (at_ x.k u) fg (← mul32 ig gg)
      pure (← mul32 og (← vxeTanh c), c, kt)
    else do
      let rr ← vxeSigmoid (← add32 (at_ gx u) (← gate 0 u))
      let ug ← vxeSigmoid (← add32 (at_ gx (n + u)) (← gate 1 u))
      let ng ← vxeTanh (← add32 (at_ gx (2 * n + u)) (← mul32 rr (← gate 2 u)))
      let (h, kt) ← update comp (at_ x.h u) (at_ x.k u) ug (← mul32 (← sub32 valOne ug) ng)
      pure (h, valZero, kt))
  pure { h := us.map (fun p => p.1), c := us.map (fun p => p.2.1), k := us.map (fun p => p.2.2) }

def markBit (s : State) (a i : Nat) : Bool := (s.byteAt (a + i / 8)).toNat.testBit (i % 8)

/-- The whole chunk: the final cells and the rows of h, step by step. -/
def cellSteps (s : State) (d : Desc) (k : Nat) : Flg (List Cell × List (List Val)) := do
  let n := d.f 60 2
  let kind := d.f 62 1
  let b := d.f 63 1
  let fl := d.f 69 1
  let wf := d.f 68 1
  let gx ← (← s.loadMat d.inF (d.f 30 6) (d.f 64 4 * b) (gates kind * n)).mapM (vxeInAll d.ieee d.inF)
  let w ← s.loadMat wf (d.f 36 6) (gates kind * n) n
  let bias ← if fl.testBit 2 then s.loadLin 2 (d.f 42 6) (gates kind * n) else pure []
  let es := d.strs.map (fun x => s.strm x)
  (List.range (d.f 64 4)).foldlM (fun (r : List Cell × List (List Val)) t => do
    let cs ← ((List.range b).zip (es.zip r.1)).mapM (fun p => do
      let rst := (fl.testBit 0 && markBit s (d.f 54 6) (t * b + p.1)) || (t == 0 && p.2.1.reset)
      cellStep kind n p.2.1.comp d.ieee wf w bias k (t * b + p.1) (row gx (t * b + p.1))
        (if rst then cellZero n else p.2.2))
    pure (cs, r.2 ++ cs.map (fun c => c.h))) (es.map cellOf, [])

/-- What a chunk keeps of a stream's entry until its pair has been compared: reset flag, chunks, last sequence, the state. -/
def Strm.keep (e : Strm) : List Nat := b2n e.reset :: e.chunks :: e.lastSeq :: e.data

/-- Write a chunk's final states back (R147). A class S chunk keeps what they were until its pair has been compared. -/
def finishChunk (s : State) (id : Nat) (d : Desc) (data : List (List Nat)) : State :=
  let s := if d.cls = 0 then s.updDesc id (fun y => { y with aux := (d.strs.map (fun x => (s.strm x).keep)).flatten }) else s
  (d.strs.zip data).foldl (fun s p =>
    let e := s.strm p.1
    (s.setStrm p.1 { e with data := p.2, reset := false, chunks := e.chunks + 1, stamp := s.carTime,
                            lastSeq := d.seq }).laySlots p.1) s

/-- Put the streams of a chunk back to what they were before it ran, from what it kept (R147). -/
def restoreChunk : List Nat → List Nat → State → State
  | x :: t, r :: c :: q :: l, s =>
    let e := s.strm x
    let n := e.data.length
    restoreChunk t (l.drop n)
      ((s.setStrm x { e with reset := r == 1, chunks := c, lastSeq := q, data := l.take n }).laySlots x)
  | _, _, s => s

def cellRun (id : Nat) (s : State) (d : Desc) : State × Nat × Nat :=
  let n := d.f 60 2
  let b := d.f 63 1
  let (k, s1) := s.draw
  let ((data, bytes), fl) := runFlg (do
    let (cs, hs) ← cellSteps s d k
    let every := (d.f 69 1).testBit 1
    let out ← tileStore d.outF d.ieee (if every then d.f 64 4 * b else b) n (if every then hs else cs.map (fun c => c.h))
    pure (((d.strs.map (fun x => s.strm x)).zip cs).map (fun p => cellData p.1 p.2), out))
  (finishChunk (s1.wr (d.f 48 6) bytes) id d data, 0x0000, fl)

/-! ### Linear scans (R155–R157) -/

/-- The inputs of one state element: per step a, b and whether the step resets, and the reset value. -/
structure ScanEl where
  s0 : Val
  k0 : Val
  r : Val
  ab : List (Val × Val × Bool)
deriving DecidableEq, Repr

/-- An element of the two-level scan (R156). -/
structure ScanAcc where
  a : Val
  b : Val
  f : Bool
deriving DecidableEq, Repr

def scanCombine (p q : ScanAcc) : Flg ScanAcc :=
  if q.f then pure { q with f := true }
  else do pure { a := ← mul32 q.a p.a, b := ← fmaF fmtFP32 q.a p.b q.b, f := p.f }

/-- One block of up to 64 steps: the state after each step, formed from the carry into the block. -/
def scanBlock (r carry : Val) (ab : List (Val × Val × Bool)) : Flg (List Val) := do
  let res ← ab.foldlM (fun (st : Option ScanAcc × List Val) p => do
    let e : ScanAcc ←
      if p.2.2 then do pure { a := valZero, b := ← fmaF fmtFP32 p.1 r p.2.1, f := true }
      else pure { a := p.1, b := p.2.1, f := false }
    let acc ← match st.1 with
      | none => pure e
      | some q => scanCombine q e
    let v ← if acc.f then pure acc.b else fmaF fmtFP32 acc.a carry acc.b
    pure (some acc, st.2 ++ [v])) (none, [])
  pure res.2

/-- The exact state after each step, the sum of magnitudes that bounds its error, and the steps counted: from the last reset of
the chunk, Σ|b| alone; before one, the carried state counts as the magnitude it has of the Σ|b| behind it (log entry 43). -/
def scanExact (r s0 : Dy) (ab : List (Val × Val × Bool)) : List (Dy × Dy × Nat) :=
  (ab.foldl (fun (st : (Dy × Dy × Nat) × List (Dy × Dy × Nat)) p =>
    let (x, m, n) := st.1
    let (x, m, n) := if p.2.2 then (r, ⟨0, 0⟩, 0) else (x, m, n)
    let y := dyAdd (dyMul (toDy p.1) x) (toDy p.2.1)
    let e := (y, dyAdd m (dyAbs (toDy p.2.1)), n + 1)
    (e, st.2 ++ [e])) ((s0, dyAbs s0, 0), [])).2

/-- A plain scan of one element: the block scan's values, each free within the bound of R157 where every
|a| ≤ 1 (log entry 43). -/
def scanPlain (k i : Nat) (e : ScanEl) : Flg (List Val) := do
  let r ← (pieces 64 e.ab).foldlM (fun (st : Val × List Val) blk => do
    let vs ← scanBlock e.r st.1 blk
    pure (vs.getLastD st.1, st.2 ++ vs)) (e.s0, [])
  let small := e.ab.all (fun p => isFin p.1 && isFin p.2.1 && valLe (valAbs p.1) valOne) && isFin e.s0 && isFin e.r
  if small then
    let ex := scanExact (toDy e.r) (toDy e.s0) e.ab
    ((List.range r.2.length).zip (r.2.zip ex)).mapM (fun p =>
      chooseNear (2 * p.2.2.2.2) p.2.2.1 p.2.2.2.1 [] (Config.free k (i * 65536 + p.1)) (pure p.2.1))
  else pure r.2

/-- A compensated scan of one element, step by step: the states and the last term. -/
def scanComp (e : ScanEl) : Flg (List Val × Val) := do
  let r ← e.ab.foldlM (fun (st : (Val × Val) × List Val) p => do
    let (x, c) := if p.2.2 then (e.r, valZero) else st.1
    let y ← update true x c p.1 p.2.1
    pure (y, st.2 ++ [y.1])) ((e.s0, e.k0), [])
  pure (r.2, r.1.2)

def scanRun (id : Nat) (s : State) (d : Desc) : State × Nat × Nat :=
  let t := d.f 28 4
  let dd := d.f 64 4
  let n := d.f 68 1
  let am := d.f 69 1
  let om := d.f 70 1
  let fl := d.f 71 1
  let e := s.strm (d.strs.headD 0)
  let el := dd * n
  let v := vals e.data
  let (k, s1) := s.draw
  let ((data, bytes), g) := runFlg (do
    let as ← (← s.loadMat d.inF (d.f 32 6) t (if am = 0 then el else dd)).mapM (vxeInAll d.ieee d.inF)
    let bs ← (← s.loadMat (d.f 72 1) (d.f 38 6) t el).mapM (vxeInAll d.ieee (d.f 72 1))
    let ini ← if fl.testBit 2 then s.loadLin 2 (d.f 80 6) el else pure []
    let rst (i : Nat) : Bool :=
      (fl.testBit 0 && markBit s (d.f 56 6) i) || (i == 0 && (fl.testBit 1 || e.reset))
    let outs ← (List.range el).mapM (fun j => do
      let se : ScanEl :=
        { s0 := at_ v j, k0 := at_ v (el + j), r := at_ ini j,
          ab := (List.range t).map (fun i => (at_ (row as i) (if am = 0 then j else j / n), at_ (row bs i) j, rst i)) }
      if e.comp then scanComp se
      else do pure (← scanPlain k j se, valZero))
    let st (i j : Nat) : Val := at_ ((outs.getD j ([], valZero)).1) i
    let bytes ←
      if om = 0 then do
        let cs ← (← s.loadMat (d.f 73 1) (d.f 44 6) t n).mapM (vxeInAll d.ieee (d.f 73 1))
        let ys ← (List.range t).mapM (fun i => (List.range dd).mapM (fun ch =>
          vxeDot (Config.free k (el * 65536 + i * 16384 + ch)) (row cs i) ((List.range n).map (fun m => st i (ch * n + m)))))
        tileStore d.outF d.ieee t dd ys
      else if om = 1 then
        tileStore d.outF d.ieee t el ((List.range t).map (fun i => (List.range el).map (fun j => st i j)))
      else pure []
    let fin := (List.range el).map (fun j => bits32 (st (t - 1) j))
    pure ((if e.comp then fin ++ outs.map (fun o => bits32 o.2) else fin), bytes))
  (finishChunk (if om = 2 then s1 else s1.wr (d.f 50 6) bytes) id d [data], 0x0000, g)

end Sys2Proof.Machine
end

