-- ==== Sys2Proof/Machine/Solver.lean ====
section
/-! DEFINITION. The solver engine (chapter 07): batches of factorizations and quadratic programs. -/

namespace Sys2Proof.Machine

/-! ### Arithmetic: one rounding per operation, in an order the spec leaves open (R36, R44, R45) -/

/-- A computation that also numbers its choices of order: the draw they come from, and how many were made. -/
abbrev Slv := StateT (Nat × Nat) Flg

/-- The next choice of order, below `n`. -/
def pickOrd (n : Nat) : Slv Nat := do
  let (k, i) ← get
  set (k, i + 1)
  pure (Config.free k i % max 1 n)

/-- A term of a reduction: a formed value, or a product that a fused multiply–add takes in. -/
inductive Term where
  | acc (v : Val)
  | prod (x y : Val)
deriving DecidableEq, Repr

def combine (f : Nat) : Term → Term → Flg Term
  | .acc a, .acc b => do pure (.acc (← addF f a b))
  | .acc a, .prod x y => do pure (.acc (← fmaF f x y a))
  | .prod x y, .acc a => do pure (.acc (← fmaF f x y a))
  | .prod x y, .prod v w => do pure (.acc (← fmaF f v w (← mulF f x y)))

def termVal (f : Nat) : Term → Flg Val
  | .acc a => pure a
  | .prod x y => mulF f x y

/-- Reduce a pool of terms: each step combines two of them, chosen freely (log entry 44). -/
def reduce (f : Nat) : Nat → List Term → Slv Val
  | _, [] => pure valZero
  | _, [t] => termVal f t
  | 0, t :: _ => termVal f t
  | n + 1, ts => do
    let i ← pickOrd ts.length
    let rest := ts.eraseIdx i
    let j ← pickOrd rest.length
    let c ← combine f (ts.getD i (.acc valZero)) (rest.getD j (.acc valZero))
    reduce f n (c :: rest.eraseIdx j)

def sumOf (f : Nat) (ts : List Term) : Slv Val := reduce f ts.length ts

def dotOf (f : Nat) (xs ys : List Val) : Slv Val := sumOf f ((xs.zip ys).map (fun p => .prod p.1 p.2))

def infNorm (l : List Val) : Val := l.foldl (fun a x => maxNan a (valAbs x)) valZero

def fp64 (w : Nat) : Val := f64 w

/-! ### Storage (R169) -/

def align64 (n : Nat) : Nat := roundUp n 64
def packedIdx (i j : Nat) : Nat := i * (i + 1) / 2 + j
def esize (f : Nat) : Nat := if f = 1 then 8 else 4
def triN (n : Nat) : Nat := n * (n + 1) / 2

/-- Element (i, j) of a symmetric matrix stored packed lower. -/
def symAt (p : List Val) (i j : Nat) : Val := if j ≤ i then at_ p (packedIdx i j) else at_ p (packedIdx j i)

def slvLoad (s : State) (f a n : Nat) : List Val := (runFlg (s.loadLin f a n)).1

def slvBits (f : Nat) (v : Val) : Nat := encodeExact f v
def slvStore (s : State) (f a : Nat) (l : List Val) : State :=
  s.wr a (l.map (fun v => toBytes (esize f) (slvBits f v))).flatten

/-! ### Checks (Tables 07-2, 07-3, 07-5, 07-8) -/

/-- Work area per problem, in bytes, and times 16 in lane mode (R168). -/
def workNeed (elems e mode : Nat) : Nat := align64 (elems * e) * (if mode = 0 then 16 else 1)

def facRec (d : Desc) : Nat :=
  let e := esize d.inF
  if d.f 78 1 = 3 then align64 (e * d.f 76 2 * d.f 74 2) + align64 (e * d.f 74 2) else align64 (e * triN (d.f 74 2))
def facARec (d : Desc) : Nat :=
  let e := esize d.inF
  if d.f 78 1 = 3 then align64 (e * d.f 76 2 * d.f 74 2) else align64 (e * triN (d.f 74 2))
def facLen (d : Desc) : Nat := if d.f 78 1 = 3 then d.f 76 2 else d.f 74 2

def span (batch stride size : Nat) : Nat := (batch - 1) * stride + size

def tolOk (w : Nat) (hi : Val) (strict : Bool) : Bool :=
  let v := fp64 w
  isFin v && valLe valZero v && (if strict then valLt v hi else valLe v hi)

def slvFmt (d : Desc) : Option Nat :=
  firstFail [(fmtsValid [d.inF, d.outF], 0x0330),
    (decide (d.inF = 1 ∨ d.inF = 2) && decide (d.outF = 1 ∨ d.outF = 2), 0x0331), (d.inF == d.outF, 0x0363)]

def facWork (d : Desc) : Nat :=
  let n := d.f 74 2
  let m := d.f 76 2
  workNeed (if d.f 78 1 = 3 then m * n + n + m else triN n + 2 * n) (esize d.inF) (d.f 80 1)

def factorInfo (_s : State) (d : Desc) : OpInfo :=
  let e := esize d.inF
  let batch := d.f 70 4
  let n := d.f 74 2
  let m := d.f 76 2
  let kind := d.f 78 1
  let op := d.f 79 1
  let mode := d.f 80 1
  let rhs := d.f 82 1
  let gang := d.f 83 1
  let signs := (d.f 114 1).testBit 0
  let bRec := rhs * align64 (e * facLen d)
  let xRec := rhs * align64 (e * n)
  let big := if mode = 0 then (if d.inF = 1 then 64 else 128) else 384
  let rs := (if op ≤ 1 then [rdLin (d.f 24 6) (span batch (d.f 54 4) (facARec d))] else [])
    ++ [⟨d.f 30 6, span batch (d.f 58 4) (facRec d), decide (op ≤ 1), false⟩, wrLin (d.f 48 6) (32 * batch)]
    ++ (if signs then [rdLin (d.f 108 6) (64 * batch)] else [])
  let br := rdLin (d.f 36 6) (span batch (d.f 62 4) bRec)
  let xr := wrLin (d.f 42 6) (span batch (d.f 66 4) xRec)
  let all := if op = 0 then rs else xr :: br :: rs
  { ext := true, resv := [(114 * 8 + 1, 7), (115 * 8, 13 * 8)], resvOk := true, fmt := slvFmt d,
    lim := firstFail
      [(all.all (fun r => aligned r.a e) && aligned (d.f 48 6) 8, 0x0325),
       (if op = 0 then outsClear rs
        else outsClear (br :: rs) && outsClear (xr :: rs) && (xr.a == br.a || !(overlap xr.a xr.n br.a br.n)), 0x0322),
       (within kind 1 3 && decide (op ≤ 2) && decide (mode ≤ 1) && decide (d.f 81 1 ≤ 1)
          && (if op = 0 then rhs == 0 else within rhs 1 16) && (!signs || kind == 2)
          && within n 1 big && (if kind = 3 then within m n (2 * big) else m == 0)
          && within batch 1 (if mode = 0 then 16384 else 256)
          && within gang 1 8 && decide (gang ≤ if mode = 0 then ceilDiv batch 16 else batch), 0x0360),
       (tolOk (d.f 92 8) valOne true && tolOk (d.f 100 8) valOne false, 0x030B),
       (d.f 54 4 % 64 == 0 && decide (facARec d ≤ d.f 54 4) && d.f 58 4 % 64 == 0 && decide (facRec d ≤ d.f 58 4)
          && d.f 62 4 % 64 == 0 && decide (bRec ≤ d.f 62 4) && d.f 66 4 % 64 == 0 && decide (xRec ≤ d.f 66 4), 0x0362),
       (d.f 84 4 % 64 == 0 && decide (d.f 84 4 + d.f 88 4 ≤ 0x300000), 0x0361)],
    fit := if d.f 88 4 < facWork d then some 0x030A else none,
    rngs := all, pos14 := none, gang := gang, unit := .solver }

def qpOffQ (e n : Nat) : Nat := 64 + align64 (e * triN n)
def qpOffA (e n : Nat) : Nat := qpOffQ e n + align64 (e * n)
def qpOffL (e n m : Nat) : Nat := qpOffA e n + align64 (e * m * n)
def qpOffU (e n m : Nat) : Nat := qpOffL e n m + align64 (e * m)
def qpProb (e n m : Nat) : Nat := qpOffU e n m + align64 (e * m)
def qpOffZ (e n : Nat) : Nat := 64 + align64 (e * n)
def qpOffY (e n m : Nat) : Nat := qpOffZ e n + align64 (e * m)
def qpRes (e n m : Nat) : Nat := qpOffY e n m + align64 (e * m)

def qpWork (d : Desc) : Nat :=
  workNeed (triN (d.f 52 2) + 3 * d.f 52 2 + 4 * d.f 54 2) (esize d.inF) (d.f 56 1)

def finNonneg (w : Nat) : Bool := isFin (fp64 w) && valLe valZero (fp64 w)

def qpInfo (_s : State) (d : Desc) : OpInfo :=
  let e := esize d.inF
  let batch := d.f 50 2
  let n := d.f 52 2
  let m := d.f 54 2
  let mode := d.f 56 1
  let gang := d.f 57 1
  let fl := d.f 58 1
  let warm := fl.testBit 0
  let rs0 := [rdLin (d.f 24 6) (span batch (d.f 42 4) (qpProb e n m))]
  let wr := rdLin (d.f 30 6) (span batch (d.f 46 4) (qpRes e n m))
  let rr := wrLin (d.f 36 6) (span batch (d.f 46 4) (qpRes e n m))
  { ext := true, resv := [(58 * 8 + 2, 6), (62 * 8, 16), (124 * 8, 32)], resvOk := true, fmt := slvFmt d,
    lim := firstFail
      [(aligned (d.f 24 6) e && aligned (d.f 36 6) e && (!warm || aligned (d.f 30 6) e), 0x0325),
       (outsClear (rr :: rs0) && (!warm || d.f 30 6 == d.f 36 6 || !(overlap rr.a rr.n wr.a wr.n)), 0x0322),
       (decide (mode ≤ 1) && within n 1 (if mode = 0 then 64 else 384) && decide (m ≤ if mode = 0 then 256 else 1536)
          && within batch 1 (if mode = 0 then 16384 else 256) && within gang 1 8
          && decide (gang ≤ if mode = 0 then ceilDiv batch 16 else batch), 0x0360),
       (finNonneg (d.f 72 8) && finNonneg (d.f 80 8) && finNonneg (d.f 88 8) && finNonneg (d.f 96 8)
          && finNonneg (d.f 112 8) && finNonneg (d.f 104 8) && valLt (fp64 (d.f 104 8)) (valNat 2)
          && within (d.f 60 2) 1 4096 && (if fl.testBit 1 then within (d.f 59 1) 1 255 else d.f 59 1 == 0), 0x030B),
       (d.f 42 4 % 64 == 0 && decide (qpProb e n m ≤ d.f 42 4) && d.f 46 4 % 64 == 0
          && decide (qpRes e n m ≤ d.f 46 4), 0x0362),
       (d.f 64 4 % 64 == 0 && decide (d.f 64 4 + d.f 68 4 ≤ 0x300000), 0x0361)],
    fit := if d.f 68 4 < qpWork d then some 0x030A else none,
    rngs := rr :: rs0 ++ (if warm then [wr] else []), pos14 := none, gang := gang, unit := .solver }

/-- The ranges that a quadratic program reads and writes. -/
def qpInfo0 (d : Desc) : List Rng := (qpInfo State.reset d).rngs

/-! ### Factors (R171) -/

/-- How the pivots are judged. -/
structure Pivots where
  kind : Nat
  f : Nat
  reg : Bool
  tauS : Val
  deltaS : Val
  /-- Expected signs of LDLᵀ pivots, where given. -/
  signs : Option Nat
  /-- End at a pivot below −τ·s (R173). -/
  qp : Bool
deriving DecidableEq, Repr

/-- A factor in progress: its columns, the values that pivot, and the report's counts. -/
structure Fact where
  cols : List (List Val)
  diag : List Val
  first : Nat
  regs : Nat
  /-- 0 going on, 2 failed under policy 0, 10 not convex. -/
  ended : Nat
deriving DecidableEq, Repr

def Fact.start : Fact := { cols := [], diag := [], first := 0, regs := 0, ended := 0 }

/-- Element (i, j) of the columns; column j begins at row j. -/
def Fact.el (x : Fact) (i j : Nat) : Val := at_ (x.cols.getD j []) (i - j)

/-- Judge pivot `d` of column `j`: none where it ends the problem; else the pivot used and whether it was replaced. -/
def judgePivot (p : Pivots) (j : Nat) (d : Val) : Option Val × Bool :=
  let small := if p.kind = 1 then !(valLt p.tauS d) else !(valLt p.tauS (valAbs d))
  let wrong := match p.signs with
    | some w => if w.testBit j then valLt valZero d else valLt d valZero
    | none => false
  if !(small || wrong) then (some d, false)
  else if !p.reg then (none, true)
  else if p.kind = 1 then (some p.deltaS, true)
  else
    let neg := match p.signs with
      | some w => w.testBit j
      | none => valLt d valZero
    let m := if p.kind = 2 then maxNan (valAbs d) p.deltaS else p.deltaS
    (some (if neg then valNeg m else m), true)

/-- One column of Cholesky or LDLᵀ of the symmetric matrix `a` of order `n`. -/
def factColumn (p : Pivots) (a : Nat → Nat → Val) (n : Nat) (x : Fact) (j : Nat) : Slv Fact := do
  if x.ended ≠ 0 then pure x
  else do
    let ws ← (List.range j).mapM (fun k =>
      if p.kind = 1 then pure (x.el j k) else (mulF p.f (x.el j k) (at_ x.diag k) : Flg Val))
    let vs ← (List.range (n - j)).mapM (fun r =>
      sumOf p.f (.acc (a (j + r) j) :: (List.range j).map (fun k => .prod (valNeg (x.el (j + r) k)) (at_ ws k))))
    let d := at_ vs 0
    if p.qp && valLt d (valNeg p.tauS) then pure { x with ended := 10 }
    else
      match judgePivot p j d with
      | (none, _) => pure { x with ended := 2, first := j + 1 }
      | (some d', rep) => do
        let top ← (if p.kind = 1 then sqrtF p.f d' else pure d' : Flg Val)
        let below ← (vs.drop 1).mapM (fun v => (divF p.f v top : Flg Val))
        pure { x with
          cols := x.cols ++ [(if p.kind = 1 then top else valOne) :: below], diag := x.diag ++ [d'],
          first := if rep && x.first == 0 then j + 1 else x.first, regs := x.regs + b2n rep }

def factSym (p : Pivots) (a : Nat → Nat → Val) (n : Nat) : Slv Fact :=
  (List.range n).foldlM (factColumn p a n) Fact.start

/-- The factor as stored: packed lower, with D on the diagonal for LDLᵀ (R169). -/
def Fact.packed (x : Fact) (kind n : Nat) : List Val :=
  ((List.range n).map (fun i => (List.range (i + 1)).map (fun j =>
    if i = j ∧ kind = 2 then at_ x.diag i else x.el i j))).flatten

/-- Read a stored packed factor back. -/
def factOfPacked (l : List Val) (kind n : Nat) : Fact :=
  { Fact.start with
    cols := (List.range n).map (fun j => (List.range (n - j)).map (fun r =>
      if r = 0 ∧ kind = 2 then valOne else at_ l (packedIdx (j + r) j)))
    diag := (List.range n).map (fun i => at_ l (packedIdx i i)) }

/-- Solve with a Cholesky or LDLᵀ factor: forward, diagonal, back. -/
def solveSym (f kind n : Nat) (x : Fact) (b : List Val) : Slv (List Val) := do
  let y ← (List.range n).foldlM (fun (y : List Val) i => do
    let v ← sumOf f (.acc (at_ b i) :: (List.range i).map (fun k => .prod (valNeg (x.el i k)) (at_ y k)))
    let v ← (if kind = 1 then divF f v (x.el i i) else pure v : Flg Val)
    pure (y ++ [v])) []
  let y ← (if kind = 2 then ((List.range n).zip y).mapM (fun p => (divF f p.2 (at_ x.diag p.1) : Flg Val)) else pure y)
  (List.range n).foldlM (fun (t : List Val) r => do
    let i := n - 1 - r
    let v ← sumOf f (.acc (at_ y i) :: (List.range r).map (fun k => .prod (valNeg (x.el (i + 1 + k) i)) (at_ t k)))
    let v ← (if kind = 1 then divF f v (x.el i i) else pure v : Flg Val)
    pure (v :: t)) []

/-- A Householder factor: the reduced columns (R above and on the diagonal, v below), and the τ_j. -/
structure QrF where
  cols : List (List Val)
  taus : List Val
  diag : List Val
  first : Nat
  regs : Nat
  ended : Nat
deriving DecidableEq, Repr

/-- Apply reflector (v, τ) of column `j` to a column. -/
def reflect (f j : Nat) (v : List Val) (tau : Val) (c : List Val) : Slv (List Val) := do
  let tail := c.drop j
  let w ← dotOf f v tail
  let tw ← (mulF f tau w : Flg Val)
  let new ← (v.zip tail).mapM (fun p => (fmaF f (valNeg tw) p.1 p.2 : Flg Val))
  pure (c.take j ++ new)

/-- One column of QR. Which sign a reflection gives r_jj the spec leaves open (log entry 45). -/
def qrColumn (p : Pivots) (x : QrF) (j : Nat) : Slv QrF := do
  if x.ended ≠ 0 then pure x
  else do
    let c := x.cols.getD j []
    let x0 := at_ c j
    let tail := c.drop (j + 1)
    let t2 ← dotOf p.f tail tail
    let n2 ← (fmaF p.f x0 x0 t2 : Flg Val)
    let nrm ← (sqrtF p.f n2 : Flg Val)
    let sign ← pickOrd 2
    let beta := if sign = 0 then nrm else valNeg nrm
    let same := signOf beta == signOf x0
    let v0 ← (if same then do pure (valNeg (← divF p.f t2 (← addF p.f x0 beta))) else subF p.f x0 beta : Flg Val)
    let flat := isZero nrm || (isZero t2 && same)
    let r := if flat then x0 else beta
    let vs ← (if flat then pure (tail.map (fun _ => valZero)) else tail.mapM (fun e => divF p.f e v0) : Flg (List Val))
    let tau ← (if flat then pure valZero else do pure (valNeg (← divF p.f v0 beta)) : Flg Val)
    let small := !(valLt p.tauS (valAbs r))
    if small && !p.reg then pure { x with ended := 2, first := j + 1 }
    else do
      let r' := if small then (if signOf r && !(isZero r) then valNeg p.deltaS else p.deltaS) else r
      let rest ← (x.cols.drop (j + 1)).mapM (reflect p.f j (valOne :: vs) tau)
      pure { x with
        cols := x.cols.take j ++ [c.take j ++ r' :: vs] ++ rest, taus := x.taus ++ [tau], diag := x.diag ++ [r'],
        first := if small && x.first == 0 then j + 1 else x.first, regs := x.regs + b2n small }

def factQr (p : Pivots) (cols : List (List Val)) : Slv QrF :=
  (List.range cols.length).foldlM (qrColumn p) { cols := cols, taus := [], diag := [], first := 0, regs := 0, ended := 0 }

/-- Solve a least-squares problem with a QR factor: apply Qᵀ, then back-substitute with R. -/
def solveQr (f n : Nat) (x : QrF) (b : List Val) : Slv (List Val) := do
  let qb ← (List.range n).foldlM (fun c j =>
    reflect f j (valOne :: (x.cols.getD j []).drop (j + 1)) (at_ x.taus j) c) b
  (List.range n).foldlM (fun (t : List Val) r => do
    let i := n - 1 - r
    let v ← sumOf f (.acc (at_ qb i)
      :: (List.range r).map (fun k => .prod (valNeg (at_ (x.cols.getD (i + 1 + k) []) i)) (at_ t k)))
    let v ← (divF f v (at_ (x.cols.getD i []) i) : Flg Val)
    pure (v :: t)) []

/-- Column lists of a dense row-major m × n array. -/
def colsOf (l : List Val) (m n : Nat) : List (List Val) :=
  (List.range n).map (fun j => (List.range m).map (fun i => at_ l (i * n + j)))

def rowsOfCols (c : List (List Val)) (m : Nat) : List Val :=
  ((List.range m).map (fun i => c.map (fun col => at_ col i))).flatten

/-! ### One factor-and-solve problem -/

/-- A problem's report and what it writes. -/
structure FacOut where
  outcome : Nat
  first : Nat
  regs : Nat
  neg : Nat
  ratio : Val
  resid : Option Val
  factor : Option (List Val)
  taus : List Val
  xs : List (List Val)
deriving DecidableEq, Repr

def FacOut.bad (o : Nat) : FacOut :=
  { outcome := o, first := 0, regs := 0, neg := 0, ratio := valZero, resid := none, factor := none, taus := [], xs := [] }

/-- τ or δ of a descriptor, or the default object in force when it passed checking (R185). -/
def slvParam (d : Desc) (w i : Nat) : Val :=
  if isZero (fp64 w) then fp64 (d.solv.getD (i + (if d.inF = 1 then 0 else 1)) 0) else fp64 w

def minMaxRatio (l : List Val) : Flg Val :=
  let mags := l.map valAbs
  match mags with
  | [] => pure valZero
  | x :: t => divF 1 (t.foldl minNan x) (t.foldl maxNan x)

/-- Is every value finite? -/
def allFin (l : List Val) : Bool := l.all isFin

/-- The residual of Table 07-6, over all right-hand sides. -/
def residual (rows : List (List Val)) (bs xs : List (List Val)) : Slv Val := do
  let na ← rows.mapM (fun r => sumOf 1 (r.map (fun v => .acc (valAbs v))))
  let an := infNorm na
  let rs ← (bs.zip xs).mapM (fun p => do
    let df ← ((rows.zip p.1)).mapM (fun q =>
      sumOf 1 (.acc q.2 :: (q.1.zip p.2).map (fun e => .prod (valNeg e.1) e.2)))
    let den ← (fmaF 1 an (infNorm p.2) (infNorm p.1) : Flg Val)
    (divF 1 (infNorm df) den : Flg Val))
  pure (rs.foldl maxNan valZero)

/-- Problem `i` of a factor-and-solve descriptor. With a stored factor (op 2) the pivots are the stored factor's: D, the squares
of Cholesky's diagonal, or R's diagonal. -/
def facProblem (s : State) (d : Desc) (i : Nat) : Slv FacOut := do
  let f := d.inF
  let e := esize f
  let n := d.f 74 2
  let m := d.f 76 2
  let kind := d.f 78 1
  let op := d.f 79 1
  let rhs := d.f 82 1
  let len := facLen d
  let bs := (List.range rhs).map (fun j => slvLoad s f (d.f 36 6 + i * d.f 62 4 + j * align64 (e * len)) len)
  let a := if op ≤ 1 then slvLoad s f (d.f 24 6 + i * d.f 54 4) (if kind = 3 then m * n else triN n) else []
  let sf := if op = 2 then slvLoad s f (d.f 30 6 + i * d.f 58 4) (if kind = 3 then m * n else triN n) else []
  let st := if op = 2 ∧ kind = 3 then slvLoad s f (d.f 30 6 + i * d.f 58 4 + align64 (e * m * n)) n else []
  if !(allFin a && allFin sf && allFin st && bs.all allFin) then do
    (raiseIf (a.any isNan || sf.any isNan || st.any isNan || bs.any (fun b => b.any isNan)) flNanInput : Flg Unit)
    pure (FacOut.bad 3)
  else do
    let diagA := (List.range n).map (fun j => symAt a j j)
    let dmax := infNorm diagA
    let amax := infNorm a
    let sc ← if kind = 3 then do
        let ns ← (colsOf a m n).mapM (fun c => do (sqrtF f (← dotOf f c c) : Flg Val))
        pure (infNorm ns)
      else pure (if isZero dmax then (if isZero amax then valOne else amax) else dmax)
    let tauS ← (mulF 1 (slvParam d (d.f 92 8) 0) sc : Flg Val)
    let deltaS ← (mulF f (slvParam d (d.f 100 8) 2) sc : Flg Val)
    let p : Pivots := { kind := kind, f := f, reg := d.f 81 1 == 1, tauS := tauS, deltaS := deltaS,
                        signs := if (d.f 114 1).testBit 0 then some (s.rd (d.f 108 6 + 64 * i) 64) else none, qp := false }
    if kind = 3 then do
      let x ← if op = 2 then
          pure { cols := colsOf sf m n, taus := st, diag := (List.range n).map (fun i => at_ sf (i * n + i)),
                 first := 0, regs := 0, ended := 0 }
        else factQr p (colsOf a m n)
      if x.ended ≠ 0 then pure { FacOut.bad 2 with first := x.first, regs := x.regs }
      else do
        let xs ← if op = 0 then pure [] else bs.mapM (solveQr f n x)
        let ratio ← (minMaxRatio x.diag : Flg Val)
        let rows := (List.range m).map (fun r => (List.range n).map (fun c => at_ a (r * n + c)))
        let res ← if op = 1 then do pure (some (← residual rows bs xs)) else pure none
        pure { outcome := if x.regs = 0 then 0 else 1, first := x.first, regs := x.regs, neg := 0, ratio := ratio,
               resid := res, factor := if op = 2 then none else some (rowsOfCols x.cols m), taus := x.taus, xs := xs }
    else do
      let x ← if op = 2 then pure (factOfPacked sf kind n) else factSym p (symAt a) n
      if x.ended ≠ 0 then pure { FacOut.bad 2 with first := x.first, regs := x.regs }
      else do
        let xs ← if op = 0 then pure [] else bs.mapM (solveSym f kind n x)
        let pv ← (if op = 2 ∧ kind = 1 then x.diag.mapM (fun v => mulF 1 v v) else pure x.diag : Flg (List Val))
        let ratio ← (minMaxRatio pv : Flg Val)
        let rows := (List.range n).map (fun r => (List.range n).map (fun c => symAt a r c))
        let res ← if op = 1 then do pure (some (← residual rows bs xs)) else pure none
        pure { outcome := if x.regs = 0 then 0 else 1, first := x.first, regs := x.regs,
               neg := if kind = 2 then x.diag.countP (fun v => valLt v valZero) else 0, ratio := ratio,
               resid := res, factor := if op = 2 then none else some (x.packed kind n), taus := [], xs := xs }

/-- Write a problem's records (Tables 07-4, 07-6). -/
def facWrite (s : State) (d : Desc) (i : Nat) (o : FacOut) : State :=
  let f := d.inF
  let e := esize f
  let n := d.f 74 2
  let m := d.f 76 2
  let fa := d.f 30 6 + i * d.f 58 4
  let s := match o.factor with
    | some l =>
      let s := slvStore s f fa l
      if d.f 78 1 = 3 then slvStore s f (fa + align64 (e * m * n)) o.taus else s
    | none => if o.outcome = 2 then s.scribble fa (facRec d) else s
  let s := ((List.range o.xs.length).zip o.xs).foldl (fun s p =>
    slvStore s f (d.f 42 6 + i * d.f 66 4 + p.1 * align64 (e * n)) p.2) s
  s.wr (d.f 48 6 + 32 * i)
    (toBytes 1 o.outcome ++ toBytes 1 (b2n o.resid.isSome + 2 * b2n (decide (d.f 79 1 ≤ 1) && (d.f 114 1).testBit 0)) ++ toBytes 2 o.first
      ++ toBytes 2 o.regs ++ toBytes 2 o.neg ++ toBytes 8 (bits64 o.ratio) ++ toBytes 8 (bits64 (o.resid.getD valZero))
      ++ toBytes 8 0)

/-! ### Engines, stop instants and the ends of problems (R164, R178–R180) -/

/-- The cluster of each engine of the gang; of a preempted descriptor, of the engines it holds its work area on (R184). -/
def engines (d : Desc) : List Nat := (if d.st = .stopped then d.was else d.cores).map (fun c => c / 8)

def slvBatch (d : Desc) : Nat := if d.op = 0x0300 then d.f 70 4 else d.f 50 2
def slvGang (d : Desc) : Nat := if d.op = 0x0300 then d.f 83 1 else d.f 57 1
def slvWide (d : Desc) : Bool := if d.op = 0x0300 then d.f 80 1 == 1 else d.f 56 1 == 1

/-- The problems of engine `e`, ascending (R164). -/
def problemsOf (d : Desc) (e : Nat) : List Nat :=
  (List.range (slvBatch d)).filter (fun i => i % max 1 (slvGang d) == e)

/-- Where the choices of order of problem `i` come from: in lane mode from its position alone, so that identical
inputs give identical results (R45); in wide mode from a draw (R44). -/
def ordFrom (d : Desc) (k i : Nat) : Nat × Nat := if slvWide d then (k, i * 2 ^ 40) else (0, 0)

/-- The frequency in force, MHz. -/
def State.mhz (s : State) : Nat := max 1 (s.od 0x2100 0x05)

/-- ns to move `n` bytes at 256 B per cycle at the clock in force. -/
def State.nsFor256 (s : State) (n : Nat) : Nat := ceilDiv (ceilDiv n 256 * 1000) s.mhz

/-- A stop instant (R178): the earlier of the budget and the deadline less the reserve; 0 for none. -/
def stopInstant (now budget due reserve : Nat) : Nat :=
  let a := if budget = 0 then 0 else now + budget
  let b := if due = 0 then 0 else max 1 (due - reserve)
  if a = 0 then b else if b = 0 then a else min a b

/-- At placement each engine forms its stop instant; `aux` holds them, then the lowest notice, then the flags. -/
def solverPlace (s : State) (id : Nat) (d : Desc) : PRes :=
  let rec_ := if d.op = 0x0300 then 32 else qpRes (esize d.inF) (d.f 52 2) (d.f 54 2)
  let stops := (List.range (slvGang d)).map (fun e =>
    stopInstant (s.dspTime d.die) (if d.op = 0x0310 then d.f 120 4 else 0) d.due
      (1000 + s.nsFor256 ((problemsOf d e).length * rec_)))
  .ok (s.updDesc id (fun x => { x with aux := stops ++ [0, 0], stage := 0 }))

/-- Count the end of one problem on engine `g` (Tables 07-15, 07-16). -/
def countProblem (s : State) (g outcome regs : Nat) (discarded : Bool) : State :=
  let s := s.bumpReg (baseSLV g + 0x10)
  let s := if regs = 0 then s else (s.bumpReg (baseSLV g + 0x18) regs).bumpOd 0x2900 0x12 regs
  let s := if outcome = 4 ∨ outcome = 5 ∨ outcome = 6 ∨ outcome = 11 then
    (s.bumpReg (baseSLV g + 0x20)).bumpOd 0x2900 0x10 else s
  let s := if outcome = 5 then s.bumpOd 0x2900 0x13 else s
  if discarded then s.bumpOd 0x2900 0x11 else s

/-- The notice of one problem (R180). -/
def problemNotice (outcome regs : Nat) (discarded : Bool) : Nat :=
  let a := if outcome = 4 ∨ outcome = 5 ∨ outcome = 6 ∨ outcome = 11 then 0x0150 else 0
  let b := if discarded then 0x0151 else 0
  let c := if regs = 0 then 0 else 0x0152
  let e := if outcome = 2 ∨ outcome = 3 ∨ (7 ≤ outcome ∧ outcome ≤ 10) then 0x0153 else 0
  minNotice a (minNotice b (minNotice c e))

/-- Run one factor-and-solve problem to its end. Answers the state, the notice and the flags. -/
def facOne (d : Desc) (g k : Nat) (r : State × Nat × Nat) (i : Nat) : State × Nat × Nat :=
  let ((o, _), fl) := runFlg ((facProblem r.1 d i).run (ordFrom d k i))
  (countProblem (facWrite r.1 d i o) g o.outcome o.regs false,
    minNotice r.2.1 (problemNotice o.outcome o.regs false), r.2.2 ||| fl)

/-- A factorization problem that its stop instant ends: outcome 0x0B, the rest undefined (R179). -/
def facStopped (d : Desc) (g : Nat) (r : State × Nat × Nat) (i : Nat) : State × Nat × Nat :=
  let s := if d.f 79 1 ≤ 1 then r.1.scribble (d.f 30 6 + i * d.f 58 4) (facRec d) else r.1
  let s := if d.f 79 1 = 0 then s
    else s.scribble (d.f 42 6 + i * d.f 66 4) (d.f 82 1 * align64 (esize d.inF * d.f 74 2))
  let s := (s.scribble (d.f 48 6 + 32 * i) 32).wr (d.f 48 6 + 32 * i) (toBytes 1 11)
  (countProblem s g 11 0 false, minNotice r.2.1 0x0150, r.2.2)

/-! ### Quadratic programs (R172–R177) -/

/-- A problem as read: P packed, q, A by rows, l and u. -/
structure QpIn where
  tag : Nat
  p : List Val
  q : List Val
  a : List (List Val)
  l : List Val
  u : List Val
deriving DecidableEq, Repr

def qpRead (s : State) (d : Desc) (i : Nat) : QpIn :=
  let f := d.inF
  let e := esize f
  let n := d.f 52 2
  let m := d.f 54 2
  let b := d.f 24 6 + i * d.f 42 4
  { tag := s.rd b 4, p := slvLoad s f (b + 64) (triN n), q := slvLoad s f (b + qpOffQ e n) n
    a := (List.range m).map (fun r => slvLoad s f (b + qpOffA e n + e * n * r) n)
    l := slvLoad s f (b + qpOffL e n m) m, u := slvLoad s f (b + qpOffU e n m) m }

/-- Row kinds: 0 free, 1 lower only, 2 upper only, 3 two-sided, 4 equality. -/
def rowKind (l u : Val) : Nat :=
  if l = .inf true ∧ u = .inf false then 0
  else if u = .inf false then 1
  else if l = .inf true then 2
  else if valEq l u then 4 else 3

/-- Does the record keep the rules under Table 07-9? -/
def qpValid (s : State) (d : Desc) (i : Nat) (x : QpIn) : Bool :=
  allFin x.p && allFin x.q && x.a.all allFin
    && (x.l.zip x.u).all (fun p => !(isNan p.1) && !(isNan p.2) && decide (p.1 ≠ .inf false)
        && decide (p.2 ≠ .inf true) && valLe p.1 p.2)
    && s.rd (d.f 24 6 + i * d.f 42 4 + 4) 60 == 0

/-- CRC-32C, one byte: polynomial 0x1EDC6F41 reflected (R176). -/
def crc32cByte (c b : Nat) : Nat :=
  (List.range 8).foldl (fun c _ => if c % 2 = 1 then (c / 2) ^^^ 0x82F63B78 else c / 2) (c ^^^ b)

def crc32c (l : List Nat) : Nat := (l.foldl crc32cByte 0xFFFFFFFF) ^^^ 0xFFFFFFFF

/-- Pack nibbles two per byte, the first in bits 3:0. -/
def nibbles : List Nat → List Nat
  | [] => []
  | [a] => [a]
  | a :: b :: t => (a + 16 * b) :: nibbles t

/-- The structure signature (R176). -/
def signature (d : Desc) (x : QpIn) : Nat :=
  crc32c ((toBytes 2 (d.f 52 2) ++ toBytes 2 (d.f 54 2) ++ toBytes 1 d.inF ++ toBytes 4 x.tag).map (fun b => b.toNat)
    ++ nibbles ((x.l.zip x.u).map (fun p => rowKind p.1 p.2)))

def orDflt (w dflt : Nat) : Val := if isZero (fp64 w) then fp64 dflt else fp64 w

/-- The settings of a quadratic program. -/
structure QpSet where
  f : Nat
  n : Nat
  m : Nat
  epsAbs : Val
  epsRel : Val
  epsInf : Val
  sigma : Val
  alpha : Val
  maxIter : Nat
  adapt : Nat
  tau : Val
  delta : Val
deriving DecidableEq, Repr

def qpSet (d : Desc) : QpSet :=
  { f := d.inF, n := d.f 52 2, m := d.f 54 2, epsAbs := orDflt (d.f 72 8) 0x3F1A36E2EB1C432D,
    epsRel := orDflt (d.f 80 8) 0x3F1A36E2EB1C432D, epsInf := orDflt (d.f 88 8) 0x3EE4F8B588E368F1,
    sigma := orDflt (d.f 96 8) 0x3EB0C6F7A0B5ED8D, alpha := orDflt (d.f 104 8) 0x3FF999999999999A,
    maxIter := d.f 60 2, adapt := if (d.f 58 1).testBit 1 then d.f 59 1 else 0,
    tau := slvParam d 0 0, delta := slvParam d 0 2 }

/-- An iterate with what R174 and R175 form of it. -/
structure Iter where
  k : Nat
  x : List Val
  z : List Val
  y : List Val
  rp : Val
  rd : Val
  merit : Val
  sug : Val
deriving DecidableEq, Repr

def matVec (f : Nat) (a : List (List Val)) (x : List Val) : Slv (List Val) := a.mapM (fun r => dotOf f r x)

/-- Aᵀ·y. -/
def matTVec (f n : Nat) (a : List (List Val)) (y : List Val) : Slv (List Val) :=
  (List.range n).mapM (fun j => dotOf f (a.map (fun r => at_ r j)) y)

def symVec (f n : Nat) (p x : List Val) : Slv (List Val) :=
  (List.range n).mapM (fun i => dotOf f ((List.range n).map (fun j => symAt p i j)) x)

def clampV (v l u : Val) : Val := minNan (maxNan v l) u

/-- `max x 10^-30` (R175). -/
def floorDen (x : Val) : Val := maxNan x (fp64 0x39B4484BFEEBC2A0)

/-- The quantities of R174 and R175 at (x, z, y). -/
def qpMeasure (c : QpSet) (q : QpIn) (rho : Val) (k : Nat) (x z y : List Val) : Slv Iter := do
  let ax ← matVec c.f q.a x
  let px ← symVec c.f c.n q.p x
  let aty ← matTVec c.f c.n q.a y
  let dp ← (ax.zip z).mapM (fun p => (subF c.f p.1 p.2 : Flg Val))
  let dd ← (px.zip (q.q.zip aty)).mapM (fun p => sumOf c.f [.acc p.1, .acc p.2.1, .acc p.2.2])
  let rp := infNorm dp
  let rd := infNorm dd
  let mp := maxNan (infNorm ax) (infNorm z)
  let md := maxNan (maxNan (infNorm px) (infNorm aty)) (infNorm q.q)
  let ep ← (fmaF 1 c.epsRel mp c.epsAbs : Flg Val)
  let ed ← (fmaF 1 c.epsRel md c.epsAbs : Flg Val)
  let merit ← (do pure (maxNan (← divF 1 rp ep) (← divF 1 rd ed)) : Flg Val)
  let sug ← (do
    let num ← divF 1 rp (floorDen mp)
    let den ← divF 1 rd (floorDen md)
    let r ← sqrtF 1 (← divF 1 num (floorDen den))
    pure (clampV (← mulF 1 rho r) (fp64 0x3EB0C6F7A0B5ED8D) (valNat 1000000)) : Flg Val)
  pure { k := k, x := x, z := z, y := y, rp := rp, rd := rd, merit := merit, sug := sug }

/-- The penalty weights of the rows (R173). -/
def rowRhos (c : QpSet) (q : QpIn) (rho : Val) : Flg (List Val) :=
  (q.l.zip q.u).mapM (fun p => match rowKind p.1 p.2 with
    | 0 => pure (fp64 0x3EB0C6F7A0B5ED8D)
    | 4 => mulF c.f (valNat 1000) rho
    | _ => pure rho)

/-- Form and factor M = P + σ·I + Aᵀ·W·A. -/
def qpFactor (c : QpSet) (q : QpIn) (ws : List Val) : Slv Fact := do
  let wa ← ((q.a.zip ws).mapM (fun p => p.1.mapM (fun v => mulF c.f v p.2)) : Flg (List (List Val)))
  let rows ← (List.range c.n).mapM (fun i => (List.range (i + 1)).mapM (fun j =>
    sumOf c.f ([.acc (symAt q.p i j)] ++ (if i = j then [.acc c.sigma] else [])
      ++ (wa.zip q.a).map (fun p => .prod (at_ p.1 i) (at_ p.2 j)))))
  let mm := rows.flatten
  let sc := infNorm ((List.range c.n).map (fun i => symAt mm i i))
  let sc := if isZero sc then (let t := infNorm mm; if isZero t then valOne else t) else sc
  let tauS ← (mulF 1 c.tau sc : Flg Val)
  let deltaS ← (mulF c.f c.delta sc : Flg Val)
  factSym { kind := 1, f := c.f, reg := true, tauS := tauS, deltaS := deltaS, signs := none, qp := true } (symAt mm) c.n

/-- One iteration (R173). -/
def qpStep (c : QpSet) (q : QpIn) (ws : List Val) (fac : Fact) (it : Iter) :
    Slv (List Val × List Val × List Val) := do
  let wz ← (((ws.zip it.z).zip it.y).mapM (fun p => do subF c.f (← mulF c.f p.1.1 p.1.2) p.2) : Flg (List Val))
  let at' ← matTVec c.f c.n q.a wz
  let rhs ← (at'.zip (it.x.zip q.q)).mapM (fun p =>
    sumOf c.f [.prod c.sigma p.2.1, .acc (valNeg p.2.2), .acc p.1])
  let xt ← solveSym c.f 1 c.n fac rhs
  let zt ← matVec c.f q.a xt
  let oma ← (subF c.f valOne c.alpha : Flg Val)
  let mix (t o : Val) : Flg Val := do fmaF c.f c.alpha t (← mulF c.f oma o)
  let x1 ← (xt.zip it.x).mapM (fun p => (mix p.1 p.2 : Flg Val))
  let v ← (zt.zip it.z).mapM (fun p => (mix p.1 p.2 : Flg Val))
  let zy ← ((List.range c.m).mapM (fun i => do
    let z1 := clampV (← addF c.f (at_ v i) (← divF c.f (at_ it.y i) (at_ ws i))) (at_ q.l i) (at_ q.u i)
    let y1 ← fmaF c.f (at_ ws i) (← subF c.f (at_ v i) z1) (at_ it.y i)
    pure (z1, y1)) : Flg (List (Val × Val)))
  pure (x1, zy.map (fun p => p.1), zy.map (fun p => p.2))

def subAll (f : Nat) (a b : List Val) : Flg (List Val) := (a.zip b).mapM (fun p => subF f p.1 p.2)

/-- The primal infeasibility test (R174). -/
def primalInf (c : QpSet) (q : QpIn) (dy : List Val) : Slv Bool := do
  let nrm := infNorm dy
  if isZero nrm || isNan nrm then pure false
  else do
    let at' ← matTVec c.f c.n q.a dy
    let lim ← (mulF 1 c.epsInf nrm : Flg Val)
    let ts := (dy.zip (q.l.zip q.u)).map (fun p =>
      if valLt valZero p.1 then (p.2.2, p.1) else if valLt p.1 valZero then (p.2.1, p.1) else (valZero, valZero))
    if ts.any (fun t => isInf t.1) then pure false
    else do
      let sum ← sumOf c.f (ts.map (fun t => .prod t.1 t.2))
      pure (valLe (infNorm at') lim && valLe sum (valNeg lim))

/-- The dual infeasibility test (R174). -/
def dualInf (c : QpSet) (q : QpIn) (dx : List Val) : Slv Bool := do
  let nrm := infNorm dx
  if isZero nrm || isNan nrm then pure false
  else do
    let px ← symVec c.f c.n q.p dx
    let lim ← (mulF 1 c.epsInf nrm : Flg Val)
    let qd ← dotOf c.f q.q dx
    let ax ← matVec c.f q.a dx
    pure (valLe (infNorm px) lim && valLe qd (valNeg lim)
      && (ax.zip (q.l.zip q.u)).all (fun p =>
        (isInf p.2.2 || valLe (valNeg lim) p.1) && (isInf p.2.1 || valLe p.1 lim)))

/-- How a quadratic program ended. -/
structure QpOut where
  outcome : Nat
  iters : Nat
  it : Iter
  rho : Val
  facts : Nat
  regs : Nat
deriving DecidableEq, Repr

/-- Where a stop instant finds a problem: 0 in the first factorization, 1 after iterate `k`, 2 in a refactorization
after iterate `k`, 3 already finished, 4 not started. -/
abbrev StopAt := Nat × Nat

/-- The iterations; `fuel` is how many may still run. -/
def qpLoop (c : QpSet) (q : QpIn) (stop : Option StopAt) :
    Nat → Val → List Val → Fact → Nat → Nat → Iter → Iter → Slv QpOut
  | 0, _, _, _, nf, nr, it, best =>
    pure { outcome := 7, iters := it.k, it := best, rho := best.sug, facts := nf, regs := nr }
  | fuel + 1, rho, ws, fac, nf, nr, it, best =>
    if stop = some (1, it.k) then
      pure { outcome := 4, iters := it.k, it := best, rho := best.sug, facts := nf, regs := nr }
    else do
      let (x1, z1, y1) ← qpStep c q ws fac it
      let it' ← qpMeasure c q rho (it.k + 1) x1 z1 y1
      let best' := if valLe it'.merit best.merit then it' else best
      let fin (o : Nat) (r : Iter) (rh : Val) : QpOut :=
        { outcome := o, iters := it'.k, it := r, rho := rh, facts := nf, regs := nr }
      if valLe it'.merit valOne then pure (fin 0 it' it'.sug)
      else do
        let dy ← (subAll c.f it'.y it.y : Flg (List Val))
        let dx ← (subAll c.f it'.x it.x : Flg (List Val))
        if ← primalInf c q dy then do
          let yc ← (dy.mapM (fun v => divF c.f v (infNorm dy)) : Flg (List Val))
          pure (fin 8 { it' with y := yc } it'.sug)
        else if ← dualInf c q dx then do
          let xc ← (dx.mapM (fun v => divF c.f v (infNorm dx)) : Flg (List Val))
          pure (fin 9 { it' with x := xc } it'.sug)
        else if fuel = 0 then pure (fin 7 best' best'.sug)
        else do
          let ratio ← (divF 1 it'.sug rho : Flg Val)
          let re := c.adapt != 0 && it'.k % max 1 c.adapt == 0
            && (valLt ratio (fp64 0x3FC999999999999A) || valLt (valNat 5) ratio)
          if !re then qpLoop c q stop fuel rho ws fac nf nr it' best'
          else if stop = some (2, it'.k) then pure (fin 5 it' it'.sug)
          else do
            let ws' ← (rowRhos c q it'.sug : Flg (List Val))
            let fac' ← qpFactor c q ws'
            if fac'.ended = 10 then pure { fin 10 best' best'.sug with regs := nr + fac'.regs }
            else qpLoop c q stop fuel it'.sug ws' fac' (nf + 1) (nr + fac'.regs) it' best'

/-- A problem from its start point. -/
def qpSolve (c : QpSet) (q : QpIn) (stop : Option StopAt) (rho : Val) (x z y : List Val) : Slv QpOut := do
  let it ← qpMeasure c q rho 0 x z y
  let fin (o : Nat) : QpOut := { outcome := o, iters := 0, it := it, rho := it.sug, facts := 0, regs := 0 }
  if valLe it.merit valOne then pure (fin 0)
  else if stop.map (fun p => p.1) = some 0 then pure (fin 6)
  else do
    let ws ← (rowRhos c q rho : Flg (List Val))
    let fac ← qpFactor c q ws
    if fac.ended = 10 then pure { fin 10 with regs := fac.regs }
    else qpLoop c q stop c.maxIter rho ws fac 1 fac.regs it it

/-- The start point (R177): the warm record where it is kept, else the cold point. Answers x, z, y, ρ and whether
a warm record was discarded or used. -/
def qpStart (s : State) (d : Desc) (i : Nat) (c : QpSet) (q : QpIn) :
    List Val × List Val × List Val × Val × Bool × Bool :=
  let e := esize c.f
  let w := d.f 30 6 + i * d.f 46 4
  let x := slvLoad s c.f (w + 64) c.n
  let z := slvLoad s c.f (w + qpOffZ e c.n) c.m
  let y := slvLoad s c.f (w + qpOffY e c.n c.m) c.m
  let rho := fp64 (s.rd (w + 8) 8)
  let warm := (d.f 58 1).testBit 0
  let keep := s.rd w 4 == signature d q && !(decide (s.rd (w + 4) 1 ∈ [3, 8, 9, 10])) && isFin rho && valLt valZero rho
    && allFin x && allFin z && allFin y
  let cl (v : List Val) : List Val := (v.zip (q.l.zip q.u)).map (fun p => clampV p.1 p.2.1 p.2.2)
  if warm && keep then (x, cl z, y, rho, false, true)
  else (zerosV c.n, cl (zerosV c.m), zerosV c.m, orDflt (d.f 112 8) 0x3FB999999999999A, warm, false)

/-- Write a result record (Table 07-10). -/
def qpWrite (s : State) (d : Desc) (i sig : Nat) (fl : Nat) (o : QpOut) (obj : Val) (cycles : Nat) : State :=
  let c := qpSet d
  let e := esize c.f
  let r := d.f 36 6 + i * d.f 46 4
  let s := s.wr r (toBytes 4 sig ++ toBytes 1 o.outcome ++ toBytes 1 fl ++ toBytes 2 o.iters ++ toBytes 8 (bits64 o.rho)
    ++ toBytes 8 (bits64 o.it.merit) ++ toBytes 8 (bits64 o.it.rp) ++ toBytes 8 (bits64 o.it.rd) ++ toBytes 8 (bits64 obj)
    ++ toBytes 2 o.it.k ++ toBytes 2 o.facts ++ toBytes 2 o.regs ++ toBytes 2 0 ++ toBytes 8 cycles)
  slvStore (slvStore (slvStore s c.f (r + 64) o.it.x) c.f (r + qpOffZ e c.n) o.it.z) c.f (r + qpOffY e c.n c.m) o.it.y

/-- ½·xᵀPx + qᵀx. -/
def objective (c : QpSet) (q : QpIn) (x : List Val) : Slv Val := do
  let px ← symVec c.f c.n q.p x
  let half ← (x.mapM (fun v => mulF c.f valHalf v) : Flg (List Val))
  sumOf c.f (((half.zip px) ++ (q.q.zip x)).map (fun p => .prod p.1 p.2))

/-! ### Cycles (R181, Table 07-11) -/

/-- Does a range lie in the SRAM of cluster `g` or in its die's lake, where the figures of Table 07-11 hold? -/
def nearEngine (g : Nat) (r : Rng) : Bool :=
  let die := 0x020000000000 + g / 8 * 0x20000000
  let clu := die + 0x04000000 + g % 8 * 0x00400000
  decide (r.n = 0 ∨ (clu ≤ r.a ∧ r.a + r.n ≤ clu + 0x00400000)
    ∨ (die + 0x06000000 ≤ r.a ∧ r.a + r.n ≤ die + 0x06000000 + 16 * mib))

/-- FMAs per cycle and lane: 2 in FP64, 4 in FP32; of the engine in wide mode, 16 times as many. -/
def slvRate (f : Nat) (wide : Bool) : Nat := (if f = 1 then 2 else 4) * (if wide then 16 else 1)

/-- Cycles of one factor-and-solve problem that ran to its end. -/
def facCycles (d : Desc) : Nat :=
  let n := d.f 74 2
  let m := d.f 76 2
  let w := slvWide d
  let f := slvRate d.inF w
  let fac := if d.f 78 1 = 3 then ceilDiv (n * n * (3 * m - n)) (3 * f) + (if w then 60 * n + 128 else 20 * n + 64)
    else ceilDiv (n * n * n) (6 * f) + (if w then 40 * n + 128 else 14 * n + 64)
  let sol := ceilDiv (d.f 82 1 * (if d.f 78 1 = 3 then 4 * m * n - n * n else 2 * n * n)) (2 * f)
    + (if w then 24 * n + 64 else 8 * n + 32)
  (if d.f 79 1 ≤ 1 then fac else 0) + (if d.f 79 1 = 0 then 0 else sol)

/-- Cycles of the steps that a quadratic program has completed; `slow` bounds an iteration from below where the records are
elsewhere. -/
def qpCycles (d : Desc) (facts iters : Nat) (slow : Bool) : Nat :=
  let n := d.f 52 2
  let m := d.f 54 2
  let e := esize d.inF
  let w := slvWide d
  let f := slvRate d.inF w
  let io := if w then 256 else 16
  let rec_ := qpRes e n m
  let setup := ceilDiv (qpProb e n m + (if (d.f 58 1).testBit 0 then rec_ else 0)) io + ceilDiv (n * n + 2 * m * n) f
    + (if w then 128 else 64)
  let fac := ceilDiv (n * (n + 1) * m) (2 * f) + ceilDiv (n * n * n) (6 * f) + (if w then 40 * n + 128 else 14 * n + 64)
  let iter := ceilDiv (2 * n * n + 3 * m * n) f + (if w then 6 * ceilDiv (n + m) 16 + 96 else 6 * (n + m) + 48)
  let iter := if slow then max iter (ceilDiv (e * (triN n + 2 * m * n)) 128) else iter
  setup + facts * fac + iters * iter + ceilDiv rec_ io + (if w then 64 else 32)

/-- The cycles of one quadratic program that ended with `outcome` on engine `g`: Table 07-11's where it ran to its own end with
its records near the engine, else a free number from its completed steps upward (log entry 35). -/
def qpSpent (d : Desc) (g outcome facts iters fv : Nat) : Nat :=
  let near := (qpInfo0 d).all (nearEngine g)
  let base := qpCycles d facts iters (!near)
  (if near ∧ (outcome = 0 ∨ outcome = 7 ∨ outcome = 8 ∨ outcome = 9) then base else base + fv % 2 ^ 40) % 2 ^ 64

/-- One quadratic program, to its end or to its stop. -/
def qpOne (d : Desc) (g k : Nat) (stop : Option StopAt) (r : State × Nat × Nat) (i : Nat) : State × Nat × Nat :=
  let s := r.1
  let c := qpSet d
  let q := qpRead s d i
  let sig := signature d q
  let fv (j : Nat) : Nat := Config.free k (2 ^ 62 + i * 8 + j)
  let (x, z, y, rho, disc, used) := qpStart s d i c q
  let wf := b2n disc + 2 * b2n used
  let open_ (j : Nat) : Val := fp64 (fv j % 2 ^ 64)
  if stop.map (fun p => p.1) = some 4 then
    let it : Iter := { k := 0, x := x, z := z, y := y, rp := open_ 1, rd := open_ 2, merit := open_ 3, sug := rho }
    let o : QpOut := { outcome := 6, iters := 0, it := it, rho := rho, facts := 0, regs := 0 }
    (countProblem (qpWrite s d i sig wf o (open_ 5) (fv 0 % 2 ^ 40)) g 6 0 disc,
      minNotice r.2.1 (problemNotice 6 0 disc), r.2.2)
  else if !(qpValid s d i q) then
    let it : Iter := { k := 0, x := zerosV c.n, z := zerosV c.m, y := zerosV c.m, rp := open_ 1, rd := open_ 2,
                       merit := open_ 3, sug := open_ 4 }
    let o : QpOut := { outcome := 3, iters := 0, it := it, rho := open_ 4, facts := 0, regs := 0 }
    let nan := q.p.any isNan || q.q.any isNan || q.a.any (fun r => r.any isNan) || q.l.any isNan || q.u.any isNan
    (countProblem (qpWrite s d i sig 0 o (open_ 5) (fv 0 % 2 ^ 40)) g 3 0 false, minNotice r.2.1 0x0153,
      r.2.2 ||| (if nan then flNanInput else 0))
  else
    let (((o, obj), _), fl) := runFlg ((do
      let o ← qpSolve c q stop rho x z y
      let obj ← objective c q o.it.x
      pure (o, obj) : Slv (QpOut × Val)).run (ordFrom d k i))
    (countProblem (qpWrite s d i sig wf o obj (qpSpent d g o.outcome o.facts o.iters (fv 0))) g o.outcome o.regs disc,
      minNotice r.2.1 (problemNotice o.outcome o.regs disc), r.2.2 ||| fl)

/-! ### The descriptors -/

/-- Where a descriptor's work area begins in a cluster. -/
def workBase (d : Desc) (g : Nat) : Nat :=
  0x020000000000 + g / 8 * 0x20000000 + 0x04000000 + g % 8 * 0x00400000 + (if d.op = 0x0300 then d.f 84 4 else d.f 64 4)
def workSize (d : Desc) : Nat := if d.op = 0x0300 then d.f 88 4 else d.f 68 4

/-- The problems of engine `e` still to do: none once its stop instant has ended it. -/
def engineLeft (d : Desc) (e : Nat) : List Nat := if d.stage.testBit e then [] else problemsOf d e

/-- The cycles of a problem as they stand: of a factorization that ran to its end with its records near the engine Table
07-11's, of a quadratic program its result record's; none where the spec gives no figure. -/
def problemCycles (s : State) (d : Desc) (g i : Nat) : Option Nat :=
  if d.op = 0x0310 then some (s.rd (d.f 36 6 + i * d.f 46 4 + 56) 8)
  else if (factorInfo s d).rngs.all (nearEngine g) && decide (s.rd (d.f 48 6 + 32 * i) 1 ≤ 1) then some (facCycles d)
  else none

/-- Give a problem of `c` cycles to the lane that is free first, the lowest of those (R164). -/
def laneTake (lanes : List Nat) (c : Nat) : List Nat :=
  let m := lanes.foldl min (lanes.headD 0)
  let j := (lanes.findIdx? (· == m)).getD 0
  lanes.set j (m + c)

/-- Add the cycles in which any lane of an engine was busy with problems `ps`: its busiest lane's in lane mode, the sum of its
problems' in wide mode; a free count where some problem has no figure (R181; log entry 35). -/
def busy (k : Nat) (d : Desc) (ps : List Nat) (s : State) (g : Nat) : State :=
  let cs := ps.map (problemCycles s d g)
  let n := if cs.all Option.isSome then
      ((cs.map (fun c => c.getD 0)).foldl laneTake (List.replicate (if slvWide d then 1 else 16) 0)).foldl max 0
    else Config.free k (2 ^ 63 + g) % 2 ^ 40
  s.bumpReg (baseSLV g + 8) n

/-- The end of a solver descriptor: its work areas are undefined (R168). -/
def slvEnd (s : State) (d : Desc) : State := (engines d).foldl (fun s g => s.scribble (workBase d g) (workSize d)) s

/-- Run every problem that no stop instant has ended; answers the state, the status and the flags. -/
def solverRun (s : State) (d : Desc) : State × Nat × Nat :=
  let (k, s) := s.draw
  let gang := slvGang d
  let r := (List.range gang).foldl (fun r e =>
    let g := (engines d).getD e 0
    let r := (engineLeft d e).foldl (if d.op = 0x0300 then facOne d g k else qpOne d g k none) r
    (busy k d (engineLeft d e) r.1 g, r.2)) (s, d.aux.getD gang 0, d.aux.getD (gang + 1) 0)
  (slvEnd r.1 d, r.2.1, r.2.2)

/-- Has every engine that has not stopped the time to finish its problems: its stop instant has not come (R179)? -/
def solverInTime (s : State) (d : Desc) : Bool :=
  (List.range (slvGang d)).all (fun e =>
    d.stage.testBit e || d.aux.getD e 0 == 0 || decide (s.dspTime d.die < d.aux.getD e 0))

/-- What a stop instant can find an engine at: problems begin in ascending order and at most `cap` are in progress at once, so
that from the first that could not have begun none has (R164). -/
def progFrom (cap : Nat) : List StopAt → Nat → List StopAt
  | [], _ => []
  | p :: t, n =>
    if n = cap ∨ 4 ≤ p.1 then (4, 0) :: t.map (fun _ => (4, 0))
    else p :: progFrom cap t (if p.1 = 3 then n else n + 1)

/-- A status of class 0 or 1 as a result. -/
def okResult (st fl : Nat) : Result := { status := st, outcome := 0, flags := fl }

/-- Engine `e`'s stop instant: each of its problems ends where `prog` finds it (R164, R179). When every engine has
stopped, the descriptor has its result. -/
def solverStop (s : State) (id : Nat) (d : Desc) (e : Nat) (prog : List StopAt) : State :=
  let gang := slvGang d
  let stop := d.aux.getD e 0
  if d.st ≠ .running ∨ d.result.isSome ∨ gang ≤ e ∨ stop = 0 ∨ s.dspTime d.die < stop ∨ d.stage.testBit e then s
  else
    let (k, s) := s.draw
    let g := (engines d).getD e 0
    let prog := progFrom (if slvWide d then 1 else 16) (prog ++ List.replicate (problemsOf d e).length (4, 0)) 0
    let ps := (problemsOf d e).zip prog
    let r := ps.foldl (fun r p =>
      if d.op = 0x0300 then (if p.2.1 = 3 then facOne d g k r p.1 else facStopped d g r p.1)
      else qpOne d g k (if p.2.1 = 3 then none else some p.2) r p.1)
      (s, d.aux.getD gang 0, d.aux.getD (gang + 1) 0)
    let s1 := busy k d (problemsOf d e) r.1 g
    let stage := d.stage ||| 2 ^ e
    let done := decide (stage % 2 ^ gang = 2 ^ gang - 1)
    let s2 := if done then slvEnd s1 d else s1
    s2.updDesc id (fun x => { x with
      stage := stage, aux := (d.aux.take gang) ++ [r.2.1, r.2.2],
      result := if done then some (okResult r.2.1 r.2.2) else none })

end Sys2Proof.Machine
end

