-- ==== Sys2Proof/Machine/Clearance.lean ====
section
/-! DEFINITION. The clearance engine (chapter 08): signed-distance maps, their updates, and path checks. -/

namespace Sys2Proof.Machine

def align1024 (n : Nat) : Nat := roundUp n 1024

/-! ### The dies of a range -/

/-- The die on which a module address lies; none for the hub. -/
def State.dieOf (s : State) (a : Nat) : Option Nat :=
  if a < 2 ^ 36 then some (dramDie s.interleaved a)
  else if 0x020000000000 ≤ a ∧ a < 0x020080000000 then some ((a - 0x020000000000) / 0x20000000)
  else none

/-- The dies a range touches. -/
def State.diesOf (s : State) (r : Rng) : List Nat :=
  if r.n = 0 then []
  else if r.a < 2 ^ 36 ∧ s.interleaved then
    (List.range (min 4 (r.n / 4096 + 2))).filterMap (fun k =>
      let a := (r.a / 4096 + k) * 4096
      if a < r.a + r.n then s.dieOf a else none)
  else
    match s.dieOf r.a, s.dieOf (r.a + r.n - 1) with
    | some x, some y => if x = y then [x] else (List.range 4).filter (fun d => decide (x ≤ d ∧ d ≤ y))
    | some x, none => [x]
    | none, some y => [y]
    | none, none => []

/-! ### Checks (Tables 08-2, 08-3, 08-4, 08-6) -/

def bricksOf (nx ny nz : Nat) : Nat := nx * ny * nz / 512
def poolBytes (b spare : Nat) : Nat := align1024 (16 * b) + (b + spare) * 1024

/-- Does a range lie inside one Present map-pool object of a context (log entry 47)? -/
def State.inPool (s : State) (c a n : Nat) : Bool :=
  s.objs.any (fun p => p.2.kind == 5 && decide (p.2.st = .present) && p.2.owner == c
    && decide (p.2.addr ≤ a ∧ a + n ≤ p.2.addr + p.2.size))

def axisOk (n : Nat) : Bool := n % 8 == 0 && within n 8 1024

def mapInfo (s : State) (d : Desc) : OpInfo :=
  let op := d.f 24 1
  let fl := d.f 26 1
  let b := bricksOf (d.f 28 2) (d.f 30 2) (d.f 32 2)
  let geom := axisOk (d.f 28 2) && axisOk (d.f 30 2) && axisOk (d.f 32 2) && within (d.f 36 4) 5000 200000
    && isFin (f32 (d.f 40 4)) && isFin (f32 (d.f 44 4)) && isFin (f32 (d.f 48 4)) && decide (d.f 64 4 ≤ b)
    && d.f 52 6 % 1024 == 0 && decide (d.f 52 6 + poolBytes b (d.f 64 4) ≤ 2 ^ 36)
    && s.inPool d.ctx (d.f 52 6) (poolBytes b (d.f 64 4))
  let rs := if op = 1 then wrLin (d.f 52 6) (poolBytes b (d.f 64 4))
      :: (if fl.testBit 0 then [rdLin (d.f 58 6) (1024 * b)] else [])
    else if op = 3 then [wrLin (d.f 58 6) 64] else []
  { ext := true,
    resv := [(27 * 8, 8), (34 * 8, 16), (68 * 8, 60 * 8), (26 * 8 + 3, 5)]
      ++ (if op = 1 then (if fl.testBit 0 then [] else [(58 * 8, 48)])
          else if op = 2 then [(26 * 8, 42 * 8)]
          else if op = 3 then [(26 * 8, 32 * 8), (64 * 8, 32)] else []),
    resvOk := true, fmt := firstFail [(d.inF == 0 && d.outF == 0, 0x0330)],
    lim := firstFail
      [(op != 1 || !(fl.testBit 0) || aligned (d.f 58 6) 2, 0x0325), (op != 3 || aligned (d.f 58 6) 4, 0x0325),
       (outsClear rs, 0x0322), (within op 1 3 && decide (d.f 25 1 ≤ 7), 0x030B), (op != 1 || geom, 0x0370)],
    fit := none, rngs := rs, pos14 := none, gang := 1, unit := .clearance }

def updateInfo (_s : State) (d : Desc) : OpInfo :=
  let n := d.f 42 4
  let rs := [rdLin (d.f 24 6) (4 * n), rdLin (d.f 30 6) (1024 * n), wrLin (d.f 36 6) 32]
  { ext := false, resv := [(49 * 8, 15 * 8)], resvOk := true,
    fmt := firstFail [(d.inF == 0 && d.outF == 0, 0x0330)],
    lim := firstFail
      [(aligned (d.f 24 6) 4 && aligned (d.f 30 6) 2 && aligned (d.f 36 6) 32 && inHub (d.f 36 6) 32, 0x0325),
       (outsClear rs, 0x0322), (within n 1 2097152 && decide (d.f 48 1 ≤ 7), 0x030B)],
    fit := none, rngs := rs, pos14 := none, gang := 1, unit := .clearance }

/-- The maps a check names. -/
def checkMaps (d : Desc) : List Nat := (List.range (d.f 44 1)).map (fun i => d.f (48 + i) 1)

def checkInfo (_s : State) (d : Desc) : OpInfo :=
  let n := d.f 42 2
  let mc := d.f 44 1
  let prof := (d.f 46 1).testBit 0
  let rs := [rdLin (d.f 24 6) (16 * n), wrLin (d.f 30 6) (64 + 32 * n)]
    ++ (if prof then [wrLin (d.f 36 6) (1024 * n)] else [])
  let mg := f32 (d.f 52 4)
  { ext := true,
    resv := [(46 * 8 + 1, 7), (47 * 8, 8), (60 * 8, 68 * 8)]
      ++ (if within mc 1 3 then [((48 + mc) * 8, (4 - mc) * 8)] else []),
    resvOk := true, fmt := firstFail [(d.inF == 0 && d.outF == 0, 0x0330)],
    lim := firstFail
      [(aligned (d.f 24 6) 4 && aligned (d.f 30 6) 4 && (!prof || aligned (d.f 36 6) 4), 0x0325),
       (outsClear rs && (!prof || !(overlap (d.f 30 6) (64 + 32 * n) (d.f 36 6) (1024 * n))), 0x0322),
       (within n 1 1024, 0x030B),
       (decide (d.f 45 1 ≤ 1) && within mc 1 4 && (checkMaps d).all (fun m => decide (m ≤ 7)) && distinct (checkMaps d)
          && isFin mg && valLe valZero mg, 0x0371)],
    fit := none, rngs := rs, pos14 := none, gang := 1, unit := .clearance }

/-! ### The map table (R189–R193) -/

def SdMap.bricks (m : SdMap) : Nat := bricksOf m.nx m.ny m.nz
def SdMap.slot0 (m : SdMap) : Nat := m.pool + align1024 (16 * m.bricks)
def SdMap.entry (m : SdMap) (b : Nat) : Nat := m.pool + 16 * b
def SdMap.live (m : SdMap) : Bool := decide (m.st = .defined) || decide (m.st = .copying)

def entCur (s : State) (m : SdMap) (b : Nat) : Nat := s.rd (m.entry b) 4
def entPrev (s : State) (m : SdMap) (b : Nat) : Nat := s.rd (m.entry b + 4) 4
def entGen (s : State) (m : SdMap) (b : Nat) : Nat := s.rd (m.entry b + 8) 8 % 2 ^ 63
def entValid (s : State) (m : SdMap) (b : Nat) : Bool := decide (2 ^ 63 ≤ s.rd (m.entry b + 8) 8)

def wrEntry (s : State) (m : SdMap) (b cur prev gen : Nat) (valid : Bool) : State :=
  s.wr (m.entry b) (toBytes 4 cur ++ toBytes 4 prev ++ toBytes 8 (gen % 2 ^ 63 + if valid then 2 ^ 63 else 0))

/-- The slots that are neither current nor previous, ascending. -/
def freeSlots (s : State) (m : SdMap) : List Nat :=
  let used := ((List.range m.bricks).map (fun b =>
    entCur s m b :: (if entValid s m b then [entPrev s m b] else []))).flatten
  (List.range (m.bricks + m.spare)).filter (fun k => !(used.contains k))

/-- Pins on generation `g` of map `n` (R193). -/
def State.pinCount (s : State) (n g : Nat) : Nat :=
  AMap.count (fun _ (d : Desc) => d.pins.contains (n, g)) s.descs

def State.pinsPrev (s : State) (n : Nat) : Nat :=
  let g := (s.sdMap n).gen
  if g = 0 then 0 else s.pinCount n (g - 1)

/-- Has map `n` any pin? -/
def State.pinned (s : State) (n : Nat) : Bool := s.descs.any (fun p => p.2.pins.any (fun q => q.1 == n))

def mapCode : MapSt → Nat
  | .undef => 0 | .defined => 1 | .copying => 2 | .retiring => 3

/-- Set a running descriptor's result. -/
def State.finish (s : State) (id st fl : Nat) : State :=
  s.updDesc id (fun x => { x with result := some { status := st, outcome := 0, flags := fl } })

/-- Map control op 1 (R192). -/
def mapDefineRun (s : State) (d : Desc) : State × Nat :=
  let n := d.f 25 1
  let fl := d.f 26 1
  if (s.sdMap n).st ≠ .undef then (s, 0x0571)
  else
    let m : SdMap :=
      { SdMap.zero with
        st := .defined, nx := d.f 28 2, ny := d.f 30 2, nz := d.f 32 2, um := d.f 36 4, ox := d.f 40 4, oy := d.f 44 4,
        oz := d.f 48 4, unkFree := fl.testBit 1, outFree := fl.testBit 2, pool := d.f 52 6, spare := d.f 64 4,
        owner := d.ctx }
    let s := if fl.testBit 0 then s.copyMem (d.f 58 6) m.slot0 (1024 * m.bricks)
      else s.wr m.slot0 ((List.range (512 * m.bricks)).map (fun _ => toBytes 2 0x8000)).flatten
    ((List.range m.bricks).foldl (fun s b => wrEntry s m b b 0 0 false) (s.setMap n m), 0)

/-- Map control op 2: the map is retiring from now on (R192). -/
def mapRetire (s : State) (id : Nat) (d : Desc) : State :=
  let n := d.f 25 1
  let m := s.sdMap n
  if !m.live then s.finish id 0x0570 0
  else if m.owner ≠ d.ctx then s.finish id 0x0572 0
  else (s.setMap n { m with st := .retiring, retire := some id }).updDesc id (fun x => { x with stage := 1 })

/-- Does an update of map `n` run, in any of its steps? -/
def State.updating (s : State) (n : Nat) : Bool :=
  s.descs.any (fun p => p.2.op == 0x0408 && p.2.f 48 1 == n && p.2.result.isNone && p.2.stage != 0)

/-- The retiring map is freed once its last update and pin have ended (R192). -/
def mapRetireFree (s : State) (n : Nat) : State :=
  let m := s.sdMap n
  if m.st = .retiring ∧ ¬ s.updating n ∧ m.update = none ∧ ¬ s.pinned n then
    let s := s.setMap n SdMap.zero
    match m.retire with
    | some id => if (s.desc? id).any (fun x => x.result.isNone) then s.finish id 0 0 else s
    | none => s
  else s

/-- The 64 B map record (R192). -/
def mapRecord (s : State) (n : Nat) : List Byte :=
  let m := s.sdMap n
  toBytes 1 (mapCode m.st) ++ toBytes 1 0 ++ toBytes 2 m.gen ++ toBytes 2 (s.pinCount n m.gen) ++ toBytes 2 (s.pinsPrev n)
    ++ toBytes 4 (if m.st = .undef then 0 else (freeSlots s m).length) ++ toBytes 2 m.owner ++ toBytes 2 m.nx
    ++ toBytes 2 m.ny ++ toBytes 2 m.nz ++ toBytes 4 m.um ++ toBytes 40 0

def mapQueryRun (s : State) (d : Desc) : State × Nat := (s.wr (d.f 58 6) (mapRecord s (d.f 25 1)), 0)

/-- Pairs of a flat list. -/
def pairUp : List Nat → List (Nat × Nat)
  | a :: b :: t => (a, b) :: pairUp t
  | _ => []

/-! ### The engine (R188) -/

/-- Does `a` run before `b` on an engine (R188)? -/
def checkBefore (a b : Desc) (ia ib : Nat) : Bool :=
  let due (d : Desc) : Nat := if d.due = 0 then 2 ^ 65 else d.due
  decide (a.cls < b.cls ∨ (a.cls = b.cls ∧ (due a < due b ∨ (due a = due b ∧ (a.start < b.start
    ∨ (a.start = b.start ∧ ia ≤ ib))))))

/-- The shadow copy of a descriptor, where it is placed and has not ended (R201, R379). -/
def Desc.shadowOn (d : Desc) (die : Nat) : Bool :=
  match d.shadow with | some x => x.placed && !x.judged && x.die == die | none => false

/-- Does the engine of die `die` hold a check with work left: its home copy, or its shadow copy (R201)? -/
def Desc.checksOn (d : Desc) (die : Nat) : Bool :=
  d.op == 0x0410 && decide (d.st = .running) && ((d.die == die && d.result.isNone) || d.shadowOn die)

/-- The check that the engine of die `die` runs (R188): the one it ran, unless a check of a higher class is held; where it has
ended, the first of those held in the order of R188. -/
def State.runningCheck (s : State) (die : Nat) : Option Nat :=
  let held := s.descs.filter (fun p => p.2.checksOn die)
  let best := (held.foldl (fun (b : Option (Nat × Desc)) p => match b with
    | none => some p
    | some q => if checkBefore q.2 p.2 q.1 p.1 then b else some p) none).map (fun p => p.1)
  match held.find? (fun p => (s.die die).check == some p.1) with
  | some q => if held.any (fun p => decide (p.2.cls < q.2.cls)) then best else some q.1
  | none => best

/-- Descriptors the engine of a die holds, shadow copies among them (R188, R201). -/
def State.cleHeld (s : State) (die : Nat) : Nat :=
  AMap.count (fun _ (d : Desc) => decide (0x0400 ≤ d.op ∧ d.op ≤ 0x04FF) && decide (d.st = .running)
    && (d.die == die || d.shadowOn die)) s.descs

/-- Has the engine a place for a descriptor of class `cls` (R188)? -/
def State.clePlace (s : State) (die cls : Nat) : Bool :=
  !((s.die die).cleFenced) && decide (s.cleHeld die < if cls ≤ 1 then 8 else 7)

/-- The groups of a check, and how many of them it had examined when it was last suspended or preempted: `aux` holds that, then
each path's sample address and count; `tbl` its samples as they stood at placement (R187, R188). -/
def checkDone (d : Desc) : Nat := d.aux.headD 0
def checkGroups (d : Desc) : Nat := natSum (fun p => ceilDiv p.2 32) (pairUp (d.aux.drop 1))

/-- A check is suspended or preempted at a group boundary: it keeps its progress (R188). How far it has come depends on the
time it has run, so that the count is free between its last progress and its end. -/
def State.keepProgress (s : State) (id : Nat) : State :=
  let (k, s) := s.draw
  s.updDesc id (fun d => { d with aux := max (checkDone d) (Config.free k 0 % max 1 (checkGroups d)) :: d.aux.drop 1 })

/-- A check comes onto the engine of die `die` by `f`: the check that ran there keeps on, or is suspended by one of a higher
class (R188). -/
def State.cleEnter (s : State) (die : Nat) (f : State → State) : State :=
  let old := s.runningCheck die
  let s := f (s.setDie die { s.die die with check := old })
  match old with
  | some a => if s.runningCheck die = old then s else s.keepProgress a
  | none => s

/-! ### Errors (R204, R206, R283) -/

/-- Is there an error on record in `n` bytes from `a`: an object's, that a read meets again (R283)? -/
def State.errIn (s : State) (a n : Nat) : Bool :=
  s.objs.any (fun p => p.2.inMem && p.2.suspect && p.2.badData && overlap a n (p.2.addr + p.2.suspectOff) 1)

/-! ### Distances (R190, R191, R196) -/

/-- The voxel size in metres, formed once in FP32. -/
def SdMap.vs (m : SdMap) : Val := (runFlg (div32 (valNat m.um) (valNat 1000000))).1

/-- The brick of voxel (x, y, z). -/
def SdMap.brickAt (m : SdMap) (x y z : Nat) : Nat := (z / 8 * (m.ny / 8) + y / 8) * (m.nx / 8) + x / 8

/-- The address of the slot that holds a brick as seen at generation `g` (R194). -/
def slotAddr (s : State) (m : SdMap) (g b : Nat) : Nat :=
  m.slot0 + 1024 * (if entGen s m b = g + 1 then entPrev s m b else entCur s m b)

/-- The voxel (x, y, z) of a map as seen at generation `g`. -/
def voxel (s : State) (m : SdMap) (g x y z : Nat) : Nat :=
  s.rd (slotAddr s m g (m.brickAt x y z) + ((z % 8) * 64 + (y % 8) * 8 + x % 8) * 2) 2

/-- Does the fetch of a brick, or of its table entry, meet an error on record (R204)? -/
def brickBad (s : State) (m : SdMap) (g b : Nat) : Bool := s.errIn (m.entry b) 16 || s.errIn (slotAddr s m g b) 1024

/-- What a policy reads as: free 32,767·vs/256, blocked −vs. -/
def policyDist (m : SdMap) (free : Bool) : Flg Val :=
  if free then do mul32 (valNat 32767) (← mul32 m.vs (.fin false 1 (-8))) else pure (valNeg m.vs)

def lerp (a b f : Val) : Flg Val := do fmaF fmtFP32 f (← sub32 b a) a

/-- `⌊v⌋` of a value that is not negative. -/
def floorNat (v : Val) : Nat :=
  match v with
  | .fin false m e => if 0 ≤ e then m * 2 ^ e.toNat else m / 2 ^ (-e).toNat
  | _ => 0

/-- A distance and what was met: unknown voxel, outside, an error in a brick. -/
structure Dist where
  v : Val
  unk : Bool
  out : Bool
  err : Bool
deriving DecidableEq, Repr

/-- The distance one map contributes at a centre (R196). -/
def mapDist (s : State) (m : SdMap) (g : Nat) (cx cy cz : Val) : Flg Dist := do
  let co (c o : Val) : Flg Val := do sub32 (← div32 (← sub32 c o) m.vs) valHalf
  let u ← co cx (f32 m.ox)
  let v ← co cy (f32 m.oy)
  let w ← co cz (f32 m.oz)
  let outside (t : Val) (n : Nat) : Bool := valLt t valZero || valLt (valNat (n - 1)) t
  if outside u m.nx || outside v m.ny || outside w m.nz then
    pure { v := ← policyDist m m.outFree, unk := false, out := true, err := false }
  else do
    let i := min (floorNat u) (m.nx - 2)
    let j := min (floorNat v) (m.ny - 2)
    let k := min (floorNat w) (m.nz - 2)
    let fu ← sub32 u (valNat i)
    let fv ← sub32 v (valNat j)
    let fw ← sub32 w (valNat k)
    let vx (a b c : Nat) : Nat := voxel s m g (i + a) (j + b) (k + c)
    let corners := [(0, 0, 0), (1, 0, 0), (0, 1, 0), (1, 1, 0), (0, 0, 1), (1, 0, 1), (0, 1, 1), (1, 1, 1)]
    let bad := corners.any (fun c => brickBad s m g (m.brickAt (i + c.1) (j + c.2.1) (k + c.2.2)))
    if corners.any (fun c => vx c.1 c.2.1 c.2.2 == 0x8000) then
      pure { v := ← policyDist m m.unkFree, unk := true, out := false, err := bad }
    else do
      let q (a b c : Nat) : Val := valInt (toSigned 16 (vx a b c))
      let x00 ← lerp (q 0 0 0) (q 1 0 0) fu
      let x10 ← lerp (q 0 1 0) (q 1 1 0) fu
      let x01 ← lerp (q 0 0 1) (q 1 0 1) fu
      let x11 ← lerp (q 0 1 1) (q 1 1 1) fu
      let y0 ← lerp x00 x10 fv
      let y1 ← lerp x01 x11 fv
      let z ← lerp y0 y1 fw
      pure { v := ← mul32 z (← mul32 m.vs (.fin false 1 (-8))), unk := false, out := false, err := bad }

/-- The clearance of the sample whose 16 bytes are `w` (R196). -/
def clearance (s : State) (pins : List (Nat × Nat)) (w : Nat) : Flg Dist := do
  let c (o : Nat) : Val := f32 (field w (8 * o) 32)
  if !(isFin (c 0) && isFin (c 4) && isFin (c 8) && isFin (c 12) && valLe valZero (c 12)) then do
    raise flInvalid
    pure { v := .inf true, unk := false, out := false, err := false }
  else do
    let ds ← pins.mapM (fun p => mapDist s (s.sdMap p.1) p.2 (c 0) (c 4) (c 8))
    let least := ds.foldl (fun x d => minNan x d.v) (.inf false)
    pure { v := ← sub32 least (c 12), unk := ds.any (fun d => d.unk), out := ds.any (fun d => d.out),
           err := ds.any (fun d => d.err) }

/-! ### Path checks (R193, R197–R200) -/

/-- Path record `i`: (sample address, count, reserved bytes zero). -/
def pathRec (s : State) (d : Desc) (i : Nat) : Nat × Nat × Bool :=
  let a := d.f 24 6 + 16 * i
  (s.rd a 6, s.rd (a + 8) 4, s.rd (a + 6) 2 == 0 && s.rd (a + 12) 4 == 0)

/-- Placement: pin the current epochs, and read the path records into `aux` and the samples into `tbl` (R187, R193). -/
def checkPlace (s : State) (id : Nat) (d : Desc) : PRes :=
  let ms := checkMaps d
  if !(ms.all (fun m => (s.sdMap m).live)) then .fault s 0x0570
  else
    let rs := (List.range (d.f 42 2)).map (pathRec s d)
    if !(rs.all (fun r => r.2.2 && within r.2.1 1 4096)) then .fault s 0x0574
    else
      let w := 64 + 32 * d.f 42 2 + (if (d.f 46 1).testBit 0 then 4 * natSum (fun r => if r.2.1 ≤ 256 then r.2.1 else 0) rs
        else 0)
      .ok ((s.updDesc id (fun x => { x with
        pins := ms.map (fun m => (m, (s.sdMap m).gen)), aux := 0 :: (rs.map (fun r => [r.1, r.2.1])).flatten,
        tbl := (rs.map (fun r => (List.range r.2.1).map (fun i => s.rd (r.1 + 16 * i) 16))).flatten,
        stopAt := stopInstant (s.dspTime d.die) (d.f 56 4) d.due (1000 + s.nsFor256 w) })).bumpOd (0x4200 + d.die) 0x51)

/-- The sample ranges a check reads at its placement. -/
def checkSamples (d : Desc) : List Rng := (pairUp (d.aux.drop 1)).map (fun p => rdLin p.1 (16 * p.2))

/-- Cut a list into pieces of the given lengths. -/
def splitBy : List Nat → List Nat → List (List Nat)
  | [], _ => []
  | n :: t, l => l.take n :: splitBy t (l.drop n)

/-- The samples of each path. -/
def checkPaths (d : Desc) : List (List Nat) := splitBy ((pairUp (d.aux.drop 1)).map (fun p => p.2)) d.tbl

/-- One path's record (Table 08-7), with its profile. -/
structure PathRes where
  outcome : Nat
  prof : Bool
  unk : Bool
  out : Bool
  least : Val
  leastIdx : Nat
  examined : Nat
  first : Nat
  vals : List Val
  err : Bool
deriving DecidableEq, Repr

def PathRes.unexamined : PathRes :=
  { outcome := 5, prof := false, unk := false, out := false, least := .inf false, leastIdx := 0, examined := 0,
    first := 0, vals := [], err := false }

/-- Examine the groups of a path in order; `budget` is how many groups may still be examined, if a stop is set.
Answers what was gathered, whether a sample hit, and the groups used. -/
def examGroups (s : State) (pins : List (Nat × Nat)) (margin : Val) (ws : List Nat) (n : Nat) (large : Bool) :
    Nat → Nat → Option Nat → PathRes → Bool → Flg (PathRes × Bool × Nat)
  | 0, g, _, r, hit => pure (r, hit, g)
  | fuel + 1, g, budget, r, hit =>
    if n ≤ 32 * g ∨ budget = some g ∨ (large ∧ hit) then pure (r, hit, g)
    else do
      let idx := (List.range (min 32 (n - 32 * g))).map (fun i => 32 * g + i)
      let ds ← idx.mapM (fun i => do pure (i, ← clearance s pins (ws.getD i 0)))
      let best := ds.foldl (fun (b : Val × Nat) p => if valLt p.2.v b.1 then (p.2.v, p.1) else b) (r.least, r.leastIdx)
      let h := ds.find? (fun p => valLt p.2.v margin)
      let r' := { r with
        least := best.1, leastIdx := best.2, examined := r.examined + idx.length, vals := r.vals ++ ds.map (fun p => p.2.v)
        unk := r.unk || ds.any (fun p => p.2.unk), out := r.out || ds.any (fun p => p.2.out)
        err := r.err || ds.any (fun p => p.2.err)
        first := match hit, h with
          | false, some p => p.1
          | _, _ => r.first }
      examGroups s pins margin ws n large fuel (g + 1) budget r' (hit || h.isSome)

/-- Examine one path of the samples `ws`. Answers its record, the groups used, and whether the stop cut it. -/
def examPath (s : State) (d : Desc) (ws : List Nat) (budget : Option Nat) : Flg (PathRes × Nat × Bool) := do
  let n := ws.length
  let large := decide (256 < n)
  let (r, hit, g) ← examGroups s d.pins (f32 (d.f 52 4)) ws n large (ceilDiv n 32) 0 budget PathRes.unexamined false
  let whole := decide (n ≤ 32 * g)
  let cut := !whole && !(large && hit)
  let oc := if cut then (if hit then 3 else 4) else if hit then (if large then 1 else 2) else 0
  pure ({ r with outcome := oc, prof := !large && whole && (d.f 46 1).testBit 0 }, g, cut)

/-- Examine the paths in ascending order. -/
def examPaths (s : State) (d : Desc) : List (List Nat) → Option Nat → Bool → Bool → Flg (List PathRes × Bool)
  | [], _, _, cut => pure ([], cut)
  | p :: t, budget, ovr, cut =>
    if ovr then do
      let (l, c) ← examPaths s d t budget ovr cut
      pure (PathRes.unexamined :: l, c)
    else if budget = some 0 then do
      let (l, _) ← examPaths s d t budget true true
      pure (PathRes.unexamined :: l, true)
    else do
      let (r, g, c) ← examPath s d p budget
      let (l, c') ← examPaths s d t (budget.map (fun b => b - g)) (c || (d.f 45 1 == 1 && r.outcome == 0)) (cut || c)
      pure (r :: l, c')

/-- The path of greatest least clearance among those that meet `ok`; ties go to the lower index (R199). -/
def bestPath (rs : List PathRes) (ok : PathRes → Bool) : Option Nat :=
  (((List.range rs.length).zip rs).foldl (fun (b : Option (Nat × Val)) p =>
    if ok p.2 then (match b with
      | none => some (p.1, p.2.least)
      | some q => if valLt q.2 p.2.least then some (p.1, p.2.least) else b) else b) none).map (fun p => p.1)

def pathBytes (r : PathRes) : List Byte :=
  toBytes 1 r.outcome ++ toBytes 1 (b2n r.prof + 2 * b2n r.unk + 4 * b2n r.out) ++ toBytes 2 0
    ++ toBytes 4 (if r.examined = 0 then 0 else bits32 r.least) ++ toBytes 4 r.leastIdx ++ toBytes 4 r.examined
    ++ toBytes 4 r.first ++ toBytes 12 0

/-- The ranges that a clearance operation writes outside the pool. -/
def cleOuts (d : Desc) : List (Nat × Nat) :=
  if d.op = 0x0410 then
    (d.f 30 6, 64 + 32 * d.f 42 2) :: (if (d.f 46 1).testBit 0 then [(d.f 36 6, 1024 * d.f 42 2)] else [])
  else if d.op = 0x0408 then [(d.f 36 6, 32)]
  else if d.f 24 1 = 3 then [(d.f 58 6, 64)] else []

/-- An uncorrectable error in a map brick or the engine ends the descriptor with undefined results (R204, R206). -/
def cleFault (s : State) (id : Nat) (d : Desc) : State :=
  (((cleOuts d).foldl (fun s r => s.scribble r.1 r.2) s).bumpReg (baseCLE d.die + 0x20)).finish id 0x0576 0

/-- What an engine of die `die` counts of a check (Table 08-11): samples, cycles with a lane busy, misses. -/
def State.countCheck (s : State) (die exd busy miss : Nat) : State :=
  ((((s.bumpReg (baseCLE die + 8) exd).bumpReg (baseCLE die + 0x10) busy).bumpReg (baseCLE die + 0x18) miss).bumpOd
    (0x4200 + die) 0x50 miss).bumpOd 0x2800 0x03 exd 64

/-- The brick misses of a check on the engine of die `die`: how many bricks the cache lacks is free, and none is local (remote)
where no pool lies on the die (elsewhere) (R202). -/
def State.checkMisses (s : State) (d : Desc) (die k : Nat) : Nat × Nat :=
  let on := d.pins.flatMap (fun p => s.diesOf ⟨(s.sdMap p.1).pool, poolBytes (s.sdMap p.1).bricks (s.sdMap p.1).spare, false, false⟩)
  (if on.any (fun x => x == die) then Config.free k 1 % 2 ^ 20 else 0,
   if on.any (fun x => x != die) then Config.free k 2 % 2 ^ 20 else 0)

/-- The groups of a path that its examination took. -/
def PathRes.groups (r : PathRes) : Nat := ceilDiv r.examined 32

/-- The engine cycles of a check (Table 08-8), of the paths examined and the groups taken of them (log entry 35). -/
def checkCycles (rs : List PathRes) (miss : Nat × Nat) (bytes : Nat) : Nat :=
  256 + max (natSum (fun r => if r.examined = 0 then 0 else 4 * r.groups + 8) rs) (4 * miss.1 + 8 * miss.2) + ceilDiv bytes 256

/-- Write a check's results and count it; `budget` is none where it ran to its end. Of a class S check `aux` holds from now on
what its shadow copy will have counted too (R201). -/
def checkRun (s : State) (id : Nat) (d : Desc) (budget : Option Nat) : State :=
  let ((rs, cut), fl) := runFlg (examPaths s d (checkPaths d) budget false false)
  if rs.any (fun r => r.err) then cleFault s id d
  else
  let mode1 := d.f 45 1 == 1
  let free : Option Nat := if mode1 then ((List.range rs.length).zip rs).findSome? (fun p => if p.2.outcome = 0 then some p.1 else none)
    else bestPath rs (fun r => r.outcome == 0)
  let sel : Option Nat := match free with
    | some i => some i
    | none => bestPath rs (fun r => decide (1 ≤ r.outcome ∧ r.outcome ≤ 3))
  let oc : Nat := if free.isSome then (if cut then 2 else 0) else if sel.isSome then (if cut then 3 else 1) else 4
  let unk := rs.any (fun r => r.unk)
  let out := rs.any (fun r => r.out)
  let cnt (p : PathRes → Bool) : Nat := rs.countP p
  let exd := natSum (fun r => r.examined) rs
  let busy := natSum (fun r => 4 * r.groups) rs
  let (k, s) := s.draw
  let miss := s.checkMisses d d.die k
  let cyc := checkCycles rs miss (64 + 32 * rs.length + natSum (fun r => if r.prof then 4 * r.vals.length else 0) rs)
  let pr := rs.getD (sel.getD 0) PathRes.unexamined
  let epochs := (List.range 4).map (fun i => toBytes 2 (d.pins.getD i (0, 0)).2)
  let head := toBytes 1 oc ++ toBytes 1 (b2n sel.isSome + 2 * b2n unk + 4 * b2n out) ++ toBytes 2 (sel.getD 0)
    ++ toBytes 4 (if sel.isSome then bits32 pr.least else 0) ++ toBytes 4 (if sel.isSome then pr.leastIdx else 0)
    ++ toBytes 2 (cnt (fun r => r.outcome == 0)) ++ toBytes 2 (cnt (fun r => decide (1 ≤ r.outcome ∧ r.outcome ≤ 3)))
    ++ toBytes 2 (cnt (fun r => decide (4 ≤ r.outcome))) ++ toBytes 2 0 ++ epochs.flatten ++ toBytes 4 0 ++ toBytes 8 exd
    ++ toBytes 8 cyc ++ toBytes 16 0
  let s := ((List.range rs.length).zip rs).foldl (fun s p =>
    if p.2.prof then s.wr (d.f 36 6 + 1024 * p.1) (p.2.vals.map (fun v => toBytes 4 (bits32 v))).flatten else s) s
  let s := s.wr (d.f 30 6 + 64) (rs.map pathBytes).flatten
  let s := s.wr (d.f 30 6) head
  let st : Nat := if oc = 1 ∨ oc = 3 then 0x0160 else if oc = 2 ∨ oc = 4 then 0x0161 else if unk ∨ out then 0x0162 else 0
  let s := (s.countCheck d.die exd busy (miss.1 + miss.2)).bumpOd 0x2800 0x02
  let s := if st = 0x0161 then s.bumpOd 0x2800 0x04 else s
  (s.updDesc id (fun x => { x with aux := [exd, busy] })).finish id st fl

/-- The shadow copy of a class S check ends on the shadow die's engine: it has examined what the home copy examined, with the
misses of its own cache (R201). -/
def State.checkShadow (s : State) (d : Desc) (die : Nat) : State :=
  if d.op = 0x0410 ∧ d.aux.length = 2 then
    let (k, s) := s.draw
    let miss := s.checkMisses d die k
    s.countCheck die (d.aux.getD 0 0) (d.aux.getD 1 0) (miss.1 + miss.2)
  else s

/-! ### Updates (R194, R195) -/

/-- Write the update report. -/
def updateReport (s : State) (d : Desc) (reused waited : Nat) : State :=
  let m := s.sdMap (d.f 48 1)
  s.wr (d.f 36 6) (toBytes 2 m.gen ++ toBytes 2 0 ++ toBytes 4 reused ++ toBytes 4 (freeSlots s m).length
    ++ toBytes 4 waited ++ toBytes 16 0)

/-- A check that pins the previous epoch of map `n` yields (R195): its stop instant is now, and one that is suspended or
preempted completes at once with what it had examined. -/
def yieldOne (s : State) (p : Nat × Desc) : State :=
  let s := (s.bumpOd 0x2800 0x05).updDesc p.1 (fun d => { d with stage := 9, stopAt := max 1 (s.dspTime d.die) })
  if s.runningCheck p.2.die = some p.1 then s else checkRun s p.1 p.2 (some (checkDone p.2))

/-- The class D and B checks that pin the previous epoch of map `n` yield to an update of class S, C or P (R195). -/
def yieldChecks (s : State) (n : Nat) : State :=
  let g := (s.sdMap n).gen
  (s.descs.filter (fun p => p.2.op == 0x0410 && decide (3 ≤ p.2.cls) && p.2.result.isNone && p.2.stage == 0
    && decide (1 ≤ g) && p.2.pins.contains (n, g - 1))).foldl yieldOne s

/-- The update begins: its judgement at placement, then step 1. `aux` is the instant the wait began, `tbl` the list as it stands
at placement (R187). Its stop instant is formed as a check's (R200); no rule stops an update at it: at the deadline it is aborted
(R195). -/
def updateStart (s : State) (id : Nat) (d : Desc) : State :=
  let n := d.f 48 1
  let m := s.sdMap n
  if !m.live then s.finish id 0x0570 0
  else if m.owner ≠ d.ctx then s.finish id 0x0572 0
  else if m.gen % 65536 ≠ d.f 46 2 then (updateReport s d 0 0).finish id 0x0573 0
  else
    let s1 := s.updDesc id (fun x => { x with
      stage := 1, aux := [s.dspTime d.die], tbl := (List.range (d.f 42 4)).map (fun i => s.rd (d.f 24 6 + 4 * i) 4),
      stopAt := stopInstant (s.dspTime d.die) 0 d.due (1000 + s.nsFor256 32) })
    if d.cls ≤ 2 then yieldChecks s1 n else s1

/-- Step 4 for one brick: (its index, its slot, whether the slot is reused). -/
def copyBrick (d : Desc) (n : Nat) (s : State) (p : Nat × Nat × Nat) : State :=
  let m := s.sdMap n
  let (i, b, slot) := p
  let cur := entCur s m b
  wrEntry (s.copyMem (d.f 30 6 + 1024 * i) (m.slot0 + 1024 * slot) 1024) m b slot cur (m.gen + 1) true

/-- Steps 1–4: once no pin is on the previous epoch and no other update of the map runs, judge the list, count the
slots and copy. `aux` becomes: µs waited, slots reused, then (brick, old current slot) of every entry changed. -/
def updateCopy (s : State) (id : Nat) (d : Desc) : State :=
  let n := d.f 48 1
  let m := s.sdMap n
  if s.pinsPrev n ≠ 0 ∨ m.update.isSome then s
  else
    let waited := (s.dspTime d.die - d.aux.headD 0) / 1000
    let l := d.tbl
    if !(l.all (fun b => decide (b < m.bricks))) || !(distinct l) then (updateReport s d 0 waited).finish id 0x0575 0
    else
      let fresh := l.filter (fun b => !(entValid s m b))
      let free := freeSlots s m
      if free.length < fresh.length then s.finish id 0x0574 0
      else
        let slot (b : Nat) : Nat := if entValid s m b then entPrev s m b else free.getD (fresh.idxOf b) 0
        let plan := l.zipIdx.map (fun p => (p.2, p.1, slot p.1))
        let old := (l.map (fun b => [b, entCur s m b])).flatten
        let st := if m.st = .retiring then MapSt.retiring else .copying
        let s1 := s.setMap n { m with update := some id, st := st }
        (plan.foldl (copyBrick d n) s1).updDesc id (fun x => { x with
          stage := 2, aux := waited :: (l.length - fresh.length) :: old })

/-- Step 5: publish, and report. -/
def updatePublish (s : State) (id : Nat) (d : Desc) : State :=
  let n := d.f 48 1
  let m := s.sdMap n
  let s1 := s.setMap n { m with gen := (m.gen + 1) % 2 ^ 64, update := none,
                                st := if m.st = .retiring then .retiring else .defined }
  let s2 := (updateReport s1 d (d.aux.getD 1 0) (d.aux.getD 0 0)).bumpOd 0x2800 0x06
  let s3 := if s2.descs.any (fun p => p.2.op == 0x0408 && p.2.stage == 1 && p.2.f 48 1 == n && decide (p.2.cls ≤ 2)
      && p.2.result.isNone) then yieldChecks s2 n else s2
  s3.finish id 0 0

/-- An update that ends early after step 3 restores its entries (R194). -/
def updateUndo (s : State) (d : Desc) : State :=
  let n := d.f 48 1
  let m := s.sdMap n
  if d.stage = 2 then
    let s1 := (pairUp (d.aux.drop 2)).foldl (fun s p => wrEntry s m p.1 p.2 0 m.gen false) s
    s1.setMap n { m with update := none, st := if m.st = .retiring then .retiring else .defined }
  else s

/-- What a clearance descriptor that ends early undoes. -/
def cleUndo (s : State) (id : Nat) (d : Desc) : State :=
  if d.op = 0x0408 then updateUndo s d
  else if d.op = 0x0400 then
    let n := d.f 25 1
    let m := s.sdMap n
    if m.retire = some id then s.setMap n { m with retire := none, st := if m.update.isSome then .copying else .defined }
    else s
  else s

end Sys2Proof.Machine
end

