-- ==== Sys2Proof/Machine/Check.lean ====
section
/-! DEFINITION. Checking a descriptor (Table 03-5), grants (R486), and what an early end leaves (R88). -/

namespace Sys2Proof.Machine

/-! ### What each opcode is -/

def nopInfo : OpInfo :=
  { ext := false, resv := [(24 * 8, 40 * 8)], resvOk := true, fmt := none, lim := none, fit := none, rngs := [],
    pos14 := none, gang := 1, unit := .cores }

/-- What checking needs to know of a descriptor, by its opcode; none for an invalid one (R58). -/
def opInfo (s : State) (d : Desc) : Option OpInfo :=
  if d.op = 0x0F00 then
    some { nopInfo with fmt := firstFail [(d.inF == 0 && d.outF == 0, 0x0330)] }
  else if d.op = 0x0001 then some (gemmInfo s d)
  else if d.op = 0x0010 then some (elementwiseInfo s d)
  else if d.op = 0x0018 then some (normaliseInfo s d)
  else if d.op = 0x0020 then some (poolInfo s d)
  else if d.op = 0x0030 then some (convInfo s d)
  else if d.op = 0x0040 then some (gatherInfo s d)
  else if d.op = 0x0050 then some (argMaxInfo s d)
  else if d.op = 0x0058 then some (boxInfo s d)
  else if d.op = 0x0060 then some (samplingInfo s d)
  else if d.op = 0x0070 then some (packInfo s d)
  else if d.op = 0x0100 then some (attnInfo s d)
  else if d.op = 0x0108 then some (mergeInfo s d)
  else if d.op = 0x0110 then some (appendInfo s d)
  else if d.op = 0x0120 then some (pageInfo s d)
  else if d.op = 0x0200 then some (streamInfo s d)
  else if d.op = 0x0210 then some (cellInfo s d)
  else if d.op = 0x0220 then some (scanInfo s d)
  else if d.op = 0x0300 then some (factorInfo s d)
  else if d.op = 0x0310 then some (qpInfo s d)
  else if d.op = 0x0400 then some (mapInfo s d)
  else if d.op = 0x0408 then some (updateInfo s d)
  else if d.op = 0x0410 then some (checkInfo s d)
  else if d.op = 0x0500 then some (objectInfo s d)
  else if d.op = 0x0510 then some (tileCopyInfo s d)
  else if d.op = 0x0530 then some (flashReadInfo s d)
  else none

def State.unitOf (s : State) (d : Desc) : Unit_ := match opInfo s d with | some i => i.unit | none => .cores
def State.gangOf (s : State) (d : Desc) : Nat := match opInfo s d with | some i => i.gang | none => 1
def State.rngsOf (s : State) (d : Desc) : List Rng := match opInfo s d with | some i => i.rngs | none => []

/-! ### Grants (R20, R486) -/

/-- The register pages of Table 01-8, in the order of the bits of 0x2003:02 (Table 01-12). -/
def regPages (bits : Nat) : List (Nat × Nat) :=
  ((List.range 8).filterMap (fun i => if bits.testBit i then some (0x040000000000 + i * 0x10000, 0x10000) else none))
  ++ ((List.range 4).flatMap (fun d =>
      (if bits.testBit (8 + d) then [(baseDSP d, 0x10000)] else [])
      ++ (if bits.testBit (12 + d) then [(baseCLE d, 0x10000)] else [])
      ++ (if bits.testBit (16 + d) then [(baseSLV (8 * d), 0x80000)] else [])))

/-- May the object be granted: Present, of kind 0, 1, 2, 6 or 7, and not chosen for eviction (R281)? -/
def State.grantable (s : State) (h : Nat) (o : Obj) : Bool :=
  decide (o.st = .present) && [0, 1, 2, 6, 7].contains o.kind && !(s.spilling h)

/-- The ranges that identity `i` is granted for reads, or for writes; `bits` are its register-page grants. -/
def State.grants (s : State) (i bits : Nat) (wr : Bool) : List (Nat × Nat) :=
  [(0x030000000000, 0x1800000), (0x020080000000, 0x1800000)]
  ++ ((List.range 4).map (fun d => (0x020000000000 + d * 0x20000000 + 0x07000000, 0x40000)))
  ++ (s.objs.filterMap (fun p =>
      if s.grantable p.1 p.2 && s.ident p.2.owner == i then some (p.2.addr, p.2.size) else none))
  ++ (if wr then [] else regPages bits)

/-- Do the ranges of a list cover all of `[a, e)`? `fuel` bounds the number of ranges it may cross. -/
def coveredBy (gs : List (Nat × Nat)) (e : Nat) : Nat → Nat → Bool
  | 0, a => decide (e ≤ a)
  | n + 1, a =>
    if e ≤ a then true
    else match gs.find? (fun g => decide (g.1 ≤ a ∧ a < g.1 + g.2)) with
      | some g => coveredBy gs e n (g.1 + g.2)
      | none => false

/-- Is a range mapped and granted to identity `i` with register-page grants `bits`? -/
def State.grantedTo (s : State) (i bits : Nat) (r : Rng) : Bool :=
  let gs := s.grants i bits r.wr
  coveredBy gs (r.a + r.n) (gs.length + 1) r.a

/-- Is a range mapped and granted to a context's identity? -/
def State.granted (s : State) (c : Nat) (r : Rng) : Bool := s.grantedTo (s.ident c) (s.od 0x2003 2 (s.ident c)) r

/-- Is a range mapped and granted to a descriptor that has passed checking? It keeps the register-page grants under which it
was checked (R486). -/
def State.grantedFor (s : State) (d : Desc) (r : Rng) : Bool := s.grantedTo (s.ident d.ctx) d.pageBits r

/-- Has a Destroy revoked a range that an admitted descriptor names (R270, R486)? -/
def State.revoked (s : State) (d : Desc) : Bool := d.objs.any (fun h => decide ((s.obj h).st = .destroying))

/-! ### Ranges on a die behind a down link; compressed objects (R277, R301) -/

/-- Does die `home` reach a range only through a down link? -/
def State.cutOff (s : State) (home : Nat) (r : Rng) : Bool :=
  (s.diesOf r).any (fun d => d != home && (s.link (peerLink home d)).st == 0)

/-- Does a linear range touch a compressed object (R277)? -/
def State.linComp (s : State) (r : Rng) : Bool :=
  !r.tile && s.objs.any (fun p => p.2.inMem && p.2.comp && overlap r.a r.n p.2.addr p.2.size)

/-! ### Cores that a class may use (R62, check 16) -/

def coreDie (n : Nat) : Nat := n / 64
def coreClus (n : Nat) : Nat := n / 8

/-- Is a logical core unfenced: neither fenced nor in reset, its cluster and die in service? -/
def State.unfenced (s : State) (n : Nat) : Bool :=
  let c := s.core n
  !c.fenced && c.rst == 0 && (s.clu (coreClus n)).rst == 0 && (s.die (coreDie n)).st == 0

/-- The context that reserves a core, by cluster or by count. -/
def State.reserver (s : State) (n : Nat) : Option Nat :=
  (AMap.first? (fun _ (x : Ctx) => x.rsv.contains n || x.rsvCl.contains (coreClus n)) s.ctxs).map (fun p => p.1)

/-- A shared core of its die (R62, R359). -/
def State.shared (s : State) (n : Nat) : Bool :=
  s.unfenced n && (s.reserver n).isNone && s.od (0x4000 + n) 5 == 1

def dieCores (d : Nat) : List Nat := (List.range 64).map (fun i => 64 * d + i)
def dieClus (d : Nat) : List Nat := (List.range 8).map (fun k => 8 * d + k)

def State.sharedCores (s : State) (d : Nat) : List Nat := (dieCores d).filter s.shared

/-- The unfenced cores on die `d` that a context of class `cls` may use. -/
def State.usable (s : State) (c cls d : Nat) : List Nat :=
  if cls = 0 then (dieCores d).filter (fun n => s.unfenced n && (s.ctx c).rsv.contains n)
  else if cls = 1 then (dieCores d).filter (fun n => s.unfenced n && (s.ctx c).rsvCl.contains (coreClus n))
  else s.sharedCores d

/-- The clusters whose solver engine and one core the context may use (R165). -/
def State.usableUnits (s : State) (c cls d : Nat) : List Nat :=
  (dieClus d).filter (fun g => !((s.clu g).slvFenced) && (s.usable c cls d).any (fun n => coreClus n == g))

/-! ### The checks -/

/-- The descriptor that 64 or 128 bytes make on context `c` (R57, R61). -/
def State.mkDesc (s : State) (c words : Nat) : Desc :=
  let f (o n : Nat) : Nat := (words >>> (8 * o)) % 2 ^ (8 * n)
  let die := s.home c
  let d : Desc :=
  { ctx := c, die := die, seq := f 8 4, cls := f 6 2 % 8, job := f 16 2 % 4096, op := f 0 2, phase := f 6 2 / 256 % 64,
    words := words, recOff := f 18 6, start := s.dspTime die, due := 0, notice := s.od 0x5000 0x11 c == 1,
    limit := s.od 0x5000 0x12 c, ordered := (f 4 2).testBit 15, ieee := s.od 0x2000 0x20 == 1,
    solv := (List.range 4).map (fun i => s.od 0x2900 (i + 1)), pageBits := s.od 0x2003 2 (s.ident c), tbl := [],
    was := [], st := .waiting, since := s.dspTime die,
    epAt := s.dspTime die, reason := 0, delays := [], interim := false, waited := false, preempted := false,
    why := .none, save := none, cores := [], placedAt := 0, late := false, objs := [], pages := [], strs := [],
    pins := [], stage := 0, aux := [], stopAt := 0, result := none, replays := 0, shadow := none }
  if d.op = 0x0030 then { d with tbl := convLayers s d } else d

/-- The smaller non-zero of deadline_ns and the ceiling; 0 for none (R70). -/
def State.effDeadline (s : State) (d : Desc) : Nat :=
  let a := d.f 12 4
  let b := s.od 0x5000 0x10 d.ctx
  if a = 0 then b else if b = 0 then a else min a b

/-- Does a record offset meet check 10 for context `c`? -/
def State.recOk (s : State) (c o : Nat) : Bool :=
  let base := s.od 0x5000 0x0B c
  o % 32 == 0 && decide (base ≤ o ∧ o + 32 ≤ base + s.od 0x5000 0x0C c)

/-- Does the module state `st` allow a class (Table 03-9)? -/
def admits (st cls : Nat) : Bool :=
  decide (st = 7 ∨ st = 8 ∨ st = 9 ∨ (st = 10 ∧ cls ≤ 2) ∨ (st = 11 ∧ cls ≤ 1))

/-- Every bit range of a list is zero in `w`. -/
def zerosIn (w : Nat) (l : List (Nat × Nat)) : Bool := l.all (fun r => decide (w / 2 ^ r.1 % 2 ^ r.2 = 0))

/-- Reserved bits of the header (Table 03-3). -/
def headerResv : List (Nat × Nat) := [(6 * 8 + 3, 5), (6 * 8 + 14, 2), (16 * 8 + 12, 4)]

/-- Check 12 with R380: a class S elementwise operation is not run in place. -/
def limOf (d : Desc) (i : OpInfo) : Option Nat :=
  let inPlace := decide (d.cls = 0 ∧ d.op = 0x0010 ∧ d.f 42 6 = d.f 24 6 ∧ d.outF = d.inF)
  if !inPlace then i.lim
  else match i.lim with
    | some 0x0325 => some 0x0325
    | some 0x030B => if within i.gang 1 64 then some 0x0322 else some 0x030B
    | _ => some 0x0322

/-- The clusters of a descriptor's die that its class may use: of a reservation its own, else any (R62, R165). -/
def State.ownClusters (s : State) (d : Desc) : List Nat :=
  (dieClus d.die).filter (fun g =>
    if d.cls = 0 then (s.ctx d.ctx).rsv.any (fun n => coreClus n == g)
    else if d.cls = 1 then (s.ctx d.ctx).rsvCl.contains g else true)

/-- Those of them whose work area a solver descriptor's identity is granted (R168). -/
def State.workGranted (s : State) (d : Desc) : List Nat :=
  (s.ownClusters d).filter (fun g => s.grantedFor d ⟨workBase d g, workSize d, true, false⟩)

/-- Check 14 with what is judged at its position. -/
def State.check14 (s : State) (d : Desc) (i : OpInfo) : Option Nat :=
  if !(i.rngs.all (s.granted d.ctx)) then some 0x030E
  else if i.rngs.any s.linComp then some 0x03A1
  else if i.rngs.any (s.cutOff d.die) then some 0x03B0
  else if i.unit = .solver ∧ (s.workGranted d).length < min i.gang (s.ownClusters d).length then some 0x030E
  else i.pos14

/-- Check 16: gang against the unfenced cores, or solver units, that the class may use. -/
def State.check16 (s : State) (d : Desc) (i : OpInfo) : Bool :=
  match i.unit with
  | .cores => decide (i.gang ≤ (s.usable d.ctx d.cls d.die).length)
      && (d.cls != 0 || decide (i.gang ≤ (s.usable d.ctx 0 (s.shadowDie d.ctx)).length)
        || (s.die (s.shadowDie d.ctx)).st != 0)
  | .solver => decide (i.gang ≤ (s.usableUnits d.ctx d.cls d.die).length)
      && (d.cls != 0 || decide (i.gang ≤ (s.usableUnits d.ctx 0 (s.shadowDie d.ctx)).length)
        || (s.die (s.shadowDie d.ctx)).st != 0)
  | _ => true

/-- Checks 2 to 16 of Table 03-5 of a descriptor read as sequence number `seq`: the first status that fails. -/
def State.check (s : State) (d : Desc) (seq : Nat) : Option Nat :=
  let info := opInfo s d
  let i := info.getD nopInfo
  let ext := (d.f 4 2).testBit 14
  firstFail
    [(zerosIn d.words headerResv && (info.isNone || (zerosIn d.words i.resv && i.resvOk)), 0x0301),
     (info.isSome && ext == i.ext, 0x0302),
     (d.f 4 2 % 16384 == d.ctx, 0x0304),
     (d.seq == seq, 0x0307),
     (decide (d.cls ≤ 4) && d.cls == s.cls d.ctx, 0x0305),
     (d.job == s.od 0x5000 0x05 d.ctx, 0x0306),
     (admits s.md.st d.cls, 0x030C)]
  <|> i.fmt
  <|> firstFail
    [(s.recOk d.ctx d.recOff, 0x0309),
     ((d.f 12 4 == 0 || decide (1000 ≤ d.f 12 4)) && (decide (3 ≤ d.cls) || s.effDeadline d != 0), 0x0308)]
  <|> limOf d i
  <|> i.fit
  <|> s.check14 d i
  <|> firstFail [(decide (i.gang ≤ d.limit), 0x0311), (s.check16 d i, 0x0310)]

/-! ### What an early end leaves (R88, R147, R162, R196) -/

/-- Make the written ranges of an operation that meet `p` undefined. -/
def State.scribbleOuts (s : State) (d : Desc) (p : Rng → Bool) : State :=
  (s.rngsOf d).foldl (fun s r => if r.wr && p r then s.scribble r.a r.n else s) s

/-- What a started descriptor leaves when it is aborted, evicted or faulted. -/
def State.cutEffects (s : State) (id : Nat) (d : Desc) : State :=
  if d.op ≤ 0x00FF then s.scribbleOuts d (fun _ => true)
  else if d.op = 0x0100 ∨ d.op = 0x0108 ∨ d.op = 0x0210 ∨ d.op = 0x0220 then s.scribbleOuts d (fun r => r.tile)
  else if d.op = 0x0110 then appendUndo s id (if appRefill d then [] else (d.aux.drop 4).take (d.aux.getD 3 0))
  else if d.op = 0x0300 ∨ d.op = 0x0310 then slvEnd (s.scribbleOuts d (fun _ => true)) d
  else if 0x0400 ≤ d.op ∧ d.op ≤ 0x04FF then cleUndo s id d
  else if d.op = 0x0510 ∨ d.op = 0x0530 then s.scribbleOuts d (fun _ => true)
  else s

/-- End a descriptor that has no result yet, with a status and an outcome; one that is started, or that holds pages while it
waits for more, leaves what `cutEffects` says. Its final record is written later (R306: one record, the first status that ended it). -/
def State.endDesc (s : State) (id status outcome : Nat) : State :=
  match s.desc? id with
  | none => s
  | some d =>
    if d.result.isSome then s
    else
      let s := if d.st = .waiting ∧ d.pages.isEmpty then s else s.cutEffects id d
      s.updDesc id (fun d => { d with result := some { status := status, outcome := outcome, flags := 0 } })

/-- End every outstanding descriptor that meets `p`. -/
def State.endWhere (s : State) (p : Desc → Bool) (status outcome : Nat) : State :=
  s.descs.foldl (fun s q => if (s.desc? q.1).any p then s.endDesc q.1 status outcome else s) s

end Sys2Proof.Machine
end

