-- ==== Sys2Proof/Machine/Report.lean ====
section
/-! DEFINITION. What Barista reports and the module state machine: mailboxes, event notices, the error field,
conditions and module state changes (R331–R335, R350–R353, R364, R365). -/

namespace Sys2Proof.Machine

/-! ### Mailboxes (R332, R333) -/

/-- A message is written into a mailbox. -/
def Mbox.write (m : Mbox) (w : Nat) : Mbox :=
  { m with msg := w, full := true, written := (m.written + 1) % 65536,
           coll := if m.full then (m.coll + 1) % 65536 else m.coll, exceed := m.full }

/-- The waiting message is taken with a return code. -/
def Mbox.take_ (m : Mbox) (code : Nat) : Mbox :=
  { m with full := false, code := code, taken := (m.taken + 1) % 65536, lastOver := m.exceed, exceed := false }

def State.h2bBox (s : State) (m : Nat) : Mbox := AMap.getD m Mbox.zero s.h2b
def State.b2hBox (s : State) (m : Nat) : Mbox := AMap.getD m Mbox.zero s.b2h

/-- Add 1 to the mailbox collisions where a write found the mailbox full. -/
def State.countColl (s : State) (full : Bool) : State := if full then s.bumpOd 0x2500 0x14 else s

/-- Barista writes a message to the host. -/
def State.toHost (s : State) (m w : Nat) : State :=
  let b := s.b2hBox m
  ({ s with b2h := AMap.put Mbox.zero m (b.write w) s.b2h }).countColl b.full

/-! ### The error register and the error field (R364, R365) -/

/-- Is a die link down, judged from the completion of Links? -/
def State.linkDown (s : State) : Bool :=
  decide (6 ≤ s.md.st) && (List.range 10).any (fun l => (s.link l).st == 0)

/-- The conditions of 0x2000:08. -/
def State.recovering (s : State) : Bool := (List.range 4).any (fun d => (s.die d).st == 1)
def State.degraded (s : State) : Bool := s.od 0x2000 0x09 != 0
def State.conditions (s : State) : Nat :=
  b2n (s.isl.safe != 0) + 2 * b2n s.recovering + 4 * b2n s.md.decaf + 8 * b2n (s.od 0x2000 0x0B == 1)
    + 16 * b2n s.degraded

/-- 0x1001:00 (R364). -/
def State.errReg (s : State) : Nat :=
  let b3 := s.md.thermal
  let b4 := s.linkDown || s.md.bodyDown || s.md.portA || s.md.portB
  let b7 := decide (s.md.st = 8 ∨ s.md.st = 9 ∨ s.md.st = 11)
  b2n (b3 || b4 || b7) + 8 * b2n b3 + 16 * b2n b4 + 128 * b2n b7

/-- Enter an error in 0x1003 and send its CoE emergency where the segment is past Init (R365). -/
def State.enterErr (s : State) (status src : Nat) : State :=
  let m := { s.md with errs := ((status % 65536 + src % 65536 * 65536) :: s.md.errs).take 16 }
  { s with md := if m.al = 1 then m else { m with emcy := m.emcy ++ [(status % 65536, s.errReg, src % 65536)] } }

/-! ### Event notices (R335) -/

/-- Write an event notice; Barista owes it while it does not run. -/
def State.sendNotice (s : State) (kind status : Nat) (detail : List Byte) : State :=
  let n := (s.md.notices + 1) % 2 ^ 32
  let body := toBytes 4 n ++ toBytes 2 kind ++ toBytes 2 status ++ toBytes 8 s.barTime
    ++ (detail ++ List.replicate (48 - detail.length) 0)
  ({ s with md := { s.md with notices := n } }).toHost 1 (ofBytes body)

/-- A notice, entered in 0x1003 as well where its status is of class 0x05 or 0x06. -/
def State.notice (s : State) (kind status src : Nat) (detail : List Byte) : State :=
  if s.md.barista ≠ 0 then
    { s with md := { s.md with owed := s.md.owed ++ [{ kind := kind, status := status, src := src, detail := detail }] } }
  else
    let s := s.sendNotice kind status detail
    if stClass status = 5 ∨ stClass status = 6 then s.enterErr status src else s

/-- Send what Barista owes, once it runs. -/
def State.payNotices (s : State) : State :=
  s.md.owed.foldl (fun s o => s.notice o.kind o.status o.src o.detail) { s with md := { s.md with owed := [] } }

/-- 0x1003 sources: 0 module, else a die, a cluster or a core. -/
def srcDie (d : Nat) : Nat := 0x4000 + d
def srcClus (g : Nat) : Nat := 0x8000 + g
def srcCore (n : Nat) : Nat := 0xC000 + n

/-! ### Records, and the pauses of descriptors -/

/-- Bytes 0–31 of a record (Table 03-10). -/
def recordBytes (status outcome flags seq elapsed delay reason core ctx : Nat) (final : Bool) (energy job : Nat) :
    List Byte :=
  toBytes 2 status ++ toBytes 1 outcome ++ toBytes 1 flags ++ toBytes 4 seq ++ toBytes 8 elapsed
    ++ toBytes 4 (delay / 1000) ++ toBytes 1 reason ++ toBytes 1 core ++ toBytes 2 (ctx + (if final then 0xC000 else 0x8000))
    ++ toBytes 4 energy ++ toBytes 2 job ++ toBytes 2 0

/-- Clearance and Carafe operations run without a core (R188, R268). -/
def Desc.unitless (d : Desc) : Bool := decide (0x0400 ≤ d.op ∧ d.op ≤ 0x05FF)

def Desc.coreNo (d : Desc) : Nat := if d.unitless then 0 else d.cores.foldl min (d.cores.headD 0)

/-- Is the descriptor delayed now? -/
def Desc.delayed (d : Desc) : Bool := decide (d.st = .waiting) || decide (d.st = .stopped)

/-- The time it has been delayed so far, reason by reason, at `now`. -/
def Desc.delaysAt (d : Desc) (now : Nat) : AMap Nat :=
  if d.delayed then AMap.put 0 d.reason (AMap.getD d.reason 0 d.delays + (now - d.since)) d.delays else d.delays

def Desc.delayAt (d : Desc) (now : Nat) : Nat := natSum (fun p => p.2) (d.delaysAt now)

/-- The reason that held longest; of equal ones the lower code (Table 03-10). -/
def Desc.mainReason (d : Desc) (now : Nat) : Nat :=
  ((d.delaysAt now).foldl (fun (b : Nat × Nat) p => if b.2 < p.2 then p else b) (0, 0)).1

/-- Change why a delayed descriptor is delayed, closing the account of the old reason. -/
def Desc.setReason (d : Desc) (now reason : Nat) : Desc :=
  if d.reason = reason ∧ d.delayed then d else { d with delays := d.delaysAt now, since := now, reason := reason }

/-- Does die `d`'s hub link carry traffic: neither down nor training (R10, R299)? -/
def State.hubLink (s : State) (d : Nat) : Bool := decide (2 ≤ (s.link d).st)

/-- A dispatcher writes into hub SRAM over its hub link; what it writes waits while the link carries nothing. -/
def State.noteHub (s : State) (d o : Nat) (bytes : List Byte) : State :=
  if s.hubLink d then s.wr (hub o) bytes
  else s.setDie d { s.die d with notes := (s.die d).notes ++ [(o, bytes)] }

/-- An interim record (R75). -/
def State.interim (s : State) (d : Desc) (status outcome : Nat) : State :=
  let now := s.dspTime d.die
  s.noteHub d.die d.recOff (recordBytes status outcome 0 d.seq (now - d.start) (d.delayAt now) d.reason d.coreNo d.ctx false
    0 d.job)

/-- Is a delayed descriptor paused rather than waiting (Table 03-8): D or B by Decaf, B by its quota, by
shedding or by preemption (R69)? -/
def Desc.pausedBy (d : Desc) (reason : Nat) : Bool :=
  (reason == 0x06 && decide (3 ≤ d.cls)) || ([0x02, 0x03, 0x07].contains reason && d.cls == 4)

/-- A delayed descriptor is delayed for `reason` from now on. Where that turns waiting into a pause, or ends a pause, a new
episode begins; a pause writes its interim record at once (R73, R75). -/
def State.delayFor (s : State) (id : Nat) (d : Desc) (reason : Nat) : State :=
  let now := s.dspTime d.die
  let d' := { d.setReason now reason with waited := true }
  if d.pausedBy reason = d.pausedBy d.reason then s.setDesc id d'
  else if d.pausedBy reason then (s.setDesc id { d' with epAt := now, interim := true }).interim d' 0x0211 0x06
  else s.setDesc id { d' with epAt := now, interim := false }

/-- On entry to Decaf every admitted D and B descriptor is paused, with an interim record (R73). -/
def decafOne (s : State) (p : Nat × Desc) : State :=
  let d := p.2
  if d.cls < 3 ∨ d.result.isSome then s
  else if d.st = .running then s.updDesc p.1 (fun x => if x.why = .none then { x with why := .decaf } else x)
  else s.delayFor p.1 d 0x06

def State.decafEntry (s : State) : State := s.descs.foldl decafOne s

/-- On entry to Safe-Hold, the P, D and B descriptors on the wait list are refused as if checked at that moment
(R73); a preempted gang is on the wait list. -/
def State.safeHoldEntry (s : State) : State :=
  s.endWhere (fun d => decide (2 ≤ d.cls) && decide (d.st ≠ .running)) 0x030C 0x03

/-! ### Module state changes (R350, R351) -/

/-- The state that the ranking of Table 14-4 gives. -/
def State.ranked (s : State) : Nat :=
  if s.isl.safe ≠ 0 then 11 else if s.recovering then 9 else if s.md.decaf then 10 else if s.degraded then 8 else 7

/-- Enter module state `st`, with the status that caused the change. -/
def State.enterState (s : State) (st status : Nat) : State :=
  let old := s.md.st
  let s := { s with md := { s.md with st := st, at_ := s.barTime },
                    brd := { s.brd with unplanned := s.brd.unplanned && !(decide (7 ≤ st ∧ st ≤ 10)) } }
  let s := ((s.setOd 0x2000 0x06 old).setOd 0x2000 0x07 status).bumpOd 0x2000 0x0A
  let s := if st = 10 then s.decafEntry else if st = 11 then s.safeHoldEntry else s
  let s := s.sendNotice 1 status (toBytes 1 st ++ toBytes 1 old ++ toBytes 1 s.conditions)
  if st = 8 ∨ st = 9 ∨ st = 11 ∨ stClass status = 5 ∨ stClass status = 6 then s.enterErr status 0 else s

/-- Barista enters the state that the conditions give, once the module is in service and Barista runs. -/
def State.modUpdate (s : State) (status : Nat) : State :=
  if 7 ≤ s.md.st ∧ s.md.barista = 0 ∧ s.ranked ≠ s.md.st then s.enterState s.ranked status else s

end Sys2Proof.Machine
end

