-- ==== Sys2Proof/Machine/Island.lean ====
section
/-! DEFINITION. The safety island's core: causes, verdicts, reactions, the safe state and its lift, and the task
monitors (R369–R376, R384, R385). -/

namespace Sys2Proof.Machine

/-- The status of a cause (Table 15-2); causes 0 to 2 carry none. -/
def causeStatus (c : Nat) : Nat :=
  match c with
  | 3 => 0x0607 | 4 => 0x0601 | 5 => 0x0602 | 6 => 0x0605 | 7 => 0x0606 | 8 => 0x0604 | 9 => 0x0603
  | 10 => 0x0680 | 11 => 0x0681 | 12 => 0x0690 | 13 => 0x0691 | 14 => 0x0692 | 15 => 0x0608 | 16 => 0x0609
  | _ => 0

/-- Event causes stay until the lift; the others are conditions. -/
def causeEvent (c : Nat) : Bool := [2, 4, 5, 6, 7, 8, 12, 14].contains c

def eventMask : Nat := 0x51F4

/-- Is a cause in force? -/
def State.hasCause (s : State) (c : Nat) : Bool := s.isl.causes.testBit c

/-- The reaction of a cause: fixed STO for 0, 1, 3 and 16, else as 0x2202 says. -/
def State.reaction (s : State) (c : Nat) : Nat :=
  if c = 0 ∨ c = 1 ∨ c = 3 ∨ c = 16 then 2 else s.od 0x2202 c

/-- The commanded SAFE_STOP level of channel A (false) or B (true): high while motion is permitted, except in its
own test pulse (R376). -/
def State.stopCmd (s : State) (b : Bool) : Bool :=
  s.isl.safe != 2 && (if b then s.isl.pulseB else s.isl.pulseA) == 0

/-- A healthy output follows the commanded level. -/
def State.driveStop (s : State) : State :=
  { s with isl := { s.isl with pinA := s.stopCmd false, pinB := s.stopCmd true } }

/-- Take the safe state with reaction `r` for cause `c` (R372). -/
def State.takeSafe (s : State) (c r : Nat) : State :=
  if r = 0 then s
  else if r = 1 then
    if s.isl.safe ≠ 0 then s
    else { s with isl := { s.isl with safe := 1, first := c, ss1Req := true,
                                      ss1End := s.safTime + s.od 0x2200 6 * 1000000 } }
  else if s.isl.safe = 2 then s
  else
    let i := { s.isl with safe := 2, first := if s.isl.safe = 0 then c else s.isl.first, ss1End := 0 }
    ({ s with isl := i }).driveStop

/-- Draws the detail of a notice whose bytes no chapter lays down. -/
def State.freeDetail (s : State) : List Byte × State :=
  let (k, s) := s.draw
  ((List.range 48).map (fun i => BitVec.ofNat 8 (Config.free k i)), s)

/-- The verdict of a cause is counted, notified and entered (R372). -/
def State.verdict (s : State) (c : Nat) : State :=
  let s := (s.bumpReg (baseSAF + 0x18)).bumpOd 0x2200 3
  let (dt, s) := s.freeDetail
  s.notice 2 (causeStatus c) 0 dt

/-- Raise a cause. A condition already in force is not raised again (R371, R372). -/
def State.raiseCause (s : State) (c : Nat) : State :=
  if s.hasCause c && !causeEvent c then s
  else
    let s := { s with isl := { s.isl with causes := s.isl.causes ||| (2 ^ c) } }
    let s := if 3 ≤ c then s.verdict c else s
    let was := s.isl.safe
    let s := s.takeSafe c (s.reaction c)
    if was = s.isl.safe then s else s.modUpdate (causeStatus c)

/-- A condition cause ends; cause 3 lasts until power removal. -/
def State.dropCause (s : State) (c : Nat) : State :=
  if causeEvent c || c == 3 || !(s.hasCause c) then s
  else { s with isl := { s.isl with causes := s.isl.causes ^^^ (2 ^ c) } }

/-- Set or clear a condition cause. -/
def State.condCause (s : State) (c : Nat) (on : Bool) : State := if on then s.raiseCause c else s.dropCause c

/-- May the island lift the safe state (R374)? -/
def State.mayLift (s : State) : Bool :=
  decide (s.isl.causes &&& (0x1FFFF ^^^ eventMask) = 0) && s.isl.pinA == s.stopCmd false
    && s.isl.pinB == s.stopCmd true && s.isl.verified

/-- The lift: every event cause is cleared, motion is permitted again (R374). -/
def State.lift (s : State) : State :=
  let i := { s.isl with causes := 0, safe := 0, ss1Req := false, ss1End := 0, first := 0 }
  (({ s with isl := i }).driveStop).modUpdate 0

/-! ### Task monitors -/

def State.mon (s : State) (i : Nat) : Mon := AMap.getD i Mon.zero s.isl.mons
def State.setMon (s : State) (i : Nat) (m : Mon) : State :=
  { s with isl := { s.isl with mons := AMap.put Mon.zero i m s.isl.mons } }

/-- Does monitor `i` name context `c` with one of the kinds of mask `k`? -/
def State.monOf (s : State) (i c k : Nat) : Bool :=
  s.od (0x2220 + i) 1 == c && decide (s.od (0x2220 + i) 2 &&& k ≠ 0)

/-- Is a context watched by a task monitor? -/
def State.watched (s : State) (c : Nat) : Bool := (List.range 64).any (fun i => s.monOf i c 3)

/-- A final record of context `c` as monitor `i` sees it (R384, R385). -/
def monRecord (c st : Nat) (s : State) (i : Nat) : State :=
  let s :=
    if s.monOf i c 1 then
      let m := s.mon i
      if st = 0x0401 then
        if s.od (0x2220 + i) 3 ≤ m.miss + 1 then (s.setMon i { m with miss := 0 }).raiseCause 6
        else s.setMon i { m with miss := m.miss + 1 }
      else s.setMon i { m with miss := 0 }
    else s
  if s.monOf i c 2 && decide (stClass st ≤ 1) then s.setMon i { s.mon i with good := true } else s

/-- Every monitor sees a final record of context `c`. -/
def State.monNote (s : State) (c st : Nat) : State := (List.range 64).foldl (monRecord c st) s

/-- Open the first alive window of the monitors of context `c` that have none (R385). -/
def State.openWindows (s : State) (c : Nat) : State :=
  (List.range 64).foldl (fun s i =>
    if s.monOf i c 2 && (s.mon i).ends == 0 then
      s.setMon i { s.mon i with ends := s.safTime + s.od (0x2220 + i) 4, good := false }
    else s) s

/-- A change of a monitor's context or kind stops its windows; the next first window opens when it is enabled and
its context is not Closed (R385). -/
def State.rearmMon (s : State) (i : Nat) : State :=
  let s := s.setMon i Mon.zero
  let c := s.od (0x2220 + i) 1
  if s.od (0x2220 + i) 2 &&& 2 ≠ 0 ∧ c ≠ 0xFFFF ∧ (s.ctx c).st ≠ .closed then
    s.setMon i { Mon.zero with ends := s.safTime + s.od (0x2220 + i) 4 }
  else s

end Sys2Proof.Machine
end

