-- ==== Sys2Proof/Machine/Disp.lean ====
section
/-! DEFINITION. The dispatchers: doorbells, the slot read, placement, preemption, final records, quotas, share
windows, job aborts (chapter 03; R304–R307). -/

namespace Sys2Proof.Machine

/-! ### Core time: quotas and share windows (R64, R65) -/

/-- Charge the core time of one descriptor that runs, up to now. -/
def State.settle (s : State) (id : Nat) : State :=
  match s.desc? id with
  | none => s
  | some d =>
    if d.st ≠ .running then s
    else
      let now := s.dspTime d.die
      let dt := now - d.since
      let ns := d.cores.length * dt
      let x := s.ctx d.ctx
      let s := s.setCtx d.ctx { x with remain := x.remain - ns, used := x.used + ns }
      let s := d.cores.foldl (fun s n => s.bumpOd (0x4000 + n) 4 dt 64) s
      s.updDesc id (fun d => { d with since := now })

/-- Charge every running descriptor of a context. -/
def State.settleCtx (s : State) (c : Nat) : State :=
  s.descs.foldl (fun s p => if p.2.ctx = c then s.settle p.1 else s) s

def State.openCtx (s : State) (c : Nat) : Bool := decide ((s.ctx c).st ≠ .closed)

/-- What a D context is owed over `ns` of its die's shared core time, by the shared cores the die has as the window begins
(or the context opens): cores fenced, reserved or disabled within the window do not change it (log entry 109). -/
def State.owedFor (s : State) (c die ns : Nat) : Nat :=
  s.od 0x5000 0x16 c * ((s.sharedCores die).length * ns) / 1000

/-- The core time that a context's running gangs have used and that is not charged yet. -/
def State.uncharged (s : State) (c : Nat) : Nat :=
  natSum (fun p => if p.2.ctx = c ∧ p.2.st = .running then p.2.cores.length * (s.dspTime p.2.die - p.2.since) else 0) s.descs

/-- Is a D context below its minimum share in the current window, its running gangs' time up to now included? -/
def State.belowShare (s : State) (c : Nat) : Bool :=
  decide ((s.ctx c).used + s.uncharged c < (s.ctx c).owed)

/-- A context's quota period rolls over; an overdraft is carried (R64). -/
def State.quotaRoll (s : State) (c : Nat) : State :=
  let s := s.settleCtx c
  let x := s.ctx c
  let q := s.od 0x5000 0x13 c
  let ovr : Int := if x.quota = 0 then 0 else min 0 x.remain
  s.setCtx c { x with periodAt := x.periodAt + x.period, period := s.od 0x5000 0x14 c, quota := q,
                      remain := (q : Int) + ovr }

/-- QUOTA_PERIOD_START: the present period has run out. -/
def State.quotaPeriod (s : State) (c : Nat) : State :=
  let x := s.ctx c
  if x.st ≠ .closed ∧ x.periodAt + x.period ≤ s.dspTime (s.home c) then s.quotaRoll c else s

/-- SHARE_WINDOW_START: the die's window has run out. -/
def State.shareWindow (s : State) (die : Nat) : State :=
  let x := s.die die
  if x.running ∧ x.windowAt + x.windowLen ≤ s.dspTime die then
    let len := s.od 0x2A00 2
    let s := s.ctxs.foldl (fun s p => if s.home p.1 = die then s.settleCtx p.1 else s) s
    let s := s.setDie die { x with windowAt := x.windowAt + x.windowLen, windowLen := len }
    s.ctxs.foldl (fun s p =>
      if p.2.st ≠ .closed ∧ s.home p.1 = die then
        s.setCtx p.1 { s.ctx p.1 with used := 0, owed := if s.cls p.1 = 3 then s.owedFor p.1 die len else 0 }
      else s) s
  else s

/-! ### Doorbells (R54) -/

/-- A doorbell write that has reached the dispatcher of the context's home die. -/
def State.ring (s : State) (c p : Nat) : State :=
  let x := s.ctx c
  let p := p % 2 ^ 32
  if (x.st = .opened ∨ x.st = .paused) ∧ (s.die (s.home c)).st ≠ 2
      ∧ (p + 2 ^ 32 - x.cons) % 2 ^ 32 ≤ s.od 0x5000 0x0A c then
    s.setCtx c { x with prod := p }
  else s.bumpOd 0x5000 0x18 1 32 c

/-- A doorbell on its way over the hub link of its context's die: it waits while the link of a die in service carries
nothing (R10, R299). -/
def State.door (s : State) (c p : Nat) : State :=
  let d := s.home c
  let x := s.die d
  if x.running ∧ x.st = 0 ∧ s.hubLink d = false then s.setDie d { x with doors := x.doors ++ [(c, p % 2 ^ 32)] }
  else s.ring c p

/-- What waited for a die's hub link goes over it: its dispatcher's interim records, and the doorbells in their order. -/
def State.linkBack (s : State) (d : Nat) : State :=
  let x := s.die d
  let s := s.setDie d { x with doors := [], notes := [] }
  let s := x.notes.foldl (fun s p => s.wr (hub p.1) p.2) s
  x.doors.foldl (fun s p => s.ring p.1 p.2) s

/-- A doorbell from elsewhere than the Espresso block, which alone submits to the loop's contexts while the loop is
Armed or in Run (R246). -/
def State.knock (s : State) (c p : Nat) : State :=
  if s.esp.st ≠ 0 ∧ (s.od 0x2700 0x0B = c ∨ s.od 0x2700 0x0C = c) then s.bumpOd 0x5000 0x18 1 32 c else s.door c p

/-- A doorbell forwarded by the host port: kept while the die recovers, the last value only (Table 16-5). -/
def State.forward (s : State) (c p : Nat) : State :=
  let d := s.home c
  if (s.die d).st = 1 then s.setDie d { s.die d with kept := AMap.put 0 c (p % 2 ^ 32 + 1) (s.die d).kept }
  else s.knock c p

/-- A write of DSP_DOORBELL (Table 03-13). -/
def State.dspDoorbell (s : State) (die w : Nat) : State :=
  let c := w % 16384
  if s.home c ≠ die then s.bumpOd 0x5000 0x18 1 32 c else s.knock c (w / 2 ^ 32)

/-! ### Cores in use -/

/-- The cores that a running descriptor holds, its shadow's among them. -/
def Desc.held (d : Desc) : List Nat :=
  if d.st = .running then d.cores ++ (match d.shadow with | some x => x.cores | none => []) else []

/-- The clusters whose solver engine a running descriptor holds. -/
def Desc.heldEngines (d : Desc) : List Nat := if d.op = 0x0300 ∨ d.op = 0x0310 then d.held.map coreClus else []

/-- The clusters whose solver engine some running descriptor holds. -/
def State.enginesBusy (s : State) : List Nat := s.descs.flatMap (fun p => p.2.heldEngines)

/-- The cores that running descriptors hold. -/
def State.coresBusy (s : State) : List Nat := s.descs.flatMap (fun p => p.2.held)

/-- The elements that take no other work until the replays end (R411). -/
def State.quarantined (s : State) : List Nat := s.rcv.hangs.filterMap (fun h => h.now.map (fun p => p.2))

/-- Has a core, engine or clearance engine passed its last full sweep in time (R393)? Elements: cores 0–255,
solver engines 256–287, clearance engines 288–291. -/
def State.tested (s : State) (e : Nat) : Bool := (AMap.getD e Tst.zero s.isl.tests).tested
def State.sweeping (s : State) (e : Nat) : Bool := (AMap.getD e Tst.zero s.isl.tests).run

/-- Is a core free for a descriptor of class `cls`? A slice bars P, D and B; S and C preempt it (R392). -/
def State.coreFree (s : State) (cls : Nat) (busy : List Nat) (n : Nat) : Bool :=
  !(busy.contains n) && !(s.quarantined.contains n) && (cls ≤ 1 || !(s.sweeping n)) && (cls != 0 || s.tested n)

/-- The free cores on die `die` for a descriptor. -/
def State.freeFor (s : State) (c cls die : Nat) : List Nat :=
  let busy := s.coresBusy
  (s.usable c cls die).filter (s.coreFree cls busy)

/-- Take `g` of the candidates: those that last ran the context first, then the lowest numbers (R66). -/
def State.prefer (s : State) (c : Nat) (l : List Nat) (g : Nat) : List Nat :=
  (l.filter (fun n => (s.core n).last == c) ++ l.filter (fun n => (s.core n).last != c)).take g

/-- How many of a list last ran the context. -/
def State.affinity (s : State) (c : Nat) (l : List Nat) : Nat := (l.filter (fun n => (s.core n).last == c)).length

/-- `g` cores of one cluster (R154): the cluster with the most preferred cores, then the lowest. -/
def State.inCluster (s : State) (c die g : Nat) (free : List Nat) : Option (List Nat) :=
  let cands := (dieClus die).filterMap (fun k =>
    let l := free.filter (fun n => coreClus n == k)
    if g ≤ l.length then some (s.prefer c l g) else none)
  cands.foldl (fun (b : Option (List Nat)) l => match b with
    | none => some l
    | some x => if s.affinity c x < s.affinity c l then some l else some x) none

/-- May a solver descriptor use the engine of cluster `k`, whatever runs on it now? -/
def State.engineOk (s : State) (d : Desc) (k : Nat) : Bool :=
  !((s.clu k).slvFenced) && !(s.quarantined.contains (256 + k))
    && (d.cls ≤ 1 || !(s.sweeping (256 + k))) && (d.cls != 0 || s.tested (256 + k))
    && s.grantedFor d ⟨workBase d k, workSize d, true, false⟩

/-- The free units among clusters `ks` (R165): the driving core of each, where its engine is not among `eng` and it has a
core among `free`. -/
def State.unitList (s : State) (d : Desc) (ks free eng : List Nat) : List Nat :=
  (ks.filter (fun k => !(eng.contains k) && s.engineOk d k)).filterMap (fun k =>
    (s.prefer d.ctx (free.filter (fun n => coreClus n == k)) 1).head?)

/-- `g` solver units on distinct clusters (R165): the driving cores. A preempted descriptor resumes only on the engines it ran
on (R184). -/
def State.unitCores (s : State) (d : Desc) (die g : Nat) (free : List Nat) : Option (List Nat) :=
  if d.st = .stopped ∧ die = d.die then
    let us := s.unitList d (d.was.map coreClus) free s.enginesBusy
    if g ≤ us.length then some us else none
  else
    let us := s.unitList d (dieClus die) free s.enginesBusy
    if g ≤ us.length then some (s.prefer d.ctx us g) else none

/-- The cores on which a descriptor could be placed now among `free`. -/
def State.pick (s : State) (d : Desc) (die : Nat) (free : List Nat) : Option (List Nat) :=
  let g := s.gangOf d
  match s.unitOf d with
  | .clearance => none
  | .carafe => none
  | .solver => s.unitCores d die g free
  | .cores =>
    match pinCoreOf s d with
    | some n => if free.contains n then some [n] else none
    | none =>
      if d.op = 0x0210 then s.inCluster d.ctx die g free
      else if g ≤ free.length then some (s.prefer d.ctx free g) else none

/-- Wake a gated cluster (R443); the gated time is summed in ms. -/
def State.wake (s : State) (g : Nat) : State :=
  let x := s.clu g
  if x.gated then
    (s.setClu g { x with gated := false, gateAt := 0 }).bumpOd (0x4100 + g) 0x61 ((s.govTime - x.gateAt) / 1000000) 64
  else s

/-! ### The wait list: order and reasons (R59, R64, R67, R72, R73) -/

/-- The key of the order of R67: group, deadline, entry. Reservations come first; they take no shared core. -/
def State.orderKey (s : State) (id : Nat) (d : Desc) : Nat × Nat × Nat :=
  let due := if d.due = 0 then 2 ^ 66 else d.due
  if d.cls ≤ 1 then (0, 0, id)
  else if d.cls = 3 ∧ s.belowShare d.ctx then (1, 0, id)
  else if d.cls = 2 then (2, due, id)
  else if d.cls = 3 then (3, due, id)
  else (4, 0, id)

def keyLe (a b : Nat × Nat × Nat) : Bool :=
  decide (a.1 < b.1 ∨ (a.1 = b.1 ∧ (a.2.1 < b.2.1 ∨ (a.2.1 = b.2.1 ∧ a.2.2 ≤ b.2.2))))

/-- On the die's wait list: admitted, not running, without a result, and no suspect of a hang. -/
def Desc.listed (d : Desc) (die : Nat) : Bool :=
  d.die == die && decide (d.st ≠ .running) && d.result.isNone && d.replays == 0

/-- The wait list of a die in the order of R67. -/
def State.waitOrder (s : State) (die : Nat) : List Nat :=
  let l := s.descs.filterMap (fun p => if p.2.listed die then some (s.orderKey p.1 p.2, p.1) else none)
  (l.mergeSort (fun a b => keyLe a.1 b.1)).map (fun p => p.2)

/-- The shared cores that running P gangs of a die hold. -/
def State.pCores (s : State) (die : Nat) : Nat :=
  natSum (fun p => if p.2.die = die ∧ p.2.cls = 2 ∧ p.2.st = .running then p.2.cores.length else 0) s.descs

/-- Is the Governor shedding (R436)? -/
def State.shedding (s : State) : Bool := s.od 0x2100 0x10 == 1

/-- Why a listed descriptor may not be placed, cores apart. -/
def State.blocker (s : State) (id : Nat) (d : Desc) : Option Nat :=
  let x := s.ctx d.ctx
  let prior := s.descs.filter (fun p => decide (p.1 < id) && p.2.ctx == d.ctx)
  let behind := prior.find? (fun p => decide (p.2.st = .waiting) && p.2.result.isNone)
  if x.st = .paused then some 0x05
  else if x.st ≠ .opened then some 0x08
  else if d.cls ≥ 3 ∧ s.md.st = 10 then some 0x06
  else if d.cls ≥ 3 ∧ s.md.st = 9 then some 0x08
  else if d.cls ≥ 3 ∧ s.shedding then some 0x07
  else if d.ordered ∧ !prior.isEmpty then some 0x04
  else if d.st = .waiting ∧ behind.isSome then
    some (if d.cls ≤ 1 then 0x0B else match behind with | some p => p.2.reason | none => 0)
  else if d.cls ≥ 2 ∧ x.quota ≠ 0 ∧ (((s.settleCtx d.ctx).ctx d.ctx).remain ≤ 0) then some 0x02
  else if d.cls = 2 ∧ s.md.st = 10 ∧ s.unitOf d ≠ .clearance ∧ s.unitOf d ≠ .carafe
      ∧ (s.sharedCores d.die).length * s.od 0x2A00 5 / 100 < s.pCores d.die + s.gangOf d then some 0x06
  else none

/-- A descriptor stays on the wait list for a reason. A B descriptor held by its quota or by shedding is paused
(Table 03-8). -/
def State.leave (s : State) (id reason : Nat) : State :=
  match s.desc? id with
  | none => s
  | some d => s.delayFor id d reason

/-! ### Preemption (R68, R69) -/

/-- May Carafe hold the save area of a gang within its context's quota, now or once a spill has made room? -/
def State.canSave (s : State) (d : Desc) : Bool :=
  (s.makeObj 8 d.ctx d.die (d.cores.length * mib) (d.cores.length * mib) true).isSome
    || (s.makeSpill d.ctx d.die (d.cores.length * mib) true).isSome

/-- The gangs that class `cls` may preempt on a die, most recently placed first: B, then for P the D gangs of
contexts above their minimum share that can be saved. -/
def State.victims (s : State) (cls die : Nat) (cle : Bool) : List (Nat × Desc) :=
  let of (k : Nat) : List (Nat × Desc) :=
    (s.descs.filter (fun p => p.2.die == die && p.2.cls == k && decide (p.2.st = .running) && p.2.result.isNone
      && decide (p.2.why = .none) && p.2.replays == 0
      && (if cle then decide (0x0400 ≤ p.2.op ∧ p.2.op ≤ 0x04FF) else !p.2.cores.isEmpty))).mergeSort
      (fun a b => decide (b.2.placedAt ≤ a.2.placedAt))
  of 4 ++ (if cls = 2 then (of 3).filter (fun p => !(s.belowShare p.2.ctx) && s.canSave p.2) else [])

/-- Ask gangs to stop until `need` cores are on their way. -/
def preemptSome (cle : Bool) : List (Nat × Desc) → Nat → State → State
  | [], _, s => s
  | p :: t, need, s =>
    if need = 0 then s
    else preemptSome cle t (need - (if cle then 1 else p.2.cores.length))
      (s.updDesc p.1 (fun d => { d with why := .preempt }))

/-- How many solver units descriptor `d` would find free once the descriptors `out` have stopped. -/
def State.unitsWithout (s : State) (d : Desc) (out : List Nat) : Nat :=
  let stay := s.descs.filter (fun p => !(out.contains p.1))
  let busy := stay.flatMap (fun p => p.2.held)
  let ks := if d.st = .stopped then d.was.map coreClus else dieClus d.die
  (s.unitList d ks ((s.usable d.ctx d.cls d.die).filter (s.coreFree d.cls busy)) (stay.flatMap (fun p => p.2.heldEngines))).length

/-- Ask gangs to stop, those alone whose stop frees a unit more, until the solver descriptor `d` has its units (R68, R165);
`out` are the gangs that stop already. -/
def preemptUnits (d : Desc) : List (Nat × Desc) → List Nat → State → State
  | [], _, s => s
  | p :: t, out, s =>
    if s.gangOf d ≤ s.unitsWithout d out then s
    else if s.unitsWithout d out < s.unitsWithout d (p.1 :: out) then
      preemptUnits d t (p.1 :: out) (s.updDesc p.1 (fun d => { d with why := .preempt }))
    else preemptUnits d t out s

/-- The head of the order preempts what it may (R68). It does so too where some shared cores are free, but fewer than its
gang needs (log entry 110). A solver descriptor counts in units of an engine and a core (R165). -/
def State.preemptFor (s : State) (d : Desc) (free : Nat) : State :=
  if s.unitOf d = .solver then
    if d.cls = 2 ∨ d.cls = 3 then
      preemptUnits d (s.victims d.cls d.die false)
        (s.descs.filterMap (fun p => if p.2.why ≠ .none then some p.1 else none)) s
    else s
  else
  let cle := s.unitOf d == .clearance
  let need := if cle then 1 else s.gangOf d
  let freeing := natSum (fun p => if p.2.die = d.die ∧ p.2.st = .running ∧ p.2.why ≠ .none
    then (if cle then (if 0x0400 ≤ p.2.op ∧ p.2.op ≤ 0x04FF then 1 else 0) else p.2.cores.length) else 0) s.descs
  if d.cls = 2 ∨ d.cls = 3 then preemptSome cle (s.victims d.cls d.die cle) (need - free - freeing) s else s

/-- What a class needs to be saved: B or a paused or forced D gang is evicted where its save area cannot be held; a
D gang preempted by P keeps its cores. -/
def Desc.evictable (d : Desc) : Bool := d.cls == 4 || decide (d.why ≠ .preempt)

/-- Release the cores a descriptor holds. -/
def State.freeCores (s : State) (id : Nat) (d : Desc) : State :=
  let s := s.settle id
  let s := d.cores.foldl (fun s n => s.setCore n { s.core n with last := d.ctx }) s
  let s := d.cores.foldl (fun s n => s.setClu (coreClus n) { s.clu (coreClus n) with idleAt := s.govTime }) s
  match d.shadow with
  | some x =>
    let s := x.cores.foldl (fun s n => s.setCore n { s.core n with last := d.ctx }) s
    x.cores.foldl (fun s n => s.bumpOd (0x4000 + n) 4 (s.dspTime x.die - x.at_) 64) s
  | none => s

/-- The delay reason of a stopped gang. -/
def stopReason : StopWhy → Nat
  | .none => 0x03 | .preempt => 0x03 | .decaf => 0x06 | .shed => 0x07 | .quota => 0x02 | .reset => 0x08

/-- A gang asked to stop stops at its next tile boundary; `bytes` is what its save area holds, beside the 32 KiB of each solver
engine (R69, R73, R184). While a spill makes room for the save area it goes on stopping (R280). -/
def State.gangStop (s : State) (id bytes : Nat) : State :=
  match s.desc? id with
  | none => s
  | some d =>
    if d.st ≠ .running ∨ d.why = .none ∨ d.result.isSome then s
    else
      let eng := if d.op = 0x0300 ∨ d.op = 0x0310 then 32768 * d.cores.length else 0
      let size := max 1 (eng + min bytes ((d.cores.length + 1) * (mib + 8192)))
      match s.makeObj 8 d.ctx d.die size (roundUp size kib64) (d.why ≠ .reset) with
      | none =>
        match s.makeSpill d.ctx d.die (roundUp size kib64) (d.why ≠ .reset) with
        | some s' => s'
        | none =>
        if d.evictable then
          ((s.endDesc id 0x0405 0x07).bumpReg (baseDSP d.die + 0x30)).updDesc id (fun d => { d with why := .none })
        else s.updDesc id (fun d => { d with why := .none })
      | some (h, s) =>
        let now := s.dspTime d.die
        let s := if d.op = 0x0410 ∧ s.runningCheck d.die = some id then s.keepProgress id else s
        let s := s.freeCores id d
        let kept := ((s.desc? id).map (fun x => x.aux)).getD d.aux
        let d' := { d with aux := kept, st := .stopped, cores := [], was := d.cores, save := some h, preempted := true, since := now, epAt := now,
                           reason := stopReason d.why, why := .none, interim := false }
        let s := ((s.setDesc id d').bumpReg (baseDSP d.die + 0x28)).bumpOd (0x2A10 + d.die) 2
        if d.cls = 4 ∨ d.why = .decaf then (s.updDesc id (fun d => { d with interim := true })).interim d' 0x0211 0x06
        else s

/-! ### Placement (R66–R68, R379, R383) -/

/-- May the descriptor read the entries of its page list that placement reads, those below v (R20, R118)? -/
def State.listGranted (s : State) (d : Desc) (g : KvGeom) : Bool :=
  let a := d.f 36 6
  !(plHeaderOk s a) || (List.range g.groups).all (fun q => s.grantedFor d (rdLin (plEntryAddr s a q 0) (4 * plV s a)))

/-- What the operation does when it is placed, by opcode. -/
def State.placeHook (s : State) (id : Nat) (d : Desc) : PRes :=
  if d.op = 0x0030 then .ok (convClear s d)
  else if d.op = 0x0100 then (if s.listGranted d (attnGeom d) then attnPlace s id d else attnFault s d 0x0540)
  else if d.op = 0x0110 then
    (if !(s.listGranted d (appGeom d)) then .fault s 0x0540
     else if appRefill d then refillPlace s id d else appendPlace s id d)
  else if d.op = 0x0120 then pagePlace s id d
  else if d.op = 0x0200 then
    match streamPlace s id d with
    | .ok s' =>
      if d.f 38 1 = 9 ∧ ¬ s'.grantedFor d (wrLin (d.f 30 6) (copyOutBytes s' d)) then .fault s 0x0540 else .ok s'
    | r => r
  else if d.op = 0x0210 ∨ d.op = 0x0220 then streamPlace s id d
  else if d.op = 0x0300 ∨ d.op = 0x0310 then solverPlace s id d
  else if d.op = 0x0410 then
    match checkPlace s id d with
    | .ok s' =>
      if (match s'.desc? id with | some x => (checkSamples x).all (s'.grantedFor d) | none => true) then .ok s'
      else .fault s 0x0540
    | r => r
  else .ok s

/-- Does a class S or C descriptor name a suspect object in an operand (R283)? -/
def State.suspectOperand (s : State) (d : Desc) : Bool :=
  (s.objsAt ((s.rngsOf d).filter (fun r => !r.wr))).any (fun h => (s.obj h).suspect)

/-- How the try to place a descriptor ends. -/
inductive Placed where
  | done (s : State)
  | wait (s : State) (reason : Nat)
  /-- Too few cores, engine units or engine places are free. -/
  | short (s : State) (reason : Nat)

/-- Enter a descriptor on its cores. -/
def State.enterRun (s : State) (id : Nat) (cores : List Nat) : State :=
  match s.desc? id with
  | none => s
  | some d =>
    let now := s.dspTime d.die
    let s := cores.foldl (fun s n => s.wake (coreClus n)) s
    let s := if s.gov.phases.contains d.phase then s else { s with gov := { s.gov with phases := d.phase :: s.gov.phases } }
    let els := cores ++ (if d.op = 0x0300 ∨ d.op = 0x0310 then cores.map (fun n => 256 + coreClus n) else [])
      ++ (if 0x0400 ≤ d.op ∧ d.op ≤ 0x04FF then [288 + d.die] else [])
    let s := els.foldl (fun s n =>
      let t := AMap.getD n Tst.zero s.isl.tests
      if t.run then { s with isl := { s.isl with tests := AMap.put Tst.zero n { t with run := false } s.isl.tests } } else s) s
    let s := match d.save with | some h => s.dropObj h | none => s
    let sh := if d.cls = 0 ∧ d.shadow.isNone then
        some { die := s.shadowDie d.ctx, cores := [], placed := false, at_ := s.dspTime (s.shadowDie d.ctx), judged := false }
      else d.shadow
    let go (s : State) : State :=
      s.setDesc id { d with st := .running, cores := cores, save := none, placedAt := now, delays := d.delaysAt now,
                            since := now, shadow := sh, why := .none }
    if d.op = 0x0410 then s.cleEnter d.die go else go s

/-- Place a descriptor on chosen cores: the reading at placement happens once, when it is first placed. -/
def State.placeOn (s : State) (id : Nat) (d : Desc) (cores : List Nat) : Placed :=
  if d.st = .stopped then .done (s.enterRun id cores)
  else if d.cls ≤ 1 ∧ s.suspectOperand d then .done ((s.enterRun id cores).endDesc id 0x05A3 0x09)
  else match s.placeHook id d with
    | .ok s' => .done (s'.enterRun id cores)
    | .fault s' st =>
      .done ((s'.enterRun id cores).updDesc id (fun d => { d with result := some { status := st, outcome := 0, flags := 0 } }))
    | .wait s' r => .wait s' r

/-- The reason of a descriptor for which too few shared cores, or solver units (R165), are free. -/
def State.shortReason (s : State) (d : Desc) : Nat :=
  if d.st = .stopped ∧ d.reason = 0x03 then 0x03
  else if s.unitOf d = .solver then 0x01
  else if (dieCores d.die).any (fun n => (s.core n).fenced || (s.core n).rst != 0 || (s.clu (coreClus n)).rst != 0) then 0x08
  else if (dieCores d.die).any (fun n => s.sweeping n && s.shared n && !(s.coresBusy.contains n)) then 0x09
  else 0x01

/-- Try to place one listed descriptor; `held` says that a descriptor before it heads the order and waits for
cores, so that only the cores of `allow` may go to it (R67). -/
def State.tryPlace (s : State) (id : Nat) (d : Desc) (held : Bool) : Placed :=
  if d.cls = 0 ∧ (s.die (s.shadowDie d.ctx)).st ≠ 0 then
    let sd := s.shadowDie d.ctx
    let s := s.endDesc id 0x0602 0x08
    .done (if s.isl.gone.contains sd then s
      else ({ s with isl := { s.isl with gone := sd :: s.isl.gone } }).raiseCause 5)
  else match s.unitOf d with
    | .carafe => s.placeOn id d []
    | .clearance =>
      if s.clePlace d.die d.cls ∧ (d.cls ≠ 0 ∨ s.tested (288 + d.die)) ∧ (d.cls ≤ 1 ∨ ¬ s.sweeping (288 + d.die)) then s.placeOn id d []
      else if (d.cls = 0 ∧ ¬ s.tested (288 + d.die)) ∨ (2 ≤ d.cls ∧ s.sweeping (288 + d.die)) then .wait s 0x09
      else if d.cls ≤ 1 then .wait s 0x01
      else .short s 0x01
    | _ =>
      let free := s.freeFor d.ctx d.cls d.die
      if d.cls ≤ 1 then
        match s.pick d d.die free with
        | some l => s.placeOn id d l
        | none =>
          .wait s (if d.cls = 0 ∧ (s.usable d.ctx 0 d.die).any (fun n => !(s.tested n)) then 0x09 else 0x0B)
      else
        let x := s.die d.die
        let free := if held then free.filter (fun n => x.allow.contains n) else free
        match s.pick d d.die free with
        | some l => s.placeOn id d l
        | none => .short s (s.shortReason d)

/-- The head of the order for shared cores cannot be placed: cores that become free are held for it, and it
preempts what it may. -/
def State.holdFor (s : State) (id : Nat) (d : Desc) : State :=
  if s.unitOf d = .clearance then s.preemptFor d 0
  else
    let x := s.die d.die
    let free := s.freeFor d.ctx d.cls d.die
    let x' := if x.head = some id then { x with allow := x.allow.filter (fun n => free.contains n) }
      else { x with head := some id, allow := free }
    (s.setDie d.die x').preemptFor d free.length

/-- One pass over the wait list in the order of R67. -/
def placePass : List Nat → Bool → State → State × Bool
  | [], held, s => (s, held)
  | id :: t, held, s =>
    match s.desc? id with
    | none => placePass t held s
    | some d =>
      match s.blocker id d with
      | some r => placePass t held (s.leave id r)
      | none =>
        match s.tryPlace id d held with
        | .done s' => placePass t held s'
        | .wait s' r => placePass t held (s'.leave id r)
        | .short s' r =>
          let s' := s'.leave id r
          placePass t (held || s.unitOf d != .clearance) (if held then s' else s'.holdFor id d)

/-- GANG_PLACEMENT: the dispatcher of a die places what can be placed, in the order of R67. -/
def State.place (s : State) (die : Nat) : State :=
  let x := s.die die
  if x.running ∧ x.st = 0 then
    let r := placePass (s.waitOrder die) false s
    if r.2 then r.1 else r.1.setDie die { r.1.die die with head := none, allow := [] }
  else s

/-! ### Verified frames (R390, R391) -/

def State.ver (s : State) (v : Nat) : Ver := AMap.getD v Ver.zero s.isl.vers
def State.setVer (s : State) (v : Nat) (x : Ver) : State :=
  { s with isl := { s.isl with vers := AMap.put Ver.zero v x s.isl.vers } }

/-- The verified contexts' number that names context `c`. -/
def State.verOf (s : State) (c : Nat) : Option Nat :=
  (List.range 16).find? (fun v => s.od (0x2260 + v) 1 == c)

/-- Does a descriptor close a frame: a NOP with the ordered flag? -/
def Desc.closes (d : Desc) : Bool := d.op == 0x0F00 && d.ordered

/-- Rotate to the next golden input: the scheduler copies it into the slot (R389, R391). -/
def State.rotate (s : State) (v : Nat) : State :=
  let x := s.ver v
  let k := s.od (0x2260 + v) 7
  let len := s.od (0x2260 + v) 3
  let o := s.obj (s.od (0x2260 + v) 6)
  let next := (x.input + 1) % max 1 k
  (s.copyMem (o.addr + next * len) (s.od (0x2260 + v) 2) len).setVer v { x with input := next, fresh := true }

/-- A frame is closed by the final record of its NOP: rotation, and the next frame begins. -/
def State.frameEnd (s : State) (v c id : Nat) : State :=
  let x := s.ver v
  let later := s.descs.any (fun p => p.2.ctx == c && decide (id < p.1))
  let s := s.setVer v { x with bad := false, fresh := false }
  if !later || decide (s.od 0x2200 9 ≤ x.count) then s.rotate v else s

/-- An unchecked frame adds 1 to the count; beyond the deferral limit cause 9 is raised (R390). -/
def State.unchecked (s : State) (v : Nat) : State × Nat :=
  let x := s.ver v
  let n := x.count + 1
  let s := s.setVer v { x with count := n }
  if n ≤ s.od 0x2200 9 then (s, 0x01E0) else (s.raiseCause 9, 0x0603)

/-- What a final record means to the frame of its context. -/
def State.frameNote (s : State) (id : Nat) (d : Desc) (st : Nat) (checked : Bool) : State :=
  match s.verOf d.ctx with
  | none => s
  | some v =>
    if d.closes then
      let s := if checked then s else (s.unchecked v).1
      s.frameEnd v d.ctx id
    else if stClass st ≤ 1 then s
    else s.setVer v { s.ver v with bad := true }

/-! ### Job aborts (R304–R307, R406) -/

/-- A job abort reaches a context: its descriptors without a result end 0x0402, unread slots are discarded, and it
is left Paused; a Fenced context holds it until it is Open. -/
def State.abortCtx (s : State) (c : Nat) : State :=
  let x := s.ctx c
  if x.st = .fenced then
    if s.rcv.heldAborts.contains c then s else { s with rcv := { s.rcv with heldAborts := c :: s.rcv.heldAborts } }
  else if x.st = .opened ∨ x.st = .paused then
    let s := s.endWhere (fun d => d.ctx == c) 0x0402 0x08
    s.setCtx c { s.ctx c with st := .paused, cons := x.prod }
  else s

/-- Does die `d` home a context of the job that is not Closed? -/
def State.holdsJob (s : State) (d job : Nat) : Bool :=
  s.ctxs.any (fun p => decide (p.2.st ≠ .closed) && s.home p.1 == d && s.od 0x5000 5 p.1 == job)

/-- A dispatcher acts on a job abort (R305). -/
def State.abortDie (s : State) (d job : Nat) : State :=
  s.ctxs.foldl (fun s p => if s.home p.1 = d ∧ s.od 0x5000 5 p.1 = job then s.abortCtx p.1 else s) s

/-- Start a job abort on die `d`; a job has at most one in progress (R306). A die in recovery or out of service
needs no delivery (R307). -/
def State.startAbort (s : State) (job d : Nat) : State :=
  if (AMap.get? job s.aborts).isSome then s
  else
    let s := s.bumpOd (0x4200 + d) 0x7A
    let wait := (List.range 4).filter (fun x => x != d && (s.die x).st == 0)
    let s := if wait.isEmpty then s else { s with aborts := AMap.ins job { origin := d, at_ := s.dspTime d, wait := wait,
                                                                           relayed := [], orphan := false } s.aborts }
    s.abortDie d job

/-- JOB_ABORT_RECEIVE: the packet reaches a dispatcher, over its peer link or relayed over its hub link. -/
def State.abortReceive (s : State) (d job : Nat) : State :=
  match AMap.get? job s.aborts with
  | none => s
  | some a =>
    let up (l : Nat) : Bool := decide (2 ≤ (s.link l).st)
    if a.wait.contains d && (up (peerLink a.origin d) || (a.relayed.contains d && up d)) then
      let s := if s.holdsJob d job then (s.abortDie d job).bumpOd (0x4200 + d) 0x7B else s
      let w := a.wait.filter (· ≠ d)
      { s with aborts := if w.isEmpty then AMap.del job s.aborts else AMap.ins job { a with wait := w } s.aborts }
    else s

/-- JOB_ABORT_RELAY: 2 µs have passed on the originating die's counter without every acknowledgement (R307). Where that die
has been reset since, its counter's values are void and the sequencer relays at once (R22; log entry 111). -/
def State.abortRelay (s : State) (job : Nat) : State :=
  match AMap.get? job s.aborts with
  | none => s
  | some a =>
    if !a.orphan && decide (s.dspTime a.origin < a.at_ + 2000) then s
    else
      let w := a.wait.filter (fun d => (s.die d).st == 0)
      let new := w.filter (fun d => !(a.relayed.contains d))
      let s := new.foldl (fun s d => s.bumpOd (0x4200 + d) 0x7C) s
      { s with aborts := if w.isEmpty then AMap.del job s.aborts
                         else AMap.ins job { a with wait := w, relayed := a.relayed ++ new } s.aborts }

/-- Does an end start a job abort (R304)? Refusals do not. -/
def startsAbort (st oc : Nat) : Bool :=
  oc != 3 && oc != 5 && (st == 0x0401 || stClass st == 5 || st == 0x0403 || st == 0x0404)

/-! ### Final records (R74) -/

/-- Is the module service interval of a context closed or opened by a status (R425)? -/
def badService (st : Nat) : Bool :=
  [0x0402, 0x0403, 0x0404, 0x0601, 0x0602, 0x0607].contains st || stClass st == 5

/-- Note the final record of context `c` in the availability sums (R425). -/
def State.serviceNote (s : State) (c st : Nat) : State :=
  if !(s.watched c) then s
  else if badService st then
    if s.rcv.down.contains c then s else { s with rcv := { s.rcv with down := c :: s.rcv.down } }
  else if stClass st ≤ 1 then { s with rcv := { s.rcv with down := s.rcv.down.filter (· ≠ c) } }
  else s

/-- Count a refusal record (Tables 03-13 to 03-15). -/
def State.countRefusal (s : State) (c die : Nat) : State :=
  ((s.bumpOd 0x5000 0x19 1 32 c).bumpOd 0x2A00 3).bumpReg (baseDSP die + 0x20)

/-- A refusal at checking: the record, the counts, the monitors (R60). -/
def State.refuse (s : State) (c : Nat) (seq job off st : Nat) : State :=
  let s := s.wr (hub off) (recordBytes st 3 0 seq 0 0 0 0 c true 0 job)
  ((s.countRefusal c (s.home c)).monNote c st).serviceNote c st

/-- The status of a completed descriptor with every notice that applies, the lowest of them (log entry 61). -/
def State.doneStatus (s : State) (d : Desc) (st : Nat) : Nat :=
  if stClass st ≤ 1 then
    let a := minNotice st (if d.late then 0x0110 else 0)
    let a := minNotice a (if d.cls ≥ 2 ∧ s.suspectOperand d then 0x01A0 else 0)
    if d.replays = 2 ∧ a = 0 then 0x01F0 else a
  else st

/-- The outcome code of a final record (Table 03-11). -/
def Desc.outcomeOf (d : Desc) (r : Result) (st : Nat) : Nat :=
  if stClass st ≤ 1 then
    (if d.replays = 2 then 1 else if d.preempted then 2 else if d.waited then 1 else 0)
  else if r.outcome ≠ 0 then r.outcome
  else if stClass st = 5 then 9
  else if stClass st = 4 then 8
  else if stClass st = 3 then 3
  else 9

/-- Is the energy ledger running (R445)? -/
def State.ledger (s : State) : Bool := decide (s.md.st = 4 ∨ s.md.st = 5 ∨ s.md.st = 6 ∨ s.md.st = 9)

/-- Add a record's energy to its job's entry of the ledger in hub SRAM. -/
def State.addEnergy (s : State) (job e : Nat) : State :=
  let o := s.od 0x2100 0x0E + 8 * (job % 4096)
  s.wrHub o 8 ((s.rdHub o 8 + e) % 2 ^ 64)

/-- A Fenced context whose stopped descriptors all have their records is Open again; a held job abort acts then
(R406). While its die is out of service it stays Fenced (R417). -/
def State.unfence (s : State) (c : Nat) : State :=
  let x := s.ctx c
  if x.st = .fenced ∧ ¬ s.descs.any (fun p => p.2.ctx == c && s.rcv.fencing.contains p.1) ∧ (s.die (s.home c)).st = 0 then
    let s := s.setCtx c { x with st := .opened }
    if s.rcv.heldAborts.contains c then
      ({ s with rcv := { s.rcv with heldAborts := s.rcv.heldAborts.filter (· ≠ c) } }).abortCtx c
    else s
  else s

/-- The numeric events that a descriptor which ended early had gathered: what its stopped engines had met, and whatever the
part of it that ran met, which the spec does not fix (R42; log entry 115). -/
def Desc.partFlags (d : Desc) (k : Nat) : Nat :=
  if d.op = 0x0300 ∨ d.op = 0x0310 then d.aux.getD (slvGang d + 1) 0 ||| Config.free k 0 % 64
  else if d.op < 0x0120 ∨ d.op = 0x0210 ∨ d.op = 0x0220 then Config.free k 0 % 64
  else 0

/-- The event flags of a final record (R42): exact where the operation ended, else those of the part that ran. -/
def State.eventFlags (s : State) (d : Desc) (r : Result) : Nat × State :=
  if 7 ≤ r.outcome ∧ stClass r.status < 6 ∧ d.st ≠ .waiting ∧ r.status ≠ 0x05A3 then
    let (k, s) := s.draw
    (d.partFlags k, s)
  else (r.flags, s)

/-- Does the shadow copy of a check run on beyond a fault of its home copy? The pins last until both have ended (R201), so that
the final record waits for it; an abort ends both (R381). -/
def State.shadowOut (s : State) (d : Desc) (r : Result) : Bool :=
  d.op == 0x0410 && stClass r.status == 5 && [0, 1, 2, 3].any (fun e => d.shadowOn e && (s.die e).st == 0)

/-- May the final record be written: the descriptor has its result, what must judge it has done so, and the hub link
carries the record? A die in recovery writes the records of its step 1 before its links retrain (Table 16-5). -/
def State.mayFinish (s : State) (d : Desc) : Bool :=
  match d.result with
  | none => false
  | some r =>
    ((s.die d.die).st != 0 || s.hubLink d.die) && !(s.shadowOut d r)
    && (d.cls != 0 || decide (2 ≤ stClass r.status) || (match d.shadow with | some x => x.judged | none => true))
    && (!(d.closes) || (s.verOf d.ctx).isNone || decide (2 ≤ stClass r.status) || d.stage == 1)

/-- DESCRIPTOR_FINAL_RECORD: the record and all that follows from it. `energy` is what the Governor measured, in µJ. -/
def State.finalRecord (s : State) (id energy : Nat) : State :=
  match s.desc? id with
  | none => s
  | some d =>
    match d.result with
    | none => s
    | some r =>
      if !(s.mayFinish d) then s
      else
        let now := s.dspTime d.die
        let st := s.doneStatus d r.status
        let oc := d.outcomeOf r st
        let led := s.ledger
        let e := if led then min energy (2 ^ 32 - 1) else 0
        let s := if d.st = .running then s.freeCores id d else s
        let reason := if d.replays = 2 then 0x08 else d.mainReason now
        let (fl, s) := s.eventFlags d r
        let s := s.wr (hub d.recOff) (recordBytes st oc fl d.seq (if oc = 3 then 0 else now - d.start)
          (d.delayAt now) reason d.coreNo d.ctx true e d.job)
        let s := if led then s.addEnergy d.job e else s
        let s := d.objs.foldl (fun s h => if (s.obj h).st = .present then s.setObj h { s.obj h with stamp := s.carTime } else s) s
        let s := match d.save with | some h => s.dropObj h | none => s
        let s := (s.delDesc id).sweepHolds
        let s := { s with rcv := { s.rcv with fencing := s.rcv.fencing.filter (· ≠ id) } }
        let s := if oc = 3 ∨ oc = 5 then s.countRefusal d.ctx d.die else s
        let s := ((s.countTier d.die st).monNote d.ctx st).serviceNote d.ctx st
        let s := s.frameNote id d st (d.stage == 1 && d.closes)
        let s := if startsAbort st oc then s.startAbort d.job d.die else s
        s.unfence d.ctx

/-! ### The slot read (R55, R60, R61) -/

/-- The words of the slot at count `k` of context `c`'s ring. -/
def State.slotAt (s : State) (c k : Nat) : Nat :=
  s.rdHub (s.od 0x5000 9 c + k % max 1 (s.od 0x5000 0x0A c) * 64) 64

/-- Enter an admitted descriptor on the wait list; it holds its objects from now on (R61, R266). -/
def State.intake (s : State) (d : Desc) : State :=
  let rs := s.rngsOf d
  let objs := s.objsAt rs
  let eff := s.effDeadline d
  let d := { d with due := if eff = 0 then 0 else d.start + eff, objs := objs }
  let outs := s.objsAt (rs.filter (fun r => r.wr))
  let s := outs.foldl (fun s h => s.setObj h { s.obj h with coldCur := false }) s
  let s := objs.foldl (fun s h => s.setObj h { s.obj h with stamp := s.carTime }) s
  { s with descs := AMap.ins s.nextId d s.descs, nextId := s.nextId + 1 }

/-- DESCRIPTOR_SLOT_READ: the dispatcher reads the next descriptor of a context over its die's hub link, checks it, and
refuses or admits it. `bad` says that the read of its first (1) or second (2) slot met an uncorrectable error (check 1). An
extended descriptor takes its two slots either way; where the first slot fails, its ext flag cannot be trusted and one slot
is passed (log entry 112). -/
def State.slotRead (s : State) (c bad : Nat) : State :=
  let x := s.ctx c
  let die := s.die (s.home c)
  let n := (x.prod + 2 ^ 32 - x.cons) % 2 ^ 32
  if x.st ≠ .opened ∨ n = 0 ∨ ¬ die.running ∨ die.st ≠ 0 ∨ s.hubLink (s.home c) = false then s
  else
    let w := s.slotAt c x.cons
    let ext := bad != 1 && (w >>> 32).testBit 14
    let ecc := bad == 1 || (bad == 2 && ext)
    if ext ∧ n < 2 then s
    else
      let slots := if ext then 2 else 1
      let words := if ext then w + s.slotAt c (x.cons + 1) * 2 ^ 512 else w
      let seq := s.od 0x5000 0x0E c
      let s := s.setCtx c { x with cons := (x.cons + slots) % 2 ^ 32 }
      let s := s.setOd 0x5000 0x0E ((seq + 1) % 2 ^ 32) c
      let s := s.bumpReg (baseDSP (s.home c) + 0x18)
      let fb := s.od 0x5000 0x0D c
      if ecc then
        let s := s.refuse c seq (s.od 0x5000 5 c) fb 0x0501
        match s.verOf c with | some v => s.setVer v { s.ver v with bad := true } | none => s
      else
        let d := s.mkDesc c words
        match s.check d seq with
        | some st =>
          let s := s.refuse c d.seq d.job (if s.recOk c d.recOff then d.recOff else fb) st
          s.frameNote s.nextId d st false
        | none => (s.intake d).place (s.home c)

/-! ### Deadlines and interim records (R70, R71, R75) -/

/-- DESCRIPTOR_DEADLINE_PASS. -/
def State.deadlinePass (s : State) (id : Nat) : State :=
  match s.desc? id with
  | none => s
  | some d =>
    if d.due = 0 ∨ s.dspTime d.die < d.due ∨ d.result.isSome then s
    else if 3 ≤ d.cls ∧ d.notice then s.updDesc id (fun d => { d with late := true })
    else if d.cls = 2 ∧ d.st = .waiting then s.endDesc id 0x0313 0x05
    else s.endDesc id 0x0401 0x08

/-- INTERIM_RECORD: the descriptor has waited longer than the report threshold in this episode. -/
def State.interimRecord (s : State) (id : Nat) : State :=
  match s.desc? id with
  | none => s
  | some d =>
    let th := s.od 0x2A00 4
    if !d.delayed || d.interim || d.result.isSome || th == 0 || decide (s.dspTime d.die - d.epAt ≤ th) then s
    else (s.updDesc id (fun d => { d with interim := true })).interim d 0x0210 0x01

end Sys2Proof.Machine
end

