-- ==== Sys2Proof/Machine/Staging.lean ====
section
/-! DEFINITION. The staging apertures (R318, R326–R330): requests, blocks, the writes and drains of an aperture. -/

namespace Sys2Proof.Machine

/-- The key of a host-port register that each channel has for itself. -/
def hpc (ch off : Nat) : Nat := 0x060000000000 + ch * 0x10000 + off

/-- A WRITE burst is discarded (Table 13-6, 0x2500:05). -/
def State.discardWrite (s : State) (ch : Nat) : State := (s.bumpReg (hpc ch 0x48)).bumpOd 0x2500 5
/-- A doorbell or staging slot write is dropped; the burst counts as discarded too (log entry 85). -/
def State.dropSlot (s : State) (ch : Nat) : State := ((s.discardWrite ch).bumpReg (hpc ch 0x58)).bumpOd 0x2500 6

/-- The declared granule G (R318). -/
def State.granule (s : State) : Nat :=
  match s.od 0x2500 1 with | 1 => 0x1000 | 2 => 0x10000 | 3 => 0x200000 | _ => 0

def hostLinear (g ch o : Nat) : Nat := (o / g * 4 + ch) * g + o % g

/-- `cmd_w` of R318. -/
def State.cmdW (s : State) (ch o : Nat) : Nat :=
  let g := s.granule
  (if g = 0 then o - 0x01000000 else hostLinear g ch o - 0x04000000) % 0x02000000

/-- `stage_y` of R318. -/
def State.stageY (s : State) (ch o : Nat) : Nat :=
  let g := s.granule
  if g = 0 then ch * 0xC0000000 + (o - 0x40000000) else hostLinear g ch o - 0x100000000

def apWindow : Nat := 0x0C000000

def State.aper (s : State) (a : Nat) : Aper := AMap.getD a Aper.zero s.apers
def State.setAper (s : State) (a : Nat) (x : Aper) : State := { s with apers := AMap.put Aper.zero a x s.apers }

/-- Free staging blocks (R327); the boot-mode aperture takes none of them: HP_STAGE_FREE is 128 at reset (Table 13-6, log entry 106). -/
def State.blocksFree (s : State) : Nat := 128 - natSum (fun p => if p.2.boot then 0 else p.2.blocks) s.apers

/-- An aperture holds its object in states 1 to 4 (R327). -/
def Aper.holding (x : Aper) : Bool := decide (1 ≤ x.st ∧ x.st ≤ 4) && !x.boot

def State.holdObj (s : State) (h : Nat) : State := s.setObj h { s.obj h with holds := (s.obj h).holds + 1 }
def State.dropHold (s : State) (h : Nat) : State :=
  (s.setObj h { s.obj h with holds := (s.obj h).holds - 1 }).sweepHolds

/-- Leave what the aperture was doing for state `st` with a status; its blocks are freed. -/
def State.leaveAper (s : State) (a st status : Nat) : State :=
  let x := s.aper a
  let s := s.setAper a { x with st := st, status := status, blocks := 0, want := 0, covered := [], drained := [],
                                noted := false, data := [], ready := false, boot := false }
  let s := { s with stageQ := s.stageQ.filter (· ≠ a) }
  if x.holding then s.dropHold x.handle else s

/-! ### Requests (R326, R327) -/

/-- The checks of R326 on a slot of 64 bytes. -/
def State.judgeStage (s : State) (x : Aper) (w : Nat) : Option Nat :=
  let op := field w 32 8
  let c := field w 48 16
  let h := field w 64 32
  let off := field w 128 64
  let len := field w 192 64
  let o := s.obj h
  let move := op == 1 || op == 2
  let valid := within op 1 4 && field w 40 8 == 0 && field w 96 32 == 0 && field w 256 256 == 0 && decide (c < 16384)
    && (if move then off % 64 == 0 && within len 1 (if op = 1 then 4194304 else 201326592) else len == 0)
  let legal := if move then x.st == 0 || x.st == 5 || x.st == 6
    else if op = 3 then x.st == 2 || x.st == 5 || x.st == 6 else x.st == 1 || x.st == 3 || x.st == 4
  let st := (s.ctx c).st
  let objOk := decide (h < 65536) && decide (o.st = .present) && [0, 1, 2, 6].contains o.kind && o.owner == c
  firstFail
    [(valid, 0x03C0), (legal, 0x03C2), (decide (st = .opened) || decide (st = .paused), 0x030D),
     (!move || objOk, 0x03C1), (!move || !o.comp, 0x03A1), (!move || decide (off + len ≤ o.size), 0x030A)]

/-- The blocks a request needs. -/
def Aper.need (x : Aper) : Nat := if x.st = 1 then ceilDiv x.len 65536 else min 16 (ceilDiv x.len 65536)

/-- A request takes its blocks: a write gets its first limit (R329). -/
def State.grantBlocks (s : State) (a : Nat) : State :=
  let x := s.aper a
  s.setAper a { x with blocks := x.need, want := 0, status := 0, limit := if x.st = 3 then min x.len 1048576 else 0 }

/-- The head of the queue takes its blocks when enough are free. -/
def State.blocksGranted (s : State) : State :=
  match s.stageQ with
  | [] => s
  | a :: t => if (s.aper a).want ≤ s.blocksFree then ({ s with stageQ := t }).grantBlocks a else s

/-- An accepted request is judged and acts. -/
def State.stageRequest (s : State) (a w : Nat) : State :=
  let x := s.aper a
  let num := field w 0 32
  match s.judgeStage x w with
  | some st => let s := s.leaveAper a 6 st; s.setAper a { s.aper a with request := num }
  | none =>
    let op := field w 32 8
    if op = 3 then let s := s.leaveAper a 0 0; s.setAper a { s.aper a with request := num }
    else if op = 4 then let s := s.leaveAper a 6 0x04C0; s.setAper a { s.aper a with request := num }
    else
      let h := field w 64 32
      let x' := { Aper.zero with st := if op = 1 then 1 else 3, request := num, ctx := field w 48 16, handle := h,
                                 off := field w 128 64, len := field w 192 64, at_ := s.hpTime }
      let s := (s.setAper a x').holdObj h
      let s := s.setObj h { s.obj h with stamp := s.carTime }
      if s.stageQ.isEmpty ∧ x'.need ≤ s.blocksFree then s.grantBlocks a
      else { s.setAper a { x' with status := 0x02C0, want := x'.need } with stageQ := s.stageQ ++ [a] }

/-! ### Copies and drains (R328, R329) -/

/-- The statuses with which a transfer of an aperture can fail: 0 for a good one (R282, Table 11-15). -/
def xferFault (k : Nat) : Nat :=
  match k with | 0 => 0 | 1 => 0x05A0 | 2 => 0x05A2 | 3 => 0x05B1 | _ => 0x05B2

/-- The status of a transfer to or from object `h`: a die in recovery or out of service ends it 0x05A5. -/
def State.xferStatus (s : State) (h k : Nat) : Nat :=
  if (s.diesOf ⟨(s.obj h).addr, (s.obj h).size, false, false⟩).any (fun d => (s.die d).st != 0) then 0x05A5 else xferFault k

/-- A read staging copy ends; `fault` chooses how (0 good). -/
def State.copyDone (s : State) (a fault : Nat) : State :=
  let x := s.aper a
  if x.st ≠ 1 ∨ x.want ≠ 0 then s
  else
    let o := s.obj x.handle
    let st := s.xferStatus x.handle fault
    if st ≠ 0 then
      let s := if st = 0x05A0 then s.suspectAt (o.addr + x.off) true else s
      (s.countTier o.die st).leaveAper a 6 st
    else s.setAper a { x with st := 2, status := 0, limit := x.len, moved := x.len, ready := true, at_ := s.hpTime,
                              data := s.slice (o.addr + x.off) x.len }

/-- Sectors below the length. -/
def Aper.sectors (x : Aper) : Nat := ceilDiv x.len 32

def Aper.blockCovered (x : Aper) (k : Nat) : Bool :=
  (List.range (min 2048 (x.sectors - 2048 * k))).all (fun i => x.covered.contains (2048 * k + i))

/-- Insert into an ascending list without repeats. -/
def insNat (n : Nat) : List Nat → List Nat
  | [] => [n]
  | m :: t => if n < m then n :: m :: t else if n = m then m :: t else m :: insNat n t

/-- The bytes of a burst enter the staging blocks; a masked-out byte of a sector that nothing has covered is what
the block held (free). -/
def Aper.putBytes (x : Aper) (k v : Nat) (b : Burst) : Aper :=
  (List.range b.n).foldl (fun x i =>
    if b.mask.testBit i then
      if x.covered.contains ((v + i) / 32) then x
      else { x with data := cellSet 0 (v + i) (BitVec.ofNat 8 (Config.free k i)) x.data }
    else { x with data := cellSet 0 (v + i) (BitVec.ofNat 8 (b.data >>> (8 * i))) x.data }) x

/-- A WRITE burst at window offset `v` of aperture `a` (R329, R330). -/
def State.apWrite (s : State) (a v : Nat) (b : Burst) : State :=
  let x := s.aper a
  if x.st ≠ 3 ∧ x.st ≠ 4 then s.discardWrite b.ch
  else if b.ecc then (s.leaveAper a 6 0x05C0).discardWrite b.ch
  else if x.limit ≤ v then (s.leaveAper a 6 0x05C2).discardWrite b.ch
  else if x.drained.contains (v / 65536) then
    (s.setAper a { x with noted := true, at_ := s.hpTime }).discardWrite b.ch
  else
    let (k, s) := s.draw
    let x := x.putBytes k v b
    let cov := (List.range (b.n / 32)).foldl (fun l i =>
      if v / 32 + i < x.sectors then insNat (v / 32 + i) l else l) x.covered
    s.setAper a { x with covered := cov, at_ := s.hpTime, st := if cov.length = x.sectors then 4 else 3 }

/-- Where an aperture drains to: the object, or the image area of boot mode (R451). -/
def State.drainTo (s : State) (x : Aper) : Nat := if x.boot then hub 0x800000 else (s.obj x.handle).addr + x.off

/-- A covered block has drained to the object; `fault` chooses how (0 good). -/
def State.blockDrain (s : State) (a k fault : Nat) : State :=
  let x := s.aper a
  if (x.st ≠ 3 ∧ x.st ≠ 4) ∨ x.want ≠ 0 ∨ x.len ≤ 65536 * k ∨ x.drained.contains k ∨ ¬ x.blockCovered k then s
  else
    let st := if x.boot then 0 else s.xferStatus x.handle fault
    if st ≠ 0 then
      let s := if st = 0x05A0 then s.suspectAt ((s.obj x.handle).addr + x.off + 65536 * k) true else s
      (s.countTier (s.obj x.handle).die st).leaveAper a 6 st
    else
      let n := min 65536 (x.len - 65536 * k)
      let s := s.paste (s.drainTo x + 65536 * k) n (cellSlice (65536 * k) n x.data)
      let s := if x.boot then s else s.setObj x.handle { s.obj x.handle with coldCur := false }
      let drained := insNat k x.drained
      let limit := min x.len (x.limit + 65536)
      let x := { x with drained := drained, limit := limit, moved := x.moved + n,
                        data := AMap.keep (fun v _ => !(decide (65536 * k ≤ v ∧ v < 65536 * k + 65536))) x.data,
                        blocks := ceilDiv limit 65536 - drained.length }
      if drained.length = ceilDiv x.len 65536 then
        let s := s.leaveAper a 5 (if x.noted then 0x01C0 else 0)
        let s := s.setAper a { s.aper a with ready := true, limit := x.limit, moved := x.moved }
        if x.boot then { s.setAper a { s.aper a with boot := true } with brd := { s.brd with doneAt := s.barTime } } else s
      else s.setAper a x

/-! ### Timeouts (R330) -/

/-- A write request that sees no WRITE for the write idle time. -/
def State.writeIdle (s : State) (a : Nat) : State :=
  let x := s.aper a
  if (x.st = 3 ∨ x.st = 4) ∧ ¬ x.boot ∧ x.at_ + s.od 0x2500 2 * 1000000 ≤ s.hpTime then s.leaveAper a 6 0x04C0 else s

/-- A read aperture left in state 2 beyond the read hold limit. -/
def State.readHold (s : State) (a : Nat) : State :=
  let x := s.aper a
  if x.st = 2 ∧ x.at_ + s.od 0x2500 3 * 1000000 < s.hpTime then s.leaveAper a 0 0x04C1 else s

/-- The boot-mode preset of aperture 0 (R337, R451). -/
def State.presetBoot (s : State) : State :=
  let s := s.setAper 0 { Aper.preset with request := (s.aper 0).request }
  { s with brd := { s.brd with judged := false } }

/-- HP_RESET code 0x0000_A5C1 (R336): active requests end 0x04C0, every aperture is idle. In boot mode aperture 0
is preset again (R454). -/
def State.resetApertures (s : State) : State :=
  let s := s.apers.foldl (fun s p => s.leaveAper p.1 0
    (if p.2.st = 1 ∨ p.2.st = 3 ∨ p.2.st = 4 then 0x04C0 else p.2.status)) s
  if s.md.bootMode then s.presetBoot else s

end Sys2Proof.Machine
end

