-- ==== Sys2Proof/Machine/Ctx.lean ====
section
/-! DEFINITION. Context commands: Open, Pause, Resume, Flush, Close (R51–R54, R62, R65, R273, R380, R384, R485). Each
answers a status, 0 where the command is done. -/

namespace Sys2Proof.Machine

/-! ### Reservations (R62) -/

/-- The unfenced cores of a die that no context reserves; those without a descriptor first. -/
def State.freeCoresOf (s : State) (die : Nat) : List Nat :=
  let l := (dieCores die).filter (fun n => s.unfenced n && (s.reserver n).isNone)
  let busy := s.coresBusy
  l.filter (fun n => !(busy.contains n)) ++ l.filter busy.contains

/-- Is a cluster free for a class C reservation: in service, and none of it reserved? A core of it that is fenced by itself does
not bar the cluster: that is the model's choice (log entry 117). -/
def State.freeCluster (s : State) (g : Nat) : Bool :=
  (s.clu g).rst == 0 && (s.die (g / 8)).st == 0
    && (List.range 8).all (fun k => (s.reserver (8 * g + k)).isNone)

/-- The clusters that a mask names. -/
def maskClus (m : Nat) : List Nat := (List.range 32).filter m.testBit

/-- Is the reservation value valid for the class (0x0314 at Open)? -/
def State.rsvValid (s : State) (c r : Nat) : Bool :=
  match s.cls c with
  | 0 => within r 1 8
  | 1 => r != 0 && decide (r < 2 ^ 32) && (maskClus r).all (fun g => g / 8 == s.home c)
  | _ => r == 0

/-- Are the cores or clusters of the value free and unfenced (0x0310)? -/
def State.rsvFree (s : State) (c r : Nat) : Bool :=
  match s.cls c with
  | 0 => decide (r ≤ (s.freeCoresOf (s.home c)).length) && decide (r ≤ (s.freeCoresOf (s.shadowDie c)).length)
  | 1 => (maskClus r).all s.freeCluster
  | _ => true

/-- How a reservation is judged at its write (R62): against the clusters reserved, and the free cores of the dies. -/
def State.rsvWritable (s : State) (c r : Nat) : Bool :=
  match s.cls c with
  | 0 => s.rsvFree c r
  | 1 => (maskClus r).all (fun g => (List.range 8).all (fun k => (s.reserver (8 * g + k)).isNone))
  | _ => true

/-! ### Open -/

/-- Hub SRAM outside the staging SRAM (R53, R325). -/
def hubRange (o n : Nat) : Bool := decide (o + n ≤ 0x1800000)

def State.ringRange (s : State) (c : Nat) : Nat × Nat := (s.od 0x5000 9 c, s.od 0x5000 0x0A c * 64)

/-- The conditions of R53 on ring, completion area, fallback record and dies. -/
def State.openConfig (s : State) (c : Nat) : Bool :=
  let (rb, rn) := s.ringRange c
  let size := s.od 0x5000 0x0A c
  rb % 64 == 0 && within size 16 4096 && (List.range 13).any (fun k => size == 2 ^ k)
    && hubRange rb rn && hubRange (s.od 0x5000 0x0B c) (s.od 0x5000 0x0C c) && hubRange (s.od 0x5000 0x0D c) 32
    && s.od 0x5000 0x0C c % 32 == 0 && within (s.od 0x5000 0x0C c) 32 1048576
    && s.ctxs.all (fun p => p.1 == c || decide (p.2.st = .closed)
        || !(overlap rb rn (s.ringRange p.1).1 (s.ringRange p.1).2))
    && (s.die (s.home c)).st != 2
    && (s.cls c != 0 || (s.shadowDie c != s.home c && (s.die (s.shadowDie c)).st != 2))

/-- The minimum shares of the open D contexts homed on a die, context `c` apart. -/
def State.shares (s : State) (die c : Nat) : Nat :=
  natSum (fun p => if p.1 ≠ c ∧ p.2.st ≠ .closed ∧ s.cls p.1 = 3 ∧ s.home p.1 = die then s.od 0x5000 0x16 p.1 else 0) s.ctxs

/-- DRAM footprints of P, D and B contexts that can never be freed on demand (R273). -/
def State.stuckFoot (s : State) : Nat :=
  natSum (fun p => if p.2.inMem ∧ p.2.addr < 2 ^ 36 ∧ ¬ s.isSC p.2.owner ∧ (p.2.kind = 4 ∨ p.2.kind = 5 ∨ p.2.kind = 8)
    then p.2.foot else 0) s.objs
  + natSum (fun p => if p.2.refs = 65535 ∧ p.2.backed ∧ ¬ s.isSC p.2.owner then kib64 else 0) s.pages

/-- May the pool-memory reservation of a class S or C context be set aside (R273)? -/
def State.poolOk (s : State) (c : Nat) : Bool :=
  if s.isSC c then
    let all := natSum (fun p => p.2.pool) s.ctxs + s.od 0x5000 0x17 c
    decide (all ≤ s.od 0x2400 3) && decide (all * mib + s.stuckFoot ≤ 64512 * mib)
  else true

/-- The monitors allow the Open: R380 for class S, R384 for P, D and B. -/
def State.monitorsOk (s : State) (c : Nat) : Bool :=
  if s.cls c = 0 then (List.range 64).any (fun i => s.monOf i c 1)
  else s.cls c == 1 || !(s.watched c)

/-- The first status that refuses an Open; the order among the checks is the model's (log entry 70). -/
def State.openCheck (s : State) (c : Nat) : Option Nat :=
  let r := s.od 0x5000 0x15 c
  firstFail
    [(decide ((s.ctx c).st = .closed), 0x030D), (s.openConfig c, 0x0314), (s.rsvValid c r, 0x0314),
     (s.monitorsOk c, 0x0314), (s.rsvFree c r, 0x0310),
     (s.cls c != 3 || decide (s.shares (s.home c) c + s.od 0x5000 0x16 c ≤ 500), 0x0310), (s.poolOk c, 0x0310)]

/-- CONTEXT_OPEN. -/
def State.openContext (s : State) (c : Nat) : State × Nat :=
  match s.openCheck c with
  | some st => (s, st)
  | none =>
    let r := s.od 0x5000 0x15 c
    let die := s.home c
    let now := s.dspTime die
    let d := s.die die
    let cores := if s.cls c = 0 then (s.freeCoresOf die).take r ++ (s.freeCoresOf (s.shadowDie c)).take r else []
    let x : Ctx :=
      { Ctx.zero with
        st := .opened, rsv := cores, rsvCl := if s.cls c = 1 then maskClus r else [],
        pool := if s.isSC c then s.od 0x5000 0x17 c else 0, periodAt := now, quota := s.od 0x5000 0x13 c,
        period := s.od 0x5000 0x14 c, remain := s.od 0x5000 0x13 c }
    let s := s.setCtx c x
    let owed := if s.cls c = 3 then s.owedFor c die (d.windowAt + d.windowLen - now) else 0
    ((s.setCtx c { x with owed := owed }).openWindows c, 0)

/-! ### Pause, Resume, Flush -/

def State.pauseContext (s : State) (c : Nat) : State × Nat :=
  let x := s.ctx c
  if x.st = .opened then (s.setCtx c { x with st := .paused }, 0) else (s, 0x030D)

def State.resumeContext (s : State) (c : Nat) : State × Nat :=
  let x := s.ctx c
  if x.st = .paused then (s.setCtx c { x with st := .opened }, 0) else (s, 0x030D)

/-- Flush (R52): what is on the wait list ends 0x0406; C becomes P. -/
def State.flushContext (s : State) (c : Nat) : State × Nat :=
  let x := s.ctx c
  if x.st = .opened ∨ x.st = .paused then
    let s := s.endWhere (fun d => d.ctx == c && decide (d.st ≠ .running)) 0x0406 0x08
    (s.setCtx c { x with st := .paused, cons := x.prod }, 0)
  else (s, 0x030D)

/-! ### Close (R485) -/

def State.closable (s : State) (c : Nat) : Bool :=
  match (s.ctx c).st with
  | .closed => false
  | .opened => !(s.descs.any (fun p => p.2.ctx == c))
  | .paused => !(s.descs.any (fun p => p.2.ctx == c))
  | .fenced => (s.die (s.home c)).st == 2
  | .poisoned => true

/-- The maps that a closing context defined retire, and are undefined once their pins end. -/
def closeMap (c : Nat) (s : State) (p : Nat × SdMap) : State :=
  if p.2.owner = c ∧ p.2.st ≠ .undef then mapRetireFree (s.setMap p.1 { s.sdMap p.1 with st := .retiring }) p.1 else s

/-- A staging request that names the context ends. -/
def closeAper (c : Nat) (s : State) (p : Nat × Aper) : State :=
  if p.2.ctx = c ∧ ¬ p.2.boot then
    if p.2.st = 1 ∨ p.2.st = 3 ∨ p.2.st = 4 then s.leaveAper p.1 6 0x04C0
    else if p.2.st = 2 then s.leaveAper p.1 0 0
    else s
  else s

def State.closeContext (s : State) (c : Nat) : State × Nat :=
  if !(s.closable c) then (s, 0x030D)
  else
    let s := s.strs.foldl (fun s p => if p.2.owner = c ∧ p.2.st ≠ .free then s.endStream p.1 else s) s
    let s := s.objs.foldl (fun s p => if p.2.owner = c ∧ p.2.st ≠ .destroying then destroyObj s p.1 else s) s
    let s := s.maps.foldl (closeMap c) s
    let s := s.apers.foldl (closeAper c) s
    let s := s.setCtx c { s.ctx c with st := .closed, rsv := [], rsvCl := [], pool := 0 }
    (s.sweepHolds, 0)

/-- A context command (0x5000:03). -/
def State.ctxCommand (s : State) (c v : Nat) : State × Nat :=
  match v with
  | 1 => s.openContext c
  | 2 => s.pauseContext c
  | 3 => s.resumeContext c
  | 4 => s.flushContext c
  | _ => s.closeContext c

end Sys2Proof.Machine
end

