-- ==== Sys2Proof/Machine/Fabric.lean ====
section
/-! DEFINITION. The fabric and the recovery sequencer: fences, resets, replay, die recovery, crash records, Barista
restarts, links, routers (chapters 12 and 16). -/

namespace Sys2Proof.Machine

/-! ### Events and crash records (R424) -/

/-- Note a sequencer event in the trail. -/
def State.recEvent (s : State) (kind status elem : Nat) : State :=
  { s with rcv := { s.rcv with event := (s.rcv.event + 1) % 2 ^ 32,
                               trail := ((s.recTime, kind, status, elem) :: s.rcv.trail).take 32 } }

def flashByte (o : Nat) : Byte → State → State := fun b s => { s with flash := cellSet 0xFF o b s.flash }

/-- Erase `n` bytes of unit flash from `o`. -/
def State.eraseFlash (s : State) (o n : Nat) : State := { s with flash := cellClear o n s.flash }

/-- What a crash record says. -/
structure Crash where
  kind : Nat
  status : Nat
  die : Nat
  ctx : Nat
  core : Nat
  phys : Nat
  detail : Nat
deriving DecidableEq, Repr

def Crash.of (kind status : Nat) : Crash :=
  { kind := kind, status := status, die := 0xFF, ctx := 0xFFFF, core := 0xFFFF, phys := 0xFF, detail := 0 }

/-- The bytes of a crash record (Table 16-7). The trail entries' layout and the snapshot's content are given nowhere:
free bytes (log entry 71). -/
def State.crashBytes (s : State) (c : Crash) (r k : Nat) : List Byte :=
  let bar := c.kind == 1 || c.kind == 2 || c.kind == 8
  let n := 64 * s.rcv.trail.length
  toBytes 4 r ++ toBytes 2 c.kind ++ toBytes 2 c.status ++ toBytes 8 s.recTime ++ toBytes 1 s.md.st ++ toBytes 1 c.die
    ++ toBytes 2 c.ctx ++ toBytes 2 c.core ++ toBytes 1 c.phys ++ toBytes 1 0
    ++ toBytes 8 (if c.kind = 1 ∨ c.kind = 2 then Config.free k 0 % 2 ^ 64 else c.detail) ++ toBytes 32 0
    ++ (List.range n).map (fun i => BitVec.ofNat 8 (Config.free k (1 + i))) ++ List.replicate (2048 - n) 0
    ++ (List.range 1980).map (fun i => if bar then BitVec.ofNat 8 (Config.free k (5000 + i)) else 0)
    ++ toBytes 4 r

/-- Write a crash record; the sector after the write position is kept erased. -/
def State.crash (s : State) (c : Crash) : State :=
  let r := (s.rcv.record + 1) % 2 ^ 32
  let slot := (s.rcv.record) % 512
  let (k, s) := s.draw
  let s := s.eraseFlash (0x100000 + (slot / 16 + 1) % 32 * 0x10000) 0x10000
  let s := s.wrFlash (0x100000 + slot * 4096) (s.crashBytes c r k)
  let s := { s with rcv := { s.rcv with record := r }, md := { s.md with crash := true } }
  let (dt, s) := (s.bumpOd 0x2300 0x0A).freeDetail
  s.notice 5 c.status (if c.die < 4 then srcDie c.die else 0) dt

/-- A status that the spec gives to no event: free, of a class of R7. -/
def State.freeStatus (s : State) : Nat × State :=
  let (k, s) := s.draw
  (Config.free k 0 % 0x700, s)

/-- A module state change for which no status is given: its status is free. -/
def State.modFree (s : State) : State :=
  let (z, s) := s.freeStatus
  s.modUpdate z

/-! ### Fencing (R404–R406) -/

/-- A context whose work is stopped without preemption becomes Fenced: what waits ends 0x0404, and a job abort starts
(R304, R406). -/
def State.fenceCtx (s : State) (c : Nat) : State :=
  let x := s.ctx c
  if x.st = .opened ∨ x.st = .paused then
    let s := s.setCtx c { x with st := .fenced, back := x.st }
    let s := s.endWhere (fun d => d.ctx == c && decide (d.st ≠ .running) && d.replays == 0) 0x0404 0x08
    s.startAbort (s.od 0x5000 5 c) (s.home c)
  else s

/-- An operation that writes in place (R102) cannot be replayed. -/
def Desc.inPlace (d : Desc) : Bool := d.op == 0x0010 && d.f 42 6 == d.f 24 6

/-- Hold a descriptor as a suspect: its cores are released (R411). -/
def State.suspectDesc (s : State) (id : Nat) (d : Desc) : State :=
  let s := s.freeCores id d
  s.updDesc id (fun d => { d with st := .stopped, cores := [], replays := 1, since := s.dspTime d.die,
                                  epAt := s.dspTime d.die, reason := 0x08, why := .none, interim := false })

/-- The fate of one running descriptor of a domain that hung: S and C end 0x0403, the others are held. Answers the
suspects. -/
def hangOne (r : State × List Nat) (p : Nat × Desc) : State × List Nat :=
  let (s, l) := r
  let d := p.2
  if d.result.isSome then r
  else
    let s := { s with rcv := { s.rcv with fencing := p.1 :: s.rcv.fencing } }
    if d.cls ≤ 1 ∨ d.inPlace then (s.endDesc p.1 0x0403 0x08, l)
    else (s.suspectDesc p.1 d, l ++ [p.1])

/-- The running descriptors that meet `p`. -/
def State.runningIn (s : State) (p : Desc → Bool) : List (Nat × Desc) :=
  s.descs.filter (fun q => decide (q.2.st = DescSt.running) && p q.2)

def Desc.onCore (n : Nat) (d : Desc) : Bool :=
  d.cores.contains n || (match d.shadow with | some x => x.cores.contains n | none => false)
def Desc.onClus (g : Nat) (d : Desc) : Bool :=
  d.cores.any (fun n => coreClus n == g) || (match d.shadow with | some x => x.cores.any (fun n => coreClus n == g) | none => false)
def Desc.onCle (die : Nat) (d : Desc) : Bool :=
  (d.die == die || d.shadowOn die) && decide (0x0400 ≤ d.op ∧ d.op ≤ 0x04FF)

/-- Reset units: cores 0–255, clusters 256–287, clearance engines 288–291. -/
def Desc.onElem (e : Nat) (d : Desc) : Bool :=
  if e < 256 then d.onCore e else if e < 288 then d.onClus (e - 256) else d.onCle (e - 288)

def elemDie (e : Nat) : Nat := if e < 256 then e / 64 else if e < 288 then (e - 256) / 8 else e - 288

/-- The elements of the test table that an element's reset concerns: a cluster's cores and its solver engine. -/
def elemTests (e : Nat) : List Nat :=
  if 256 ≤ e ∧ e < 288 then (List.range 8).map (fun k => 8 * (e - 256) + k) ++ [e] else [e]

/-- How far the reset of an element is: 0 none, 1 draining, 2 in reset; and its time. -/
def State.elemRst (s : State) (e : Nat) : Nat × Nat :=
  if e < 256 then ((s.core e).rst, (s.core e).drainAt)
  else if e < 288 then ((s.clu (e - 256)).rst, (s.clu (e - 256)).drainAt)
  else ((s.die (e - 288)).cleRst, (s.die (e - 288)).cleDrainAt)

def State.setRst (s : State) (e r : Nat) : State :=
  let t := s.recTime
  if e < 256 then s.setCore e { s.core e with rst := r, drainAt := t }
  else if e < 288 then s.setClu (e - 256) { s.clu (e - 256) with rst := r, drainAt := t }
  else s.setDie (e - 288) { s.die (e - 288) with cleRst := r, cleDrainAt := t }

def State.tst (s : State) (e : Nat) : Tst := AMap.getD e Tst.zero s.isl.tests
def State.setTst (s : State) (e : Nat) (x : Tst) : State :=
  { s with isl := { s.isl with tests := AMap.put Tst.zero e x s.isl.tests } }

/-- A core is fenced: the stream that is Pinned to it becomes Lost (R160). -/
def State.fenceOne (s : State) (n : Nat) : State :=
  (s.setCore n { s.core n with fenced := true }).loseStreams (fun _ x => decide (x.st = .pinned) && x.core == n)

/-- Mark what an element is made of as fenced, or return it to service. -/
def State.setFence (s : State) (e : Nat) (on : Bool) : State :=
  if e < 256 then (if on then s.fenceOne e else s.setCore e { s.core e with fenced := false })
  else if e < 288 then s.setClu (e - 256) { s.clu (e - 256) with slvFenced := on }
  else s.setDie (e - 288) { s.die (e - 288) with cleFenced := on }

/-- Is an element barred from returning: pending remap, or defective for good? -/
def State.barred (s : State) (e : Nat) : Bool :=
  if e < 256 then (s.core e).remap || (s.core e).dead
  else if e < 288 then (s.clu (e - 256)).slvDead else (s.die (e - 288)).cleDead

/-- Fence an element: nothing is placed on it, its slices stop, and its drain begins (R404, R407). -/
def State.fenceElem (s : State) (e : Nat) : State :=
  let s := (elemTests e).foldl (fun s i => (s.setTst i { s.tst i with run := false }).setFence i true) s
  s.setRst e 1

/-- A hang of an element (R401, R405, R411, R413): its work is stopped, its contexts are Fenced, its suspects wait for
their replay. -/
def State.hangElem (s : State) (e level : Nat) : State :=
  let work := s.runningIn (Desc.onElem e)
  let sorted := work.mergeSort (fun a b => decide (a.2.start ≤ b.2.start))
  let s := s.fenceElem e
  let (s, todo) := sorted.foldl hangOne (s, [])
  let s := (sorted.map (fun p => p.2.ctx)).eraseDups.foldl (fun s c => s.fenceCtx c) s
  let h : Hang := { elem := e, die := elemDie e, level := level, todo := todo, now := none, guilty := false,
                    sc := sorted.any (fun p => decide (p.2.cls ≤ 1)) }
  { s with rcv := { s.rcv with hangs := s.rcv.hangs ++ [h] } }

/-- Count a hang (Tables 16-10, 16-11). -/
def State.countHang (s : State) (e : Nat) : State :=
  let s := (s.bumpReg (baseREC + 0x10)).bumpOd 0x2300 1
  if e < 256 then s.bumpOd (0x4000 + e) 0x20 else s

/-- The hang record whose suspect runs on unit `e`. -/
def State.replayOn (s : State) (e : Nat) : Option Hang :=
  s.rcv.hangs.find? (fun h => match h.now with | some p => p.2 == e | none => false)

def State.setHang (s : State) (e : Nat) (f : Hang → Hang) : State :=
  { s with rcv := { s.rcv with hangs := s.rcv.hangs.map (fun h => if h.elem = e then f h else h) } }

def State.dropHang (s : State) (e : Nat) : State :=
  { s with rcv := { s.rcv with hangs := s.rcv.hangs.filter (fun h => h.elem != e) } }

/-! ### Losses at a reset (R409, Table 16-3) -/

/-- Objects whose memory meets `p` are suspect, their content lost. -/
def State.loseObjs (s : State) (p : Obj → Bool) : State :=
  { s with objs := AMap.mapV (fun _ (o : Obj) => if o.inMem && p o then
      { o with suspect := true, badData := false, lost := true, suspectOff := 0 } else o) s.objs }

def clusBase (g : Nat) : Nat := 0x020000000000 + g / 8 * 0x20000000 + 0x04000000 + g % 8 * 0x00400000
def tileBase (n : Nat) : Nat := 0x020000000000 + n / 64 * 0x20000000 + n % 64 * mib
def lakeBase (d : Nat) : Nat := 0x020000000000 + d * 0x20000000 + 0x06000000

def inRange (a lo n : Nat) : Bool := decide (lo ≤ a ∧ a < lo + n)

/-- A core's reset loses its tile store (undefined from now on) and its pinned streams. -/
def State.loseCore (s : State) (n : Nat) : State :=
  let s := s.scribble (tileBase n) mib
  let s := s.loseStreams (fun _ x => decide (x.st = .pinned) && x.core == n)
  s.setCore n { s.core n with last := 16384, pinned := none }

/-- A cluster's reset: its cores, and its SRAM cleared to zero. -/
def State.loseClus (s : State) (g : Nat) : State :=
  let s := (List.range 8).foldl (fun s k => s.loseCore (8 * g + k)) s
  let s := s.loseStreams (fun _ x => (decide (x.st = .resident) || decide (x.st = .moving)) && x.cluster == g)
  let s := { s with mem := cellClear (clusBase g) 0x00400000 s.mem }
  s.loseObjs (fun o => inRange o.addr (clusBase g) 0x00400000)

/-! ### Drain, reset, return (R407–R410, R414) -/

/-- FENCE_DRAIN_END. -/
def State.drainEnd (s : State) (e : Nat) : State := if (s.elemRst e).1 = 1 then s.setRst e 2 else s

/-- Start the sweep an element owes after its reset. -/
def State.oweSweep (s : State) (i : Nat) : State :=
  s.setTst i { s.tst i with slices := 0, run := false, owed := true, tested := false }

/-- Apply a pending remap at a cluster reset: the spare serves the logical core, or the core stays fenced until the
module restarts and bit 2 of the degradation causes is set. -/
def State.applyRemap (s : State) (n : Nat) : State :=
  let g := coreClus n
  let c := s.core n
  if !c.remap then s
  else if (s.clu g).spare = 0 then
    ((s.setCore n { c with slot := 8, remap := false }).setClu g { s.clu g with spare := 2 }).bumpOd 0x2300 8
  else (s.setCore n { c with remap := false, dead := true }).setOd 0x2000 9 (s.od 0x2000 9 ||| 4)

/-- Has a guilty suspect explained the hang of an element? -/
def State.explained (s : State) (e : Nat) : Bool := s.rcv.hangs.any (fun h => h.elem == e && h.guilty)

/-- An explained element returns without a sweep (R409, R412); its record goes once nothing is left to replay. -/
def State.returnElem (s : State) (e : Nat) : State :=
  if s.explained e ∧ (s.elemRst e).1 = 0 then
    let s := (elemTests e).foldl (fun s i =>
      if s.barred i then s else (s.setFence i false).setTst i { s.tst i with run := false, owed := false }) s
    if s.rcv.hangs.any (fun h => h.elem == e && h.todo.isEmpty && h.now.isNone) then s.dropHang e else s
  else s

/-- DOMAIN_RESET_END. -/
def State.resetEnd (s : State) (e : Nat) : State :=
  if (s.elemRst e).1 ≠ 2 then s
  else
    let s := s.setRst e 0
    let s :=
      if e < 256 then
        (((s.loseCore e).bumpReg (baseREC + 0x18)).bumpOd 0x2300 2).bumpOd (0x4000 + e) 0x21
      else if e < 288 then
        let g := e - 256
        let s := s.loseClus g
        let s := (List.range 8).foldl (fun s k => s.applyRemap (8 * g + k)) s
        ((s.bumpReg (baseREC + 0x20)).bumpOd 0x2300 3).bumpOd (0x4100 + g) 0x50
      else (s.bumpReg (baseREC + 0x18)).bumpOd 0x2300 2
    let s := (elemTests e).foldl (fun s i => s.oweSweep i) s
    (s.returnElem e).modFree

/-! ### Poisoning and the end of replays (R412, R413) -/

/-- Poison a context: what waits ends 0x0407, its ring is not read again, and a job abort starts. -/
def State.poison (s : State) (c status n : Nat) : State :=
  let x := s.ctx c
  let s := s.setCtx c { x with st := .poisoned }
  let s := s.endWhere (fun d => d.ctx == c && decide (d.st ≠ .running) && d.replays == 0) 0x0407 0x08
  let s := (s.bumpReg (baseREC + 0x38)).bumpOd 0x2300 6
  let s := s.crash { Crash.of 6 status with ctx := c, core := if n < 256 then n else 0xFFFF, die := s.home c,
                                            phys := if n < 256 then n % 64 / 8 * 9 + (s.core n).slot else 0xFF,
                                            detail := s.od 0x5000 5 c }
  s.startAbort (s.od 0x5000 5 c) (s.home c)

def day : Nat := 86400000000000

/-- A hang without a guilty suspect is unexplained (R413): counted, recorded, reported where S or C work was active; a
second one within 24 hours leaves the element fenced. -/
def State.unexplained (s : State) (h : Hang) : State :=
  let e := h.elem
  let s := s.bumpOd 0x2300 7
  let s := s.crash { Crash.of 7 h.level with die := h.die, core := if e < 256 then e else 0xFFFF,
                                             phys := if e < 256 then e % 64 / 8 * 9 + (s.core e).slot else 0xFF }
  let s := if h.sc then
      let (dt, s) := s.freeDetail
      s.notice 3 h.level (if e < 256 then srcCore e else if e < 288 then srcClus (e - 256) else srcDie (e - 288)) dt
    else s
  let again := match AMap.get? e s.rcv.hist with | some t => decide (s.recTime < t + day) | none => false
  let s := { s with rcv := { s.rcv with hist := AMap.ins e s.recTime s.rcv.hist } }
  let s := if again then
      (if e < 256 then s.setCore e { s.core e with remap := true }
       else if e < 288 then s.setClu (e - 256) { s.clu (e - 256) with slvDead := true }
       else s.setDie (e - 288) { s.die (e - 288) with cleDead := true })
    else s
  s.dropHang e

/-- Judge a hang whose replays have ended. -/
def State.hangDone (s : State) (e : Nat) : State :=
  match s.rcv.hangs.find? (fun h => h.elem == e) with
  | none => s
  | some h =>
    if h.now.isSome ∨ ¬ h.todo.isEmpty then s
    else if h.guilty then s.returnElem e
    else s.unexplained h

/-- Drop the suspects that have ended under R71 or an abort, and judge the hang if none is left. -/
def State.pruneHang (s : State) (e : Nat) : State :=
  let live (id : Nat) : Bool := match s.desc? id with | some d => d.result.isNone | none => false
  let s := s.setHang e (fun h => { h with todo := h.todo.filter live })
  s.hangDone e

/-- A hang of a reset unit, first seen or on a quarantine unit. A guilty suspect ends, its context is Poisoned, and its
quarantine unit is reset and returns without a sweep. -/
def State.hang (s : State) (e level : Nat) : State :=
  let s := (s.countHang e).recEvent 1 level e
  match s.replayOn e with
  | some h =>
    match h.now with
    | none => s
    | some (id, _) =>
      match s.desc? id with
      | none => s
      | some d =>
        let s := s.endDesc id level 0x09
        let s := s.poison d.ctx level e
        let s := s.setHang h.elem (fun h => { h with guilty := true, now := none })
        let s := if e = h.elem then s.fenceElem e
          else
            let s := s.fenceElem e
            { s with rcv := { s.rcv with hangs := s.rcv.hangs ++ [{ elem := e, die := h.die, level := level, todo := [],
                                                                    now := none, guilty := true, sc := false }] } }
        s.returnElem h.elem
  | none => (s.hangElem e level).pruneHang e

/-! ### Die recovery (R416–R418) -/

/-- Everything on a die ends 0x0403; its contexts are Fenced and job aborts start for their jobs. -/
def State.fenceDie (s : State) (d : Nat) : State :=
  let ids := (s.descs.filter (fun p => p.2.die == d && p.2.result.isNone)).map (fun p => p.1)
  let s := { s with rcv := { s.rcv with fencing := ids.reverse ++ s.rcv.fencing } }
  let s := s.endWhere (fun x => x.die == d) 0x0403 0x08
  s.ctxs.foldl (fun s p => if s.home p.1 = d then s.fenceCtx p.1 else s) s

/-- What is in a die's SRAM is lost, the lake undefined from now on; requests of apertures to its DRAM end 0x05A5. -/
def State.loseDie (s : State) (d : Nat) : State :=
  let s := (dieClus d).foldl (fun s g => s.loseClus g) s
  let s := s.scribble (lakeBase d) (16 * mib)
  let s := s.loseObjs (fun o => inRange o.addr (lakeBase d) (16 * mib))
  s.apers.foldl (fun s p =>
    if (p.2.st = 1 ∨ p.2.st = 3 ∨ p.2.st = 4) ∧ ¬ p.2.boot
        ∧ (s.diesOf ⟨(s.obj p.2.handle).addr, (s.obj p.2.handle).size, false, false⟩).contains d
    then s.leaveAper p.1 6 0x05A5 else s) s

/-- The links of a die, in the order hub, peers ascending. -/
def linksOf (d : Nat) : List Nat := d :: ([0, 1, 2, 3].filter (· ≠ d)).map (peerLink d)

def linkDies (l : Nat) : List Nat :=
  if l < 4 then [l] else match l with | 4 => [0, 1] | 5 => [0, 2] | 6 => [0, 3] | 7 => [1, 2] | 8 => [1, 3] | _ => [2, 3]

/-- Change a link's state, with the event notice of R484. -/
def State.linkState (s : State) (l st : Nat) : State :=
  let x := s.link l
  if x.st = st then s
  else
    let s := s.setLink l { x with st := st }
    let s := if l < 4 ∧ 2 ≤ st ∧ x.st < 2 then s.linkBack l else s
    let ds := linkDies l
    s.notice 4 (if st = 0 then 0x05B1 else 0) (srcDie (ds.headD 0))
      (toBytes 1 (if l < 4 then 1 else 0) ++ toBytes 1 (ds.headD 0) ++ toBytes 1 (ds.getD 1 0xFF) ++ toBytes 1 st)

/-- A link enters retraining (R299). -/
def State.retrain (s : State) (l : Nat) : State :=
  let s := (linkDies l).foldl (fun s d => s.bumpOd (0x4200 + d) 0x78) s
  let s := s.setLink l { s.link l with times := [], consec := 0 }
  s.linkState l 1

/-- Reset every unit of a die: fences and resets in progress are absorbed. The doorbells on their way to its dispatcher are kept
as the recovery's own are, the last value only (Table 16-5); its dispatcher's unsent interim records are gone, and the values of
its counter are void for the aborts it started (R22). -/
def State.clearDie (s : State) (d : Nat) : State :=
  let s := (dieCores d).foldl (fun s n => s.setCore n { s.core n with rst := 0, drainAt := 0 }) s
  let s := (dieClus d).foldl (fun s g => s.setClu g { s.clu g with rst := 0, drainAt := 0, gated := false, unc := [] }) s
  let x := s.die d
  let s := s.setDie d { x with cleRst := 0, cleDrainAt := 0, head := none, allow := [], check := none, doors := [], notes := [],
                               kept := x.doors.foldl (fun k p => AMap.put 0 p.1 (p.2 + 1) k) x.kept }
  { s with rcv := { s.rcv with hangs := s.rcv.hangs.filter (fun h => h.die != d) },
           aborts := AMap.mapV (fun _ (a : Abort) => if a.origin = d then { a with orphan := true } else a) s.aborts }

/-- Die recovery starts (steps 1 and 2 of Table 16-5). -/
def State.startRecovery (s : State) (d status : Nat) : State :=
  if (s.die d).st ≠ 0 then s
  else
    let s := s.setDie d { s.die d with st := 1, recAt := s.recTime, running := false }
    let s := ((s.bumpReg (baseREC + 0x28)).bumpOd 0x2300 4).bumpOd (0x4200 + d) 0x80
    let s := s.recEvent 2 status d
    let s := (s.fenceDie d).clearDie d
    let s := s.loseDie d
    let s := s.crash { Crash.of 3 status with die := d }
    let s := (linksOf d).foldl (fun s l => s.retrain l) s
    s.modUpdate status

/-- The counters of a die and of its routers count since its die last left reset (R113, R205, R308). -/
def State.zeroFabric (s : State) (d : Nat) : State :=
  let s := [0x20, 0x21, 0x22, 0x50, 0x62, 0x74, 0x75, 0x76, 0x77, 0x78, 0x7A, 0x7B, 0x7C].foldl (fun s i => s.setOd (0x4200 + d) i 0) s
  (dieClus d).foldl (fun s g => (s.setOd (0x4100 + g) 0x31 0).setOd (0x4100 + g) 0x32 0) s

/-- The dispatcher's registers at reset. -/
def State.resetDsp (s : State) (d : Nat) : State :=
  { s with regs := AMap.keep (fun a _ => !(inRange a (baseDSP d) 0x10000)) s.regs }

/-- The width that `f` failed lanes leave a link with, 0 for down (R300). -/
def laneState (l f : Nat) : Nat :=
  let n := if l < 4 then 32 else 64
  if f = 0 then 2 else if f ≤ 2 then 3 else if f ≤ n / 2 then 4 else 0

/-- A die is out of service (R417), with a status of a class of R7. -/
def State.outOfService (s : State) (d status : Nat) : State :=
  if (s.die d).st ≠ 1 ∨ 0x700 ≤ status then s
  else
    let s := s.setDie d { s.die d with st := 2, kept := [] }
    let s := (s.setOd 0x2000 9 (s.od 0x2000 9 ||| 2)).setOd (0x4200 + d) 0x83 status
    let s := s.setOd (0x4200 + d) 0x81 ((s.recTime - (s.die d).recAt) / 1000000 % 2 ^ 32)
    let s := s.recEvent 4 status d
    let s := (linksOf d).foldl (fun s l => s.linkState l 0) s
    (s.crash { Crash.of 5 status with die := d }).modUpdate status

/-- Every element of a die after its sweeps: those of `bad` failed, the others are tested and in service. -/
def State.dieSwept (s : State) (d : Nat) (bad : List Nat) : State :=
  let elems := dieCores d ++ (dieClus d).map (fun g => 256 + g) ++ [288 + d]
  let s := elems.foldl (fun s i =>
    if bad.contains i then
      let s := (s.setFence i true).setTst i { s.tst i with run := false, slices := 0, tested := false, owed := false }
      if i < 256 then s.setCore i { s.core i with remap := true } else s
    else if s.barred i then s
    else (s.setFence i false).setTst i { s.tst i with run := false, slices := 0, owed := false, tested := true,
                                                      at_ := s.safTime }) s
  s

/-- DIE_RECOVERY_END: the steps have passed, with `lanes` failed lanes on each link of the die, hub link first, and the
elements of `bad` failing their sweeps. -/
def State.recoveryEnd (s : State) (d : Nat) (lanes bad : List Nat) : State :=
  let x := s.die d
  if x.st ≠ 1 ∨ s.descs.any (fun p => p.2.die = d) then s
  else if x.recAt + 4000000000 < s.recTime ∨ laneState d (lanes.getD 0 0) = 0 then s.outOfService d 0x05B1
  else
    let s := ((List.range 4).zip (linksOf d)).foldl (fun s p =>
      let st := laneState p.2 (lanes.getD p.1 0)
      let s := s.setLink p.2 { s.link p.2 with tries := 0 }
      let s := s.linkState p.2 st
      if st = 0 then s.setOd 0x2000 9 (s.od 0x2000 9 ||| 1) else s) s
    let s := (dieCores d).foldl (fun s n => s.applyRemap n) s
    let s := s.dieSwept d bad
    let ms := (s.recTime - x.recAt) / 1000000
    let s := ((s.zeroFabric d).setOd (0x4200 + d) 0x81 (ms % 2 ^ 32)).setOd (0x4200 + d) 0x83 0
    let s := s.resetDsp d
    let kept := (s.die d).kept
    let s := s.setDie d { s.die d with st := 0, running := true, windowAt := 0, windowLen := s.od 0x2A00 2, kept := [] }
    let s := s.ctxs.foldl (fun s p => if s.home p.1 = d then
        (s.setCtx p.1 { s.ctx p.1 with periodAt := 0, used := 0, owed := 0 }).unfence p.1 else s) s
    let s := kept.foldl (fun s p => s.knock p.1 (p.2 - 1)) s
    let s := { s with isl := { s.isl with gone := s.isl.gone.filter (· ≠ d) } }
    let s := s.crash { Crash.of 4 0 with die := d }
    (s.recEvent 3 0 d).modFree

/-! ### Escalation, replay -/

def resetTime (e : Nat) : Nat := if 256 ≤ e ∧ e < 288 then 150000 else 20000

/-- RESET_ESCALATION (R410). -/
def State.escalate (s : State) (e : Nat) : State :=
  if (s.elemRst e).1 = 2 ∧ (s.elemRst e).2 + 10 * resetTime e ≤ s.recTime then
    if e < 256 then
      let level := match s.rcv.hangs.find? (fun h => h.elem == e) with | some h => h.level | none => 0x05F0
      s.hangElem (256 + coreClus e) level
    else s.startRecovery (elemDie e) 0x05F0
  else s

/-- The quarantine unit for a suspect: the core it is replayed on, and the element set aside (R411). -/
def State.quarantine (s : State) (h : Hang) (d : Desc) : Option (List Nat × Nat) :=
  let free := (s.sharedCores h.die).filter (s.coreFree 2 s.coresBusy)
  match s.unitOf d with
  | .clearance => if (s.die h.die).cleRst = 0 then some ([], 288 + h.die) else none
  | .carafe => some ([], h.elem)
  | .solver =>
    let eng := s.enginesBusy
    let g := (dieClus h.die).find? (fun g => 256 + g != h.elem && !((s.clu g).slvFenced) && !(eng.contains g)
      && !(s.quarantined.contains (256 + g)) && (List.range 8).all (fun k => (s.reserver (8 * g + k)).isNone)
      && free.any (fun n => coreClus n == g))
    g.bind (fun g => (free.find? (fun n => coreClus n == g)).map (fun n => ([n], 256 + g)))
  | .cores => (free.head?).map (fun n => ([n], n))

/-- REPLAY_START: the oldest suspect of the hang of element `e` starts again, alone, with gang 1. -/
def State.replayStart (s : State) (e : Nat) : State :=
  let s := s.pruneHang e
  match s.rcv.hangs.find? (fun h => h.elem == e) with
  | none => s
  | some h =>
    match h.todo with
    | [] => s
    | id :: t =>
      if h.now.isSome ∨ (s.elemRst e).1 ≠ 0 then s
      else match s.desc? id with
        | none => s
        | some d =>
          match s.quarantine h d with
          | none => s
          | some (cores, u) =>
            let s := s.setHang e (fun h => { h with todo := t, now := some (id, u) })
            let s := (s.bumpReg (baseREC + 0x30)).bumpOd 0x2300 5
            let s := s.enterRun id cores
            s.updDesc id (fun d => { d with replays := 2, stage := if d.op = 0x0300 ∨ d.op = 0x0310 then 0 else d.stage })

/-- REPLAY_OUTCOME: `how` is 0 where the suspect has completed, 1 where the ladder fires again, else it ends on a
fabric timeout or a tier fault, whose status `how` chooses. Its final record is written at once. -/
def State.replayOutcome (s : State) (e how energy : Nat) : State :=
  match (s.rcv.hangs.find? (fun h => h.elem == e)).bind (fun h => h.now.map (fun p => (h, p))) with
  | none => s
  | some (h, id, u) =>
    if how = 1 then ((s.hang u h.level).finalRecord id energy).pruneHang e
    else
      let s := if how = 0 then s else s.endDesc id (xferFault (how - 1)) 0x09
      match s.desc? id with
      | some d =>
        if d.result.isNone then s
        else
          let s := s.finalRecord id energy
          (s.setHang e (fun h => { h with now := none })).pruneHang e
      | none => (s.setHang e (fun h => { h with now := none })).pruneHang e

/-! ### Fences by command or for a remap (Table 16-2, R415, R426) -/

/-- The work running in a domain when it is fenced by command or for a reset: S and C end 0x0403, the others are
preempted first, each with the save area the pool can hold. -/
def State.yieldElem (s : State) (e : Nat) : State :=
  let work := (s.runningIn (Desc.onElem e)).filter (fun p => p.2.result.isNone)
  let sc := work.filter (fun p => p.2.cls ≤ 1)
  let s := sc.foldl (fun s p =>
    (({ s with rcv := { s.rcv with fencing := p.1 :: s.rcv.fencing } }).endDesc p.1 0x0403 0x08)) s
  let s := (sc.map (fun p => p.2.ctx)).eraseDups.foldl (fun s c => s.fenceCtx c) s
  (work.filter (fun p => 2 ≤ p.2.cls)).foldl (fun s p =>
    (s.updDesc p.1 (fun d => { d with why := .reset })).gangStop p.1 (p.2.cores.length * mib)) s

/-- Is an element of a die in service and not already in a reset? -/
def State.resettable (s : State) (e : Nat) : Bool :=
  (s.die (elemDie e)).st == 0 && (s.elemRst e).1 == 0
    && (decide (256 ≤ e) || (s.clu (coreClus e)).rst == 0)

/-- Core command 1: fence, drain, reset, sweep. -/
def State.resetCore (s : State) (n : Nat) : State × Nat :=
  if s.resettable n then ((s.yieldElem n).fenceElem n, 0) else (s, 0x03F0)

/-- Core command 2: fence, pending remap. -/
def State.fenceCore (s : State) (n : Nat) : State × Nat :=
  if s.resettable n ∧ ¬ (s.core n).remap ∧ ¬ (s.core n).dead then
    let s := (s.yieldElem n).fenceOne n
    (s.setCore n { s.core n with remap := true }, 0)
  else (s, 0x03F0)

/-- The cluster reset command. -/
def State.resetClus (s : State) (g : Nat) : State × Nat :=
  if s.resettable (256 + g) then ((s.yieldElem (256 + g)).fenceElem (256 + g), 0) else (s, 0x03F0)

/-- REMAP_CLUSTER_RESET (R415): an unreserved cluster with a pending remap and an unused spare. -/
def State.remapReset (s : State) (g : Nat) : State :=
  let cores := (List.range 8).map (fun k => 8 * g + k)
  if cores.any (fun n => (s.core n).remap) ∧ cores.all (fun n => (s.reserver n).isNone) then (s.resetClus g).1 else s

/-- The die recovery command: a start, or one retry of an out-of-service die per module start. -/
def State.recoverDie (s : State) (d : Nat) : State × Nat :=
  let x := s.die d
  if x.st = 0 then (s.startRecovery d 0, 0)
  else if x.st = 2 ∧ ¬ x.retried then
    let s := s.setDie d { x with st := 0, retried := true }
    ((s.setOd 0x2000 9 (s.od 0x2000 9 &&& (0xFFFFFFFF ^^^ (if [0, 1, 2, 3].any (fun e => e != d && (s.die e).st == 2)
      then 0 else 2)))).startRecovery d 0, 0)
  else (s, 0x03F0)

/-! ### Barista (R419) -/

/-- Barista fails: crash record of `kind`, and a restart unless three restarts lie within the last 10 minutes. -/
def State.baristaDown (s : State) (kind st : Nat) : State :=
  let recent := s.rcv.halted || decide (3 ≤ (s.md.restarts.filter (fun t => decide (s.recTime < t + 600000000000))).length)
  let (z, s) := s.freeStatus
  let s := { s with md := { s.md with barista := if recent then 4 else st,
                                      restarts := if recent then s.md.restarts else (s.recTime :: s.md.restarts).take 3 },
                    rcv := { s.rcv with halted := recent } }
  let s := s.crash (Crash.of kind z)
  if recent then s
  else ({ s with md := { s.md with at_ := 0, beatAt := 0 } }.setReg keyBarista 0).bumpOd 0x2300 9

/-- BARISTA_HEARTBEAT_LOSS: 10 ms without a step. -/
def State.heartbeatLoss (s : State) : State :=
  if s.md.barista = 0 ∧ s.rcv.beatAt + 10000000 ≤ s.recTime then (s.recEvent 5 0 260).baristaDown 2 2 else s

/-- BARISTA_CRASH. -/
def State.baristaCrash (s : State) : State := if s.md.barista = 0 then (s.recEvent 6 0 260).baristaDown 1 4 else s

/-- HUB_UNCORRECTABLE_FAULT: Barista is halted until the module restarts. -/
def State.hubFault (s : State) : State :=
  let s := s.recEvent 7 0 260
  let (z, s) := s.freeStatus
  let s := { s with md := { s.md with barista := 4 }, rcv := { s.rcv with halted := true } }
  s.crash (Crash.of 8 z)

/-- BARISTA_RESTART_COMPLETE: Barista leaves its reset, its counter at zero (R22), runs again and sends what it owes. -/
def State.baristaUp (s : State) : State :=
  if s.md.barista ≠ 0 ∧ ¬ s.rcv.halted ∧ 3 ≤ s.md.st then
    let s := { s with md := { s.md with barista := 0, at_ := 0, beatAt := 0 }, rcv := { s.rcv with beatAt := s.recTime } }
    ((s.setReg keyBarista 0).payNotices).modUpdate 0
  else s

/-- BARISTA_HEARTBEAT_TICK: every 1 ms while Barista runs. -/
def State.heartbeat (s : State) : State :=
  if s.md.barista = 0 ∧ s.md.beatAt + 1000000 ≤ s.barTime then
    { s with md := { s.md with beat := (s.md.beat + 1) % 2 ^ 32, beatAt := s.barTime },
             rcv := { s.rcv with beatAt := s.recTime } }
  else s

/-! ### Links and routers (R295, R297–R301) -/

/-- The retry counter entry of link `l` at die `d`. -/
def retryEntry (l d : Nat) : Nat :=
  if l < 4 then 0x74
  else 0x75 + (([0, 1, 2, 3].filter (· ≠ d)).map (peerLink d)).findIdx (· == l)

/-- FLIT_REPLAY: one replay on a link; `same` says that the same flit failed again. -/
def State.flitReplay (s : State) (l : Nat) (same : Bool) : State :=
  let x := s.link l
  if x.st < 2 then s
  else
    let now := s.dspTime ((linkDies l).headD 0)
    let s := (linkDies l).foldl (fun s d => s.bumpOd (0x4200 + d) (retryEntry l d)) s
    let times := (now :: x.times).filter (fun t => decide (now < t + 1000000))
    let consec := if same then x.consec + 1 else 1
    let s := s.setLink l { x with times := times, consec := consec }
    if 16 ≤ times.length ∨ 4 ≤ consec then s.retrain l else s

/-- RECEIVER_LOSS_OF_LOCK. -/
def State.lossOfLock (s : State) (l : Nat) : State := if 2 ≤ (s.link l).st then s.retrain l else s

/-- LINK_RETRAIN_END with `f` failed lanes in the worse direction (more than half: the link does not train). A down
link is retrained up to 3 times; then die recovery starts. -/
def State.retrainEnd (s : State) (l f : Nat) : State :=
  let x := s.link l
  if x.st = 1 ∨ (x.st = 0 ∧ 1 ≤ x.tries ∧ x.tries ≤ 3) then
    let s := if x.st = 0 then (linkDies l).foldl (fun s d => s.bumpOd (0x4200 + d) 0x78) s else s
    let st := laneState l f
    if st = 0 then
      let s := (s.setLink l { x with tries := x.tries + 1 }).linkState l 0
      if x.tries = 3 then s.startRecovery ((linkDies l).foldl max 0) 0x05B1 else s
    else (s.setLink l { x with tries := 0 }).linkState l st
  else s

/-- A retrain command of mask `m` at die `d` (0x4200+d:79). -/
def State.retrainCommand (s : State) (d m : Nat) : State :=
  ((List.range 4).zip (linksOf d)).foldl (fun s p => if m.testBit p.1 ∧ 2 ≤ (s.link p.2).st then s.retrain p.2 else s) s

/-- ROUTER_ECC_ERROR at cluster `g`: corrected errors are counted; an uncorrectable one ends the request of descriptor
`id`, and the fourth within 1 s starts die recovery. -/
def State.routerError (s : State) (g id : Nat) (corrected : Bool) : State :=
  if corrected then s.bumpOd (0x4100 + g) 0x31
  else
    let now := s.dspTime (g / 8)
    let s := s.bumpOd (0x4100 + g) 0x32
    let s : State := match s.desc? id with
      | some d => if d.st = .running then s.endDesc id 0x05B2 0x09 else s
      | none => s
    let unc := (now :: (s.clu g).unc).filter (fun t => decide (now < t + 1000000000))
    let s := s.setClu g { s.clu g with unc := unc }
    if 4 ≤ unc.length then s.startRecovery (g / 8) 0x05B2 else s

/-- Does an address lie in a fenced core's tile store, or in a cluster that is in reset (R295)? -/
def State.fencedAt (s : State) (a : Nat) : Bool :=
  if 0x020000000000 ≤ a ∧ a < 0x020080000000 then
    let d := (a - 0x020000000000) / 0x20000000
    let o := a % 0x20000000
    if o < 0x04000000 then
      let n := 64 * d + o / mib
      (s.core n).fenced || (s.core n).rst != 0 || (s.clu (coreClus n)).rst != 0
    else if o < 0x06000000 then (s.clu (8 * d + (o - 0x04000000) / 0x00400000)).rst != 0
    else false
  else false

/-- FENCE_RESPONSE: the request of a running descriptor to a fenced domain ends it 0x0404; its write is discarded. -/
def State.fenceResponse (s : State) (id a : Nat) : State :=
  match s.desc? id with
  | some d => if d.st = .running ∧ s.fencedAt a then s.endDesc id 0x0404 0x08 else s
  | none => s

/-- The tier faults of a descriptor's access, in the order of their codes. -/
def tierFault (k : Nat) : Nat :=
  match k with | 0 => 0x05A0 | 1 => 0x05A1 | 2 => 0x05A2 | 3 => 0x05A5 | 4 => 0x05A6 | _ => 0x05A7

/-- What held `a` has met an error: its object or page is marked suspect (R283). A data error loses the stream whose slots or
backing hold `a`; a late access, or a die in recovery, records none. -/
def State.markAt (s : State) (a : Nat) (data : Bool) : State :=
  let at_ (x : Strm) : Bool :=
    (x.st == .resident && inRange a x.slotAddr (8192 * x.slots))
      || (x.st == .swapped && (s.obj x.obj).kind == 4 && inRange a (s.obj x.obj).addr (s.obj x.obj).size)
  (if data then s.loseStreams (fun _ x => at_ x) else s).suspectAt a data

/-- The engine of a solver descriptor that an uncorrectable error concerns: the one whose work area holds `a`; from `k = 6` on the
error is in the engine itself, the `k - 6`th of the descriptor (R180). -/
def solverHit (d : Desc) (a k : Nat) : Option Nat :=
  if k = 0 then (engines d).find? (fun g => inRange a (workBase d g) (workSize d))
  else if 6 ≤ k then (engines d)[k - 6]? else none

/-- Does `a` lie in the pool of a map? -/
def State.poolAt (s : State) (a : Nat) : Bool :=
  s.maps.any (fun p => decide (p.2.st ≠ .undef) && inRange a p.2.pool (poolBytes p.2.bricks p.2.spare))

/-- TIER_FAULT: the access of a running descriptor to address `a` fails with one of the tier faults (R282); an uncorrectable
error in a solver engine or its work area ends it 0x0560 (R180), one in a map brick or the clearance engine 0x0576 (R204), with
undefined results. Of a descriptor without an engine `k` from 6 on means nothing. -/
def State.tierFaultAt (s : State) (id a k : Nat) : State :=
  match s.desc? id with
  | some d =>
    if d.st ≠ .running ∨ d.result.isSome then s
    else if (d.op = 0x0300 ∨ d.op = 0x0310) ∧ ((solverHit d a k).isSome ∨ 6 ≤ k) then
      match solverHit d a k with
      | some g =>
        let s := (s.endDesc id 0x0560 0x09).bumpReg (baseSLV g + 0x28)
        if k = 0 then s.markAt a true else s
      | none => s
    else if 0x0400 ≤ d.op ∧ d.op ≤ 0x04FF ∧ (6 ≤ k ∨ (k = 0 ∧ s.poolAt a = true)) then
      let s := cleFault (cleUndo s id d) id d
      if k = 0 then s.markAt a true else s
    else if 6 ≤ k then s
    else (s.endDesc id (tierFault k) 0x09).markAt a (k ≠ 2 ∧ k ≠ 3)
  | none => s

/-- Is the link from die `home` to the die that holds address `a` down? -/
def State.peerDown (s : State) (home a : Nat) : Bool := s.cutOff home ⟨a, 1, false, false⟩

/-- FABRIC_REQUEST_TIMEOUT: `level` is 0 die SRAM, 1 local DRAM, 2 peer die, 3 hub SRAM, 4 register page, 5 cold tier; `a` the
module address of the access, which names the link of a peer's. A late access to memory marks its object, without an error
(R283). -/
def State.requestTimeout (s : State) (id level a : Nat) : State :=
  match s.desc? id with
  | some d =>
    if d.st = .running ∧ d.result.isNone then
      let st := if level = 4 then 0x05F2 else if level = 2 ∧ s.peerDown d.die a then 0x05B1 else 0x05A2
      let s := s.endDesc id st 0x09
      if st = 0x05A2 then s.markAt a false else s
    else s
  | none => s

/-! ### Core mailboxes (R420–R422) -/

def State.coreBox (s : State) (n : Nat) : Mbox := AMap.getD n Mbox.zero s.rcv.mboxes

/-- CORE_MAILBOX_WRITE. -/
def State.coreMessage (s : State) (n w : Nat) : State :=
  if n < 256 then
    let b := s.coreBox n
    { s with rcv := { s.rcv with mboxes := AMap.put Mbox.zero n (b.write (w % 2 ^ 512)) s.rcv.mboxes } }
  else s

end Sys2Proof.Machine
end

