-- ==== Sys2Proof/Machine/Od.lean ====
section
/-! DEFINITION. The entries of the object dictionary: index, subindex, size, access, authority and the condition of
each, as the entries' tables give them (Tables 00-2, 01-3, 01-12, 02-6, 03-14, 03-15, 04-18, 05-10, 06-10, 07-16,
08-12, 09-9 to 09-11, 10-7, 11-14, 12-6, 13-14, 14-6, 14-9, 14-13, 14-14, 15-9, 16-11, 17-9, 18-10). -/

namespace Sys2Proof.Machine

/-- One row: indices `lo` to `hi`, subindexes `s1` to `s2`, the size in bytes, the access (0 const, 1 ro, 2 rw, 3 wo), the
authority (0 none, 1 host, 2 supervisor, 3 firmware, 4 safety) and the condition of a write (0 none, 1 while disabled,
2 while Off, 3 while Closed, 4 while Closed or Paused, 5 const for groups 0xFD to 0xFF). -/
structure Ent where
  lo : Nat
  hi : Nat
  s1 : Nat
  s2 : Nat
  size : Nat
  acc : Nat
  auth : Nat
  cond : Nat
deriving DecidableEq, Repr

def ents10 : List Ent :=
  [⟨0x1000, 0x1000, 0, 0, 4, 0, 0, 0⟩, ⟨0x1001, 0x1001, 0, 0, 1, 1, 3, 0⟩,
   ⟨0x1003, 0x1003, 0, 0, 1, 2, 2, 0⟩, ⟨0x1003, 0x1003, 1, 16, 4, 1, 3, 0⟩,
   ⟨0x1008, 0x1008, 0, 0, 64, 0, 0, 0⟩, ⟨0x1009, 0x1009, 0, 0, 64, 0, 0, 0⟩,
   ⟨0x100A, 0x100A, 0, 0, 64, 0, 0, 0⟩, ⟨0x1018, 0x1018, 1, 4, 4, 0, 0, 0⟩]

def ents16 : List Ent :=
  [⟨0x1600, 0x1600, 0, 0, 1, 0, 0, 0⟩, ⟨0x1600, 0x1600, 1, 3, 4, 0, 0, 0⟩]

def ents1A : List Ent :=
  [⟨0x1A00, 0x1A00, 0, 0, 1, 0, 0, 0⟩, ⟨0x1A00, 0x1A00, 1, 9, 4, 0, 0, 0⟩]

def ents1C : List Ent :=
  [⟨0x1C00, 0x1C00, 1, 4, 1, 0, 0, 0⟩, ⟨0x1C12, 0x1C13, 1, 1, 2, 0, 0, 0⟩]

def ents20 : List Ent :=
  [⟨0x2000, 0x2000, 1, 1, 1, 0, 0, 0⟩, ⟨0x2000, 0x2000, 2, 3, 2, 0, 0, 0⟩,
   ⟨0x2000, 0x2000, 4, 4, 1, 1, 3, 0⟩, ⟨0x2000, 0x2000, 5, 5, 1, 3, 1, 0⟩,
   ⟨0x2000, 0x2000, 6, 6, 1, 1, 3, 0⟩, ⟨0x2000, 0x2000, 7, 7, 2, 1, 3, 0⟩,
   ⟨0x2000, 0x2000, 8, 8, 1, 1, 3, 0⟩, ⟨0x2000, 0x2000, 9, 10, 4, 1, 3, 0⟩,
   ⟨0x2000, 0x2000, 11, 11, 1, 2, 2, 0⟩, ⟨0x2000, 0x2000, 12, 12, 4, 1, 3, 0⟩,
   ⟨0x2000, 0x2000, 16, 16, 1, 2, 1, 0⟩, ⟨0x2000, 0x2000, 17, 18, 2, 0, 0, 0⟩,
   ⟨0x2000, 0x2000, 32, 32, 1, 2, 1, 0⟩, ⟨0x2001, 0x2001, 1, 1, 4, 3, 2, 0⟩,
   ⟨0x2001, 0x2001, 2, 2, 1, 3, 2, 0⟩, ⟨0x2001, 0x2001, 3, 3, 2, 1, 3, 0⟩,
   ⟨0x2002, 0x2002, 1, 1, 2, 2, 2, 0⟩, ⟨0x2002, 0x2002, 3, 3, 2, 1, 3, 0⟩,
   ⟨0x2002, 0x2002, 4, 4, 4, 1, 3, 0⟩, ⟨0x2002, 0x2002, 5, 5, 2, 1, 3, 0⟩,
   ⟨0x2002, 0x2002, 6, 6, 4, 1, 3, 0⟩, ⟨0x2002, 0x2002, 7, 7, 1, 1, 3, 0⟩,
   ⟨0x2003, 0x2003, 1, 1, 2, 2, 1, 0⟩, ⟨0x2003, 0x2003, 2, 2, 4, 2, 2, 0⟩,
   ⟨0x2010, 0x2010, 1, 1, 2, 1, 3, 0⟩, ⟨0x2010, 0x2010, 2, 2, 1, 1, 3, 0⟩,
   ⟨0x2010, 0x2010, 3, 4, 4, 1, 3, 0⟩, ⟨0x2010, 0x2010, 5, 6, 32, 1, 3, 0⟩,
   ⟨0x2010, 0x2010, 7, 8, 1, 1, 3, 0⟩, ⟨0x2020, 0x2020, 1, 1, 32, 2, 1, 0⟩,
   ⟨0x2020, 0x2020, 2, 2, 1, 3, 1, 0⟩, ⟨0x2020, 0x2020, 3, 3, 4, 2, 1, 0⟩,
   ⟨0x2020, 0x2020, 4, 4, 2, 1, 3, 0⟩, ⟨0x2030, 0x2030, 1, 1, 1, 1, 3, 0⟩,
   ⟨0x2030, 0x2030, 2, 2, 16, 1, 3, 0⟩, ⟨0x2030, 0x2030, 3, 3, 4, 1, 3, 0⟩,
   ⟨0x2030, 0x2030, 4, 4, 4, 0, 0, 0⟩, ⟨0x2030, 0x2030, 5, 5, 4, 2, 2, 0⟩,
   ⟨0x2030, 0x2030, 6, 6, 1, 3, 2, 0⟩, ⟨0x2030, 0x2030, 7, 7, 4, 2, 2, 0⟩]

def ents20a : List Ent :=
  [⟨0x2030, 0x2030, 8, 8, 2, 1, 3, 0⟩, ⟨0x2030, 0x2030, 9, 9, 4, 1, 3, 0⟩]

def ents21 : List Ent :=
  [⟨0x2100, 0x2100, 1, 1, 2, 2, 1, 0⟩, ⟨0x2100, 0x2100, 2, 3, 2, 2, 2, 0⟩,
   ⟨0x2100, 0x2100, 4, 5, 2, 1, 3, 0⟩, ⟨0x2100, 0x2100, 6, 6, 4, 1, 3, 0⟩,
   ⟨0x2100, 0x2100, 7, 7, 2, 1, 3, 0⟩, ⟨0x2100, 0x2100, 8, 8, 1, 2, 1, 0⟩,
   ⟨0x2100, 0x2100, 9, 9, 4, 1, 3, 0⟩, ⟨0x2100, 0x2100, 10, 10, 1, 3, 2, 0⟩,
   ⟨0x2100, 0x2100, 11, 12, 1, 2, 2, 0⟩, ⟨0x2100, 0x2100, 13, 13, 2, 2, 1, 0⟩,
   ⟨0x2100, 0x2100, 14, 14, 4, 2, 1, 0⟩, ⟨0x2100, 0x2100, 15, 15, 1, 3, 1, 0⟩,
   ⟨0x2100, 0x2100, 16, 16, 1, 1, 3, 0⟩, ⟨0x2100, 0x2100, 17, 22, 8, 1, 3, 0⟩,
   ⟨0x2100, 0x2100, 23, 23, 1, 1, 3, 0⟩, ⟨0x2100, 0x2100, 24, 24, 4, 1, 3, 0⟩,
   ⟨0x2100, 0x2100, 25, 25, 1, 2, 1, 0⟩, ⟨0x2100, 0x2100, 26, 26, 4, 2, 1, 0⟩,
   ⟨0x2100, 0x2100, 27, 33, 4, 1, 3, 0⟩, ⟨0x2120, 0x2123, 1, 4, 1, 2, 1, 0⟩,
   ⟨0x2140, 0x217F, 1, 1, 2, 2, 1, 0⟩, ⟨0x2140, 0x217F, 2, 2, 2, 1, 3, 0⟩,
   ⟨0x2140, 0x217F, 3, 3, 1, 3, 1, 0⟩]

def ents22 : List Ent :=
  [⟨0x2200, 0x2200, 1, 1, 1, 1, 4, 0⟩, ⟨0x2200, 0x2200, 2, 4, 4, 1, 4, 0⟩,
   ⟨0x2200, 0x2200, 5, 5, 4, 2, 2, 0⟩, ⟨0x2200, 0x2200, 6, 6, 2, 2, 2, 0⟩,
   ⟨0x2200, 0x2200, 7, 8, 4, 2, 2, 0⟩, ⟨0x2200, 0x2200, 9, 10, 1, 2, 2, 0⟩,
   ⟨0x2201, 0x2201, 1, 1, 4, 2, 2, 0⟩, ⟨0x2201, 0x2201, 2, 2, 2, 2, 2, 0⟩,
   ⟨0x2201, 0x2201, 3, 3, 4, 3, 2, 0⟩, ⟨0x2201, 0x2201, 4, 4, 1, 1, 4, 0⟩,
   ⟨0x2202, 0x2202, 2, 2, 1, 2, 2, 0⟩, ⟨0x2202, 0x2202, 3, 3, 1, 0, 0, 0⟩,
   ⟨0x2202, 0x2202, 4, 15, 1, 2, 2, 0⟩, ⟨0x2220, 0x225F, 1, 1, 2, 2, 2, 0⟩,
   ⟨0x2220, 0x225F, 2, 3, 1, 2, 2, 0⟩, ⟨0x2220, 0x225F, 4, 4, 8, 2, 2, 0⟩,
   ⟨0x2220, 0x225F, 5, 5, 1, 1, 4, 0⟩, ⟨0x2260, 0x226F, 1, 1, 2, 2, 2, 0⟩,
   ⟨0x2260, 0x226F, 2, 2, 8, 2, 2, 0⟩, ⟨0x2260, 0x226F, 3, 3, 4, 2, 2, 0⟩,
   ⟨0x2260, 0x226F, 4, 4, 8, 2, 2, 0⟩, ⟨0x2260, 0x226F, 5, 6, 4, 2, 2, 0⟩,
   ⟨0x2260, 0x226F, 7, 7, 1, 2, 2, 0⟩, ⟨0x2260, 0x226F, 8, 8, 1, 1, 4, 0⟩,
   ⟨0x2260, 0x226F, 9, 9, 4, 1, 4, 0⟩, ⟨0x2280, 0x22BF, 1, 2, 1, 2, 2, 0⟩]

def ents23 : List Ent :=
  [⟨0x2300, 0x2300, 1, 10, 4, 1, 3, 0⟩, ⟨0x2300, 0x2300, 11, 11, 1, 3, 1, 0⟩,
   ⟨0x2300, 0x2300, 12, 12, 4, 1, 3, 0⟩, ⟨0x2300, 0x2300, 16, 17, 8, 1, 3, 0⟩]

def ents24 : List Ent :=
  [⟨0x2400, 0x2400, 1, 1, 4, 0, 0, 0⟩, ⟨0x2400, 0x2400, 2, 2, 4, 1, 3, 0⟩,
   ⟨0x2400, 0x2400, 3, 3, 4, 2, 2, 0⟩, ⟨0x2400, 0x2400, 4, 4, 4, 1, 3, 0⟩,
   ⟨0x2400, 0x2400, 5, 6, 4, 2, 1, 0⟩, ⟨0x2400, 0x2400, 7, 7, 2, 2, 1, 0⟩,
   ⟨0x2400, 0x2400, 8, 13, 4, 1, 3, 0⟩, ⟨0x2400, 0x2400, 14, 14, 1, 1, 3, 0⟩,
   ⟨0x2400, 0x2400, 15, 15, 2, 1, 3, 0⟩, ⟨0x2400, 0x2400, 16, 16, 4, 2, 1, 0⟩,
   ⟨0x2400, 0x2400, 17, 17, 2, 2, 1, 0⟩, ⟨0x2401, 0x2401, 1, 1, 4, 2, 1, 0⟩,
   ⟨0x2401, 0x2401, 2, 3, 1, 1, 3, 0⟩, ⟨0x2401, 0x2401, 4, 4, 2, 1, 3, 0⟩,
   ⟨0x2401, 0x2401, 5, 6, 8, 1, 3, 0⟩, ⟨0x2401, 0x2401, 7, 7, 1, 1, 3, 0⟩,
   ⟨0x2401, 0x2401, 8, 8, 4, 1, 3, 0⟩, ⟨0x2402, 0x2402, 1, 3, 4, 2, 2, 0⟩,
   ⟨0x2402, 0x2402, 4, 4, 1, 3, 2, 0⟩, ⟨0x2402, 0x2402, 5, 5, 2, 1, 3, 0⟩,
   ⟨0x2410, 0x2410, 1, 6, 4, 1, 3, 0⟩, ⟨0x2410, 0x2410, 7, 7, 1, 2, 1, 0⟩,
   ⟨0x2411, 0x2411, 1, 1, 4, 2, 1, 0⟩, ⟨0x2411, 0x2411, 2, 2, 1, 1, 3, 0⟩,
   ⟨0x2411, 0x2411, 3, 4, 2, 1, 3, 0⟩, ⟨0x2411, 0x2411, 5, 5, 4, 1, 3, 0⟩,
   ⟨0x2411, 0x2411, 6, 6, 1, 1, 3, 0⟩, ⟨0x2411, 0x2411, 7, 7, 2, 1, 3, 0⟩,
   ⟨0x2411, 0x2411, 8, 8, 4, 1, 3, 0⟩, ⟨0x2420, 0x2420, 1, 1, 4, 1, 3, 0⟩,
   ⟨0x2420, 0x2420, 2, 3, 2, 1, 3, 0⟩, ⟨0x2420, 0x2420, 4, 6, 4, 1, 3, 0⟩,
   ⟨0x2421, 0x2421, 1, 1, 2, 2, 1, 0⟩, ⟨0x2421, 0x2421, 2, 2, 1, 1, 3, 0⟩,
   ⟨0x2421, 0x2421, 3, 3, 2, 1, 3, 0⟩, ⟨0x2421, 0x2421, 4, 4, 8, 1, 3, 0⟩,
   ⟨0x2421, 0x2421, 5, 5, 4, 1, 3, 0⟩]

def ents25 : List Ent :=
  [⟨0x2500, 0x2500, 1, 1, 1, 2, 1, 0⟩, ⟨0x2500, 0x2500, 2, 3, 4, 2, 1, 0⟩,
   ⟨0x2500, 0x2500, 4, 8, 4, 1, 3, 0⟩, ⟨0x2500, 0x2500, 9, 9, 1, 1, 3, 0⟩,
   ⟨0x2500, 0x2500, 16, 19, 2, 1, 3, 0⟩, ⟨0x2500, 0x2500, 20, 20, 4, 1, 3, 0⟩]

def ents26 : List Ent :=
  [⟨0x2600, 0x2600, 1, 1, 1, 1, 3, 0⟩, ⟨0x2600, 0x2600, 2, 2, 4, 1, 3, 0⟩,
   ⟨0x2601, 0x2601, 1, 16, 8, 2, 1, 0⟩, ⟨0x2610, 0x264F, 1, 1, 1, 2, 1, 0⟩,
   ⟨0x2610, 0x264F, 2, 3, 1, 2, 1, 1⟩, ⟨0x2610, 0x264F, 4, 4, 4, 2, 1, 1⟩,
   ⟨0x2610, 0x264F, 5, 5, 8, 2, 1, 1⟩, ⟨0x2610, 0x264F, 6, 6, 4, 2, 1, 1⟩,
   ⟨0x2610, 0x264F, 7, 7, 2, 2, 1, 1⟩, ⟨0x2610, 0x264F, 8, 9, 4, 2, 1, 1⟩,
   ⟨0x2610, 0x264F, 10, 10, 4, 2, 1, 0⟩, ⟨0x2610, 0x264F, 11, 11, 8, 2, 1, 0⟩,
   ⟨0x2610, 0x264F, 12, 15, 1, 2, 2, 1⟩, ⟨0x2610, 0x264F, 16, 16, 1, 1, 3, 0⟩,
   ⟨0x2610, 0x264F, 17, 23, 4, 1, 3, 0⟩, ⟨0x2610, 0x264F, 24, 25, 1, 2, 1, 1⟩,
   ⟨0x2610, 0x264F, 26, 26, 8, 2, 1, 1⟩, ⟨0x2610, 0x264F, 27, 28, 4, 2, 1, 1⟩,
   ⟨0x2650, 0x265F, 1, 1, 1, 2, 1, 1⟩, ⟨0x2650, 0x265F, 2, 4, 2, 2, 1, 1⟩,
   ⟨0x2650, 0x265F, 5, 5, 4, 2, 1, 1⟩, ⟨0x2660, 0x266F, 1, 1, 1, 2, 2, 0⟩,
   ⟨0x2660, 0x266F, 2, 2, 8, 2, 2, 1⟩, ⟨0x2660, 0x266F, 3, 5, 1, 2, 2, 1⟩,
   ⟨0x2660, 0x266F, 6, 7, 4, 2, 2, 1⟩, ⟨0x2660, 0x266F, 8, 8, 1, 1, 3, 0⟩,
   ⟨0x2660, 0x266F, 9, 9, 4, 1, 3, 0⟩, ⟨0x2670, 0x2677, 1, 1, 1, 2, 1, 0⟩,
   ⟨0x2670, 0x2677, 2, 2, 8, 2, 1, 1⟩, ⟨0x2670, 0x2677, 3, 3, 1, 2, 1, 1⟩,
   ⟨0x2670, 0x2677, 4, 5, 4, 2, 1, 1⟩, ⟨0x2670, 0x2677, 6, 6, 2, 2, 1, 1⟩,
   ⟨0x2670, 0x2677, 7, 7, 4, 2, 1, 0⟩, ⟨0x2670, 0x2677, 8, 8, 2, 2, 1, 1⟩,
   ⟨0x2670, 0x2677, 9, 11, 4, 1, 3, 0⟩, ⟨0x2680, 0x2680, 1, 1, 1, 2, 1, 1⟩,
   ⟨0x2680, 0x2680, 2, 2, 4, 2, 1, 1⟩, ⟨0x2680, 0x2680, 3, 3, 1, 2, 1, 1⟩,
   ⟨0x2680, 0x2680, 4, 4, 16, 2, 1, 1⟩, ⟨0x2680, 0x2680, 5, 7, 12, 2, 1, 0⟩]

def ents26a : List Ent :=
  [⟨0x2680, 0x2680, 8, 8, 4, 2, 1, 0⟩, ⟨0x2680, 0x2680, 9, 9, 1, 3, 1, 0⟩]

def ents27 : List Ent :=
  [⟨0x2700, 0x2700, 1, 1, 1, 1, 3, 0⟩, ⟨0x2700, 0x2700, 2, 2, 1, 3, 1, 0⟩,
   ⟨0x2700, 0x2700, 3, 5, 4, 2, 1, 2⟩, ⟨0x2700, 0x2700, 6, 6, 1, 2, 1, 2⟩,
   ⟨0x2700, 0x2700, 7, 7, 4, 2, 1, 2⟩, ⟨0x2700, 0x2700, 8, 8, 2, 2, 1, 2⟩,
   ⟨0x2700, 0x2700, 9, 9, 4, 2, 1, 2⟩, ⟨0x2700, 0x2700, 10, 10, 1, 2, 1, 2⟩,
   ⟨0x2700, 0x2700, 11, 12, 2, 2, 2, 2⟩, ⟨0x2700, 0x2700, 13, 14, 4, 2, 1, 2⟩,
   ⟨0x2700, 0x2700, 15, 15, 1, 2, 2, 2⟩, ⟨0x2700, 0x2700, 16, 16, 4, 2, 2, 2⟩,
   ⟨0x2700, 0x2700, 17, 17, 1, 2, 2, 0⟩, ⟨0x2700, 0x2700, 18, 19, 4, 1, 3, 0⟩,
   ⟨0x2700, 0x2700, 20, 20, 1, 1, 3, 0⟩, ⟨0x2700, 0x2700, 21, 21, 4, 2, 1, 2⟩,
   ⟨0x2700, 0x2700, 22, 22, 2, 2, 1, 2⟩, ⟨0x2700, 0x2700, 23, 27, 4, 1, 3, 0⟩,
   ⟨0x2700, 0x2700, 32, 33, 1, 2, 2, 0⟩, ⟨0x2700, 0x2700, 34, 34, 4, 2, 2, 0⟩,
   ⟨0x2700, 0x2700, 35, 35, 1, 1, 3, 0⟩, ⟨0x2700, 0x2700, 36, 36, 4, 1, 3, 0⟩,
   ⟨0x2700, 0x2700, 38, 38, 1, 3, 2, 0⟩, ⟨0x2701, 0x2701, 1, 2, 2, 2, 1, 0⟩,
   ⟨0x2701, 0x2701, 3, 3, 1, 2, 1, 0⟩, ⟨0x2701, 0x2701, 4, 5, 4, 2, 1, 0⟩,
   ⟨0x2701, 0x2701, 6, 6, 1, 2, 1, 0⟩, ⟨0x2701, 0x2701, 7, 7, 2, 1, 3, 0⟩,
   ⟨0x2740, 0x277F, 1, 4, 2, 2, 2, 2⟩, ⟨0x2740, 0x277F, 5, 5, 1, 2, 2, 2⟩,
   ⟨0x2740, 0x277F, 6, 6, 2, 2, 2, 2⟩, ⟨0x2740, 0x277F, 7, 7, 1, 1, 4, 0⟩]

def ents28 : List Ent :=
  [⟨0x2800, 0x2800, 1, 1, 1, 1, 3, 0⟩, ⟨0x2800, 0x2800, 2, 2, 4, 1, 3, 0⟩,
   ⟨0x2800, 0x2800, 3, 3, 8, 1, 3, 0⟩, ⟨0x2800, 0x2800, 4, 6, 4, 1, 3, 0⟩,
   ⟨0x2801, 0x2801, 1, 1, 1, 2, 1, 0⟩, ⟨0x2801, 0x2801, 2, 2, 1, 1, 3, 0⟩,
   ⟨0x2801, 0x2801, 3, 6, 2, 1, 3, 0⟩, ⟨0x2801, 0x2801, 7, 7, 4, 1, 3, 0⟩,
   ⟨0x2801, 0x2801, 8, 8, 1, 1, 3, 0⟩]

def ents29 : List Ent :=
  [⟨0x2900, 0x2900, 1, 4, 8, 2, 1, 0⟩, ⟨0x2900, 0x2900, 16, 19, 4, 1, 3, 0⟩]

def ents2A : List Ent :=
  [⟨0x2A00, 0x2A00, 1, 1, 2, 1, 3, 0⟩, ⟨0x2A00, 0x2A00, 2, 2, 4, 2, 1, 0⟩,
   ⟨0x2A00, 0x2A00, 3, 3, 4, 1, 3, 0⟩, ⟨0x2A00, 0x2A00, 4, 4, 4, 2, 1, 0⟩,
   ⟨0x2A00, 0x2A00, 5, 5, 1, 2, 2, 0⟩, ⟨0x2A10, 0x2A13, 1, 1, 2, 1, 3, 0⟩,
   ⟨0x2A10, 0x2A13, 2, 2, 4, 1, 3, 0⟩]

def ents31 : List Ent :=
  [⟨0x3100, 0x31FF, 1, 1, 1, 2, 1, 5⟩, ⟨0x3100, 0x31FF, 2, 2, 32, 2, 1, 5⟩,
   ⟨0x3100, 0x31FF, 3, 3, 32, 1, 3, 0⟩, ⟨0x3100, 0x31FF, 4, 4, 2, 1, 3, 0⟩,
   ⟨0x3100, 0x31FF, 5, 5, 1, 1, 3, 0⟩]

def ents40 : List Ent :=
  [⟨0x4000, 0x40FF, 1, 2, 1, 1, 3, 0⟩, ⟨0x4000, 0x40FF, 3, 3, 2, 1, 3, 0⟩,
   ⟨0x4000, 0x40FF, 4, 4, 8, 1, 3, 0⟩, ⟨0x4000, 0x40FF, 5, 5, 1, 2, 1, 0⟩,
   ⟨0x4000, 0x40FF, 16, 16, 1, 1, 4, 0⟩, ⟨0x4000, 0x40FF, 17, 18, 4, 1, 4, 0⟩,
   ⟨0x4000, 0x40FF, 32, 33, 4, 1, 3, 0⟩, ⟨0x4000, 0x40FF, 34, 34, 1, 3, 2, 0⟩,
   ⟨0x4000, 0x40FF, 48, 48, 4, 1, 3, 0⟩, ⟨0x4000, 0x40FF, 49, 49, 8, 1, 3, 0⟩]

def ents41 : List Ent :=
  [⟨0x4100, 0x411F, 1, 2, 1, 1, 3, 0⟩, ⟨0x4100, 0x411F, 3, 3, 2, 1, 3, 0⟩,
   ⟨0x4100, 0x411F, 4, 4, 1, 1, 3, 0⟩, ⟨0x4100, 0x411F, 16, 16, 1, 1, 3, 0⟩,
   ⟨0x4100, 0x411F, 17, 17, 8, 1, 3, 0⟩, ⟨0x4100, 0x411F, 32, 32, 2, 1, 3, 0⟩,
   ⟨0x4100, 0x411F, 48, 48, 1, 1, 3, 0⟩, ⟨0x4100, 0x411F, 49, 50, 4, 1, 3, 0⟩,
   ⟨0x4100, 0x411F, 64, 65, 1, 1, 4, 0⟩, ⟨0x4100, 0x411F, 80, 80, 4, 1, 3, 0⟩,
   ⟨0x4100, 0x411F, 81, 81, 1, 3, 2, 0⟩, ⟨0x4100, 0x411F, 82, 82, 1, 1, 3, 0⟩,
   ⟨0x4100, 0x411F, 96, 96, 1, 1, 3, 0⟩, ⟨0x4100, 0x411F, 97, 97, 8, 1, 3, 0⟩]

def ents42 : List Ent :=
  [⟨0x4200, 0x4203, 1, 3, 1, 1, 3, 0⟩, ⟨0x4200, 0x4203, 16, 16, 1, 1, 4, 0⟩,
   ⟨0x4200, 0x4203, 17, 17, 4, 1, 4, 0⟩, ⟨0x4200, 0x4203, 32, 34, 4, 1, 3, 0⟩,
   ⟨0x4200, 0x4203, 48, 49, 4, 1, 3, 0⟩, ⟨0x4200, 0x4203, 64, 64, 2, 1, 3, 0⟩,
   ⟨0x4200, 0x4203, 65, 65, 4, 1, 3, 0⟩, ⟨0x4200, 0x4203, 80, 81, 4, 1, 3, 0⟩,
   ⟨0x4200, 0x4203, 96, 98, 4, 1, 3, 0⟩, ⟨0x4200, 0x4203, 112, 115, 1, 1, 3, 0⟩,
   ⟨0x4200, 0x4203, 116, 120, 4, 1, 3, 0⟩, ⟨0x4200, 0x4203, 121, 121, 1, 3, 2, 0⟩,
   ⟨0x4200, 0x4203, 122, 124, 4, 1, 3, 0⟩, ⟨0x4200, 0x4203, 128, 129, 4, 1, 3, 0⟩,
   ⟨0x4200, 0x4203, 130, 130, 1, 3, 2, 0⟩, ⟨0x4200, 0x4203, 131, 131, 2, 1, 3, 0⟩,
   ⟨0x4200, 0x4203, 144, 144, 2, 1, 3, 0⟩, ⟨0x4200, 0x4203, 145, 146, 4, 1, 3, 0⟩]

def ents50 : List Ent :=
  [⟨0x5000, 0x5000, 1, 1, 2, 2, 1, 0⟩, ⟨0x5000, 0x5000, 2, 2, 1, 1, 3, 0⟩,
   ⟨0x5000, 0x5000, 3, 3, 1, 3, 1, 0⟩, ⟨0x5000, 0x5000, 4, 4, 1, 2, 1, 3⟩,
   ⟨0x5000, 0x5000, 5, 5, 2, 2, 1, 3⟩, ⟨0x5000, 0x5000, 6, 6, 1, 2, 1, 3⟩,
   ⟨0x5000, 0x5000, 7, 7, 1, 2, 2, 3⟩, ⟨0x5000, 0x5000, 8, 8, 2, 2, 1, 3⟩,
   ⟨0x5000, 0x5000, 9, 9, 4, 2, 1, 3⟩, ⟨0x5000, 0x5000, 10, 10, 2, 2, 1, 3⟩,
   ⟨0x5000, 0x5000, 11, 13, 4, 2, 1, 3⟩, ⟨0x5000, 0x5000, 14, 14, 4, 2, 1, 4⟩,
   ⟨0x5000, 0x5000, 15, 15, 4, 1, 3, 0⟩, ⟨0x5000, 0x5000, 16, 16, 8, 2, 1, 0⟩,
   ⟨0x5000, 0x5000, 17, 17, 1, 2, 1, 0⟩, ⟨0x5000, 0x5000, 18, 18, 2, 2, 1, 0⟩,
   ⟨0x5000, 0x5000, 19, 19, 8, 2, 1, 0⟩, ⟨0x5000, 0x5000, 20, 20, 4, 2, 1, 0⟩,
   ⟨0x5000, 0x5000, 21, 21, 4, 2, 2, 3⟩, ⟨0x5000, 0x5000, 22, 22, 2, 2, 1, 0⟩,
   ⟨0x5000, 0x5000, 23, 23, 4, 2, 1, 0⟩, ⟨0x5000, 0x5000, 24, 25, 4, 1, 3, 0⟩]

/-- The rows whose indices share a high byte. -/
def entsOf (page : Nat) : List Ent :=
  match page with
  | 0x10 => ents10
  | 0x16 => ents16
  | 0x1A => ents1A
  | 0x1C => ents1C
  | 0x20 => ents20 ++ ents20a
  | 0x21 => ents21
  | 0x22 => ents22
  | 0x23 => ents23
  | 0x24 => ents24
  | 0x25 => ents25
  | 0x26 => ents26 ++ ents26a
  | 0x27 => ents27
  | 0x28 => ents28
  | 0x29 => ents29
  | 0x2A => ents2A
  | 0x31 => ents31
  | 0x40 => ents40
  | 0x41 => ents41
  | 0x42 => ents42
  | 0x50 => ents50
  | _ => []

/-- The row of an entry. -/
def entry (idx sub : Nat) : Option Ent :=
  (entsOf (idx / 256)).find? (fun e => decide (e.lo ≤ idx ∧ idx ≤ e.hi ∧ e.s1 ≤ sub ∧ sub ≤ e.s2))

/-- Does the object exist? -/
def hasIndex (idx : Nat) : Bool := (entsOf (idx / 256)).any (fun e => decide (e.lo ≤ idx ∧ idx ≤ e.hi))

/-- The highest subindex of an object (R340). -/
def topSub (idx : Nat) : Nat :=
  (entsOf (idx / 256)).foldl (fun m e => if e.lo ≤ idx ∧ idx ≤ e.hi then max m e.s2 else m) 0

end Sys2Proof.Machine
end

