-- ==== Sys2Proof/Machine/Views.lean ====
section
/-! DEFINITION. What computed registers and entries show: a function of the state, never stored twice. -/

namespace Sys2Proof.Machine

/-- Place fields (low bit, value) in a word. -/
def word (l : List (Nat × Nat)) : Nat := l.foldl (fun w p => w + p.2 * 2 ^ p.1) 0

/-- A mask with the bits of the numbers below `n` that meet `p`. -/
def bits (n : Nat) (p : Nat → Bool) : Nat := word ((List.range n).map (fun i => (i, b2n (p i))))

def countN (n : Nat) (p : Nat → Bool) : Nat := ((List.range n).filter p).length

/-! ### Computed values that registers and entries share -/

def State.openOn (s : State) (d : Nat) : Nat := AMap.count (fun c x => decide (x.st ≠ .closed) && s.home c == d) s.ctxs
def State.openAll (s : State) : Nat := AMap.count (fun _ x => decide (x.st ≠ .closed)) s.ctxs
def State.waitDepth (s : State) (d : Nat) : Nat := AMap.count (fun _ (x : Desc) => x.listed d) s.descs

def ctxCode : CtxSt → Nat
  | .closed => 0 | .opened => 1 | .paused => 2 | .fenced => 3 | .poisoned => 4

/-- 0x4000+n:02. -/
def State.coreState (s : State) (n : Nat) : Nat :=
  if (s.core n).rst = 2 ∨ (s.clu (coreClus n)).rst = 2 ∨ (s.die (coreDie n)).st = 1 then 2
  else if (s.core n).fenced ∨ (s.core n).rst = 1 ∨ (s.clu (coreClus n)).rst = 1 ∨ (s.die (coreDie n)).st = 2 then 1
  else if (s.clu (coreClus n)).gated then 3 else 0

/-- 0x4100+g:02. -/
def State.clusState (s : State) (g : Nat) : Nat :=
  if (s.clu g).rst = 2 ∨ (s.die (g / 8)).st = 1 then 3
  else if (s.clu g).rst = 1 ∨ (s.die (g / 8)).st = 2 ∨ (List.range 8).all (fun k => (s.core (8 * g + k)).fenced) then 2
  else if (s.clu g).gated then 1 else 0

def clusCores (g : Nat) : List Nat := (List.range 8).map (fun k => 8 * g + k)

/-- SLV_STATUS (Table 07-15). -/
def State.slvStatus (s : State) (g : Nat) : Nat :=
  let run := s.descs.find? (fun p => decide (p.2.st ≠ .waiting) && (p.2.op == 0x0300 || p.2.op == 0x0310)
    && (engines p.2).contains g)
  let fenced := (s.clu g).slvFenced || (s.clu g).rst != 0 || (s.die (g / 8)).st != 0
  match run with
  | some p =>
    let wide := slvWide p.2
    let left := (engineLeft p.2 (((engines p.2).findIdx? (· == g)).getD 0)).length
    let stopped := decide (p.2.st = .stopped)
    word [(0, if fenced then 4 else if stopped then 3 else if wide then 2 else 1),
          (8, if stopped ∨ left = 0 then 0 else if wide then 0xFFFF else 2 ^ min 16 left - 1), (32, p.2.ctx)]
  | none => if fenced then 4 else 0

/-- CLE_STATUS (Table 08-11). -/
def State.cleStatus (s : State) (d : Nat) : Nat :=
  let chk := s.runningCheck d
  let cop := s.descs.any (fun p => p.2.die == d && decide (p.2.st = .running) && (p.2.op == 0x0408 || p.2.op == 0x0400))
  let st := if (s.die d).cleFenced ∨ (s.die d).st ≠ 0 then 4 else b2n chk.isSome + 2 * b2n cop
  word [(0, st), (4, s.cleHeld d), (32, match chk.bind s.desc? with | some x => x.ctx | none => 0)]

/-- FSE_VERDICT. -/
def State.grpVerdict (s : State) (g : Nat) : Nat := (AMap.getD g Grp.zero s.fse.grps).verdict
def State.src (s : State) (n : Nat) : Src := AMap.getD n Src.zero s.fse.srcs
def State.srcOn (s : State) (n : Nat) : Bool := s.od (0x2610 + n) 1 == 1

/-- SAF_STATUS ss1_remaining, ms. -/
def State.ss1Left (s : State) : Nat :=
  if s.isl.safe = 1 then ceilDiv (s.isl.ss1End - s.safTime) 1000000 % 65536 else 0

/-- MBX_RX_STATE of receiver `r` (Table 16-10). -/
def State.rxState (s : State) (r : Nat) : Nat :=
  if r < 256 then
    let d := s.die (coreDie r)
    let st := if d.st = 2 then 6 else if s.md.st < 6 then 1 else match s.coreState r with | 2 => 2 | 1 => 3 | 3 => 4 | _ => 0
    st + 8 * b2n (s.coreBox r).full
  else if r < 260 then
    let d := s.die (r - 256)
    if d.st = 2 then 6 else if d.st = 1 then 2 else if d.running then 0 else 1
  else
    let st := match s.md.barista with | 0 => 0 | 1 => 1 | 2 => 2 | _ => 5
    st + 8 * b2n (s.h2b.any (fun p => p.2.full))

/-! ### Host-port registers (Table 13-6) -/

def State.hpState (s : State) : Nat :=
  word [(0, s.md.st), (4, b2n s.md.bootMode), (5, s.md.barista), (8, b2n (s.isl.safe != 0)), (9, b2n s.md.crash), (32, s.md.beat)]

def State.chan (s : State) (ch : Nat) : Chan := AMap.getD ch Chan.zero s.chans
/-- Write and read link ECC of a channel (mode register 22, JESD209-5B's fields OP[5:4] and OP[7:6]; log entry 82). -/
def Chan.wecc (c : Chan) : Bool := field (AMap.getD 22 0 c.mrs) 4 2 != 0
def Chan.recc (c : Chan) : Bool := field (AMap.getD 22 0 c.mrs) 6 2 != 0
def State.setChan (s : State) (ch : Nat) (x : Chan) : State := { s with chans := AMap.put Chan.zero ch x s.chans }

/-- The register at offset `o` of the status region of channel `ch`; none for an offset that is not listed. -/
def State.hpReg (s : State) (ch o : Nat) : Option Nat :=
  if o = 0 then some (word [(0, 0xB400), (16, s.brd.unit.variant), (24, 0xB1), (32, 1)])
  else if o = 8 then some s.hpState
  else if o = 0x10 then some s.hpTime
  else if o = 0x18 then
    let c := s.chan ch
    some (word [(0, ch), (2, b2n c.trained), (3, b2n c.wecc), (4, b2n c.recc), (5, b2n c.idle), (16, c.rate % 65536),
                (32, s.od 0x2500 1 % 4)])
  else if o = 0x20 then some (bits 64 (fun a => (s.aper a).ready))
  else if o = 0x28 then some s.blocksFree
  else if o = 0x30 then some (bits 64 (fun m => (s.h2bBox m).full))
  else if o = 0x38 then some (bits 64 (fun m => (s.b2hBox m).full))
  else if o = 0x40 ∨ o = 0x48 ∨ o = 0x50 ∨ o = 0x58 ∨ o = 0x60 then some (s.reg (hpc ch o))
  else if o = 0x100 then some 0
  else if o = 0x108 then some (s.reg (baseHP + 0x108))
  else if 0x1000 ≤ o ∧ o < 0x1400 ∧ o % 8 = 0 then
    let x := s.aper ((o - 0x1000) / 16)
    some (if o % 16 = 0 then word [(0, x.status), (16, x.st), (32, x.request)] else word [(0, x.limit), (32, x.moved)])
  else none

/-! ### The register pages (Table 01-8) -/

/-- The value of the block register at an 8-byte-aligned module address. -/
def State.regVal (s : State) (a : Nat) : Nat :=
  let o := a % 0x10000
  let page := a / 0x10000 * 0x10000
  if page = baseHP then (s.hpReg 0 o).getD 0
  else if page = baseMBX then (if 0x100 ≤ o ∧ o < 0x928 then s.rxState ((o - 0x100) / 8) else 0)
  else if page = baseGOV ∧ o = 8 then
    let g := s.gov
    word [(0, s.od 0x2100 5), (16, g.cap / 1000 % 256), (24, g.reasons % 64), (30, b2n g.floorHeld), (31, b2n s.shedding),
          (32, b2n g.exceed), (33, b2n g.emerg), (34, b2n (s.od (0x2120 + s.od 0x2100 8) 4 == 1)), (35, b2n s.ledger)]
  else if page = baseGOV ∧ o = 0x10 then word [(0, s.gov.mw % 2 ^ 32), (32, s.gov.fixed % 2 ^ 32)]
  else if page = baseGOV ∧ o = 0x18 then word [(0, s.gov.hottest), (16, s.gov.hotDie)]
  else if page = baseSAF ∧ o = 8 then
    word [(0, s.isl.safe), (2, b2n (s.stopCmd false)), (3, b2n (s.stopCmd true)), (4, b2n s.isl.pinA), (5, b2n s.isl.pinB),
          (8, s.ss1Left), (32, s.isl.first)]
  else if page = baseSAF ∧ o = 0x10 then s.isl.causes
  else if page = baseSAF ∧ o = 0x38 then
    word [(0, countN 256 (fun n => !(s.tested n))), (16, countN 32 (fun g => !(s.tested (256 + g)))),
          (24, countN 4 (fun d => !(s.tested (288 + d))))]
  else if page = baseREC ∧ o = 8 then
    word [(0, bits 4 (fun d => (s.die d).st == 1)), (4, bits 4 (fun d => (s.die d).st == 2)), (8, s.md.barista),
          (11, b2n (s.rcv.hangs.any (fun h => h.now.isSome))), (32, s.rcv.event)]
  else if page = baseREC ∧ o = 0x40 then word [(0, s.rcv.record), (32, (s.rcv.record - 1) % 512)]
  else if page = baseFSE ∧ o = 8 then bits 64 s.srcOn
  else if page = baseFSE ∧ o = 0x10 then bits 64 (fun n => (s.src n).frozen)
  else if page = baseFSE ∧ o = 0x18 then bits 64 (fun n => (s.src n).div || !(s.src n).pairs.isEmpty)
  else if page = baseFSE ∧ o = 0x20 then word ((List.range 16).map (fun g => (2 * g, s.grpVerdict g)))
  else if page = baseESP ∧ o = 8 then
    let e := s.esp
    let p := s.home (s.od 0x2700 (if e.swapped then 0x0C else 0x0B)) % 4
    let q := s.home (s.od 0x2700 (if e.swapped then 0x0B else 0x0C)) % 4
    word [(0, e.st), (2, e.ring), (8, p), (10, q), (12, b2n e.absent), (32, e.cycle % 2 ^ 32)]
  else if page = baseCAR ∧ o = 8 then
    word [(0, b2n (decide (4 ≤ s.md.st))), (1, b2n (decide (4 ≤ s.md.st) && !(s.od 0x2000 9).testBit 3)),
          (2, b2n (s.spills.any (fun p => p.trigger == 2))), (16, min 65535 s.objs.length), (32, if 4 ≤ s.md.st then s.poolFree / mib else 0)]
  else if baseDSP 0 ≤ a ∧ (a - baseDSP 0) % 0x10000000 < 0x10000 then
    let d := (a - baseDSP 0) / 0x10000000
    if o = 8 then
      word [(0, d), (2, b2n ((s.die d).running && (s.die d).st == 0)), (16, min 65535 (s.openOn d)),
            (32, min 65535 (s.waitDepth d)),
            (48, if (s.die d).running then ((s.sharedCores d).filter (s.coreFree 2 s.coresBusy)).length else 0)]
    else if o = 0x10 then 0 else s.reg a
  else if baseDSP 0 ≤ a ∧ (a - baseDSP 0) % 0x10000000 < 0x20000 then
    (if o = 0 then s.cleStatus ((a - baseDSP 0) / 0x10000000) else s.reg a)
  else if baseDSP 0 ≤ a ∧ o = 0 ∧ 0x100000 ≤ (a - baseDSP 0) % 0x10000000 ∧ (a - baseDSP 0) % 0x10000000 < 0x180000 then
    s.slvStatus ((a - baseDSP 0) / 0x10000000 * 8 + (a - baseDSP 0) % 0x10000000 / 0x10000 % 8)
  else s.reg a

/-- The computed registers, which `regVal` gives. -/
def viewRegs : List Nat :=
  [baseHP, baseHP + 8, baseHP + 0x18, baseHP + 0x20, baseHP + 0x28, baseHP + 0x30, baseHP + 0x38, baseHP + 0x40, baseHP + 0x48,
   baseHP + 0x50, baseHP + 0x58, baseHP + 0x60, baseGOV + 8, baseGOV + 0x10, baseGOV + 0x18, baseSAF + 8, baseSAF + 0x10, baseSAF + 0x38,
   baseREC + 8, baseREC + 0x40, baseFSE + 8, baseFSE + 0x10, baseFSE + 0x18, baseFSE + 0x20, baseESP + 8, baseCAR + 8]
  ++ (List.range 128).map (fun i => baseHP + 0x1000 + 8 * i)
  ++ (List.range 261).map (fun r => baseMBX + 0x100 + 8 * r)
  ++ (List.range 4).flatMap (fun d => [baseDSP d + 8, baseCLE d])
  ++ (List.range 32).map baseSLV

/-- Lay the computed registers where a descriptor's read of a register page finds them. -/
def State.syncRegs (s : State) : State := viewRegs.foldl (fun t a => t.setReg a (s.regVal a)) s

/-- Is a register cleared by a read (RC)? -/
def isRC (a : Nat) : Bool :=
  let o := a % 0x10000
  let page := a / 0x10000 * 0x10000
  if page = baseHP then [0x40, 0x48, 0x50, 0x58, 0x60].contains o
  else if page = baseGOV then o == 0x140
  else if page = baseREC then [0x10, 0x18, 0x20, 0x28, 0x30, 0x38].contains o
  else if page = baseFSE then [0x28, 0x30, 0x38].contains o
  else if page = baseESP then [0x10, 0x18, 0x20, 0x28, 0x30].contains o
  else if page = baseCAR then [0x10, 0x18, 0x20, 0x28, 0x30, 0x38, 0x40].contains o
  else if baseDSP 0 ≤ a ∧ a < 0x040050000000 then
    let r := (a - baseDSP 0) % 0x10000000
    if r < 0x10000 then [0x18, 0x20, 0x28, 0x30].contains o
    else if r < 0x20000 then [0x18, 0x20].contains o
    else 0x100000 ≤ r && [0x10, 0x18, 0x20, 0x28].contains o
  else false

/-- What the cold tier has been sent before the last reads of CAR_COLD_WRITTEN, and the codec sums likewise. -/
def keyCold : Nat := 0x050000000010
def keyRaw : Nat := 0x050000000018
def keyPacked : Nat := 0x050000000020

/-- The key of the module service time, in ns (R425). -/
def keyService : Nat := 0x050000000030

/-- Read a register that a read clears (R320): the count is gone from it. -/
def State.readRC (s : State) (a : Nat) : State :=
  if isRC a then
    let v := s.reg a
    let s := if a = baseCAR + 0x28 then s.setReg keyCold (s.reg keyCold + v)
      else if a = baseCAR + 0x38 then s.setReg keyRaw (s.reg keyRaw + v)
      else if a = baseCAR + 0x40 then s.setReg keyPacked (s.reg keyPacked + v) else s
    let s := if a / 0x10000 * 0x10000 = baseHP then s.setReg (hpc 0 (a % 0x10000)) 0 else s
    s.setReg a 0
  else s

/-! ### Entries (the values a read returns) -/

def strNat (x : String) : Nat := ofBytes (x.toList.map (fun c => BitVec.ofNat 8 c.toNat))

/-- The const texts of the module: index to bytes. -/
def State.textOf (s : State) (idx : Nat) : Nat × Nat :=
  if idx = 0x1008 then
    (18, strNat (match s.brd.unit.variant with | 1 => "Neore Balgo BG-485" | 2 => "Neore Balgo BG-475" | _ => "Neore Balgo BG-455"))
  else if idx = 0x1009 then (2, strNat "B1")
  else ((List.range 64).foldl (fun n i => if s.brd.version >>> (8 * i) % 256 ≠ 0 then i + 1 else n) 0, s.brd.version)

/-- PDO mapping words: index, subindex, bits. -/
def pdo (i s b : Nat) : Nat := i * 65536 + s * 256 + b
def rxPdo : List Nat := [pdo 0x2002 1 16, pdo 0x2000 0x0B 8, pdo 0 0 8]
def txPdo : List Nat :=
  [pdo 0x2000 4 8, pdo 0x1001 0 8, pdo 0x2000 8 8, pdo 0x2700 1 8, pdo 0x2000 9 32, pdo 0x2002 4 32, pdo 0x2002 5 16,
   pdo 0x2700 0x23 8, pdo 0 0 8]

/-- The FP32 bits of `n` thousandths. -/
def milli (n : Nat) : Nat := bits32 (runFlg (div32 (valNat n) (valNat 1000))).1

/-- Is an entry one of the writable entries of the safety configuration (R395)? -/
def inSafetySet (idx sub : Nat) : Bool :=
  (idx == 0x2200 && within sub 6 0x0A) || (idx == 0x2201 && within sub 1 2) || (idx == 0x2202 && sub != 3)
  || within idx 0x2220 0x226F || within idx 0x2280 0x22BF || within idx 0x2740 0x277F
  || (within idx 0x2610 0x264F && within sub 0x0C 0x0F) || within idx 0x2660 0x266F

/-- The bytes of the safety configuration, in ascending index:subindex order (the writable entries; log entry 72). -/
def State.safetyBytes (s : State) : List Nat :=
  let pages : List (Nat × Nat) :=
    [(0x2200, 1), (0x2201, 1), (0x2202, 1), (0x2220, 64), (0x2260, 16), (0x2280, 64), (0x2610, 64), (0x2660, 16), (0x2740, 64)]
  pages.flatMap (fun p => (List.range p.2).flatMap (fun i =>
    let idx := p.1 + i
    (List.range 16).flatMap (fun sub =>
      match entry idx sub with
      | some e => if e.acc = 2 ∧ inSafetySet idx sub then (toBytes e.size (s.od idx sub)).map BitVec.toNat else []
      | none => [])))

/-- 0x2200:04. -/
def State.safetyCrc (s : State) : Nat := crc32c s.safetyBytes

/-- A stored or computed entry of the context view. -/
def State.ctxEntry (s : State) (c sub : Nat) : Nat :=
  match sub with
  | 0x02 => ctxCode (s.ctx c).st
  | 0x0F => (s.ctx c).cons
  | _ => s.od 0x5000 sub c

/-- Carafe, page, stream and map views by the selector's item. -/
def State.itemEntry (s : State) (idx sel sub : Nat) : Nat :=
  if idx = 0x2401 then
    let o := s.obj sel
    match sub with
    | 2 => objStCode o.st | 3 => o.kind | 4 => o.owner | 5 => o.foot | 6 => if o.st = .present then o.addr else 0
    | 7 => if o.st = .free then 0 else s.objCond sel | _ => if o.st = .free then 0 else (s.carTime - o.stamp) / 1000
  else if idx = 0x2411 then
    let p := s.page sel
    match sub with
    | 2 => pageStCode p.st | 3 => p.refs | 4 => p.fill | 5 => p.first | 6 => p.die | 7 => p.owner
    | _ => if p.st = .free then 0 else (s.carTime - p.stamp) / 1000
  else if idx = 0x2421 then
    let x := s.strm sel
    match sub with
    | 2 => strCode x.st | 3 => x.owner | 4 => x.chunks | _ => if x.st = .free then 0 else (s.carTime - x.stamp) / 1000
  else
    let m := s.sdMap sel
    match sub with
    | 2 => mapCode m.st | 3 => m.gen % 65536 | 4 => s.pinCount sel m.gen | 5 => s.pinsPrev sel | 6 => m.owner
    | 7 => if m.st = .undef then 0 else (freeSlots s m).length
    | _ => if m.st = .undef then 0 else (s.dieOf m.pool).getD 0

/-- Per-core entries. -/
def State.coreEntry (s : State) (n sub : Nat) : Nat :=
  let t := s.tst n
  match sub with
  | 0x01 => n % 64 / 8 * 9 + (s.core n).slot
  | 0x02 => s.coreState n
  | 0x03 => (s.reserver n).getD 0xFFFF
  | 0x10 => b2n (!t.tested)
  | 0x11 => (s.safTime - t.at_) / 1000000 % 2 ^ 32
  | _ => s.od (0x4000 + n) sub

/-- Free KiB among the first `n` units of 4 KiB of an SRAM from `base`. -/
def State.sramFree (s : State) (base bytes : Nat) : Nat :=
  (bytes - natSum (fun p => if p.2.inMem ∧ inRange p.2.addr base bytes then p.2.foot else 0) s.objs) / 1024

/-- Per-cluster entries. -/
def State.clusEntry (s : State) (g sub : Nat) : Nat :=
  match sub with
  | 0x01 => (s.clu g).spare
  | 0x02 => s.clusState g
  | 0x03 => ((AMap.first? (fun _ (x : Ctx) => x.rsvCl.contains g) s.ctxs).map (fun p => p.1)).getD 0xFFFF
  | 0x04 => ((clusCores g).filter s.unfenced).length
  | 0x10 => s.slvStatus g % 8
  | 0x11 => s.reg (baseSLV g + 8)
  | 0x20 => s.sramFree (clusBase g) (3 * mib)
  | 0x30 => b2n (s.clusState g != 0)
  | 0x40 => b2n (!(s.tested (256 + g)))
  | 0x41 => ((clusCores g).filter (fun n => !(s.tested n))).length
  | 0x52 => b2n ((clusCores g).any (fun n => (s.core n).remap))
  | 0x60 => b2n (s.clu g).gated
  | _ => s.od (0x4100 + g) sub

/-- Per-die entries. -/
def State.dieEntry (s : State) (d sub : Nat) : Nat :=
  match sub with
  | 0x01 => (s.die d).st
  | 0x02 => ((dieCores d).filter s.unfenced).length
  | 0x03 => ((dieCores d).filter (fun n => (s.reserver n).isSome)).length
  | 0x10 => b2n (!(s.tested (288 + d)))
  | 0x40 => 1024 - natSum (fun p => if p.2.inSlots ∧ p.2.cluster / 8 = d then p.2.slots else 0) s.strs
  | 0x60 => (if s.interleaved then s.dramFree d / 4 else s.dramFree d) / mib
  | 0x61 => s.sramFree (lakeBase d) (16 * mib)
  | 0x70 => (s.link d).st
  | 0x71 => (s.link ((linksOf d).getD 1 0)).st
  | 0x72 => (s.link ((linksOf d).getD 2 0)).st
  | 0x73 => (s.link ((linksOf d).getD 3 0)).st
  | _ => s.od (0x4200 + d) sub

/-- Customer record views. -/
def State.floorNow (s : State) : Nat := max s.brd.unit.floor (match s.brd.cust with | some c => c.floor | none => 0)

/-- The module's own entries, 0x1000–0x2FFF. -/
def State.modEntry (s : State) (idx sub : Nat) : Nat :=
  let m := s.md
  match idx, sub with
  | 0x1000, _ => 0
  | 0x1001, _ => s.errReg
  | 0x1003, 0 => m.errs.length
  | 0x1003, i => m.errs.getD (i - 1) 0
  | 0x1018, 1 => 0x0D5A
  | 0x1018, 2 => 0xB4000000 + s.brd.unit.variant
  | 0x1018, 3 => 0x00B10000
  | 0x1018, 4 => s.brd.unit.serial
  | 0x1600, 0 => 3
  | 0x1600, i => rxPdo.getD (i - 1) 0
  | 0x1A00, 0 => 9
  | 0x1A00, i => txPdo.getD (i - 1) 0
  | 0x1C00, i => i
  | 0x1C12, _ => 0x1600
  | 0x1C13, _ => 0x1A00
  | 0x2000, 1 => s.brd.unit.variant
  | 0x2000, 2 => s.brd.unit.clock
  | 0x2000, 3 => s.brd.unit.cap
  | 0x2000, 4 => m.st
  | 0x2000, 8 => s.conditions
  | 0x2000, 0x0C => (s.barTime - m.at_) / 1000000 % 2 ^ 32
  | 0x2000, 0x11 => 1000
  | 0x2000, 0x12 => 1200
  | 0x2001, 3 => m.claims.length
  | 0x2002, 4 => m.beat
  | 0x2002, 7 => m.al
  | 0x2010, 4 => s.brd.imgVer
  | 0x2010, 5 => s.brd.digest % 2 ^ 256
  | 0x2010, 6 => s.brd.digest / 2 ^ 256 % 2 ^ 256
  | 0x2010, 7 => s.brd.imgKey
  | 0x2030, 1 => match s.brd.cust with | some c => b2n c.bound + b2n (c.bound && c.require) | none => 0
  | 0x2030, 2 => match s.brd.cust with | some c => if c.bound then c.cid else 0 | none => 0
  | 0x2030, 3 => s.floorNow
  | 0x2030, 4 => s.brd.unit.floor
  | 0x2030, 9 => match s.brd.cust with | some c => c.seq | none => 0
  | 0x2100, 1 => if s.od 0x2100 1 = 0 then s.brd.unit.cap else s.od 0x2100 1
  | 0x2100, 4 => s.gov.cap / 1000
  | 0x2100, 6 => milli s.gov.mw
  | 0x2100, 7 => s.gov.hottest
  | 0x2100, 9 => s.gov.batt.getD 0
  | 0x2100, 0x0D => if s.od 0x2100 0x0D = 0 then s.brd.unit.clock else s.od 0x2100 0x0D
  | 0x2100, 0x17 => s.gov.reasons
  | 0x2200, 1 => s.isl.safe
  | 0x2200, 2 => s.isl.causes
  | 0x2200, 4 => s.safetyCrc
  | 0x2201, 4 => b2n s.isl.verified
  | 0x2300, 0x0C => s.rcv.record
  | 0x2300, 0x10 => s.reg keyService / 1000000
  | 0x2300, 0x11 => s.reg (baseREC + 0x48) / 1000000
  | 0x2400, 1 => 64512
  | 0x2400, 2 => s.poolFree / mib
  | 0x2400, 4 => natSum (fun p => p.2.pool) s.ctxs
  | 0x2400, 8 => s.objs.length
  | 0x2400, 0x0C => AMap.count (fun _ (o : Obj) => o.suspect) s.objs
  | 0x2400, 0x0D => s.coldUsed / mib
  | 0x2400, 0x0E => (s.reg keyCold + s.reg (baseCAR + 0x28)) / 18000000000000 % 256
  | 0x2400, 0x0F =>
    let r := s.reg keyRaw + s.reg (baseCAR + 0x38)
    let p := s.reg keyPacked + s.reg (baseCAR + 0x40)
    if p = 0 then 1000 else r * 1000 / p % 65536
  | 0x2410, 1 => s.pages.length
  | 0x2410, 2 => AMap.count (fun _ (p : Page) => p.backed) s.pages
  | 0x2410, 3 => AMap.count (fun _ (p : Page) => decide (p.st = .absent)) s.pages
  | 0x2410, 4 => AMap.count (fun _ (p : Page) => p.refs == 65535) s.pages
  | 0x2420, 1 => s.strs.length
  | 0x2420, 2 => AMap.count (fun _ (x : Strm) => x.inSlots) s.strs
  | 0x2420, 3 => AMap.count (fun _ (x : Strm) => decide (x.st = .pinned)) s.strs
  | 0x2500, 9 => s.blocksFree
  | 0x2500, 0x10 => (s.chan 0).rate
  | 0x2500, 0x11 => (s.chan 1).rate
  | 0x2500, 0x12 => (s.chan 2).rate
  | 0x2500, 0x13 => (s.chan 3).rate
  | 0x2600, 1 => countN 64 s.srcOn
  | 0x2700, 1 => s.esp.st
  | 0x2700, 0x14 => s.esp.ring
  | 0x2700, 0x23 => s.esp.soc
  | 0x2800, 1 => AMap.count (fun _ (x : SdMap) => decide (x.st ≠ .undef)) s.maps
  | 0x2A00, 1 => s.openAll % 65536
  | _, _ =>
    if within idx 0x2220 0x225F ∧ sub = 5 then (s.mon (idx - 0x2220)).miss
    else if within idx 0x2260 0x226F ∧ sub = 8 then (s.ver (idx - 0x2260)).count % 256
    else if within idx 0x2260 0x226F ∧ sub = 9 then (s.ver (idx - 0x2260)).mism
    else if within idx 0x2610 0x264F ∧ sub = 0x10 then
      let n := idx - 0x2610
      let x := s.src n
      word [(0, b2n (s.srcOn n)), (1, b2n x.frozen), (2, b2n (x.div || !x.pairs.isEmpty)), (3, b2n x.owing),
            (4, s.od idx 0x10)]
    else if within idx 0x2660 0x266F ∧ sub = 8 then s.grpVerdict (idx - 0x2660)
    else if within idx 0x2740 0x277F ∧ sub = 7 then AMap.getD (idx - 0x2740) 0 s.isl.fsoeSt
    else if within idx 0x2A10 0x2A13 ∧ sub = 1 then s.waitDepth (idx - 0x2A10) % 65536
    else s.od idx sub

/-- The windowed objects, and their selectors' index (R347). -/
def isWindow (idx : Nat) : Bool := [0x5000, 0x2003, 0x2401, 0x2411, 0x2421, 0x2801].contains idx

/-- The item that a path's selector names; selectors are kept once per path (R347). -/
def State.sel (s : State) (path idx : Nat) : Nat := s.od idx 1 path

/-- The value of an existing entry as a path reads it. -/
def State.odView (s : State) (path idx sub : Nat) : Nat :=
  if (entry idx sub).isNone then topSub idx
  else if isWindow idx ∧ sub = 1 then s.sel path idx
  else if idx = 0x5000 then s.ctxEntry (s.sel path idx) sub
  else if idx = 0x2003 then s.od idx sub (s.sel path idx)
  else if isWindow idx then s.itemEntry idx (s.sel path idx) sub
  else if idx = 0x1008 ∨ idx = 0x1009 ∨ idx = 0x100A then (s.textOf idx).2
  else if within idx 0x4000 0x40FF then s.coreEntry (idx - 0x4000) sub
  else if within idx 0x4100 0x411F then s.clusEntry (idx - 0x4100) sub
  else if within idx 0x4200 0x4203 then s.dieEntry (idx - 0x4200) sub
  else s.modEntry idx sub

end Sys2Proof.Machine
end

