-- ==== Sys2Proof/Machine/Fusion.lean ====
section
/-! DEFINITION. Sensor ingress and the fusion engine (chapter 09): samples, the frozen-frame detector, rate divergence,
voting groups, instants and ego-motion. -/

namespace Sys2Proof.Machine

/-! ### CRC-64 (R481) -/

def crc64Bit (c : Nat) : Nat := if 2 ^ 63 ≤ c then ((c * 2) % 2 ^ 64) ^^^ 0x42F0E1EBA9EA3693 else c * 2

/-- One more byte, most significant bit first. -/
def crc64Byte (c : Nat) (b : Byte) : Nat :=
  crc64Bit (crc64Bit (crc64Bit (crc64Bit (crc64Bit (crc64Bit (crc64Bit (crc64Bit (c ^^^ (b.toNat * 2 ^ 56)))))))))

def crc64 (l : List Byte) : Nat := l.foldl crc64Byte 0

/-! ### The engine's tables -/

def State.setSrc (s : State) (n : Nat) (x : Src) : State :=
  { s with fse := { s.fse with srcs := AMap.put Src.zero n x s.fse.srcs } }
def State.grp (s : State) (g : Nat) : Grp := AMap.getD g Grp.zero s.fse.grps
def State.setGrp (s : State) (g : Nat) (x : Grp) : State :=
  { s with fse := { s.fse with grps := AMap.put Grp.zero g x s.fse.grps } }
def State.fset (s : State) (t : Nat) : FSet := AMap.getD t FSet.zero s.fse.sets
def State.setFset (s : State) (t : Nat) (x : FSet) : State :=
  { s with fse := { s.fse with sets := AMap.put FSet.zero t x s.fse.sets } }

def srcIdx (n : Nat) : Nat := 0x2610 + n
def State.so (s : State) (n sub : Nat) : Nat := s.od (srcIdx n) sub
def State.setOn (s : State) (t : Nat) : Bool := s.od (0x2670 + t) 1 == 1
def State.grpOn (s : State) (g : Nat) : Bool := s.od (0x2660 + g) 1 == 1

/-- A safety-marked source (0x2610+s:0F bit 2). -/
def State.marked (s : State) (n : Nat) : Bool := (s.so n 0x0F).testBit 2

/-- The members that a mask names. -/
def maskList (m : Nat) : List Nat := (List.range 64).filter m.testBit

/-- The enabled group that a source belongs to. -/
def State.groupOf (s : State) (n : Nat) : Option Nat :=
  (List.range 16).find? (fun g => s.grpOn g && (s.od (0x2660 + g) 2).testBit n)

/-! ### Where samples may lie (R214, R325) -/

/-- DRAM, a die's tile stores, cluster SRAM outside the stream slots or die lake, or hub SRAM outside the staging SRAM. -/
def sampleArea (a n : Nat) : Bool :=
  let o := (a - 0x020000000000) % 0x20000000
  decide (a + n ≤ 2 ^ 36)
  || (decide (0x020000000000 ≤ a ∧ a < 0x020080000000) && decide (o + n ≤ 0x07000000)
      && (List.range 8).all (fun k => !(overlap o n (0x04300000 + k * 0x400000) mib)))
  || (decide (0x020080000000 ≤ a) && decide (a + n ≤ 0x020081800000))
  || (decide (0x030000000000 ≤ a) && decide (a + n ≤ 0x030001800000))

/-- The alias of hub SRAM is one memory (R16). -/
def flat (a : Nat) : Nat := if 0x020080000000 ≤ a ∧ a < 0x020082000000 then a + 0xFF80000000 else a

def State.ringOf (s : State) (n : Nat) : Nat × Nat := (flat (s.so n 5), s.so n 6 * s.so n 7)
def State.recsOf (s : State) (n : Nat) : Nat × Nat := (hub (s.so n 8), 64 * s.so n 7)

def meets (p q : Nat × Nat) : Bool := overlap p.1 p.2 q.1 q.2

/-- The ring of a source passes R214: it lies in the areas named, its records in hub SRAM, and it meets no ring and no record
array of another enabled source. -/
def State.ringOk (s : State) (n : Nat) : Bool :=
  sampleArea (s.so n 5) (s.so n 6 * s.so n 7) && hubRange (s.so n 8) (64 * s.so n 7)
  && (List.range 64).all (fun m => m == n || !(s.srcOn m)
        || (!(meets (s.ringOf n) (s.ringOf m)) && !(meets (s.ringOf n) (s.recsOf m))))

/-! ### Reports to the island (R386) -/

def State.fseReport (s : State) : State :=
  let froz := (List.range 64).any (fun n => s.marked n && (s.src n).frozen)
  let lost := (List.range 16).any (fun g => s.grpOn g && (s.grp g).verdict == 2
    && (maskList (s.od (0x2660 + g) 2)).any s.marked)
  (s.condCause 10 froz).condCause 11 lost

/-! ### Periods and divergence (R224, R225) -/

/-- The measured period, once 64 intervals exist. -/
def Src.period (x : Src) : Option Nat :=
  if x.ivals.length = 64 then some (x.ivals.foldl (· + ·) 0 / 64) else none

def State.periodOf (s : State) (n : Nat) : Nat := ((s.src n).period).getD (s.so n 9)

def absDiff (a b : Nat) : Nat := (a - b) + (b - a)

/-- Diverged or recovered by the slip of R225. -/
def slipJudge (was : Bool) (d w p : Nat) : Bool :=
  let slip := d * w / max 1 p
  if was then !(decide (slip < p / 2)) else decide (p ≤ slip)

def Src.off (x : Src) : Bool := x.div || !x.pairs.isEmpty

/-- Judge the slip of source `n` against its nominal period. -/
def State.judgeOwn (s : State) (n : Nat) : State :=
  let x := s.src n
  match x.period with
  | some p => s.setSrc n { x with div := slipJudge x.div (absDiff p (s.so n 9)) (s.so n 0x0B) (s.so n 9) }
  | none => s

/-- Judge the pair of members `n` and `m` of a group; the window is the lower-numbered member's (log entry 74). -/
def State.judgePair (s : State) (n m : Nat) : State :=
  let x := s.src n
  let y := s.src m
  match x.period, y.period with
  | some p, some q =>
    if m ≠ n ∧ s.so n 9 = s.so m 9 then
      let dv := slipJudge (x.pairs.contains m) (absDiff p q) (s.so (min n m) 0x0B) (s.so n 9)
      let s := s.setSrc n { x with pairs := if dv then insNat m x.pairs else x.pairs.filter (· ≠ m) }
      s.setSrc m { y with pairs := if dv then insNat n y.pairs else y.pairs.filter (· ≠ n) }
    else s
  | _, _ => s

/-- Divergence at an arrival of source `n`: each divergence and each recovery is counted for its source and reported to the
island, which counts the reports (R225, R386). -/
def State.judgeRate (s : State) (n : Nat) : State :=
  let s0 := s
  let s := s.judgeOwn n
  let ms := match s.groupOf n with | some g => maskList (s.od (0x2660 + g) 2) | none => []
  let s := ms.foldl (fun s m => s.judgePair n m) s
  (n :: ms.filter (· ≠ n)).foldl (fun s m =>
    if (s.src m).off != (s0.src m).off then
      let s := s.bumpOd (srcIdx m) 0x17
      { s with isl := { s.isl with reports := s.isl.reports + 1 } }
    else s) s

/-! ### The frozen-frame detector (R222, R223) -/

/-- The bytes that are hashed: what `skip` names is left out. -/
def hashed (skip : List (Nat × Nat)) (l : List Byte) : List Byte :=
  if skip.isEmpty then l
  else (List.zip (List.range l.length) l).filterMap (fun p =>
    if skip.any (fun r => decide (r.1 ≤ p.1 ∧ p.1 < r.1 + r.2)) then none else some p.2)

structure Verdict where
  repeated : Bool
  stuck : Bool
  suspect : Bool

def State.suspects (s : State) (n h frame : Nat) : Verdict :=
  let x := s.src n
  let det := s.so n 2 == 1 || s.so n 2 == 2
  let rep := det && (x.hashes.take (s.so n 0x0C)).contains h
  let chk := det && (s.so n 0x0F).testBit 1
  let stuck := chk && frame != 0 && frame == x.frame && x.seq != 0
  let zero := chk && frame == 0 && x.sawFrame
  { repeated := rep, stuck := stuck, suspect := rep || stuck || zero }

/-- Count a judged sample: frozen at the F-th suspect one in a row, cleared at the C-th other one. -/
def State.freezeOf (s : State) (n : Nat) (sus : Bool) (x : Src) : Src :=
  let x := if sus then { x with suspects := x.suspects + 1, goods := 0 } else { x with suspects := 0, goods := x.goods + 1 }
  if s.so n 0x0D ≤ x.suspects then { x with frozen := true }
  else if s.so n 0x0E ≤ x.goods then { x with frozen := false } else x

/-! ### Voting groups (R228, R229) -/

def State.healthy (s : State) (g n : Nat) : Bool :=
  let x := s.src n
  s.srcOn n && !x.frozen && x.seq != 0 && !x.damaged && decide (s.fseTime - x.arr ≤ s.so n 0x0A)
    && !((s.grp g).outvoted.contains n) && (s.od (0x2660 + g) 4 == 0 || !x.off)

def State.members (s : State) (g : Nat) : List Nat := maskList (s.od (0x2660 + g) 2)
def State.healthyOf (s : State) (g : Nat) : List Nat := (s.members g).filter (s.healthy g)

/-- Judge a group's verdict; a change is counted and reported. -/
def State.judgeGroup (s : State) (g : Nat) : State :=
  let ms := s.members g
  let hs := s.healthyOf g
  let v := if hs.length = ms.length then 0 else if s.od (0x2660 + g) 3 ≤ hs.length then 1 else 2
  let s := ms.foldl (fun s n => s.setOd (srcIdx n) 0x10 (b2n (hs.contains n))) s
  if (s.grp g).verdict = v then s
  else ((s.setGrp g { s.grp g with verdict := v }).bumpOd (0x2660 + g) 9).fseReport

def insVal (v : Val) : List Val → List Val
  | [] => [v]
  | w :: t => if valLt w v then w :: insVal v t else v :: w :: t

/-- The median of FP32 words; where one is not a number the spec states none and it is free. -/
def medianOf (k i : Nat) (l : List Nat) : Nat :=
  let vs := (l.map f32).foldr insVal []
  if (l.map f32).any isNan then Config.free k i % 2 ^ 32
  else if vs.length % 2 = 1 then bits32 (at_ vs (vs.length / 2))
  else bits32 (runFlg (do mul32 (← add32 (at_ vs (vs.length / 2 - 1)) (at_ vs (vs.length / 2))) valHalf)).1

/-- The elements of a voted reading, with the tolerance's subindex: six of an IMU, three of odometry. -/
def tolOf (type i : Nat) : Nat := if type = 3 then (if i < 3 then 6 else 7) else (if i = 2 then 6 else 7)

def State.withinTol (s : State) (g type : Nat) (med vals : List Nat) : Bool :=
  (List.range med.length).all (fun i =>
    valLe (valAbs (runFlg (addX (f32 (vals.getD i 0)) (valNeg (f32 (med.getD i 0))))).1) (f32 (s.od (0x2660 + g) (tolOf type i))))

/-- The outvoting judgement of one member. -/
def judgeVote (g type : Nat) (med : List Nat) (s : State) (n : Nat) : State :=
  if (s.src n).seq = 0 then s
  else
    let x := s.grp g
    let out := x.outvoted.contains n
    let ok := s.withinTol g type med (s.src n).vals
    let run := if ok = out then AMap.getD n 0 x.runs + 1 else 0
    if run ≠ 0 ∧ s.od (0x2660 + g) 5 ≤ run then
      s.setGrp g { x with runs := AMap.put 0 n 0 x.runs, outvoted := if out then x.outvoted.filter (· ≠ n) else insNat n x.outvoted }
    else s.setGrp g { x with runs := AMap.put 0 n run x.runs }

/-! ### Instants (R217–R221) -/

def State.instBytes (s : State) (t : Nat) : Nat := roundUp (32 + 16 * (maskList (s.od (0x2670 + t) 2)).length) 64

/-- The status that applies: the highest class, and in it the lowest detail. -/
def topStatus (l : List (Bool × Nat)) : Nat :=
  l.foldl (fun b p => if p.1 then (if b / 256 < p.2 / 256 ∨ (b / 256 = p.2 / 256 ∧ p.2 < b) then p.2 else b) else b) 0

/-- One member as an instant enters it. -/
structure Mem where
  src : Nat
  flags : Nat
  slot : Nat
  seq : Nat
  age : Nat
  frame : Nat
  status : Nat

def State.member (s : State) (t tk n : Nat) : Mem :=
  let x := s.src n
  let never := x.seq == 0
  let due := decide (x.arr + s.periodOf n ≤ tk)
  let missing := never || (due && AMap.getD t 0 x.used == x.seq)
  let age := min (tk - x.arr) 0xFFFFFFFF
  let stale := !never && decide (s.so n 0x0A < age)
  let lost := match s.groupOf n with | some g => (s.grp g).verdict == 2 | none => false
  let late := x.late && !never
  { src := n,
    flags := word [(0, b2n late), (1, b2n missing), (2, b2n stale), (3, b2n x.frozen), (4, b2n x.off), (5, b2n lost)],
    slot := if never then 0xFFFF else x.slot, seq := x.seq, age := if never then 0 else age, frame := x.frame,
    status := topStatus [(late, 0x0180), (missing, 0x0181), (stale, 0x0182), (x.off, 0x0183), (x.damaged, 0x0580),
                         (x.exceed, 0x0581), (x.frozen, 0x0680), (lost, 0x0681)] }

def Mem.bytes (m : Mem) : List Byte :=
  toBytes 16 (word [(0, m.src), (8, m.flags), (16, m.slot), (32, m.seq), (64, m.age), (96, m.frame)])

/-- Add `d` holds to a slot (subtract where `add` is false), in the state and in the slot's record. -/
def State.holdSlot (s : State) (add : Bool) (p : Nat × Nat) : State :=
  let x := s.src p.1
  let h := AMap.getD p.2 0 x.held
  let h := if add then h + 1 else h - 1
  (s.setSrc p.1 { x with held := AMap.put 0 p.2 h x.held }).wrHub (s.so p.1 8 + 64 * p.2 + 43) 1 h

/-- What writing an instant does to a member: it is used, and a missing one that has delivered becomes owing. -/
def useMember (t : Nat) (s : State) (m : Mem) : State :=
  let x := s.src m.src
  let s := s.setSrc m.src { x with used := AMap.put 0 t m.seq x.used, owing := x.owing || (m.flags.testBit 1 && m.seq != 0) }
  let s := if m.flags.testBit 1 then s.bumpOd (srcIdx m.src) 0x13 else s
  if m.slot = 0xFFFF then s else s.holdSlot true (m.src, m.slot)

/-- Fire the instant of set `t` with cut `tk`. -/
def State.fire (s : State) (t tk : Nat) : State :=
  let x := s.fset t
  let k := x.num + 1
  let pos := k % max 1 (s.od (0x2670 + t) 6)
  if x.insts.any (fun i => i.pos == pos) then s.bumpOd (0x2670 + t) 0x0A
  else
    let ms := (maskList (s.od (0x2670 + t) 2)).map (s.member t tk)
    let cnt := fun b => (ms.filter (fun m => m.flags.testBit b)).length
    let st := topStatus (ms.map (fun m => (m.status != 0, m.status)))
    let head := word [(0, k), (32, st), (48, t), (56, ms.length), (64, tk), (128, cnt 0), (136, cnt 1), (144, cnt 2)]
    let a := hub (s.od (0x2670 + t) 5) + pos * s.instBytes t
    let s := s.wr a (toBytes 32 head ++ ms.flatMap Mem.bytes)
    let s := ms.foldl (useMember t) s
    let names := (ms.filter (fun m => m.slot != 0xFFFF)).map (fun m => (m.src, m.slot))
    let x := s.fset t
    let s := s.setFset t { x with num := k, insts := x.insts ++ [{ pos := pos, num := k, at_ := s.fseTime, names := names }] }
    let s := (s.bumpReg (baseFSE + 0x40)).bumpOd 0x2600 2
    let c := s.od (0x2670 + t) 8
    if c = 0xFFFF then s
    else
      let e := s.od 0x5000 0x18 c
      let s := s.knock c ((s.ctx c).prod + 1)
      if s.od 0x5000 0x18 c = e then s else s.bumpOd (0x2670 + t) 0x0B

/-- The next cut of a set fires, when its time has come. -/
def State.cutOne (s : State) (t : Nat) (due : Nat → Bool) : State :=
  let x := s.fset t
  match x.cuts with
  | [] => s
  | tk :: rest =>
    if due tk && s.setOn t then
      let rest := if (s.od (0x2670 + t) 3).testBit 7 then [tk + max 1 (s.od (0x2670 + t) 4)] else rest
      (s.setFset t { x with cuts := rest }).fire t tk
    else s

/-- INSTANT_CUT: an instant is fused once its cut has passed, so that a sample that arrives at exactly `T_k` takes part in it,
whichever command of that nanosecond comes first (R217, R234). -/
def State.instantCut (s : State) (t : Nat) : State := s.cutOne t (fun tk => decide (tk < s.fseTime))

/-- Fire every cut of set `t` that lies before now, so that a sample that arrives now takes no part in it. -/
def cutsBefore (t : Nat) : Nat → State → State
  | 0, s => s
  | n + 1, s =>
    match (s.fset t).cuts with
    | tk :: _ => if tk < s.fseTime ∧ s.setOn t then cutsBefore t n (s.cutOne t (fun c => decide (c < s.fseTime))) else s
    | [] => s

/-- How many cuts of a set lie before now. -/
def State.cutsDue (s : State) (t : Nat) : Nat :=
  let x := s.fset t
  if (s.od (0x2670 + t) 3).testBit 7 then (s.fseTime - x.cuts.headD 0) / max 1 (s.od (0x2670 + t) 4) + 1 else x.cuts.length

def State.overdueCuts (s : State) : State :=
  (List.range 8).foldl (fun s t => if s.setOn t then cutsBefore t (s.cutsDue t) s else s) s

/-- A sample of source `n` sets the cut of the sets it leads. -/
def State.leadCuts (s : State) (n : Nat) : State :=
  (List.range 8).foldl (fun s t =>
    if s.setOn t ∧ s.od (0x2670 + t) 3 = n then
      s.setFset t { s.fset t with cuts := (s.fset t).cuts ++ [s.fseTime + s.od (0x2670 + t) 4] }
    else s) s

/-- An instant is released: its holds end. -/
def State.releaseAt (s : State) (t pos : Nat) : State :=
  match (s.fset t).insts.find? (fun i => i.pos == pos) with
  | some i => i.names.foldl (fun s p => s.holdSlot false p)
      (s.setFset t { s.fset t with insts := (s.fset t).insts.filter (fun i => i.pos != pos) })
  | none => s

/-- INSTANT_RELEASE: the consumer's write of 1 to the release byte. -/
def State.instantRelease (s : State) (t pos : Nat) : State :=
  if t < 8 ∧ pos < s.od (0x2670 + t) 6 then
    (s.wrHub (s.od (0x2670 + t) 5 + pos * s.instBytes t + 19) 1 1).releaseAt t pos
  else s

/-- INSTANT_HOLD_LIMIT. -/
def State.instantLimit (s : State) (t pos : Nat) : State :=
  match (s.fset t).insts.find? (fun i => i.pos == pos) with
  | some i => if i.at_ + s.od (0x2670 + t) 7 < s.fseTime then (s.releaseAt t pos).bumpOd (0x2670 + t) 9 else s
  | none => s

/-! ### Ego-motion (R231, R232) -/

def State.egoArr (s : State) (sub n : Nat) : List Nat := (List.range n).map (fun i => field (s.od 0x2680 sub) (32 * i) 32)
def fbits (x : Flg Val) : Nat := bits32 (runFlg x).1
def zip3 (f : Val → Val → Flg Val) (a b : List Nat) : List Nat := (a.zip b).map (fun p => fbits (f (f32 p.1) (f32 p.2)))
def scale3 (k : Val) (a : List Nat) : List Nat := a.map (fun x => fbits (mul32 (f32 x) k))

/-- Write the ego record; its generation goes odd and then even. -/
def State.writeEgo (s : State) : State :=
  let e := { s.fse.ego with gen := (s.fse.ego.gen + 2) % 2 ^ 32 }
  let n := s.od 0x2680 1
  let o := s.od 0x2680 3
  let old := o != 0xFF && decide ((s.src o).seq = 0 ∨ s.so o 0x0A < s.fseTime - (s.src o).arr)
  let flags := word [(0, b2n e.valid), (1, b2n e.skipped), (2, b2n old), (3, b2n (n != 0xFF && (s.src n).off))]
  let arr := fun (b : Nat) (l : List Nat) => (List.range l.length).map (fun i => (b + 32 * i, l.getD i 0 % 2 ^ 32))
  let w := word ([(0, e.gen), (32, flags), (48, n), (64, e.upd)] ++ arr 128 e.q ++ arr 256 e.v ++ arr 352 e.p ++ arr 448 e.w
    ++ arr 544 e.a ++ [(640, e.dt % 2 ^ 32), (672, e.steps % 2 ^ 32)])
  ({ s with fse := { s.fse with ego := e } }).wrHub (s.od 0x2680 2) 128 w

/-- The pose of a reset. -/
def Ego.pose (e : Ego) : Ego :=
  { e with q := Ego.zero.q, v := Ego.zero.v, p := Ego.zero.p, steps := 0, valid := false, reset := false }

/-- One step of R231 on the latest sample of the inertial source. -/
def State.egoStep (s : State) (n : Nat) : State :=
  let x := s.src n
  let e := s.fse.ego
  let e := if e.reset then e.pose else e
  let ns := s.periodOf n
  let dt := (runFlg (div32 (valNat ns) (valNat 1000000000))).1
  let rm := s.egoArr 4 4
  let w := zip3 sub32 (Config.rotate rm (x.vals.take 3)) (s.egoArr 5 3)
  let a := zip3 sub32 (Config.rotate rm (x.vals.drop 3)) (s.egoArr 6 3)
  let half := w.map (fun i => fbits (do mul32 (← mul32 (f32 i) dt) valHalf))
  let q := Config.turn e.q half
  let v := zip3 add32 e.v (scale3 dt (zip3 add32 (Config.rotate q a) (s.egoArr 7 3)))
  let o := s.od 0x2680 3
  let y := s.src o
  let fresh := o != 0xFF && y.seq != e.odo && y.seq != 0
  let v := if fresh then
      let vo := Config.rotate q [y.vals.getD 0 0, y.vals.getD 1 0, 0]
      zip3 add32 v (scale3 (f32 (s.od 0x2680 8)) (zip3 sub32 vo v))
    else v
  let p := zip3 add32 e.p (scale3 dt v)
  let e := { e with q := q, v := v, p := p, w := w, a := a, dt := ns, upd := x.arr, steps := e.steps + 1, valid := true,
                    skipped := false, odo := if o = 0xFF then 0 else y.seq }
  ({ s with fse := { s.fse with ego := e } }).writeEgo

/-- An inertial sample arrives: it is integrated, or skipped when it is frozen, damaged or of a lost group. -/
def State.egoArrive (s : State) (n : Nat) : State :=
  if s.od 0x2680 1 ≠ n then s
  else
    let lost := match s.groupOf n with
      | some g => (s.grp g).verdict == 2
      | none => decide (48 ≤ n) && s.grpOn (n - 48) && (s.grp (n - 48)).verdict == 2
    if (s.src n).frozen || (s.src n).damaged || lost then
      ({ s with fse := { s.fse with ego := { s.fse.ego with skipped := true } } }).writeEgo
    else s.egoStep n

/-- INERTIAL_SOURCE_WRITE: integration goes off, or on from the reset pose. -/
def State.egoTurn (s : State) (n : Nat) : State :=
  if n = 0xFF then s
  else
    let s := { s with fse := { s.fse with ego := { s.fse.ego.pose with reset := true, skipped := false } } }
    s.writeEgo

/-! ### Samples (R208, R214–R216) -/

/-- A sample that has been received whole. -/
structure Smp where
  bytes : List Byte
  frame : Nat
  start : Nat
  bad : Bool
  skip : List (Nat × Nat)
  vals : List Nat

/-- The slot of sample `i`: the first in ring order that is not held. -/
def State.slotFor (s : State) (n i : Nat) : Option Nat :=
  let c := max 1 (s.so n 7)
  ((List.range c).map (fun k => (i + k) % c)).find? (fun k => AMap.getD k 0 (s.src n).held == 0)

/-- A sample is dropped (R216, Table 09-7). -/
def State.dropSample (s : State) (n : Nat) : State :=
  ((s.setSrc n { s.src n with dropped := true, broken := true }).bumpOd (srcIdx n) 0x14).bumpReg (baseFSE + 0x30)

/-- The period, the detector and the divergence of a sample that goes to slot `k`. -/
def State.takeSample (s : State) (n k : Nat) (m : Smp) : State :=
  let x := s.src n
  let now := s.fseTime
  let size := s.so n 6
  let data := m.bytes.take size
  let trunc := decide (size < m.bytes.length)
  let bad := m.bad || trunc
  let skip := if (s.so n 0x0F).testBit 0 then [] else m.skip
  let h := crc64 (hashed skip data)
  let v := s.suspects n h m.frame
  let ivals := if x.seq = 0 ∨ x.broken ∨ bad then x.ivals else ((now - x.arr) :: x.ivals).take 64
  let late := x.owing
  let y := { x with
    seq := x.seq + 1, slot := k, start := m.start, arr := now, bytes := data.length, frame := m.frame, damaged := bad,
    late := late, ivals := ivals, broken := bad, owing := false, hashes := (h :: x.hashes).take 16,
    sawFrame := x.sawFrame || m.frame != 0, exceed := x.dropped, dropped := false, vals := m.vals }
  let y := s.freezeOf n v.suspect y
  let s := (s.wr (s.so n 5 + k * size) data).setSrc n y
  let s := s.setOd (srcIdx n) 0x16 (y.period.getD 0)
  let s := s.judgeRate n
  let y := s.src n
  let st := topStatus [(late, 0x0180), (bad, 0x0580), (y.exceed, 0x0581), (y.frozen, 0x0680)]
  let flags := word [(0, b2n late), (1, b2n v.repeated), (2, b2n v.stuck), (3, b2n y.frozen), (4, b2n y.off), (5, b2n trunc)]
  let rec_ := word [(0, y.seq % 2 ^ 32), (32, m.frame % 2 ^ 32), (64, m.start), (128, now), (192, data.length), (224, h),
                    (288, y.period.getD 0 % 2 ^ 32), (320, st), (336, flags)]
  let s := s.wrHub (s.so n 8 + 64 * k) 64 rec_
  let s := s.bumpOd (srcIdx n) 0x11
  let s := if late then (s.bumpOd (srcIdx n) 0x12).bumpReg (baseFSE + 0x28) else s
  let s := if bad then (s.bumpOd (srcIdx n) 0x15).bumpReg (baseFSE + 0x38) else s
  if x.frozen = y.frozen then s else s.fseReport

/-- Store a sample of source `n`, voting apart: slot, record, and what its arrival sets off. While a die that holds a part of
the source's ring is in reset the sample is dropped (R234). -/
def State.store (s : State) (n : Nat) (m : Smp) : State :=
  let s := s.overdueCuts
  match s.slotFor n ((s.src n).seq + 1) with
  | none => s.dropSample n
  | some k =>
    if (s.diesOf ⟨s.so n 5, s.so n 6 * s.so n 7, true, false⟩).any (fun d => (s.die d).st != 0) then s.dropSample n
    else ((s.takeSample n k m).leadCuts n).egoArrive n

/-- The outvoting judgement of a vote of group `g`, and its voted sample unless the verdict is lost (R229). -/
def State.vote (s : State) (g type : Nat) : State :=
  let hs := s.healthyOf g
  let (k, s) := s.draw
  let n := if type = 3 then 6 else 3
  let med := (List.range n).map (fun i => medianOf k i (hs.map (fun m => (s.src m).vals.getD i 0)))
  let data := med.flatMap (toBytes 4) ++
    (if type = 3 then toBytes 104 0 else (List.range 4).map (fun i => BitVec.ofNat 8 (Config.free k (64 + i))))
  let lost := (s.grp g).verdict == 2
  let s := (s.members g).foldl (judgeVote g type med) s
  if lost then s
  else s.store (48 + g) { bytes := data, frame := 0, start := s.fseTime, bad := false, skip := [], vals := med }

/-- A member's arrival: the verdict is judged, and the lowest healthy member's arrival brings a vote. -/
def State.groupArrive (s : State) (n : Nat) : State :=
  match s.groupOf n with
  | none => s
  | some g =>
    let s := s.judgeGroup g
    let type := s.so n 2
    if (type = 3 ∨ type = 5) ∧ (s.healthyOf g).head? = some n then (s.vote g type).judgeGroup g else s

/-- A sample of a source arrives. -/
def State.sample (s : State) (n : Nat) (m : Smp) : State :=
  let q := (s.src n).seq
  let s := s.store n m
  if (s.src n).seq = q then s else s.groupArrive n

/-! ### The interfaces (R209–R213) -/

/-- The enabled sources of a type on a port. -/
def State.sourcesOn (s : State) (type port : Nat) : List Nat :=
  (List.range 64).filter (fun n => s.srcOn n && s.so n 2 == type && (type == 5 || s.so n 3 == port))

/-- Does a CSI-2 source take packets of data type `dt` (R211)? -/
def State.csiTakes (s : State) (n dt : Nat) : Bool :=
  let sel := s.so n 4
  if dt = 0x12 then sel.testBit 16 else (s.od 0x2601 (1 + field sel 8 8)).testBit dt

/-- The payloads of the long packets that a source selects, and where embedded data lies in them. -/
def packPackets (takes : Nat → Bool) : List (Nat × List Byte) → List Byte → List (Nat × Nat) → List Byte × List (Nat × Nat)
  | [], acc, skip => (acc, skip)
  | (dt, l) :: t, acc, skip =>
    if takes dt then packPackets takes t (acc ++ l) (if dt = 0x12 then skip ++ [(acc.length, l.length)] else skip)
    else packPackets takes t acc skip

/-- CSI2_FRAME_END: a frame of virtual channel `vc` of a port, whose Frame Start was `ago` ns ago. -/
def State.csiFrame (s : State) (port vc frame ago : Nat) (bad : Bool) (pkts : List (Nat × List Byte)) : State :=
  ((s.sourcesOn 1 port).filter (fun n => s.so n 4 % 16 == vc)).foldl (fun s n =>
    let p := packPackets (s.csiTakes n) pkts [] []
    s.sample n { bytes := p.1, frame := frame % 65536, start := s.fseTime - ago, bad := bad, skip := p.2, vals := [] }) s

/-- A datagram's sequence field by a filter's 0x2650+f:04; the widths are coded 0, 1 and 2 (log entry 75). -/
def seqField (w : Nat) (l : List Byte) : Nat × Nat :=
  let n := 2 ^ min 2 (field w 12 2)
  let b := (l.drop (w % 4096)).take n
  (n, ofBytes (if w.testBit 14 then b.reverse else b))

/-- Does a datagram match a filter? `kind` 1 UDP over IPv4, 2 over IPv6, 3 EtherType. -/
def State.matches_ (s : State) (f kind key vlan : Nat) : Bool :=
  s.od (0x2650 + f) 1 == kind && s.od (0x2650 + f) 2 == key && s.od (0x2650 + f) 3 == vlan

/-- Does this datagram end the frame? -/
def frameEnds (rule parts : Nat) (l : List Byte) : Bool :=
  if rule.testBit 31 then ((l.drop (rule % 4096)).headD 0).toNat.testBit (field rule 12 3)
  else decide (rule % 65536 ≤ parts)

def ethTake (bad : Bool) (l : List Byte) (s : State) (n : Nat) : State :=
  let f := s.so n 4
  let x := s.src n
  if bad then s.setSrc n { x with bad := true }
  else
    let w := s.od (0x2650 + f) 4
    let (sn, sv) := seqField w l
    let x := if x.parts = 0 then { x with began := s.fseTime } else x
    let x := { x with parts := x.parts + 1, fill := x.fill ++ l, seqs := x.seqs ++ [sv],
                      skip := x.skip ++ [(x.fill.length + w % 4096, min sn (l.length - w % 4096))] }
    if frameEnds (s.od (0x2650 + f) 5) x.parts l then
      let (k, s) := s.draw
      let frame := x.seqs.getD (Config.free k 0 % x.seqs.length) 0
      let m : Smp := { bytes := x.fill, frame := frame, start := x.began, bad := x.bad, skip := x.skip, vals := [] }
      (s.setSrc n { x with parts := 0, fill := [], seqs := [], skip := [], bad := false }).sample n m
    else s.setSrc n x

/-- ETHERNET_DATAGRAM. -/
def State.datagram (s : State) (port kind key vlan : Nat) (bad : Bool) (l : List Byte) : State :=
  ((s.sourcesOn 2 port).filter (fun n => s.matches_ (s.so n 4) kind key vlan)).foldl (ethTake bad l) s

/-- A data-ready edge comes while the previous read runs: its sample is dropped. The interval that ends with that read does not
span it, the next one does (R212, R224): `parts` says so until the read ends. -/
def State.dropEdge (s : State) (n : Nat) : State :=
  ((s.setSrc n { s.src n with dropped := true, parts := 1 }).bumpOd (srcIdx n) 0x14).bumpReg (baseFSE + 0x30)

/-- IMU_DATA_READY. -/
def State.imuReady (s : State) (port : Nat) : State :=
  (s.sourcesOn 3 port).foldl (fun s n =>
    if (s.src n).busy then s.dropEdge n else s.setSrc n { s.src n with busy := true, began := s.fseTime }) s

/-- An INT16 of a read, at the offset that a layout byte gives. -/
def imuField (b : Nat) (l : List Byte) : Int :=
  let p := ((l.drop (b % 128)).take 2)
  toSigned 16 (ofBytes (if b.testBit 7 then p.reverse else p))

/-- IMU_READ_END: the bytes that the SPI read returned. -/
def State.imuEnd (s : State) (port : Nat) (l : List Byte) : State :=
  ((s.sourcesOn 3 port).filter (fun n => (s.src n).busy)).foldl (fun s n =>
    let raw := l.take (s.so n 0x19)
    let vals := (List.range 6).map (fun i =>
      fbits (mul32 (valInt (imuField (field (s.so n 0x1A) (8 * i) 8) raw)) (f32 (s.so n (if i < 3 then 0x1B else 0x1C)))))
    let pad := raw ++ List.replicate (64 - raw.length) 0
    let data := vals.flatMap (toBytes 4) ++ toBytes 8 0 ++ pad ++ toBytes 32 0
    let edge := (s.src n).parts != 0
    let s := s.setSrc n { s.src n with busy := false, parts := 0 }
    let s := s.sample n { bytes := data, frame := 0, start := (s.src n).began, bad := false, skip := [], vals := vals }
    if edge then s.setSrc n { s.src n with broken := true } else s) s

/-- TDM_BLOCK_END: the block of a source, as its selected slots give it. -/
def State.tdmEnd (s : State) (n ago : Nat) (l : List Byte) : State :=
  if s.srcOn n ∧ s.so n 2 = 4 then
    s.sample n { bytes := l, frame := 0, start := s.fseTime - ago, bad := false, skip := [], vals := [] }
  else s

/-- The odometry sources take their region of the input process image (Table 09-1). -/
def State.odometry (s : State) (image : List Byte) : State :=
  (s.sourcesOn 5 0).foldl (fun s n =>
    let data := (image.drop (s.so n 4)).take 16
    let w := ofBytes data
    s.sample n { bytes := data, frame := 0, start := s.fseTime, bad := false, skip := [],
                 vals := [field w 0 32, field w 32 32, field w 64 32] }) s

/-! ### Enabling (R209, R211, R212, R214, R217, R223, R227, R230) -/

/-- CSI-2 data types of Table 09-2; the codes are the standard's (log entry 76). -/
def csiTypes : List Nat := [0x1E, 0x24, 0x2A, 0x2B, 0x2C, 0x2D, 0x2E] ++ (List.range 8).map (fun i => 0x30 + i)

def State.csiOk (s : State) (n : Nat) : Bool :=
  let sel := s.so n 4
  let m := s.od 0x2601 (1 + field sel 8 8)
  let m := (maskList m).filter (· ≠ 0x12)
  decide (field sel 8 8 ≤ 15) && !m.isEmpty && m.all csiTypes.contains

/-- The checks of a source's enable; 0x0380 where one fails. -/
def State.sourceOk (s : State) (n : Nat) : Bool :=
  let port := s.so n 3
  let kind := match s.so n 2 with
    | 1 => decide (port ≤ 7) && s.csiOk n
    | 2 => decide (port ≤ 3) && decide (s.so n 4 ≤ 15)
    | 3 => decide (port ≤ 3) && decide (128 ≤ s.so n 6)
    | 4 => decide (port ≤ 1)
    | 5 => (List.range 64).all (fun m => m == n || !(s.srcOn m) || s.so m 2 != 5 || !(overlap (s.so n 4) 16 (s.so m 4) 16))
    | _ => false
  kind && s.ringOk n && !(s.marked n && s.so n 0x0C == 0 && !((s.so n 0x0F).testBit 1))

/-- A source starts: its numbers begin anew; a frozen declaration and held slots stay. -/
def State.startSource (s : State) (n : Nat) : State :=
  let x := s.src n
  let s := s.setSrc n { Src.zero with frozen := x.frozen, held := x.held }
  (List.range 7).foldl (fun s i => s.setOd (srcIdx n) (0x11 + i) 0) s

def State.groupOk (s : State) (g : Nat) : Bool :=
  let ms := s.members g
  let first := ms.headD 0
  let type := s.so first 2
  within ms.length 2 8 && within type 1 5 && ms.all (fun n => s.so n 2 == type && s.so n 9 == s.so first 9)
    && within (s.od (0x2660 + g) 3) 1 ms.length && ms.all (fun n => (s.groupOf n).isNone)
    && (type != 3 && type != 5 || (!(s.srcOn (48 + g)) && s.ringOk (48 + g) && (type != 3 || decide (128 ≤ s.so (48 + g) 6))))

/-- A group starts; one of IMU or odometry sources enables its output source. -/
def State.startGroup (s : State) (g : Nat) : State :=
  let type := s.so ((s.members g).headD 0) 2
  let s := (s.setGrp g Grp.zero).setOd (0x2660 + g) 9 0
  if type = 3 ∨ type = 5 then ((s.setOd (srcIdx (48 + g)) 2 6).setOd (srcIdx (48 + g)) 1 1).startSource (48 + g) else s

/-- Has the group claimed source 48 + g? -/
def State.claimsOut (s : State) (g : Nat) : Bool := s.grpOn g && s.so (48 + g) 2 == 6 && s.srcOn (48 + g)

def State.stopGroup (s : State) (g : Nat) (claimed : Bool) : State :=
  let s := (s.members g).foldl (fun s n => s.setOd (srcIdx n) 0x10 0) s
  let s := s.setGrp g Grp.zero
  (if claimed then s.setOd (srcIdx (48 + g)) 1 0 else s).fseReport

def State.setOk (s : State) (t : Nat) : Bool :=
  let o := fun i => s.od (0x2670 + t) i
  hubRange (o 5) (o 6 * s.instBytes t)
    && (if (o 3).testBit 7 then within (o 4) 100000 1000000000 else decide (o 3 < 64) && decide (o 4 ≤ 100000000))

/-- A set starts: its instants are numbered from 1. -/
def State.startSet (s : State) (t : Nat) : State :=
  let s := (List.range 64).foldl (fun s n =>
    if AMap.getD t 0 (s.src n).used = 0 then s else s.setSrc n { s.src n with used := AMap.put 0 t 0 (s.src n).used }) s
  s.setFset t { s.fset t with num := 0,
                              cuts := if (s.od (0x2670 + t) 3).testBit 7 then [s.fseTime + s.od (0x2670 + t) 4] else [] }

/-- A set stops: no instant fires. -/
def State.stopSet (s : State) (t : Nat) : State := s.setFset t { s.fset t with cuts := [] }

end Sys2Proof.Machine
end

