-- ==== Sys2Proof/Machine/Espresso.lean ====
section
/-! DEFINITION. The Espresso loop and the body segment (chapter 10), with the island's part in a cycle: the limit check,
FSoE frames and the output watch (R251, R255, R377, R387). -/

namespace Sys2Proof.Machine

/-! ### Configuration as the entries give it -/

/-- The loop runs its program: in Run, and not in the 16 fallback cycles that follow Stop. -/
def Esp.runs (e : Esp) : Bool := e.st == 2 && (e.stopLeft == 0 || e.stopLeft == 17)

def State.lo (s : State) (sub : Nat) : Nat := s.od 0x2700 sub
def State.setEsp (s : State) (e : Esp) : State := { s with esp := e }

/-- A SubDevice's record (R238). -/
def State.subd (s : State) (i : Nat) : Nat := s.rdHub (s.lo 5 + 64 * i) 64
def State.subds (s : State) : List Nat := (List.range (s.lo 6)).map s.subd
/-- Its image ranges: offset and length. -/
def subIn (w : Nat) : Nat × Nat := (lf w 10 2, lf w 12 2)
def subOut (w : Nat) : Nat × Nat := (lf w 14 2, lf w 16 2)
/-- The length of an image: the end of its last range. -/
def imgLen (l : List (Nat × Nat)) : Nat := l.foldl (fun m r => if r.2 = 0 then m else max m (r.1 + r.2)) 0
def State.inLen (s : State) : Nat := imgLen (s.subds.map subIn)
def State.outLen (s : State) : Nat := imgLen (s.subds.map subOut)

/-- The frames that cover an image: offset and length (R239). -/
def framesOf (n : Nat) : List (Nat × Nat) := (List.range (ceilDiv n 1486)).map (fun k => (1486 * k, min 1486 (n - 1486 * k)))
/-- Summed wire time (R241). -/
def wireTime (n : Nat) : Nat := natSum (fun f => 80 * (52 + max f.2 32)) (framesOf n)

/-- The working counter that a frame should bring: the devices mapped into it (R243). -/
def expectWkc (l : List (Nat × Nat)) (f : Nat × Nat) : Nat := (l.filter (fun r => overlap r.1 r.2 f.1 f.2)).length

/-- Input cutoff after the tick (R241). -/
def State.cutoff (s : State) : Nat := s.lo 3 - (s.lo 4 + wireTime s.outLen + s.lo 0x12 + 10000)
def State.periodOk (s : State) : Bool :=
  decide (wireTime s.inLen + 2 * s.lo 0x12 + s.lo 4 + wireTime s.outLen + 10000 ≤ s.lo 3)
    && decide (s.lo 6 ≤ (if s.lo 3 < 250000 then 32 else 96))

/-- A field-map entry (R244). -/
def State.fieldAt (s : State) (i : Nat) : Nat := s.rdHub (s.lo 7 + 16 * i) 16
def State.fields (s : State) : List Nat := (List.range (s.lo 8)).map s.fieldAt
def fOff (w : Nat) : Nat := field w 0 16
def fType (w : Nat) : Nat := field w 16 8
def fOut (w : Nat) : Bool := w.testBit 24
def fRole (w : Nat) : Nat := field w 25 3
def fIdx (w : Nat) : Nat := field w 32 16
def fScale (w : Nat) : Val := f32 (field w 64 32)
def fBias (w : Nat) : Val := f32 (field w 96 32)
/-- Bytes of a field's type. -/
def fBytes (w : Nat) : Nat := match fType w with | 1 => 1 | 2 => 1 | 3 => 2 | 4 => 2 | _ => 4
def fSigned (w : Nat) : Bool := fType w == 1 || fType w == 3 || fType w == 5

/-- The loop's contexts: as 0x2700:0B and as 0x2700:0C; the primary and the standby of now. -/
def State.ctxB (s : State) : Nat := s.lo 0x0B
def State.ctxC (s : State) : Nat := s.lo 0x0C
def State.primary (s : State) : Nat := if s.esp.swapped then s.ctxC else s.ctxB
def State.standby (s : State) : Nat := if s.esp.swapped then s.ctxB else s.ctxC

/-- The module address of a cluster SRAM offset in a context's reserved cluster, the lowest where it has several. -/
def State.vecAt (s : State) (c o : Nat) : Nat := clusBase ((s.ctx c).rsvCl.headD 0) + o

/-! ### The template (R246, R247) -/

/-- The template's descriptors as (words, slots), read from its slots in order. -/
def readTemplate (s : State) : Nat → Nat → List (Nat × Nat)
  | 0, _ => []
  | n + 1, o =>
    let w := s.rdHub o 64
    if (w >>> 32).testBit 14 then (s.rdHub o 128, 2) :: readTemplate s n (o + 128) else (w, 1) :: readTemplate s n (o + 64)

def State.template (s : State) : List (Nat × Nat) := readTemplate s (s.lo 0x0A) (s.lo 9)
def slotsOf (t : List (Nat × Nat)) : Nat := natSum (fun p => p.2) t

/-- Bytes `o` to `o + n` of a descriptor's words set to `v`. -/
def putF (w o n v : Nat) : Nat := setField w (8 * o) (8 * n) v

/-- An address in a reserved cluster of context `a` becomes the same offset in the same-ranked cluster of `b`. -/
def State.shift (s : State) (a b x : Nat) : Nat :=
  (((s.ctx a).rsvCl.zip (s.ctx b).rsvCl).find? (fun p => inRange x (clusBase p.1) 0x400000)).elim x
    (fun p => x - clusBase p.1 + clusBase p.2)

/-- The template's descriptor `w`, whose first byte is byte `at_` of the template, for context `c`: its context and job,
its record in that context's completion area and, for the context of 0x2700:0C, the addresses that the relocation list
names (byte offsets into the template; the list's layout is not given, log entry 77). -/
def State.forSide (s : State) (c : Nat) (reloc : List Nat) (at_ w : Nat) : Nat :=
  if c = s.ctxB then w
  else
    let w := (reloc.filter (fun o => decide (at_ ≤ o ∧ o + 6 ≤ at_ + 128))).foldl
      (fun w o => putF w (o - at_) 6 (s.shift s.ctxB c (lf w (o - at_) 6))) w
    let w := putF w 4 2 (c % 16384 + lf w 4 2 / 16384 * 16384)
    let w := putF w 16 2 (s.od 0x5000 5 c % 4096 + lf w 16 2 / 4096 * 4096)
    let r := lf w 18 6
    if s.od 0x5000 0x0B s.ctxB ≤ r then putF w 18 6 (r - s.od 0x5000 0x0B s.ctxB + s.od 0x5000 0x0B c) else w

/-- Copy the template into a side's ring, clear its records, and ring (R247). -/
def submitAll (c dl : Nat) (reloc : List Nat) : List (Nat × Nat) → Nat → Nat → Nat → State → State
  | [], _, k, _, s => s.door c k
  | (w, n) :: t, seq, k, at_, s =>
    let w := putF (putF (s.forSide c reloc at_ w) 8 4 seq) 12 4 dl
    let slot := fun (s : State) (i : Nat) =>
      s.wrHub (s.od 0x5000 9 c + (k + i) % max 1 (s.od 0x5000 0x0A c) * 64) 64 (w >>> (512 * i))
    let s := (List.range n).foldl slot s
    let s := s.wrHub (lf w 18 6 + 22) 2 0
    submitAll c dl reloc t ((seq + 1) % 2 ^ 32) ((k + n) % 2 ^ 32) (at_ + 64 * n) s

def State.submit (s : State) (c next dl : Nat) (reloc : List Nat) : State × Nat :=
  let x := s.ctx c
  let seq := if x.prod = x.cons then s.od 0x5000 0x0E c else next
  (submitAll c dl reloc s.template seq x.prod 0 s, seq)

/-- The final record of a side's descriptor `seq`, if it is written: its status. -/
def State.finalOf (s : State) (c w seq : Nat) : Option Nat :=
  let r := s.forSide c [] 0 w
  let a := lf r 18 6
  if s.rdHub (a + 22) 2 = 0xC000 + c ∧ s.rdHub (a + 4) 4 = seq then some (s.rdHub a 2) else none

def State.finals (s : State) (c seq : Nat) : List (Option Nat) :=
  let t := s.template
  (List.range t.length).map (fun i => s.finalOf c ((t.getD i (0, 0)).1) ((seq + i) % 2 ^ 32))

/-- Is a side's context Fenced or Poisoned (R248)? -/
def State.sideOut (s : State) (c : Nat) : Bool := decide ((s.ctx c).st = .fenced) || decide ((s.ctx c).st = .poisoned)

/-- Has a side's cycle succeeded; has it failed before the end of the budget (R248)? -/
def State.sideGood (s : State) (c seq : Nat) : Bool :=
  !(s.sideOut c) && (s.finals c seq).all (fun r => match r with | some st => decide (stClass st ≤ 1) | none => false)
def State.sideBad (s : State) (c seq : Nat) : Bool :=
  s.sideOut c || (s.finals c seq).any (fun r => match r with | some st => decide (2 ≤ stClass st) | none => false)

/-! ### FSoE frames (R255, R377) -/

/-- The configured connections: output offset, safe data length, ID, STO permit bit, SS1 request bit. -/
def State.connList (s : State) : List (List Nat) :=
  (List.range 64).filterMap (fun c =>
    let o := fun i => s.od (0x2740 + c) i
    if o 1 = 0 then none else some [o 3, o 5, o 1, s.od (0x2280 + c) 1, s.od (0x2280 + c) 2])

def fsoeLen (n : Nat) : Nat := if n = 1 then 6 else 3 + 2 * n

/-- Cut safe data in pairs, each followed by its two CRC bytes. -/
def fsoeBody (k : Nat) : List Byte → Nat → List Byte
  | [], _ => []
  | [a], i => [a, BitVec.ofNat 8 (Config.free k i), BitVec.ofNat 8 (Config.free k (i + 1))]
  | a :: b :: t, i => [a, b, BitVec.ofNat 8 (Config.free k i), BitVec.ofNat 8 (Config.free k (i + 1))] ++ fsoeBody k t (i + 2)

/-- The Main frame of a connection: its safe data hold the STO permit and the SS1 request, every other bit zero. The
command and CRC bytes are IEC 61784-3's and free; the order of the parts is presumed (log entry 78). -/
def State.mainFrame (s : State) (k : Nat) (c : List Nat) : List Byte :=
  let n := c.getD 1 0
  let bit : Nat → Bool → Nat := fun b on => if on && b != 0xFF && decide (b < 8 * n) then 2 ^ b else 0
  let d := bit (c.getD 3 0xFF) (s.isl.safe != 2) ||| bit (c.getD 4 0xFF) s.isl.ss1Req
  BitVec.ofNat 8 (Config.free k 0) :: fsoeBody k (toBytes n d) 1 ++ toBytes 2 (c.getD 2 0)

/-- Lay bytes over an image. -/
def overlay (img : List Byte) (o : Nat) (l : List Byte) : List Byte := img.take o ++ l ++ img.drop (o + l.length)

/-- An image with the island's current Main frames (R251). -/
def State.withFsoe (s : State) (k : Nat) (img : List Byte) : List Byte :=
  s.connList.foldl (fun i c => overlay i (c.getD 0 0) (s.mainFrame (k + c.getD 2 0) c)) img

/-- The copies of a frame: on port A of a line, on both ports at once with cable redundancy (R242). -/
def State.ports (s : State) : List Nat := if s.esp.ring = 0 then [0] else [0, 1]

/-- What a frame puts on the body segment: of each copy its kind (0 input, 1 output, 2 acyclic, 3 the island's own), its port
(0 A, 1 B), then its data. -/
def State.copiesOf (s : State) (kind : Nat) (l : List Byte) : List (List Byte) :=
  s.ports.map (fun p => BitVec.ofNat 8 kind :: BitVec.ofNat 8 p :: l)

/-- A frame goes on the body segment. -/
def State.toWire (s : State) (kind : Nat) (l : List Byte) : State :=
  { s with wire := (s.copiesOf kind l ++ s.wire).take 64 }

/-- FSOE_WATCHDOG_EXPIRY: a connection leaves Data, or its watchdog has expired on the island's counter. -/
def State.fsoeExpire (s : State) (c : Nat) (leaves : Bool) : State :=
  let st := AMap.getD c 0 s.isl.fsoeSt
  let late := decide (AMap.getD c 0 s.isl.fsoeAt + s.od (0x2740 + c) 6 * 1000000 ≤ s.safTime)
  if s.od (0x2740 + c) 1 = 0 ∨ st = 0 ∨ ¬ (late ∨ (leaves ∧ st = 4)) then s
  else
    let s := { s with isl := { s.isl with fsoeSt := AMap.put 0 c 0 s.isl.fsoeSt, fsoe := insNat c s.isl.fsoe } }
    s.raiseCause 13

/-- The island reads the SubInstance frames of a complete input frame: each brings its connection one state nearer to
Data, and one in Data again ends its failure. -/
def State.fsoeRead (s : State) (f : Nat × Nat) : State :=
  (List.range 64).foldl (fun s c =>
    let o := s.od (0x2740 + c) 4
    if s.od (0x2740 + c) 1 ≠ 0 ∧ overlap o (fsoeLen (s.od (0x2740 + c) 5)) f.1 f.2 then
      let st := min 4 (AMap.getD c 0 s.isl.fsoeSt + 1)
      let i := { s.isl with fsoeSt := AMap.put 0 c st s.isl.fsoeSt, fsoeAt := AMap.put 0 c s.safTime s.isl.fsoeAt }
      let s := { s with isl := { i with fsoe := if st = 4 then i.fsoe.filter (· ≠ c) else i.fsoe } }
      if s.isl.fsoe.isEmpty then s.dropCause 13 else s
    else s) s

/-! ### Outputs (R249–R251) -/

def State.raiseFlag (s : State) (b st : Nat) : State :=
  s.setEsp { s.esp with flags := s.esp.flags ||| 2 ^ b, stats := if st = 0 then s.esp.stats else st :: s.esp.stats }

/-- The fallback image. -/
def State.fallback (s : State) : List Byte := s.rdBytes (hub (s.lo 0x10)) s.outLen

/-- Send an output image; `src` is the die whose outputs it holds, 0xFF for hold or fallback. -/
def State.sendOut (s : State) (img : List Byte) (src : Nat) : State :=
  let (k, s) := s.draws 70000
  let now := s.espTime
  let full := s.withFsoe k img
  let s := (framesOf s.outLen).foldl (fun s f => s.toWire 1 ((full.drop f.1).take f.2)) s
  let ns := now - s.esp.inAt
  let s := if s.esp.runs ∧ s.reg (baseESP + 0x30) < ns then s.setReg (baseESP + 0x30) ns else s
  let s := s.setEsp { s.esp with out := img, src := src, compute := ns, phase := 4, outLeft := (framesOf s.outLen).length,
                                 outDone := [], outSums := [], wkcOut := 0, mirrored := false }
  let s := { s with isl := { s.isl with frameAt := s.safTime, own := false } }
  s.dropCause 15

/-- The hold output: the last image sent under policy 0, the fallback image under policy 1. Where no image has been
sent yet, policy 0's bytes are free. -/
def State.holdOut (s : State) : State :=
  let s := (s.bumpReg (baseESP + 0x18)).bumpOd 0x2700 0x19
  if s.lo 0x0F = 1 then s.sendOut s.fallback 0xFF
  else if s.esp.out.isEmpty then
    let (k, s) := s.draw
    s.sendOut ((List.range s.outLen).map (fun i => BitVec.ofNat 8 (Config.free k i))) 0xFF
  else s.sendOut s.esp.out 0xFF

/-! ### The limit check (R249, R387) -/

/-- A limit-table entry as a number of 16 bytes. -/
def limIdx (w : Nat) : Nat := field w 0 16
def limOk (sent : AMap Nat) (w v : Nat) : Bool :=
  let x := f32 v
  let step := f32 (field w 96 32)
  let stepOk := match AMap.get? (limIdx w) sent with
    | some l => isZero step || valLe (valAbs (runFlg (addX x (valNeg (f32 l)))).1) step
    | none => true
  !(isNan x) && valLe (f32 (field w 32 32)) x && valLe x (f32 (field w 64 32)) && stepOk

/-- Does the output vector pass? Until a table has been verified, every check fails. -/
def State.limitsPass (s : State) (vec : Nat → Nat) : Bool :=
  !s.isl.table.isEmpty && s.isl.table.all (fun w => limOk s.isl.sent w (vec (limIdx w)))

/-- `fma(v, scale, offset)` of an output field. -/
def outValue (w v : Nat) : Val := (runFlg (fmaF fmtFP32 (f32 v) (fScale w) (fBias w))).1

/-- `raw = sat(rne(fma(v, scale, offset)))` of an output field (R244). A REAL32 field saturates, or becomes an infinity, by the
overflow mode 0x2000:20 in force (R39, R40). -/
def packField (ieee : Bool) (w v : Nat) : Nat :=
  let x := outValue w v
  if fType w = 7 then (runFlg (convert fmtFP32 ieee x)).1
  else
    let n := 8 * fBytes w
    let lo : Int := if fSigned w then -((2 ^ (n - 1) : Nat) : Int) else 0
    let hi : Int := if fSigned w then ((2 ^ (n - 1) : Nat) : Int) - 1 else ((2 ^ n : Nat) : Int) - 1
    let i : Int := if isInf x then (if signOf x then lo else hi) else rneInt x
    ofSigned n (max lo (min hi i))

/-- LIMIT_CHECK_DONE: the selected side's vector passes and is packed and sent, or the fallback image goes. -/
def State.limitDone (s : State) : State :=
  let e := s.esp
  if e.phase ≠ 3 then s
  else
    let c := if e.side = some 1 then s.standby else s.primary
    let base := s.vecAt c (s.lo 0x0E)
    let vec := fun i => s.rd (base + 4 * i) 4
    let outs := s.fields.filter fOut
    if s.limitsPass vec && outs.all (fun w => !(isNan (outValue w (vec (fIdx w))))) then
      let (k, s) := s.draw
      let blank := (List.range s.outLen).map (fun i => BitVec.ofNat 8 (Config.free k i))
      let img := outs.foldl (fun i w => overlay i (fOff w) (toBytes (fBytes w) (packField (s.od 0x2000 0x20 == 1) w (vec (fIdx w))))) blank
      let sent := s.isl.table.foldl (fun m w => AMap.ins (limIdx w) (vec (limIdx w)) m) s.isl.sent
      let s := { s with isl := { s.isl with sent := sent } }
      s.sendOut img (s.home c)
    else
      let s := (s.raiseFlag 6 0x0690).bumpReg (baseSAF + 0x30)
      (s.raiseCause 12).sendOut s.fallback 0xFF

/-! ### Inputs (R242–R245) -/

/-- The raw value of an input field, and `fma(raw, scale, offset)`. -/
def rawOf (img : List Byte) (w : Nat) : Nat := ofBytes ((img.drop (fOff w)).take (fBytes w))
def unpackField (img : List Byte) (w : Nat) : Val :=
  let r := rawOf img w
  let x := if fType w = 7 then f32 r else if fSigned w then valInt (toSigned (8 * fBytes w) r) else valNat r
  (runFlg (fmaF fmtFP32 x (fScale w) (fBias w))).1

/-- Write the header and the input vector to a side's cluster SRAM. -/
def State.unpackTo (s : State) (c : Nat) : State :=
  let e := s.esp
  let base := s.vecAt c (s.lo 0x0D)
  let s := s.wrN base 16 (word [(0, e.cycle % 2 ^ 32), (32, e.age % 2 ^ 32), (64, e.prev)])
  if e.image.isEmpty then s
  else (s.fields.filter (fun w => !(fOut w))).foldl (fun s w =>
    s.wrN (base + 16 + 4 * fIdx w) 4 (bits32 (unpackField e.image w))) s

/-- Battery values of a valid image (R256): charge, limit and flags. -/
def batteryField (s : State) (w : Nat) : State :=
  let v := unpackField s.esp.image w
  match fRole w with
  | 1 => s.setEsp { s.esp with soc := if isNan v then s.esp.soc else if isInf v then (if signOf v then 0 else 255)
                                      else (max 0 (min 255 (rneInt v))).toNat }
  | 2 => { s.setOd 0x2700 0x24 (bits32 v) with gov := { s.gov with batt := some (bits32 v) } }
  | 3 => s.setEsp { s.esp with critical := (rawOf s.esp.image w).testBit 0 }
  | _ => s

/-- The confirm times of R256, on ESP_TIME. -/
def State.confirm (s : State) : State :=
  let e := s.esp
  let now := max 1 s.espTime
  s.setEsp { e with lowAt := if e.soc < s.lo 0x20 then (if e.lowAt = 0 then now else e.lowAt) else 0,
                    highAt := if s.lo 0x21 ≤ e.soc ∧ ¬ e.critical then (if e.highAt = 0 then now else e.highAt) else 0 }

/-- R256: the battery values of a valid image; the confirm times run only on a field map that gives a
state of charge (role 1). -/
def State.battery (s : State) : State :=
  let fs := s.fields.filter (fun w => !(fOut w) && fRole w != 0)
  let t := fs.foldl batteryField s
  if fs.any (fun w => fRole w == 1) then t.confirm else t

/-- Run the program on both sides (R245, R247); `e` is the time from input completion to the doorbell. -/
def State.program (s : State) (e : Nat) (reloc : List Nat) : State :=
  if !s.esp.runs then s
  else
    let p := s.primary
    let q := s.standby
    let dl := s.lo 4 - e - 1000
    let n := s.lo 0x0A
    let s := s.unpackTo p
    let s := if s.esp.absent then s else s.unpackTo q
    let (s, sp) := s.submit p s.esp.nextP dl reloc
    let (s, sq) := if s.esp.absent then (s, 0) else s.submit q s.esp.nextS dl reloc
    s.setEsp { s.esp with seqP := sp, seqS := sq, nextP := (sp + n) % 2 ^ 32, nextS := (sq + n) % 2 ^ 32 }

/-- What follows the input phase: the program in Run, nothing more in Armed or while stopping. -/
def State.afterInput (s : State) (e : Nat) (reloc : List Nat) : State :=
  let s := s.setEsp { s.esp with inAt := s.espTime, phase := if s.esp.runs then 2 else 4 }
  s.program e reloc

/-- INPUT_CUTOFF: the image is not valid by the cutoff. `left` names SubDevices found to have left Op: to Safe-Op, where a
SubDevice goes on its own (log entry 119). -/
def State.inputCutoff (s : State) (e : Nat) (reloc left : List Nat) : State :=
  if s.esp.phase ≠ 1 ∨ s.espTime < s.esp.tickAt + s.cutoff then s
  else
    let s := (s.bumpReg (baseESP + 0x10)).bumpOd 0x2700 0x18
    let s := s.raiseFlag 0 0x0190
    let s := if left.isEmpty then s else s.raiseFlag 0 0x0590
    let s := s.setEsp { s.esp with age := s.esp.age + 1, inNs := 0, lowAt := 0, highAt := 0,
                                   sub := left.foldl (fun m d => AMap.put 0 d 2 m) s.esp.sub }
    s.afterInput e reloc

/-- How many copies of a frame can return (R242). -/
def State.copiesDue (s : State) : Nat := match s.esp.ring with | 0 => 1 | 3 => 0 | _ => 2

/-- The input image is complete with the expected counters. -/
def State.inputValid (s : State) (e : Nat) (reloc : List Nat) : State :=
  let s := s.setEsp { s.esp with image := s.esp.merging, age := 0, inNs := s.espTime - s.esp.tickAt }
  ((s.battery).odometry s.esp.image).afterInput e reloc

/-- Merge a returned copy: bitwise OR of the data, sum of the counters. -/
def orBytes (a b : List Byte) : List Byte :=
  (List.range (max a.length b.length)).map (fun i => a.getD i 0 ||| b.getD i 0)

/-- INPUT_FRAME_RETURN: a copy of input frame `k` returns on a port (0 A, 1 B) with its counter, its data and a good FCS or
not. `e` and `reloc` are as in the program's submission. -/
def State.inputReturn (s : State) (k port wkc : Nat) (good : Bool) (data : List Byte) (e : Nat) (reloc : List Nat) : State :=
  let fs := framesOf s.inLen
  if s.esp.phase = 0 ∨ fs.length ≤ k ∨ 2 ≤ port ∨ ¬ good ∨ s.esp.done.contains (2 * k + port) then s
  else
    let s := if s.esp.tickAt + s.cutoff < s.espTime then s.inputCutoff e reloc [] else s
    let x := s.esp
    let f := fs.getD k (0, 0)
    let done := insNat (2 * k + port) x.done
    let whole := decide (s.copiesDue ≤ (done.filter (fun d => d / 2 == k)).length)
    if x.phase ≠ 1 then
      let s := s.setEsp { x with done := done }
      if whole && x.inNs == 0 then (s.raiseFlag 1 0).bumpOd 0x2700 0x1B else s
    else
      let now := orBytes ((x.merging.drop f.1).take f.2) (data.take f.2)
      let sum := AMap.getD k 0 x.wkcs + wkc
      let s := s.setEsp { x with done := done, merging := overlay x.merging f.1 now, wkcs := AMap.put 0 k sum x.wkcs,
                                 wkcIn := x.wkcIn + wkc }
      let s := if whole then s.fsoeRead f else s
      let short := whole && sum != expectWkc (s.subds.map subIn) f
      let s := if short then (s.raiseFlag 2 0).bumpReg (baseESP + 0x28) else s
      let all := (List.range fs.length).all (fun j => decide (s.copiesDue ≤ (s.esp.done.filter (fun d => d / 2 == j)).length))
      let ok := (List.range fs.length).all (fun j =>
        AMap.getD j 0 s.esp.wkcs == expectWkc (s.subds.map subIn) (fs.getD j (0, 0)))
      if all && ok then s.inputValid e reloc else s

/-! ### Selection and the end of a cycle (R248, R250, R252, R258, R259) -/

/-- The standby is selected: its outputs go in this cycle, and the roles change from the next one on (R252). -/
def State.takeOver (s : State) : State :=
  let s := s.setEsp { s.esp with phase := 3, side := some 1, takeover := true }
  ((s.raiseFlag 7 0x0191).bumpReg (baseESP + 0x20)).bumpOd 0x2700 0x1A

/-- SIDE_CYCLE_SUCCESS: side 0 the primary; side 1 the standby, which waits for the primary to fail, until the budget end. -/
def State.sideSuccess (s : State) (side : Nat) : State :=
  let e := s.esp
  if e.phase ≠ 2 ∨ e.inAt + s.lo 4 ≤ s.espTime then s
  else if side = 0 then
    if s.sideGood s.primary e.seqP then s.setEsp { e with phase := 3, side := some 0 } else s
  else if side = 1 ∧ ¬ e.absent ∧ s.sideGood s.standby e.seqS then
    if s.sideBad s.primary e.seqP then s.takeOver else s.setEsp { e with side := some 1 }
  else s

/-- BUDGET_END: it fails the primary, so that a standby that has succeeded is selected; where neither side has succeeded, the
hold output is sent (R248, R250, R252). -/
def State.budgetEnd (s : State) : State :=
  if s.esp.phase ≠ 2 ∨ s.espTime < s.esp.inAt + s.lo 4 then s
  else if s.esp.side = some 1 then s.takeOver
  else (s.raiseFlag 5 0x0192).holdOut

/-- The cycle's record is written, and the miss limit is judged. -/
def State.closeCycle (s : State) : State :=
  let e := s.esp
  if e.phase ≠ 4 then s
  else if e.st ≠ 2 then s.setEsp { e with phase := 5 }
  else
    let st := topStatus (e.stats.map (fun x => (true, x)))
    let fl := e.flags ||| (if e.ring = 2 then 8 else 0) ||| (if e.absent then 16 else 0)
    let a := s.lo 0x15 + 64 * (e.cycle % max 1 (s.lo 0x16))
    let s := s.wrHub a 64 (word [(0, e.cycle % 2 ^ 32), (32, st), (48, e.src), (56, fl), (64, e.tickAt), (128, e.inNs % 2 ^ 32),
      (160, e.compute % 2 ^ 32), (192, e.wkcIn % 65536), (208, e.wkcOut % 65536), (224, e.soc)])
    let missed := e.stats.contains 0x0190 || e.stats.contains 0x0192
    let run := if missed then e.run + 1 else 0
    let s := s.setEsp { e with phase := 5, prev := st, run := run, told := missed && e.told }
    if missed && !e.told && decide (s.lo 0x11 ≤ run) then (s.setEsp { s.esp with told := true }).raiseCause 14 else s

/-- OUTPUT_FRAME_RETURN: copy `c` returns with its counter, of output frame `c / 2` on port A (even) or B (odd). Once every copy
of a frame that can return has, the merged counter is judged (R242, R243), in whichever phase the outputs were sent. -/
def State.outputReturn (s : State) (c wkc : Nat) : State :=
  let e := s.esp
  let fs := framesOf s.outLen
  let k := c / 2
  if e.phase = 0 ∨ e.outLeft = 0 ∨ fs.length ≤ k ∨ e.outDone.contains c then s
  else
    let done := insNat c e.outDone
    let sum := AMap.getD k 0 e.outSums + wkc
    let s := s.setEsp { e with outDone := done, outSums := AMap.put 0 k sum e.outSums }
    if (done.filter (fun d => d / 2 == k)).length < s.copiesDue then s
    else
      let s := if sum = expectWkc (s.subds.map subOut) (fs.getD k (0, 0)) then s
        else (s.raiseFlag 2 0).bumpReg (baseESP + 0x28)
      let s := s.setEsp { s.esp with outLeft := e.outLeft - 1, wkcOut := e.wkcOut + sum }
      if e.outLeft = 1 then s.closeCycle else s

/-! ### The tick (R239, R257) -/

/-- Bring a cycle that the last tick began to its end: cutoff, budget and record. -/
def State.overdueCycle (s : State) : State :=
  let s := s.inputCutoff 0 [] []
  let s := s.budgetEnd
  s.closeCycle

/-- The outputs that a tick itself sends: hold in Armed, fallback after Stop. -/
def State.tickOut (s : State) (st left : Nat) : State :=
  let s := if st = 1 then s.holdOut else if left ≠ 0 then s.sendOut s.fallback 0xFF else s
  let s := s.setEsp { s.esp with phase := 1 }
  if s.inLen == 0 then s.afterInput 0 [] else s

/-- CYCLE_TICK: `ring` is the ring state that the port hardware finds (0 line, 1 closed, 2 broken, 3 none returning). -/
def State.cycleTick (s : State) (ring : Nat) : State :=
  if s.esp.st = 0 ∨ s.espTime < s.esp.tickAt + s.lo 3 then s
  else
    let s := s.overdueCycle
    let s := match s.isl.nextTab with
      | some t => { s with isl := { s.isl with table := t, nextTab := none } }
      | none => s
    let e := if s.esp.takeover then
        { s.esp with takeover := false, swapped := !s.esp.swapped, absent := true, nextP := s.esp.nextS, nextS := s.esp.nextP }
      else s.esp
    let st := if e.st = 1 ∧ e.start then 2 else if e.st = 2 ∧ e.stopLeft = 1 then 1 else e.st
    let left := e.stopLeft - 1
    let e := { e with
      st := st, start := false, stopLeft := left, ring := ring % 4, tickAt := e.tickAt + s.lo 3,
      cycle := if st = 2 then (if e.st = 1 then 1 else e.cycle + 1) else e.cycle, phase := 1, done := [],
      merging := List.replicate s.inLen 0, wkcs := [], wkcIn := 0, wkcOut := 0, inNs := 0, side := none,
      stats := if ring = 2 then [0x0193] else [], flags := 0, src := 0xFF, compute := 0, mirrored := true,
      run := if e.st = 1 then 0 else e.run, told := if e.st = 1 then false else e.told }
    let s := { s.setEsp e with md := { s.md with bodyDown := ring == 3 } }
    let s := s.bumpOd 0x2700 0x17
    let s := (framesOf s.inLen).foldl (fun s f => s.toWire 0 (List.replicate f.2 0)) s
    s.tickOut st left

/-! ### After the outputs (R239, R253, R254, R256) -/

/-- Is a range within the SRAM of one cluster? -/
def inClusSram (a n : Nat) : Bool := (List.range 32).any (fun g => decide (clusBase g ≤ a ∧ a + n ≤ clusBase g + 0x00400000))

/-- One mirrored item, from `a` to `b`: a pair of pinned streams (kind 0), or a pair of cluster SRAM ranges (the template's
mirror entries, whose layout is not given; log entry 77). -/
def mirrorOne (s : State) (m : Nat × Nat × Nat × Nat) : State :=
  let (kind, a, b, n) := m
  if kind = 0 then
    let x := s.strm a
    let y := s.strm b
    if x.st = .pinned ∧ y.st = .pinned then s.setStrm b { y with data := x.data, reset := x.reset }
    else s.setEsp { s.esp with skips := s.esp.skips + 1 }
  else if n ≤ 8192 ∧ inClusSram a n ∧ inClusSram b n then s.copyMem a b n
  else s

/-- STATE_MIRROR: each item is (0, stream, stream, _) or (1, address, address, length), of 0x2700:0B's context and of
0x2700:0C's; the primary's is copied over the standby's (R253). In the cycle of a takeover the failed primary is absent already,
so that nothing is mirrored from it (log entry 120). -/
def State.mirror (s : State) (l : List (Nat × Nat × Nat × Nat)) : State :=
  if s.esp.st ≠ 2 ∨ s.esp.phase < 4 ∨ s.esp.mirrored ∨ s.esp.absent ∨ s.esp.takeover then s
  else
    let s := l.foldl (fun s m => mirrorOne s (if s.esp.swapped then (m.1, m.2.2.1, m.2.1, m.2.2.2) else m)) s
    s.setEsp { s.esp with mirrored := true }

/-- May an acyclic frame of `n` bytes go: the loop is Off, or the outputs have left and it can end 10 µs before the next tick
(R239)? -/
def State.acyclicOk (s : State) (n : Nat) : Bool :=
  s.esp.st == 0 || (decide (4 ≤ s.esp.phase) && decide (s.espTime + 80 * (52 + max n 32) + 10000 ≤ s.esp.tickAt + s.lo 3))

/-- A SubDevice answers the SDO channel: `status` 0 and the data, or the status that the module reports (free). A transfer
longer than a frame goes in segments. -/
def State.sdoDone (s : State) (up ok : Bool) (l : List Byte) : State :=
  let (k, s) := s.draw
  let n := s.od 0x2701 5
  let data := s.rdBytes (hub (s.od 0x2701 4)) n
  let s := if up then s.toWire 2 [] else (framesOf (max 1 n)).foldl (fun s f => s.toWire 2 ((data.drop f.1).take f.2)) s
  let s := if up && ok then s.wr (hub (s.od 0x2701 4)) (l.take n) else s
  s.setOd 0x2701 7 (if ok then 0 else Config.free k 0 % 0x700)

/-- What the longest frame of the SDO command in the channel carries. -/
def State.sdoLen (s : State) (up : Bool) : Nat := if up then 0 else min 1486 (s.od 0x2701 5)

/-- An SDO command of the channel: it goes now, or waits for its place among the acyclic frames (R239). -/
def State.bodySdo (s : State) (up ok : Bool) (l : List Byte) : State :=
  if s.acyclicOk (s.sdoLen up) then s.sdoDone up ok l else s.setEsp { s.esp with sdo := some (up, ok, l) }

/-- ACYCLIC_FRAME: only after the output frames, and only while it can end 10 µs before the next tick; an SDO command that waits
goes first. `back` names SubDevices that it brings back to Op. -/
def State.acyclicFrame (s : State) (l : List Byte) (back : List Nat) : State :=
  let e := s.esp
  match e.sdo with
  | some (up, ok, d) => if s.acyclicOk (s.sdoLen up) then (s.setEsp { e with sdo := none }).sdoDone up ok d else s
  | none =>
    if e.st = 0 ∨ s.acyclicOk l.length = false then s
    else (s.toWire 2 l).setEsp { e with sub := back.foldl (fun m d => AMap.put 0 d 3 m) e.sub, acyclic := e.acyclic - 1 }

/-- REJOIN_STANDBY (R254). -/
def State.rejoin (s : State) : State × Nat :=
  if s.esp.absent ∧ s.standby ≠ 0xFFFF then (s.setEsp { s.esp with absent := false }, 0) else (s, 0x01D0)

/-- BATTERY_DECAF_REQUEST (R256, R353): Barista enters or leaves Decaf. -/
def State.batteryDecaf (s : State) : State :=
  let e := s.esp
  let since := fun a => a != 0 && decide (a + s.lo 0x22 * 1000 ≤ s.espTime)
  if s.md.barista ≠ 0 ∨ s.md.st < 7 then s
  else if (since e.lowAt || e.critical) && !s.md.decaf then ({ s with md := { s.md with decaf := true } }).modUpdate 0
  else if since e.highAt && !e.critical && s.md.decaf && s.od 0x2000 0x0B == 0 then
    ({ s with md := { s.md with decaf := false } }).modUpdate 0
  else s

/-! ### Loop commands (R257) -/

def hubStruct (o n k : Nat) : Bool := o % k == 0 && hubRange o n

/-- The SubDevice table agrees with R237 and R238, and with the identities `ids` (vendor, product) read at Arm. -/
def State.tableOk (s : State) (ids : List (Nat × Nat)) : Bool :=
  let l := s.subds
  within (s.lo 6) 1 96 && hubStruct (s.lo 5) (64 * s.lo 6) 64
    && l.all (fun w => lf w 18 1 / 16 == 0 && lf w 19 1 == 0 && lf w 28 36 == 0 && hubRange (lf w 22 4) (lf w 26 2))
    && decide (l.map (fun w => (lf w 2 4, lf w 6 4)) = ids)
    && decide (s.inLen ≤ 8192) && decide (s.outLen ≤ 8192)

def State.fieldsOk (s : State) : Bool :=
  within (s.lo 8) 1 256 && hubStruct (s.lo 7) (16 * s.lo 8) 16
    && s.fields.all (fun w => within (fType w) 1 7 && field w 28 4 == 0 && decide (fRole w ≤ 3) && decide (fIdx w ≤ 1023)
        && field w 48 16 == 0 && decide (fOff w + fBytes w ≤ (if fOut w then s.outLen else s.inLen)))

/-- One of the loop's contexts (R246). -/
def State.loopCtx (s : State) (c slots : Nat) : Bool :=
  decide (c < 16384) && s.cls c == 1 && decide ((s.ctx c).st = .opened) && within (s.ctx c).rsvCl.length 1 4
    && decide (2 * slots ≤ s.od 0x5000 0x0A c)

def State.templateOk (s : State) : Bool :=
  let t := s.template
  let n := slotsOf t
  let tail := t.drop 1
  within (s.lo 0x0A) 1 16 && decide (n ≤ 24) && hubStruct (s.lo 9) (64 * n) 64
    && t.all (fun p => lf p.1 0 2 != 0x0F00 && (opInfo s (s.mkDesc s.ctxB p.1)).isSome)
    && tail.all (fun p => (lf p.1 4 2).testBit 15)
    && s.loopCtx s.ctxB n
    && (s.ctxC == 0xFFFF || (s.loopCtx s.ctxC n && s.home s.ctxB != s.home s.ctxC))
    && s.lo 0x0D % 32 == 0 && s.lo 0x0E % 32 == 0
    && hubStruct (s.lo 0x15) (64 * s.lo 0x16) 64 && hubRange (s.lo 0x10) s.outLen

def State.fsoeOk (s : State) : Bool :=
  (List.range 64).all (fun c =>
    let o := fun i => s.od (0x2740 + c) i
    o 1 == 0 || ((o 5 == 1 || (o 5 % 2 == 0 && within (o 5) 2 16)) && o 6 != 0
      && decide (o 3 + fsoeLen (o 5) ≤ s.outLen) && decide (o 4 + fsoeLen (o 5) ≤ s.inLen)
      && (List.range 64).all (fun d => d == c || s.od (0x2740 + d) 1 != o 1)
      && s.subds.any (fun w => lf w 0 2 == o 2 && (lf w 18 1).testBit 2)))

/-- A SubDevice's start-up SDO list goes to it (R238): the layout of a list is not given, so that its bytes go as they stand, its
offset and length as UNSIGNED32 and UNSIGNED16 (log entry 119). -/
def State.startUp (s : State) (w : Nat) : State :=
  if lf w 26 2 = 0 then s else s.toWire 2 (s.rdBytes (hub (lf w 22 4)) (lf w 26 2))

/-- Arm and Start are legal in these module states. -/
def State.loopLegal (s : State) : Bool := [7, 8, 10].contains s.md.st

/-- Arm, from Off, with the SubDevices' identities, the measured ring delay and the ring state. -/
def State.loopArm (s : State) (ids : List (Nat × Nat)) (delay ring : Nat) : State × Nat :=
  if s.esp.st ≠ 0 ∨ !s.loopLegal then (s, 0x03D0)
  else
    let t := s.setOd 0x2700 0x12 (delay % 2 ^ 32)
    if !(s.tableOk ids && s.fieldsOk && s.templateOk && s.fsoeOk) then (s, 0x0390)
    else if !t.periodOk then (s, 0x0391)
    else
      let t := t.setOd 0x2700 0x13 t.cutoff
      let t := (List.range 5).foldl (fun t i => t.setOd 0x2700 (0x17 + i) 0) t
      let e := { Esp.zero with st := 1, ring := ring % 4, absent := s.ctxC == 0xFFFF, tickAt := s.espTime - s.lo 3,
                               sub := (List.range (s.lo 6)).map (fun d => (d, 3)), period := s.lo 3, soc := s.esp.soc,
                               log := s.esp.log, sdo := s.esp.sdo, phase := 5 }
      let t := s.subds.foldl State.startUp (t.setEsp e)
      let i := { t.isl with period := s.lo 3, conns := s.connList, frameAt := s.safTime, own := false }
      ({ t with isl := i, md := { t.md with bodyDown := ring == 3 } }, 0)

/-- Start, from Armed: the program begins at the next tick. -/
def State.loopStart (s : State) : State × Nat :=
  if s.esp.st ≠ 1 ∨ !s.loopLegal ∨ s.esp.stopLeft ≠ 0 then (s, 0x03D0)
  else if !s.periodOk then (s, 0x0391)
  else (s.setEsp { s.esp with start := true, nextP := s.od 0x5000 0x0E s.primary, nextS := s.od 0x5000 0x0E s.standby }, 0)

/-- Stop, from Run: the fallback image for 16 cycles, then Armed. -/
def State.loopStop (s : State) : State × Nat :=
  if s.esp.st ≠ 2 ∨ s.esp.stopLeft ≠ 0 then (s, 0x03D0) else (s.setEsp { s.esp with stopLeft := 17 }, 0)

/-- Disarm, from Armed: the segment goes to Safe-Op and the timer stops. -/
def State.loopDisarm (s : State) : State × Nat :=
  if s.esp.st ≠ 1 then (s, 0x03D0)
  else
    let s := s.setEsp { s.esp with st := 0, start := false, phase := 0,
                                   sub := (List.range (s.lo 6)).map (fun d => (d, 2)) }
    ({ s with md := { s.md with bodyDown := false } }, 0)

/-- A loop command (0x2700:02). -/
def State.loopCommand (s : State) (v : Nat) (ids : List (Nat × Nat)) (delay ring : Nat) : State × Nat :=
  match v with
  | 1 => s.loopArm ids delay ring
  | 2 => s.loopStart
  | 3 => s.loopStop
  | _ => s.loopDisarm

/-! ### The island's watch and its own frames (R377) -/

/-- ESPRESSO_OUTPUT_ABSENT. -/
def State.outputAbsent (s : State) : State :=
  if s.esp.st = 0 ∨ s.safTime < s.isl.frameAt + 2 * s.isl.period then s
  else ({ s with isl := { s.isl with own := true } }).raiseCause 15

/-- ISLAND_FRAME_SEND: every period, an LWR frame of the Main frames alone. -/
def State.islandFrame (s : State) : State :=
  let i := s.isl
  if ¬ i.own ∨ s.safTime < i.ownAt + i.period then s
  else
    let (k, s) := s.draws 70000
    let s := s.toWire 3 (i.conns.flatMap (fun c => s.mainFrame (k + c.getD 2 0) c))
    { s with isl := { s.isl with ownAt := s.safTime } }

/-! ### Emergency messages (R237) -/

/-- SUBDEVICE_EMERGENCY: received and logged. -/
def State.emergency (s : State) (station msg : Nat) : State :=
  s.setEsp { s.esp with log := (station % 65536, msg % 2 ^ 64) :: s.esp.log }

end Sys2Proof.Machine
end

