-- ==== Sys2Proof/Machine/Governor.lean ====
section
/-! DEFINITION. The Governor (chapter 17, R464): effective cap, control law, shedding, droop, thermal limits, Twihus mode,
power gating, reasons and ledger. Powers are in µW, temperatures in 0.1 °C. -/

namespace Sys2Proof.Machine

/-! ### The effective cap (R429) -/

/-- Watts of an FP32 word in µW, rounded to nearest even; a word that is not finite binds nothing. -/
def microW (w : Nat) : Nat :=
  let v := f32 w
  if isFin v then (max 0 (rneInt (runFlg (mulX v (valNat 1000000))).1)).toNat else 10 ^ 12

/-- The limits in force, in the order of Table 17-1: µW and the bit of the reason reported. -/
def State.limits (s : State) : List (Nat × Nat) :=
  let w := fun n => n * 1000000
  (if s.od 0x2100 2 = 0 then [] else [(w (s.od 0x2100 2), 4)])
  ++ (match s.gov.batt with | some b => [(max (microW b) 25000000, 3)] | none => [])
  ++ (if s.md.decaf then [(w (s.od 0x2100 3), 0)] else [])
  ++ [(w (s.odView 0 0x2100 1), 0), (w s.brd.unit.cap, 0)]

/-- The effective cap and the reason of the smallest limit, the higher in the table where two are equal. -/
def State.effCap (s : State) : Nat × Nat :=
  (s.limits).foldl (fun b l => if l.1 < b.1 then l else b) ((s.limits).headD (0, 0))

/-! ### Frequency and voltage (R433–R435) -/

def State.ceiling (s : State) : Nat := s.odView 0 0x2100 0x0D
def State.loopActive (s : State) : Bool := s.esp.st != 0
def State.fMin (s : State) : Nat := if s.loopActive then 1200 else 400
def State.twihus (s : State) : Bool := s.od (0x2120 + s.od 0x2100 8) 4 == 1

def bandOf (t : Int) : Nat := if t < 0 then 0 else if t < 500 then 1 else if t ≤ 850 then 2 else 3

/-- A hotter band acts at once, a cooler one when the junction is 3 °C inside it. -/
def nextBand (band : Nat) (t : Int) : Nat := if band ≤ bandOf t then bandOf t else min band (bandOf (t + 30))

/-- The table's voltage, mV, at frequency `f`. -/
def State.volts (s : State) (f : Nat) : Nat := s.brd.unit.volt.getD ((f - 400) / 100 * 4 + s.gov.band) 0

/-- `P_compute(f)`: compute power scaled by f and the square of the voltage; the measured power where the table gives
no present voltage. -/
def State.pComp (s : State) (p f : Nat) : Nat :=
  let f0 := s.od 0x2100 5
  let v := s.volts f
  let v0 := s.volts f0
  if f0 = 0 ∨ v0 = 0 then p else p * f * v * v / (f0 * v0 * v0)

/-- The preferred frequency of a phase; 0 for none. -/
def State.pref (s : State) (p : Nat) : Nat :=
  let w := s.od (0x2140 + p) 1
  let l := s.od (0x2140 + p) 2
  if s.twihus then (if l = 0 then 0 else max l w) else w

/-- The target of R434. -/
def State.target (s : State) (phases : List Nat) : Nat :=
  if phases.isEmpty then
    let l := ((List.range 64).map s.pref).filter (· ≠ 0)
    min s.ceiling (l.foldl min (l.headD 400))
  else min s.ceiling (phases.foldl (fun m p => max m (if s.pref p = 0 then s.ceiling else s.pref p)) 0)

/-- The consumers in an order code's order (Table 17-2): 0 memory, 1 links, 2 compute. -/
def orderOf (c : Nat) : List Nat :=
  match c with
  | 1 => [0, 2, 1] | 2 => [1, 0, 2] | 3 => [1, 2, 0] | 4 => [2, 0, 1] | 5 => [2, 1, 0] | _ => [0, 1, 2]

/-- Serve the consumers: each takes what is left of its demand, and at least its floor. -/
def serve (demand floor : Nat → Nat) : List Nat → Int → (Nat → Nat) → Nat → Nat
  | [], _, a => a
  | x :: t, avail, a =>
    let v := max (min (demand x : Int) avail) (floor x : Int)
    serve demand floor t (avail - v) (fun y => if y = x then v.toNat else a y)

/-- The highest grid frequency at or below `t` whose compute power fits; 0 where none does. -/
def State.fitFreq (s : State) (p alloc t : Nat) : Nat :=
  (List.range 17).foldl (fun b i =>
    let f := 400 + 100 * i
    if f ≤ t ∧ s.pComp p f ≤ alloc then f else b) 0

/-! ### Droop, AVSBus and thermal steps (R439, R440, R464) -/

def State.setGov (s : State) (g : Gov) : State := { s with gov := g }

/-- The droop of the period just ended starts or extends the 10 ms step. -/
def droopUpdate (now : Nat) (g : Gov) : Gov :=
  { g with droopEnd := if g.droops.any (fun p => decide (16 < p.2)) then now + 10000000 else g.droopEnd, droops := [] }

/-- Rails that read more than 25 mV short for 100 µs step the frequency down; the steps end once none does. -/
def State.railUpdate (s : State) (now : Nat) (l : List (Option Nat)) (g : Gov) : Gov :=
  let v := s.volts (s.od 0x2100 5)
  let at_ := fun d => match l.getD d none with | some r => decide (r + 25 < v) | none => false
  let low := fun d => match l.getD d none with | some r => decide (r < v) | none => false
  let short := (List.range 4).foldl (fun m d =>
    let since := AMap.getD d 0 g.short
    AMap.put 0 d (if at_ d then (if since = 0 then max 1 now else since) else 0) m) g.short
  let down := short.any (fun p => decide (p.2 + 100000 ≤ now))
  let vsteps := if down then g.vsteps + 1 else if (List.range 4).any low then g.vsteps else 0
  { g with short := short, vsteps := vsteps,
           avs := (List.range 4).foldl (fun m d => if (l.getD d none).isSome then AMap.put 0 d now m else m) g.avs }

/-- Thermal throttling: a step down per period from the threshold until 2 °C below it, then a step up per 10 ms. -/
def State.thermUpdate (s : State) (now : Nat) (hot : Int) (g : Gov) : Gov :=
  let thr : Int := (10 * s.od 0x2100 0x0B : Nat)
  let therm := decide (thr ≤ hot) || (g.therm && decide (thr - 20 < hot))
  if therm then { g with therm := true, steps := min 17 (g.steps + 1), upAt := now }
  else if g.steps ≠ 0 ∧ g.upAt + 10000000 ≤ now then { g with therm := false, steps := g.steps - 1, upAt := now }
  else { g with therm := false }

/-! ### Emergency and shedding (R436, R441) -/

/-- The junctions reach 105 °C: 400 MHz at once, counted and noticed. -/
def State.emergencyOn (s : State) : State :=
  if s.gov.emerg then s
  else
    let s := { s with gov := { s.gov with emerg := true, alert := true }, md := { s.md with thermal := true } }
    let s := (s.setOd 0x2100 5 400).bumpOd 0x2100 0x18
    let (d, s) := s.freeDetail
    let (st, s) := s.freeStatus
    s.notice 3 st 0 d

/-- Shedding starts: running D and B gangs stop at their next tile boundary. -/
def State.shedOn (s : State) (record : Nat) : State :=
  if s.shedding then s
  else
    let s := (s.setOd 0x2100 0x10 1).setGov { s.gov with record := record, coverAt := 0 }
    s.descs.foldl (fun s p =>
      if 3 ≤ p.2.cls ∧ p.2.st = .running ∧ p.2.why = .none ∧ p.2.result.isNone then
        s.updDesc p.1 (fun d => { d with why := .shed })
      else s) s

/-- SHEDDING_LIFT: the cap less the guard has covered the record for 10 ms. -/
def State.shedOff (s : State) : State :=
  let g := s.gov
  if ¬ s.shedding ∨ g.coverAt = 0 ∨ s.govTime < g.coverAt + 10000000 then s
  else
    let s := s.setOd 0x2100 0x10 0
    (List.range 4).foldl (fun s d => s.place d) s

/-! ### Reasons (R444) -/

/-- A period in which the reasons of mask `m` were active is counted. -/
def State.countReasons (s : State) (m us : Nat) : State :=
  if ! [7, 8, 10, 11].contains s.md.st then s
  else
    let was := s.gov.reasons
    let s := s.setGov { s.gov with reasons := m }
    (List.range 6).foldl (fun s r =>
      if m.testBit r then
        let s := (s.bumpReg (baseGOV + 0x100 + 8 * r) us).bumpOd 0x2100 (0x11 + r) us 64
        if was.testBit r then s else s.bumpOd 0x2100 (0x1C + r)
      else s) s

/-! ### The control period (R431) -/

/-- The hottest junction of a list with its position. -/
def hottestOf (l : List Int) : Int × Nat :=
  (List.range l.length).foldl (fun b i => if b.1 < l.getD i 0 then (l.getD i 0, i) else b) (l.headD 0, 0)

def int16 (i : Int) : Nat := ofSigned 16 i

/-- What is measured is shown. -/
def State.measured (s : State) (m : Meas) : State :=
  let ns := s.govTime - s.gov.at_
  let hot := hottestOf m.temps
  let s := (List.range 4).foldl (fun s d =>
    (s.setOd (0x4200 + d) 0x90 (int16 (m.temps.getD d 0))).setOd (0x4200 + d) 0x91 (milli (m.dies.getD d 0 / 1000))) s
  let cd := (hottestOf (m.temps.take 4)).1
  let alert := m.temps.any (fun t => decide (((10 * s.od 0x2100 0x0C : Nat) : Int) ≤ t))
  let cool := m.temps.all (fun t => decide (t < 1000))
  let s := s.bumpReg (baseGOV + 0x148) (m.total * ns / 1000000000)
  s.setGov { s.gov with mw := m.total / 1000, fixed := m.fixed / 1000, hottest := int16 hot.1, hotDie := hot.2,
                        band := nextBand s.gov.band cd, emerg := s.gov.emerg && !cool,
                        alert := alert || (s.gov.emerg && !cool) }

/-- CONTROL_PERIOD. -/
def State.controlPeriod (s : State) (m : Meas) : State :=
  let now := s.govTime
  if now < s.gov.at_ + 100000 then s
  else
    let us := (now - s.gov.at_) / 1000
    let running := (s.descs.filter (fun p => decide (p.2.st = .running))).map (fun p => p.2.phase)
    let phases := s.gov.phases ++ running
    let s := s.measured m
    let s := if m.temps.any (fun t => decide (1050 ≤ t)) then s.emergencyOn else s
    let hot := (hottestOf m.temps).1
    let g := s.thermUpdate now hot (s.railUpdate now m.rails (droopUpdate now s.gov))
    let (cap, why) := s.effCap
    let guard := cap / 50
    let s := s.setGov { g with at_ := now, phases := [], cap := cap / 1000, capWhy := why }
    let prof := 0x2120 + s.od 0x2100 8
    let demand := fun x => if x = 0 then m.mem else if x = 1 then m.link else m.comp
    let floor := fun x => if x = 2 then s.pComp m.comp s.fMin else demand x * s.od prof (x + 2) / 100
    let avail : Int := (cap : Int) - m.fixed - guard
    let alloc := if s.twihus then (fun x => if x = 2 then (max (avail - m.mem - m.link) (floor 2)).toNat else demand x)
      else serve demand floor (orderOf (s.od prof 1)) avail (fun _ => 0)
    let target := s.target phases
    let f0 := s.fitFreq m.comp (alloc 2) target
    let droop := s.gov.droopEnd != 0 && decide (now < s.gov.droopEnd)
    let down := 100 * (b2n droop + s.gov.vsteps + s.gov.steps)
    let f1 := min f0 (target - down)
    let held := decide (f1 < s.fMin)
    let f := if s.gov.emerg then 400 else max f1 s.fMin
    let s := s.setOd 0x2100 5 f
    let high := max target s.fMin
    let shed := s.loopActive && decide (min (s.fitFreq m.comp (alloc 2) high) (high - down) < s.fMin)
    let record := m.fixedFloor + m.mem + m.link + s.pComp m.comp 1200
    let s := if shed then s.shedOn record else s
    let cover := decide (s.gov.record ≤ cap - guard)
    let floors := decide (alloc 0 ≤ floor 0 ∨ s.twihus) && decide (alloc 1 ≤ floor 1 ∨ s.twihus)
    let exceed := s.shedding && floors && decide (cap < m.total)
    let s := if exceed && !s.gov.exceed then s.bumpOd 0x2100 0x1B else s
    let lim := decide (f0 < target) || decide (alloc 0 < m.mem) || decide (alloc 1 < m.link)
    let therm := decide (s.gov.steps ≠ 0) || s.gov.emerg
    let reasons := (if lim then 2 ^ why else 0) ||| word [(1, b2n therm), (2, b2n (droop || s.gov.vsteps != 0)),
                                                          (5, b2n (decide (alloc 1 < m.link)))]
    let s := s.setGov { s.gov with floorHeld := held && s.loopActive, exceed := exceed, allocMem := alloc 0, allocLink := alloc 1,
                                   coverAt := if cover then (if s.gov.coverAt = 0 then max 1 now else s.gov.coverAt) else 0 }
    ({ s with md := { s.md with thermal := therm } }).countReasons reasons us

/-- THERMAL_EMERGENCY: die `d` (4 the hub) reads `t`, at least 105 °C. -/
def State.thermalEmergency (s : State) (d : Nat) (t : Int) : State :=
  if t < 1050 then s
  else
    let s := if d < 4 then s.setOd (0x4200 + d) 0x90 (int16 t) else s
    (s.setGov { s.gov with hottest := int16 t, hotDie := min 4 d }).emergencyOn

/-- DROOP_DETECT: an island's clock is stretched for `n` cycles, at most 64; islands are cores 0–255 and meshes 256–259. -/
def State.droop (s : State) (i n : Nat) : State :=
  if 260 ≤ i then s
  else
    let d := if i < 256 then i / 64 else i - 256
    let s := if i < 256 then (s.bumpOd (0x4000 + i) 0x30).bumpOd (0x4000 + i) 0x31 (min n 64) 64 else s
    let s := (s.bumpOd (0x4200 + d) 0x92).bumpReg (baseGOV + 0x140)
    s.setGov { s.gov with droops := AMap.put 0 i (AMap.getD i 0 s.gov.droops + 1) s.gov.droops }

/-- DROOP_STEP_EXPIRY. -/
def State.droopExpiry (s : State) : State :=
  if s.gov.droopEnd = 0 ∨ s.govTime < s.gov.droopEnd then s else s.setGov { s.gov with droopEnd := 0 }

/-- TWIHUS_LEARN_STEP: phase `p` showed the stall fraction `num / den` (R438). -/
def State.learn (s : State) (p num den : Nat) : State :=
  let last := AMap.getD p 0 s.gov.learnAt
  if ¬ s.twihus ∨ s.md.barista ≠ 0 ∨ 64 ≤ p ∨ den = 0 ∨ den < num ∨ (last ≠ 0 ∧ s.govTime < last + 10000000) then s
  else
    let fmax := s.ceiling
    -- (1 − s) · (f_max / f − 1) ≤ tolerance
    let ok := fun f => decide (100 * (den - num) * (fmax - f) ≤ s.od 0x2100 0x19 * den * f)
    let goal := ((List.range 17).map (fun i => 400 + 100 * i)).find? (fun f => decide (f ≤ fmax) && ok f)
    let goal := goal.getD fmax
    let now := s.od (0x2140 + p) 2
    let from_ := if now = 0 then fmax else now
    let next := if from_ < goal then min goal (from_ + 100) else max goal (from_ - 100)
    (s.setOd (0x2140 + p) 2 next).setGov { s.gov with learnAt := AMap.put 0 p (max 1 s.govTime) s.gov.learnAt }

/-- CLUSTER_GATE (R442, R443). -/
def State.gate (s : State) (g : Nat) : State :=
  let x := s.clu g
  let us := s.od 0x2100 0x1A
  let busy := s.coresBusy.any (fun n => coreClus n == g) || s.enginesBusy.contains g
  let reserved := (clusCores g).any (fun n => (s.reserver n).isSome)
  let due := s.md.st == 10 || (us != 0 && decide (x.idleAt + us * 1000 ≤ s.govTime))
  if 32 ≤ g ∨ x.gated ∨ x.rst ≠ 0 ∨ busy ∨ reserved ∨ ¬ due then s
  else s.setClu g { x with gated := true, gateAt := s.govTime }

/-- AVSBUS_TIMEOUT: no response of die `d`'s regulator for 1 ms. -/
def State.avsTimeout (s : State) (d : Nat) : State :=
  if 4 ≤ d ∨ (s.die d).st ≠ 0 ∨ s.govTime < AMap.getD d 0 s.gov.avs + 1000000 then s
  else
    let (st, s) := s.freeStatus
    s.startRecovery d st

/-- CLEAR_BATTERY_LIMIT, CLEAR_LEDGER and CLEAR_LEARNED. -/
def State.clearBattery (s : State) : State := s.setGov { s.gov with batt := none }
def State.clearLedger (s : State) : State := s.wr (hub (s.od 0x2100 0x0E)) (List.replicate 32768 0)
def State.clearLearned (s : State) (p : Nat) : State := s.setOd (0x2140 + p) 2 0

end Sys2Proof.Machine
end

