-- ==== Sys2Proof/Machine/Unit.lean ====
section
/-! DEFINITION. The unit: module restarts, power and reset pins, bring-up, the firmware image, identity, attestation and the
customer record (chapters 18 and 19; R336, R343, R350). -/

namespace Sys2Proof.Machine

def State.setBrd (s : State) (b : Brd) : State := { s with brd := b }

/-! ### Restart (R343, R375, R450) -/

/-- The registers and entries that a restart keeps: the SAF_ page, the module energy, HP_RESET_STATUS, the verdict count. -/
def keptRegs (m : AMap Nat) : AMap Nat :=
  AMap.keep (fun a _ => inRange a baseSAF 0x10000 || a == baseGOV + 0x148 || a == baseHP + 0x108) m

def keptDict (m : AMap Nat) : AMap Nat := AMap.keep (fun k _ => k == odKey 0x2200 3 0) m

/-- The island after a restart: it keeps its causes, outputs and counts; its configuration went with the dictionary, its
monitors and sweep states with the module. Cause 1 has been taken; a source's or a group's cause ends with the source. -/
def Isl.restart (i : Isl) (loop : Bool) : Isl :=
  { i with causes := i.causes &&& (0x1FFFF ^^^ 0xC00), table := [], verified := false, nextTab := none, sent := [], mons := [],
           vers := AMap.mapV (fun _ (v : Ver) => { Ver.zero with mism := v.mism }) i.vers, tests := [], own := i.own || loop,
           gone := [] }

/-- The board after a restart: pins, seed, records stay; no image is kept (R450). -/
def Brd.restart (b : Brd) (down : Bool) : Brd :=
  { b with step := 1, doneAt := 0, waitAt := 0, imgVer := 0, imgKey := 0, digest := 0, version := 0, custOk := false,
           judged := false, unplanned := down }

/-- The hub reset sequencer restarts the module into Boot-ROM; the island takes cause 1 first. -/
def State.restart (s : State) : State :=
  let down := s.md.barista == 3 || s.md.barista == 4
  let s := { s with md := { s.md with barista := 2, owed := [] } }
  let s := s.raiseCause 1
  { State.reset with
    pending := s.pending, free := s.free, flash := s.flash, dict := keptDict s.dict, regs := keptRegs s.regs,
    nextId := s.nextId, copies := AMap.mapV (fun _ (c : Copy) => { c with maker := none }) s.copies, chans := s.chans,
    isl := s.isl.restart (s.esp.st != 0), rcv := { Recov.boot with record := s.rcv.record }, brd := s.brd.restart down,
    wire := s.wire }

/-- A restart through HP_RESET or module command 1 leaves a crash record of kind 9, whose notice Barista owes (R424). -/
def State.restartBy (s : State) : State :=
  let s := { s with md := { s.md with barista := if s.md.barista = 0 then 2 else s.md.barista, owed := [] } }
  let (z, s) := s.freeStatus
  let s := s.crash (Crash.of 9 z)
  let owed := s.md.owed
  let s := s.restart
  { s with md := { s.md with crash := true, owed := owed } }

/-- Everything but the unit flash is lost (R468). -/
def State.powerOff (s : State) : State :=
  let s' := { State.reset with pending := s.pending, free := s.free, flash := s.flash, nextId := s.nextId,
                               copies := AMap.mapV (fun _ (c : Copy) => { c with maker := none }) s.copies, wire := s.wire,
                               rcv := { Recov.boot with record := s.rcv.record } }
  { s' with md := { Mod.boot with st := 0 }, apers := [], isl := { Isl.boot with causes := 0 },
            brd := { Brd.boot with stbyPg := false, resetN := false, step := 0, cust := s.brd.cust } }

/-- Does the module answer at all: powered, out of reset, clocked? -/
def State.alive (s : State) : Bool := s.md.st != 0 && s.brd.resetN && !s.brd.held

/-! ### HP_RESET (R336) -/

/-- A code written to HP_RESET. -/
def State.hpReset (s : State) (v : Nat) : State :=
  let note := fun (s : State) =>
    s.setReg (baseHP + 0x108) (v + ((s.reg (baseHP + 0x108) / 2 ^ 32 + 1) % 2 ^ 32) * 2 ^ 32)
  if v = 0x0000A5C1 then note s.resetApertures
  else if v = 0x0000A5C3 then note s.restartBy
  else s

/-! ### The unit record (R455, Table 18-6) -/

def natBytes (l : List Byte) : List Nat := l.map BitVec.toNat
def bytesNat (l : List Nat) : Nat := l.foldr (fun b n => b + 256 * n) 0

/-- Does the record at flash offset `b` verify? -/
def State.unitOk (s : State) (b : Nat) : Bool :=
  let n := s.rdFlash (b + 8) 4
  let k := s.rdFlash (b + 0x17) 1
  let key := natBytes (s.flashBytes (b + n - 265) 133)
  s.rdFlash b 4 == 0x55444C42 && s.rdFlash (b + 4) 2 == 1 && within n 265 262144 && decide (k ≤ 1)
    && Config.sha512 key == Config.romDigest 1 k
    && Config.verify key (Config.sha512 (natBytes (s.flashBytes b (n - 132)))) (natBytes (s.flashBytes (b + n - 132) 132))

/-- The record's content. -/
def State.unitAt (s : State) (b : Nat) (copy : Bool) : UnitRec :=
  { serial := s.rdFlash (b + 0x0C) 4, variant := s.rdFlash (b + 0x10) 1, rev := s.rdFlash (b + 0x11) 1,
    clock := s.rdFlash (b + 0x12) 2, cap := s.rdFlash (b + 0x14) 2, revoked := s.rdFlash (b + 0x16) 1,
    floor := s.rdFlash (b + 0x18) 4, volt := (List.range 68).map (fun i => s.rdFlash (b + 0xC0 + 2 * i) 2),
    defects := (List.range 32).map (fun g => s.rdFlash (b + 0x40 + 4 * g) 1), copy := copy, key := s.rdFlash (b + 0x200) 133 }

/-- The record that governs: the primary, else the copy; its silicon revision is the die's. -/
def State.unitRead (s : State) : Option UnitRec :=
  let u := if s.unitOk 0 then some (s.unitAt 0 false) else if s.unitOk 0x40000 then some (s.unitAt 0x40000 true) else none
  match u with
  | some u => if u.rev = 0xB1 then some u else none
  | none => none

/-! ### Bring-up (R448–R454) -/

/-- A failure exit is noted: 0x2010:01–:02, and aperture 0's status while the port is in boot mode (R454). -/
def State.bringNote (s : State) (step st : Nat) : State :=
  let s := (s.setOd 0x2010 1 st).setOd 0x2010 2 step
  if s.md.bootMode ∧ st / 256 ≠ 1 then s.setAper 0 { s.aper 0 with status := st } else s

/-- A halt in the state reached. -/
def State.halt (s : State) (step st : Nat) : State :=
  let s := s.bringNote step st
  { s with md := { s.md with barista := 4 } }

/-- A bring-up state is entered. -/
def State.bringState (s : State) (st step : Nat) : State :=
  { s with md := { s.md with st := st, at_ := s.barTime }, brd := { s.brd with step := step } }

/-- Steps 2 to 6 of Table 18-1. `bad` marks hub SRAM that is not repairable, and a customer record that is present but does
not verify. -/
def State.bootSteps (s : State) (hubBad custBad : Bool) : State :=
  if hubBad then s.halt 2 0x05EB
  else match s.unitRead with
    | none => s.halt 3 0x05E8
    | some u =>
      let s := { s with brd := { s.brd with unit := u } }
      let s := s.setOd 0x2010 8 (b2n u.copy)
      let s := if u.copy then s.bringNote 3 0x01E8 else s
      if Config.publicKey s.brd.seed ≠ u.key then s.halt 4 0x05EA
      else if custBad then s.halt 5 0x05EC
      else s.bringState 2 6

/-- STANDBY_POWER_ON: from Off, or in Boot-ROM after a restart, the module comes up to Awaiting-Image. `seed` is what the
PUF gives at a rise of the standby rail. -/
def State.powerOn (s : State) (seed : Nat) (hubBad custBad : Bool) : State :=
  if 1 < s.md.st ∨ s.md.barista = 4 ∨ s.brd.held ∨ ¬ s.brd.xtal then s
  else
    let off := s.md.st == 0
    let s : State := if off then
        { s with md := Mod.boot, isl := Isl.boot, apers := [(0, Aper.preset)],
                 brd := { s.brd with stbyPg := true, step := 1, seed := seed % 2 ^ 256 } }
      else s
    let s := { s with brd := { s.brd with resetN := true } }
    if s.brd.pgWait ∧ ¬ s.brd.mainPg then s
    else ({ s with brd := { s.brd with pgWait := false } }).bootSteps hubBad custBad

/-! #### The image -/

def imageAt (o : Nat) : Nat := hub (0x800000 + o)

def State.img (s : State) (o n : Nat) : Nat := s.rd (imageAt o) n

/-- The effective anti-rollback floor is `floorNow`. A section of the table: its offset and end. -/
def State.imgSections (s : State) (n : Nat) : List (Nat × Nat) :=
  (List.range n).map (fun i => let o := s.img (100 + 32 * i) 4; (o, o + s.img (104 + 32 * i) 4))

/-- Is one entry of the section table valid? -/
def State.imgSecOk (s : State) (total i : Nat) : Bool :=
  let b := 96 + 32 * i
  let o := s.img (b + 4) 4
  within (s.img b 1) 1 5 && s.img (b + 1) 3 == 0 && s.img (b + 12) 20 == 0 && decide (4096 ≤ o) && o % 64 == 0
    && decide (o + s.img (b + 8) 4 ≤ total)

/-- No two sections share a byte. -/
def disjoint : List (Nat × Nat) → Bool
  | [] => true
  | r :: t => t.all (fun q => !(overlap r.1 (r.2 - r.1) q.1 (q.2 - q.1))) && disjoint t

/-- R452: is the header in the image area valid? -/
def State.headerOk (s : State) : Bool :=
  let n := s.img 6 2
  let total := s.img 8 4
  let fl := s.img 89 1
  s.img 0 4 == 0x49474C42 && s.img 4 2 == 1 && within n 1 32 && total % 65536 == 0 && within total 1048576 16777216
    && decide (s.img 12 1 < 8) && s.img 13 3 == 0 && decide (s.img 88 1 ≤ 3) && decide (fl ≤ 1) && s.img 90 6 == 0
    && s.img (96 + 32 * n) (32 * (32 - n)) == 0 && s.img 1120 928 == 0 && s.img 2181 11 == 0 && s.img 2456 1640 == 0
    && (fl == 1 || s.img 2324 132 == 0) && (List.range n).all (s.imgSecOk total) && disjoint (s.imgSections n)

/-- IMAGE_HEADER_JUDGE: in Awaiting-Image, once the first block has drained (R451). -/
def State.headerJudge (s : State) : State :=
  let x := s.aper 0
  if s.md.st ≠ 2 ∨ s.md.barista = 4 ∨ ¬ x.boot ∨ s.brd.judged ∨ ¬ (x.drained.contains 0 ∨ x.st = 5) then s
  else if s.headerOk then
    let s := { s with brd := { s.brd with judged := true } }
    if x.st = 5 then s
    else
      let len := s.img 8 4
      let cov := x.covered.filter (fun i => decide (i < ceilDiv len 32))
      let x := { x with len := len, limit := min len x.limit, covered := cov }
      if x.drained.length = ceilDiv len 65536 then
        let s := s.leaveAper 0 5 (if x.noted then 0x01C0 else 0)
        { s.setAper 0 { s.aper 0 with ready := true, limit := x.limit, moved := x.moved, boot := true } with
          brd := { s.brd with doneAt := s.barTime } }
      else s.setAper 0 { x with st := if cov.length = ceilDiv len 32 then 4 else x.st, blocks := ceilDiv x.limit 65536 - x.drained.length }
  else ((s.leaveAper 0 6 0x05E9).bringNote 6 0x05E9)

/-- The digest of the image (R453). -/
def State.imgDigest (s : State) : Nat :=
  Config.sha512 (natBytes (s.rdBytes (imageAt 0) 2048 ++ s.rdBytes (imageAt 4096) (s.img 8 4 - 4096)))

/-- The first of the checks of R453 that fails. -/
def State.imgCheck (s : State) : Option Nat :=
  let u := s.brd.unit
  let k := s.img 88 1
  let key := natBytes (s.rdBytes (imageAt 2048) 133)
  let dg := s.imgDigest
  let bound := match s.brd.cust with | some c => if c.bound then some c else none | none => none
  firstFail
    [((s.img 12 1).testBit (u.variant - 1), 0x03E9),
     (Config.sha512 key == Config.romDigest 0 k && !(u.revoked.testBit k), 0x05ED),
     (Config.verify key dg (natBytes (s.rdBytes (imageAt 2192) 132)), 0x05ED),
     (decide (s.floorNow ≤ s.img 16 4), 0x03E8),
     ((match bound with
       | none => true
       | some c =>
         if s.img 89 1 % 2 = 1 then
           Config.verify (natBytes (toBytes 133 c.key)) dg (natBytes (s.rdBytes (imageAt 2324) 132))
         else !c.require), 0x03EA)]

/-- Step 7: the image is verified, and Clocks-and-Network is entered. -/
def State.step7 (s : State) : State :=
  let x := s.aper 0
  if x.st ≠ 5 ∨ ¬ x.boot ∨ ¬ s.brd.judged then s
  else match s.imgCheck with
    | some st => (s.leaveAper 0 6 st).bringNote 7 st
    | none =>
      let bound := match s.brd.cust with | some c => c.bound | none => false
      let s := { s with brd := { s.brd with imgVer := s.img 16 4, imgKey := s.img 88 1, digest := s.imgDigest,
                                            version := s.img 24 64, custOk := bound && s.img 89 1 % 2 == 1,
                                            waitAt := s.barTime } }
      s.bringState 3 7

/-- Step 8: main rails and clocks; boot mode is left, Barista runs its firmware. -/
def State.step8 (s : State) (pllBad : Bool) : State :=
  if pllBad ∨ (¬ s.brd.mainPg ∧ s.brd.waitAt + 100000000 ≤ s.barTime) then s.halt 8 0x05EE
  else if ¬ s.brd.mainPg then s
  else
    let s := { s with md := { s.md with barista := 0, bootMode := false, beatAt := s.barTime, al := 1 },
                      rcv := { s.rcv with beatAt := s.recTime }, brd := { s.brd with step := 8 } }
    let s := s.setAper 0 { s.aper 0 with boot := false }
    s.payNotices

def allDies : List Nat := [0, 1, 2, 3]

/-- A die does not come up: it is out of service, with bit [1] of 0x2000:09. -/
def State.dieFails (s : State) (step d : Nat) : State :=
  let s := (s.setDie d { s.die d with st := 2 }).setOd 0x2000 9 (s.od 0x2000 9 ||| 2)
  s.bringNote step 0x01E9

/-- Halt where every compute die is out of service; else go on to state `st`. -/
def State.orHalt (s : State) (step st : Nat) : State :=
  if allDies.all (fun d => (s.die d).st == 2) then s.halt step 0x05EF else s.bringState st step

/-- Step 9: the dies of `bad` fail. -/
def State.step9 (s : State) (bad : List Nat) : State :=
  let s := (allDies.filter bad.contains).foldl (fun s d => s.dieFails 9 d) s
  let s := s.orHalt 9 5
  if s.md.st = 5 then
    (List.range 10).foldl (fun s l => if (linkDies l).all (fun d => (s.die d).st == 0) then s.linkState l 1 else s) s
  else s

/-- Cores begins: the dispatchers take doorbells from now on, and check 8 refuses what the host has placed (R72). -/
def State.startDispatch (s : State) : State :=
  allDies.foldl (fun s d =>
    if (s.die d).st = 0 then s.setDie d { s.die d with running := true, windowAt := s.dspTime d, windowLen := s.od 0x2A00 2 }
    else s) s

/-- Step 10: `lanes` is the count of failed lanes of each link after its attempts. -/
def State.step10 (s : State) (lanes : List Nat) : State :=
  let s := (List.range 10).foldl (fun s l =>
    if (s.link l).st ≠ 1 then s
    else
      let w := laneState l (lanes.getD l 0)
      let s := s.linkState l w
      if w ≠ 0 then s
      else if l < 4 then s.dieFails 10 l
      else (s.setOd 0x2000 9 (s.od 0x2000 9 ||| 1)).bringNote 10 0x01E9) s
  let s := s.orHalt 10 6
  if s.md.st = 6 then s.startDispatch else s

/-- The logical map of a cluster from the defect map (R456). -/
def State.mapClus (s : State) (g : Nat) : State :=
  let x := s.brd.unit.defects.getD g 0xFF
  if x < 8 then (s.setCore (8 * g + x) { s.core (8 * g + x) with slot := 8 }).setClu g { s.clu g with spare := 1 }
  else if x = 8 then s.setClu g { s.clu g with spare := 1 }
  else s

/-- An element's sweep of step 11: a failing core is remapped at once or stays fenced, a failing engine is fenced. -/
def State.bringSweep (bad : List Nat) (s : State) (e : Nat) : State :=
  let ok := fun (s : State) => s.setTst e { s.tst e with tested := true, slices := 0, run := false, owed := false, at_ := s.safTime }
  if (s.die (elemDie e)).st ≠ 0 then s
  else if !(bad.contains e) then ok s
  else
    let s := s.bringNote 11 0x01E9
    if e < 256 then
      let s := (s.setCore e { s.core e with remap := true }).applyRemap e
      if (s.core e).dead then s.setFence e true else ok s
    else if e < 288 then (s.setClu (e - 256) { s.clu (e - 256) with slvDead := true }).setFence e true
    else (s.setDie (e - 288) { s.die (e - 288) with cleDead := true }).setFence e true

/-- Cores is complete: the module is in service (R350, R449). -/
def State.inService (s : State) : State :=
  let s := s.setOd 0x2010 3 ((s.barTime - s.brd.doneAt) / 1000000 % 2 ^ 32)
  let s := (s.dropCause 0).dropCause 1
  let s := s.condCause 16 (s.safetyCrc != s.od 0x2200 5)
  let (z, s) := s.freeStatus
  { s with brd := { s.brd with step := 11 } }.enterState s.ranked z

/-- Step 11: the elements of `bad` fail their sweeps. -/
def State.step11 (s : State) (bad : List Nat) : State :=
  let s := (List.range 32).foldl (fun s g => s.mapClus g) s
  let s := (List.range 292).foldl (State.bringSweep bad) s
  if allDies.all (fun d => (s.die d).st == 2) then s.halt 11 0x05EF else s.inService

/-- IMAGE_VERIFY: the next step of Table 18-2, from aperture 0 done to Cores complete. `bad` says what fails in it: a PLL
(step 8), dies (9), lanes of the links (10), elements (11). -/
def State.imageVerify (s : State) (bad : List Nat) : State :=
  if ¬ s.alive ∨ s.md.barista = 4 then s
  else match s.md.st with
    | 2 => s.step7
    | 3 => if s.brd.step = 7 then s.step8 (!bad.isEmpty) else s.bringState 4 8
    | 4 => s.step9 bad
    | 5 => s.step10 bad
    | 6 => s.step11 bad
    | _ => s

/-! ### Pins, brown-out, clock (R465–R470) -/

/-- MAIN_PG_ASSERT. -/
def State.mainPgRise (s : State) : State := { s with brd := { s.brd with mainPg := true } }

/-- MAIN_PG_LOSS: low for `ns`; over 2 µs in a state after step 8 restarts the module. -/
def State.mainPgFall (s : State) (ns : Nat) : State :=
  if ns ≤ 2000 then s
  else
    let after := s.alive && decide (8 ≤ s.brd.step)
    let s := { s with brd := { s.brd with mainPg := false } }
    if after then
      let s := s.restart
      { s with brd := { s.brd with pgWait := true } }
    else s

/-- RESET_N_ASSERT: low for `ns`, on the standby oscillator. Between 0.9 µs and 1 µs either outcome (R467). -/
def State.resetPin (s : State) (ns : Nat) : State :=
  if s.md.st = 0 ∨ ns < 900 then s
  else
    let (k, s) := s.draw
    if 1000 ≤ ns ∨ Config.free k 0 % 2 = 1 then
      let s := s.restart
      { s with brd := { s.brd with resetN := false } }
    else s

/-- HUB_BROWN_OUT and COMPUTE_BROWN_OUT: below 95 % for `ns`. -/
def State.hubBrown (s : State) (ns : Nat) : State := if 1000 ≤ ns then s.resetPin (max ns 1000) else s
def State.compBrown (s : State) (ns : Nat) : State := if 1000 ≤ ns then s.mainPgFall 2001 else s

/-- STANDBY_LOSS. -/
def State.standbyLoss (s : State) : State := if s.md.st = 0 then s else s.powerOff

/-- XTAL_CLOCK_LOSS: absent for `ns`. -/
def State.clockLoss (s : State) (ns : Nat) : State :=
  if ns ≤ 2000 ∨ s.md.st = 0 then s
  else
    let s := s.restart
    { s with brd := { s.brd with xtal := false, held := true } }

/-- XTAL_CLOCK_RESTORED: clean for `ns`. -/
def State.clockBack (s : State) (ns : Nat) : State :=
  if ns < 1000000 ∨ ¬ s.brd.held then s else { s with brd := { s.brd with xtal := true, held := false } }

/-! ### Attestation (R458) -/

/-- Is the report base valid? -/
def State.attestBase (s : State) : Bool :=
  let o := s.od 0x2020 3
  o % 64 == 0 && decide (o + 512 ≤ 0x1800000) && (decide (7 ≤ s.md.st) || !(overlap o 512 0x800000 0x1000000))

/-- The report's bytes 0–379 (Table 18-7). -/
def State.attestBody (s : State) : List Byte :=
  let u := s.brd.unit
  let c := match s.brd.cust with | some c => if c.bound then some c else none | none => none
  let fl := word [(0, b2n c.isSome), (1, b2n s.brd.custOk), (2, b2n u.copy), (3, b2n (s.isl.safe != 0))]
  toBytes 4 0x54414C42 ++ toBytes 2 1 ++ toBytes 2 512 ++ toBytes 4 u.serial ++ toBytes 1 u.variant ++ toBytes 1 u.rev
    ++ toBytes 1 s.md.st ++ toBytes 1 fl ++ toBytes 4 s.brd.imgVer ++ toBytes 4 s.floorNow ++ toBytes 1 s.brd.imgKey
    ++ toBytes 7 0 ++ toBytes 32 (s.od 0x2020 1) ++ toBytes 64 s.brd.digest
    ++ toBytes 64 (match c with | some c => Config.sha512 (natBytes (toBytes 133 c.key)) | none => 0)
    ++ toBytes 16 (match c with | some c => c.cid | none => 0) ++ toBytes 4 s.safetyCrc ++ toBytes 4 (s.od 0x2200 5)
    ++ toBytes 8 s.barTime ++ toBytes 156 0

/-- ATTESTATION_REPORT: its status. -/
def State.attest (s : State) : State × Nat :=
  if s.attestBase then
    let b := s.attestBody
    let sg := toBytes 132 (Config.sign s.brd.seed (Config.sha512 (natBytes b)))
    ((s.wr (hub (s.od 0x2020 3)) (b ++ sg)).setOd 0x2020 4 0, 0)
  else (s.setOd 0x2020 4 0x03EB, 0x03EB)

/-! ### The customer record (R459, R460) -/

/-- The record in force, or what stands for none. -/
def State.custNow (s : State) : Cust :=
  s.brd.cust.getD { seq := 0, bound := false, require := false, floor := 0, cid := 0, key := 0, sector := 1 }

/-- Write a new record to the other sector; the layout of its first 256 bytes, its magic apart, is given nowhere (free
bytes). -/
def State.writeCust (s : State) (c : Cust) : State :=
  let sector := 1 - (s.custNow).sector % 2
  let c := { c with seq := (s.custNow).seq + 1, sector := sector }
  let o := 0x080000 + 0x10000 * sector
  let (k, s) := s.draw
  let s := s.eraseFlash o 0x10000
  let s := s.wrFlash o (toBytes 4 0x44424C42 ++ (List.range 384).map (fun i => BitVec.ofNat 8 (Config.free k i)))
  { s with brd := { s.brd with cust := some c } }

/-- Is the binding request at 0x2030:05 valid for command `v` (Table 18-8)? -/
def State.bindOk (s : State) (v : Nat) : Bool :=
  let o := s.od 0x2030 5
  let f := fun a n => s.rdHub (o + a) n
  let c := s.custNow
  o % 64 == 0 && hubRange o 512 && f 0 4 == 0x44424C42 && f 4 1 == v && decide (f 5 1 ≤ 1) && f 6 2 == 0
    && f 8 4 == s.brd.unit.serial && f 12 4 == c.seq + 1 && f 165 3 == 0 && f 300 212 == 0
    && (if v = 1 then !c.bound && f 168 132 == 0
        else c.bound && Config.verify (natBytes (toBytes 133 c.key))
               (Config.sha512 (natBytes (s.rdBytes (hub o) 168))) (natBytes (s.rdBytes (hub (o + 168)) 132)))
    && (v != 3 || f 32 133 == 0)

/-- CUSTOMER_BIND, CUSTOMER_REBIND and CUSTOMER_UNBIND: legal only in Safe-Hold. The customer floor survives. -/
def State.bind (s : State) (v : Nat) : State × Nat :=
  if s.md.st ≠ 11 then (s.setOd 0x2030 8 0x03D0, 0x03D0)
  else if !(s.bindOk v) then (s.setOd 0x2030 8 0x03EC, 0x03EC)
  else
    let o := s.od 0x2030 5
    let c := s.custNow
    let c := if v = 3 then { c with bound := false, require := false, cid := 0, key := 0 }
      else { c with bound := true, require := s.rdHub (o + 5) 1 % 2 == 1, cid := s.rdHub (o + 16) 16, key := s.rdHub (o + 32) 133 }
    ((s.writeCust c).setOd 0x2030 8 0, 0)

/-- RAISE_FLOOR. -/
def State.raiseFloor (s : State) : State × Nat :=
  let v := s.od 0x2030 7
  if within v s.floorNow s.brd.imgVer then
    let c := { s.custNow with floor := v }
    ((s.writeCust c).setOd 0x2030 8 0, 0)
  else (s.setOd 0x2030 8 0x030B, 0x030B)

end Sys2Proof.Machine
end

