-- ==== Sys2Proof/Machine/Safe.lean ====
section
/-! DEFINITION. The safety island's events: the SS1 delay, alive windows, the SAFE_STOP outputs, the limit table, paired
execution, golden frames and structural sweeps (chapter 15). -/

namespace Sys2Proof.Machine

/-! ### Safe state and outputs (R369, R372, R376) -/

/-- SS1_DELAY_EXPIRY. -/
def State.ss1Expiry (s : State) : State :=
  if s.isl.safe = 1 ∧ s.isl.ss1End ≤ s.safTime then
    ({ s with isl := { s.isl with safe := 2, ss1End := 0 } }).driveStop
  else s

/-- SAFE_STOP_TEST_PULSE on channel A (false) or B (true): a pulse that has lasted 100 µs ends, else one that is due
begins. -/
def State.testPulse (s : State) (b : Bool) : State :=
  let i := s.isl
  let now := s.safTime
  if b then
    if i.pulseB ≠ 0 then (if i.pulseB ≤ now then ({ s with isl := { i with pulseB := 0 } }).driveStop else s)
    else if s.od 0x2200 0x0A = 1 ∧ i.lastB + 100000000 ≤ now ∧ i.lastA + 50000000 ≤ now then
      ({ s with isl := { i with pulseB := now + 100000, lastB := now } }).driveStop
    else s
  else
    if i.pulseA ≠ 0 then (if i.pulseA ≤ now then ({ s with isl := { i with pulseA := 0 } }).driveStop else s)
    else if s.od 0x2200 0x0A = 1 ∧ i.lastA + 100000000 ≤ now then
      ({ s with isl := { i with pulseA := now + 100000, lastA := now } }).driveStop
    else s

/-- SAFE_STOP_READBACK_MISMATCH: a channel's pin has read `level` for `ns`. -/
def State.readback (s : State) (b level : Bool) (ns : Nat) : State :=
  if s.stopCmd b = level ∨ ns ≤ 20000 then s
  else
    let s := { s with isl := if b then { s.isl with pinB := level } else { s.isl with pinA := level } }
    s.raiseCause 3

/-- ISLAND_INTERNAL_FAULT. -/
def State.islandFault (s : State) : State := s.raiseCause 3

/-! ### Alive windows (R385) -/

/-- ALIVE_WINDOW_EXPIRY of monitor `i`. -/
def State.aliveExpiry (s : State) (i : Nat) : State :=
  let m := s.mon i
  if m.ends = 0 ∨ s.safTime < m.ends then s
  else
    let s := if m.good then s else s.raiseCause 7
    s.setMon i { s.mon i with ends := m.ends + s.od (0x2220 + i) 4, good := false }

/-! ### The limit table (R387) -/

/-- One entry of the table: vector index, kind, zero byte, minimum, maximum, step. -/
def limitOk (w : Nat) : Bool :=
  let lo := f32 (field w 32 32)
  let hi := f32 (field w 64 32)
  let st := f32 (field w 96 32)
  decide (field w 0 16 ≤ 1023) && within (field w 16 8) 1 3 && field w 24 8 == 0 && !(isNan lo) && !(isNan hi) && !(valLt hi lo)
    && !(isNan st) && !(valLt st valZero)

/-- LIMIT_TABLE_COMMIT with a CRC: its status; a verified table is adopted at the next cycle boundary. -/
def State.limitCommit (s : State) (crc : Nat) : State × Nat :=
  let base := s.od 0x2201 1
  let n := s.od 0x2201 2
  let tab := (List.range n).map (fun i => s.rdHub (base + 16 * i) 16)
  if n ≠ 0 ∧ base % 16 = 0 ∧ hubRange base (16 * n) ∧ crc32c (natBytes (s.rdBytes (hub base) (16 * n))) = crc % 2 ^ 32
      ∧ tab.all limitOk then
    ({ s with isl := { s.isl with nextTab := some tab, verified := true } }, 0)
  else (s, 0x03E1)

/-- SAF_DROPPED_WRITE: a write to the SAF_ page from another source (R19). -/
def State.safDrop (s : State) : State := s.bumpReg (baseSAF + 0x40)

/-! ### Paired execution (R379–R383) -/

/-- The shadow dispatcher's choice: free tested reserved cores on the shadow die. -/
def State.shadowCores (s : State) (d : Desc) (die : Nat) : Option (List Nat) := s.pick d die (s.freeFor d.ctx 0 die)

/-- Has the shadow die's clearance engine a place, tested, for a shadow copy (R188, R201, R393)? -/
def State.cleShadow (s : State) (d : Desc) (die : Nat) : Bool :=
  decide (d.op < 0x0400 ∨ 0x04FF < d.op) || (s.clePlace die 0 && s.tested (288 + die))

/-- The shadow copy of a descriptor without cores begins: a check's on the shadow die's engine, where it counts as run and ends
a slice (R201, R392). -/
def State.shadowUnit (s : State) (id : Nat) (d : Desc) (x : Shadow) : State :=
  let go (s : State) : State :=
    s.updDesc id (fun d => { d with shadow := some { x with placed := true, at_ := s.dspTime x.die } })
  if 0x0400 ≤ d.op ∧ d.op ≤ 0x04FF then
    let e := 288 + x.die
    let s := if (s.tst e).run then s.setTst e { s.tst e with run := false } else s
    if d.op = 0x0410 then (s.cleEnter x.die go).bumpOd (0x4200 + x.die) 0x51 else go s
  else go s

/-- SHADOW_PLACE: no sooner than the stagger after the placement was received, and not once the home copy has failed. -/
def State.shadowPlace (s : State) (id : Nat) : State :=
  match s.desc? id with
  | none => s
  | some d =>
    match d.shadow with
    | none => s
    | some x =>
      if d.st ≠ .running ∨ x.placed ∨ (s.die x.die).st ≠ 0 ∨ s.dspTime x.die < x.at_ + s.od 0x2200 7
          ∨ d.result.any (fun r => decide (2 ≤ stClass r.status)) then s
      else if d.unitless then (if s.cleShadow d x.die then s.shadowUnit id d x else s)
      else match s.shadowCores d x.die with
        | none => s
        | some l =>
          let s := l.foldl (fun s n => s.wake (coreClus n)) s
          let s := l.foldl (fun s n => if (s.tst n).run then s.setTst n { s.tst n with run := false } else s) s
          s.updDesc id (fun d => { d with shadow := some { x with placed := true, cores := l, at_ := s.dspTime x.die } })

/-- The hash of one granule (R381): its address, byte mask and 64 data bytes. -/
def granuleHash (a mask data : Nat) : Nat := crc64 (toBytes 8 a ++ toBytes 8 mask ++ toBytes 64 data)

/-- The signature of a copy's writes: granules as (address, mask, data). -/
def pairSign (l : List (Nat × Nat × Nat)) : Nat := (natSum (fun g => granuleHash g.1 g.2.1 g.2.2) l) % 2 ^ 64

/-- A pair that differed: every core involved is untested and owes a full sweep (R382). -/
def State.distrust (s : State) (l : List Nat) : State :=
  l.foldl (fun s n => (s.setTst n { s.tst n with tested := false, slices := 0, owed := true }).bumpOd (0x4000 + n) 0x12) s

/-- A chunk that its pair's comparison faults leaves its streams as they were before it (R147). -/
def State.unrunChunk (s : State) (d : Desc) : State := if isChunk d then restoreChunk d.strs d.aux s else s

/-- PAIR_COMPARE: the home copy wrote the granules `home` (address and mask; their bytes are in memory), the shadow copy
`shadow`, with its numeric flags and status. The island judges the pair once. -/
def State.pairCompare (s : State) (id : Nat) (home : List (Nat × Nat)) (shadow : List (Nat × Nat × Nat)) (flags status : Nat) :
    State :=
  match s.desc? id with
  | none => s
  | some d =>
    match d.shadow, d.result with
    | some x, some r =>
      if x.judged then s
      else if 2 ≤ stClass r.status then
        (if s.shadowOut d r then s.updDesc id (fun d => { d with shadow := some { x with judged := true } }) else s)
      else
        let down := decide ((s.die x.die).st ≠ 0)
        let cut := down || stClass status == 4 || stClass status == 5
        if !cut && !x.placed then s
        else
          let s := if x.placed then s.checkShadow d x.die else s
          let s := (s.bumpReg (baseSAF + 0x20)).bumpOd (0x4200 + d.die) 0x11
          let judge := fun (r : Result) (d : Desc) => { d with result := some r, shadow := some { x with judged := true } }
          if cut then
            ((s.unrunChunk d).updDesc id (judge { r with status := 0x0602, outcome := 9 })).raiseCause 5
          else
            let hs := home.map (fun g => (g.1, g.2, s.rd g.1 64))
            if pairSign hs = pairSign shadow ∧ hs.length = shadow.length ∧ flags = r.flags
                ∧ stClass status = stClass r.status then
              s.updDesc id (judge r)
            else
              let s := ((s.unrunChunk d).bumpReg (baseSAF + 0x28)).updDesc id (judge { r with status := 0x0601, outcome := 9 })
              (s.distrust (d.cores ++ x.cores)).raiseCause 4
    | _, _ => s

/-! ### Golden frames (R389, R390) -/

/-- The signature of `n` bytes of output from `a`, granule offsets from the start of the range (R381, R390). -/
def State.goldenSign (s : State) (a n : Nat) : Nat :=
  pairSign ((List.range (ceilDiv n 64)).map (fun k =>
    let m := min 64 (n - 64 * k)
    (64 * k, 2 ^ m - 1, s.rd (a + 64 * k) m)))

/-- GOLDEN_FRAME_CHECK: descriptor `id` is the closing NOP of a verified context's frame, every other descriptor of the frame
has its record, and the verdict becomes the NOP's result. -/
def State.goldenCheck (s : State) (id : Nat) : State :=
  match s.desc? id with
  | none => s
  | some d =>
    match s.verOf d.ctx, d.result with
    | some v, some r =>
      if ¬ d.closes ∨ d.stage = 1 ∨ 2 ≤ stClass r.status ∨ s.descs.any (fun p => p.2.ctx == d.ctx && decide (p.1 < id)) then s
      else
        let x := s.ver v
        let close := fun (s : State) (st : Nat) =>
          s.updDesc id (fun d => { d with stage := 1, result := some { r with status := st } })
        if x.bad ∨ ¬ x.fresh then
          let u := s.unchecked v
          close u.1 u.2
        else
          let o := s.obj (s.od (0x2260 + v) 6)
          let want := s.rd (o.addr + s.od (0x2260 + v) 7 * s.od (0x2260 + v) 3 + 8 * x.input) 8
          let s := s.setVer v { x with count := 0 }
          if s.goldenSign (s.od (0x2260 + v) 4) (s.od (0x2260 + v) 5) = want then close (s.dropCause 9) 0
          else close ((s.setVer v { s.ver v with mism := (x.mism + 1) % 2 ^ 32 }).raiseCause 8) 0x0604
    | _, _ => s

/-! ### Structural sweeps (R392, R393, R408, R409) -/

/-- Slices of a full sweep. -/
def sweepLen (e : Nat) : Nat := if e < 256 then 160 else if e < 288 then 40 else 80

/-- Is no descriptor placed on an element? -/
def State.elemIdle (s : State) (e : Nat) : Bool :=
  if e < 256 then !(s.coresBusy.contains e)
  else if e < 288 then !(s.enginesBusy.contains (e - 256))
  else !(s.descs.any (fun p => decide (p.2.st = .running) && p.2.onCle (e - 288)))

/-- Is an element out of service for a sweep: its die, its cluster or itself in reset, or barred for good? -/
def State.noSweep (s : State) (e : Nat) : Bool :=
  (s.die (elemDie e)).st != 0 || (s.elemRst e).1 != 0 || s.barred e
    || (decide (e < 256) && (s.clu (coreClus e)).rst != 0)

/-- May a slice be placed on an element: idle, in service or owing its sweep after a reset? -/
def State.sliceable (s : State) (e : Nat) : Bool :=
  let fenced := if e < 256 then (s.core e).fenced else if e < 288 then (s.clu (e - 256)).slvFenced else (s.die (e - 288)).cleFenced
  decide (e < 292) && decide (7 ≤ s.md.st) && !(s.noSweep e) && s.elemIdle e && !((s.tst e).run) && !(s.quarantined.contains e)
    && (!fenced || (s.tst e).owed)

/-- SWEEP_SLICE_START. An element that owes a full sweep after a mismatch goes ahead of any other slice (R382). -/
def State.sliceStart (s : State) (e : Nat) : State :=
  let ahead := (List.range 292).any (fun i => (s.tst i).owed && s.sliceable i)
  if s.sliceable e ∧ ((s.tst e).owed ∨ ¬ ahead) then s.setTst e { s.tst e with run := true } else s

/-- A full sweep has completed: the element is tested, and a fence that waited for it ends. -/
def State.sweepDone (s : State) (e : Nat) : State :=
  let s := s.setTst e { s.tst e with tested := true, slices := 0, run := false, owed := false, at_ := s.safTime }
  if s.barred e then s else (s.setFence e false).modFree

/-- A slice fails: the element is fenced and pending remap, and reported with 0x0607 (R393, R413). -/
def State.sweepFail (s : State) (e : Nat) : State :=
  let s := s.setTst e { s.tst e with tested := false, slices := 0, run := false, owed := false }
  let s := s.setFence e true
  let s := if e < 256 then s.setCore e { s.core e with remap := true }
    else if e < 288 then s.setClu (e - 256) { s.clu (e - 256) with slvDead := true }
    else s.setDie (e - 288) { s.die (e - 288) with cleDead := true }
  let (dt, s) := s.freeDetail
  s.notice 2 0x0607 (if e < 256 then srcCore e else if e < 288 then srcClus (e - 256) else srcDie (e - 288)) dt

/-- The energy of a Cupping slice, in any state: what the Governor attributed to it is free. Its job, context and record have no
place in the spec, so that the figure stands with its element (R74, R445; log entry 92). -/
def State.sliceEnergy (s : State) (e : Nat) : State :=
  let (k, s) := s.draw
  s.setTst e { s.tst e with energy := Config.free k 0 % 2 ^ 32 }

/-- SWEEP_SLICE_END. -/
def State.sliceEnd (s : State) (e : Nat) (ok : Bool) : State :=
  if ¬ (s.tst e).run then s
  else
    let s := s.sliceEnergy e
    let t := s.tst e
    if !ok then s.sweepFail e
    else if t.slices + 1 < sweepLen e then s.setTst e { t with run := false, slices := t.slices + 1 }
    else s.sweepDone e

/-- DIAGNOSTIC_INTERVAL_LAPSE. -/
def State.diagLapse (s : State) (e : Nat) : State :=
  let t := s.tst e
  if 292 ≤ e ∨ ¬ t.tested ∨ s.safTime ≤ t.at_ + s.od 0x2200 8 * 1000000 then s
  else s.setTst e { t with tested := false }

end Sys2Proof.Machine
end

