-- ==== Sys2Proof/Machine/Tick.lean ====
section
/-! DEFINITION. The passage of time while no command waits: one nanosecond on every counter that runs (R22). -/

namespace Sys2Proof.Machine

/-- Add 1 ns to a counter, where it runs. -/
def State.count1 (s : State) (on : Bool) (a : Nat) : State := if on then s.bumpReg a else s

/-- The counters that count from the crystal: the port's and Barista's own whenever the module answers, the other hub blocks'
from the main rails on, each dispatcher's while it runs. -/
def State.crystal (s : State) : State :=
  let up := s.alive
  let hub := up && decide (4 ≤ s.md.st)
  let s := (s.count1 up (baseHP + 0x10)).count1 (up && s.md.barista != 2) keyBarista
  let s := (((((s.count1 hub baseGOV).count1 hub baseREC).count1 hub baseFSE).count1 hub baseESP).count1 hub baseCAR)
  [0, 1, 2, 3].foldl (fun s d => s.count1 (hub && (s.die d).running && (s.die d).st == 0) (baseDSP d)) s

/-- The island's counter, on its own oscillator: its rate differs slightly, so an ns of the crystal brings it 0, 1 or 2. -/
def State.islandTime (s : State) : State :=
  if s.md.st = 0 then s
  else
    let (k, s) := s.draw
    s.bumpReg baseSAF (Config.free k 0 % 3)

/-- Is this service time (R425): the loop in Run, or a watched context Open? -/
def State.serving (s : State) : Bool :=
  decide (7 ≤ s.md.st) && (s.esp.st == 2 || s.ctxs.any (fun p => decide (p.2.st = .opened) && s.watched p.1))

/-- Safe-Hold from a cause of inputs or commands is not unavailable time. -/
def State.planned (s : State) : Bool := s.md.st == 11 && [2, 10, 11, 12, 13, 14].contains s.isl.first

/-- The availability sums (R425). -/
def State.availability (s : State) : State :=
  let t := s.alive && decide (4 ≤ s.md.st)
  let down := (!s.rcv.down.isEmpty && decide (7 ≤ s.md.st) && !s.planned) || s.brd.unplanned
  let s := if t && s.serving then s.bumpReg keyService else s
  if t && down then s.bumpReg (baseREC + 0x48) else s

/-- A test pulse that has lasted its time ends (R376). -/
def State.endPulses (s : State) : State :=
  let s := if s.isl.pulseA ≠ 0 ∧ s.isl.pulseA ≤ s.safTime then s.testPulse false else s
  if s.isl.pulseB ≠ 0 ∧ s.isl.pulseB ≤ s.safTime then s.testPulse true else s

/-- MAIN_PG has not come within the 100 ms that step 8 allows (R465). -/
def State.step8Late (s : State) : State :=
  if s.md.st = 3 ∧ s.brd.step = 7 ∧ s.md.barista ≠ 4 ∧ ¬ s.brd.mainPg ∧ s.brd.waitAt + 100000000 ≤ s.barTime then
    s.halt 8 0x05EE
  else s

/-- One nanosecond with no command. -/
def State.tick (s : State) : State :=
  if s.md.st = 0 then s else (((s.crystal.islandTime).availability).endPulses).step8Late

end Sys2Proof.Machine
end

