-- ==== Sys2Proof/Machine/Access.lean ====
section
/-! DEFINITION. Accesses of the object dictionary (chapter 14): the checks of Table 14-2, the ranges and conditions of the
entries, what a write does, groups, claims, module commands. Paths: 0 the host's object channel, 1 the supervisor. -/

namespace Sys2Proof.Machine

/-! ### Ranges (check 8) -/

def hubOff (v k : Nat) : Bool := v % k == 0 && decide (v < hubSize)

/-- FP64 bits of a number that is not negative and below (or at most) 1. -/
def unitFp64 (v : Nat) (incl : Bool) : Bool :=
  v == 2 ^ 63 || decide (v < 0x3FF0000000000000) || (incl && v == 0x3FF0000000000000)

def ctxOrNone (v : Nat) : Bool := decide (v ≤ 16383) || v == 0xFFFF

/-- How many members a group kind has, and the index of its first member's object. -/
def kindSpan (k : Nat) : Nat := match k with | 1 => 256 | 2 => 32 | 3 => 4 | _ => 0
def kindBase (k : Nat) : Nat := match k with | 1 => 0x4000 | 2 => 0x4100 | _ => 0x4200

/-- 0x1000–0x20FF. -/
def rangeMod (idx sub v : Nat) : Bool :=
  if idx = 0x1003 then v == 0
  else if idx = 0x2000 then (if sub = 5 then within v 1 5 else decide (v ≤ 1))
  else if idx = 0x2001 then (if sub = 1 then v % 256 == 0 else v == 1)
  else if idx = 0x2003 then (if sub = 2 then decide (v < 2 ^ 20) else true)
  else if idx = 0x2020 then (if sub = 2 then v == 1 else true)
  else if idx = 0x2030 then (if sub = 5 then hubOff v 64 else if sub = 6 then within v 1 4 else true)
  else true

/-- 0x2100–0x21FF. -/
def State.rangePower (s : State) (idx sub v : Nat) : Bool :=
  let u := s.brd.unit
  if idx = 0x2100 then
    match sub with
    | 1 => within v 40 u.cap
    | 2 => v == 0 || within v 40 u.cap
    | 3 => within v 25 70
    | 8 => decide (v ≤ 3)
    | 0x0B => within v 70 100
    | 0x0C => within v 60 100
    | 0x0D => v % 100 == 0 && within v 400 u.clock
    | 0x0E => v % 64 == 0 && hubRange v 32768
    | 0x19 => within v 1 50
    | 0x1A => v == 0 || within v 100 1000000
    | _ => v == 1
  else if idx < 0x2140 then
    (match sub with | 1 => decide (v ≤ 5) | 4 => decide (v ≤ 1) | _ => within v 10 100)
  else if sub = 1 then v == 0 || (v % 100 == 0 && within v 400 s.ceiling)
  else v == 1

/-- 0x2200–0x22FF. -/
def rangeSafe (idx sub v : Nat) : Bool :=
  if idx = 0x2200 then
    (match sub with
     | 6 => decide (v ≤ 2000) | 7 => within v 1000 100000 | 8 => within v 1000 3600000 | 9 => within v 1 16
     | 0x0A => decide (v ≤ 1) | _ => true)
  else if idx = 0x2201 then (match sub with | 1 => hubOff v 16 | 2 => within v 1 256 | _ => true)
  else if idx = 0x2202 then decide (v ≤ 2)
  else if idx < 0x2260 then
    (match sub with
     | 1 => ctxOrNone v | 2 => decide (v ≤ 3) | 3 => within v 1 16 | _ => within v 10000 600000000000)
  else if idx < 0x2280 then
    (match sub with
     | 1 => ctxOrNone v
     | 3 => v % 64 == 0 && within v 64 16777216
     | 5 => v % 64 == 0 && within v 64 4194304
     | 6 => true
     | 7 => within v 1 8
     | _ => v % 64 == 0 && decide (v < 2 ^ 48))
  else decide (v ≤ 127) || v == 0xFF

/-- 0x2300–0x25FF. -/
def State.rangeMem (s : State) (idx sub v : Nat) : Bool :=
  if idx = 0x2300 then v == 1
  else if idx = 0x2400 then
    (match sub with
     | 6 => within v 64 32256 | 7 => within v 1 1000 | 0x10 => hubOff v 64 | 0x11 => v == 0 || within v 16 4096
     | _ => decide (v ≤ 32256))
  else if idx = 0x2401 then decide (v ≤ 65535)
  else if idx = 0x2402 then
    (match sub with
     | 1 => v % 65536 == 0 && within v 0x400000 0xFF0000
     | 2 => hubOff v 64
     | 3 => v % 65536 == 0 && within v 65536 0xC00000
     | _ => v == 1 && decide (s.od 0x2402 1 + s.od 0x2402 3 ≤ 0x1000000) && decide (s.od 0x2402 2 + s.od 0x2402 3 ≤ hubSize))
  else if idx = 0x2410 then decide (v ≤ 1)
  else if idx = 0x2411 then decide (v ≤ 1048575)
  else if idx = 0x2500 then (if sub = 1 then decide (v ≤ 3) else within v 1 60000)
  else true

/-- The highest port of a source type (Table 09-9); a port is judged for the type that is set at its write (log entry 118). -/
def portMax (type : Nat) : Nat := match type with | 2 => 3 | 3 => 3 | 4 => 1 | _ => 7

/-- 0x2600–0x26FF. -/
def State.rangeFuse (s : State) (idx sub v : Nat) : Bool :=
  if idx = 0x2601 then true
  else if idx < 0x2650 then
    (match sub with
     | 1 => decide (v ≤ 1) | 2 => decide (v ≤ 5) | 3 => decide (v ≤ portMax (s.od idx 2))
     | 5 => v % 64 == 0 && decide (v < 2 ^ 48)
     | 6 => v % 64 == 0 && within v 64 67108864
     | 7 => within v 2 256 | 8 => hubOff v 64 | 9 => within v 100000 1000000000 | 0x0A => decide (100000 ≤ v)
     | 0x0B => within v 1000000000 600000000000
     | 0x0C => decide (v ≤ 16) | 0x0D => within v 1 8 | 0x0E => within v 1 16 | 0x0F => decide (v < 8)
     | 0x19 => within v 2 64
     | 0x1A => decide (v < 2 ^ 48) && (List.range 6).all (fun i => decide (field v (8 * i) 7 ≤ 62))
     | _ => true)
  else if idx < 0x2660 then
    (match sub with
     | 1 => within v 1 3
     | 3 => decide (v ≤ 4094) || v == 0xFFFF
     | 4 => decide (v < 2 ^ 15) && decide (field v 12 2 ≤ 2)
     | 5 => if v.testBit 31 then field v 15 16 == 0 else within v 1 65535
     | _ => true)
  else if idx < 0x2670 then
    (match sub with
     | 1 => decide (v ≤ 1) | 2 => decide (v < 2 ^ 48) | 3 => within v 1 8 | 4 => decide (v ≤ 1) | 5 => within v 1 16
     | _ => true)
  else if idx < 0x2680 then
    (match sub with
     | 1 => decide (v ≤ 1)
     | 3 => v.testBit 7 || decide (v < 64)
     | 4 => if (s.od idx 3).testBit 7 then within v 100000 1000000000 else decide (v ≤ 100000000)
     | 5 => hubOff v 64 | 6 => within v 4 256 | 7 => within v 1000000 1000000000 | 8 => ctxOrNone v
     | _ => true)
  else
    match sub with
    | 1 => decide (v ≤ 63) || v == 0xFF
    | 2 => hubOff v 128
    | 3 => decide (v ≤ 63) || v == 0xFF
    | 8 => decide (v ≤ 0x3F800000) || v == 0x80000000
    | 9 => v == 1
    | _ => true

/-- 0x2700–0x27FF. -/
def State.rangeLoop (s : State) (idx sub v : Nat) : Bool :=
  if idx = 0x2700 then
    match sub with
    | 2 => within v 1 4
    | 3 => v % 1000 == 0 && within v 125000 4000000
    | 4 => within v 20000 2000000
    | 5 => hubOff v 64 | 6 => within v 1 96 | 7 => hubOff v 16 | 8 => within v 1 256 | 9 => hubOff v 64
    | 0x0A => within v 1 16 | 0x0B => ctxOrNone v | 0x0C => ctxOrNone v
    | 0x0D => v % 32 == 0 && decide (v < 0x00400000) | 0x0E => v % 32 == 0 && decide (v < 0x00400000)
    | 0x0F => decide (v ≤ 1) | 0x10 => decide (v < hubSize) | 0x11 => within v 1 16 | 0x15 => hubOff v 64
    | 0x16 => within v 4 1024
    | 0x20 => decide (v < s.od 0x2700 0x21) | 0x21 => decide (v ≤ 100) && decide (s.od 0x2700 0x20 < v)
    | 0x22 => within v 1000 60000000
    | _ => v == 1
  else if idx = 0x2701 then (if sub = 6 then within v 1 2 else if sub = 5 then decide (v ≤ 65536) else true)
  else
    match sub with
    | 3 => decide (v ≤ 8191) | 4 => decide (v ≤ 8191)
    | 5 => v == 1 || (v % 2 == 0 && within v 2 16)
    | 6 => decide (1 ≤ v) | _ => true

/-- 0x2800 upward. -/
def State.rangeUnit (s : State) (idx sub v : Nat) : Bool :=
  if idx = 0x2801 then decide (v ≤ 7)
  else if idx = 0x2900 then unitFp64 v (decide (3 ≤ sub))
  else if idx = 0x2A00 then
    (match sub with
     | 2 => within v 1000000 1000000000 | 4 => v == 0 || within v 10000 1000000000 | _ => decide (v ≤ 100))
  else if within idx 0x3100 0x31FF then
    (if sub = 1 then decide (v ≤ 3) else decide (v < 2 ^ kindSpan (s.od idx 1)))
  else if within idx 0x4000 0x40FF then (if sub = 5 then decide (v ≤ 1) else within v 1 2)
  else if within idx 0x4100 0x411F then v == 1
  else if within idx 0x4200 0x4203 then (if sub = 0x79 then decide (v < 16) else v == 1)
  else true

/-- The windowed context view. -/
def rangeCtx (sub v : Nat) : Bool :=
  match sub with
  | 1 => decide (v ≤ 16383) | 3 => within v 1 5 | 4 => decide (v ≤ 4) | 5 => decide (v ≤ 4095) | 6 => decide (v ≤ 3)
  | 7 => decide (v ≤ 3) | 9 => hubOff v 64
  | 0x0A => within v 16 4096 && (List.range 13).any (fun k => v == 2 ^ k)
  | 0x0B => hubOff v 32 | 0x0C => v % 32 == 0 && within v 32 1048576 | 0x0D => hubOff v 32
  | 0x10 => v == 0 || within v 1000 600000000000
  | 0x11 => decide (v ≤ 1) | 0x12 => within v 1 64 | 0x14 => within v 100000 1000000000 | 0x16 => decide (v ≤ 500)
  | _ => true

/-- Check 8. -/
def State.inRangeOd (s : State) (idx sub v : Nat) : Bool :=
  match idx / 256 with
  | 0x21 => s.rangePower idx sub v
  | 0x22 => rangeSafe idx sub v
  | 0x23 => s.rangeMem idx sub v
  | 0x24 => s.rangeMem idx sub v
  | 0x25 => s.rangeMem idx sub v
  | 0x26 => s.rangeFuse idx sub v
  | 0x27 => s.rangeLoop idx sub v
  | 0x50 => rangeCtx sub v
  | p => if p < 0x21 then rangeMod idx sub v else s.rangeUnit idx sub v

/-! ### The entries' own conditions (check 7) -/

/-- Is what an entry of the fusion engine configures enabled? -/
def State.fuseBusy (s : State) (idx : Nat) : Bool :=
  if idx < 0x2650 then s.srcOn (idx - 0x2610)
  else if idx < 0x2660 then (List.range 64).any (fun n => s.srcOn n && s.so n 2 == 2 && s.so n 4 == idx - 0x2650)
  else if idx < 0x2670 then s.grpOn (idx - 0x2660)
  else if idx < 0x2680 then s.setOn (idx - 0x2670)
  else s.od 0x2680 1 != 0xFF

/-- Has an enabled group claimed source `n`? -/
def State.outputOf (s : State) (n : Nat) : Bool := within n 48 63 && s.claimsOut (n - 48)

/-- The fusion engine's conditions on a write. -/
def State.condFuse (s : State) (idx sub v : Nat) : Option Nat :=
  if idx = 0x2601 then
    (if (List.range 64).any (fun n => s.srcOn n && s.so n 2 == 1 && field (s.so n 4) 8 8 == sub - 1) then some 0x0382 else none)
  else if within idx 0x2610 0x264F ∧ sub ≤ 2 then
    let n := idx - 0x2610
    if s.outputOf n then some 0x0382
    else if sub = 1 ∧ v = 1 ∧ ¬ s.srcOn n ∧ ¬ s.sourceOk n then some 0x0380
    else if sub = 2 ∧ s.srcOn n then some 0x0382
    else none
  else if within idx 0x2660 0x266F ∧ sub = 1 then
    (if v = 1 ∧ ¬ s.grpOn (idx - 0x2660) ∧ ¬ s.groupOk (idx - 0x2660) then some 0x0381 else none)
  else if within idx 0x2670 0x2677 ∧ sub = 1 then
    (if v = 1 ∧ ¬ s.setOn (idx - 0x2670) ∧ ¬ s.setOk (idx - 0x2670) then some 0x0381 else none)
  else none

/-- The host may write only the classes P, D and B, and only module command 1 (R76, R352). -/
def hostBarred (path idx sub v : Nat) : Bool :=
  path == 0 && ((idx == 0x5000 && sub == 4 && decide (v ≤ 1)) || (idx == 0x2000 && sub == 5 && within v 2 5))

/-- Check 7: the status of the condition that a write of `v` breaks. -/
def State.condOd (s : State) (path idx sub cond inst v : Nat) : Option Nat :=
  if hostBarred path idx sub v then some 0x03D1
  else if cond = 1 ∧ s.fuseBusy idx ∧ ¬ (idx = 0x2680 ∧ sub = 1 ∧ v = 0xFF) then some 0x0382
  else if cond = 2 ∧ s.esp.st ≠ 0 then some 0x0392
  else if cond = 3 ∧ (s.ctx inst).st ≠ .closed then some 0x030D
  else if cond = 4 ∧ (s.ctx inst).st ≠ .closed ∧ (s.ctx inst).st ≠ .paused then some 0x030D
  else if idx = 0x5000 ∧ sub = 0x17 ∧ s.isSC inst ∧ (s.ctx inst).st ≠ .closed then some 0x030D
  else if idx = 0x5000 ∧ sub = 0x16 ∧ (s.ctx inst).st ≠ .closed ∧ s.cls inst = 3 ∧ 500 < s.shares (s.home inst) inst + v then
    some 0x0310
  else if idx = 0x5000 ∧ sub = 0x15 ∧ s.rsvWritable inst v = false then some 0x0310
  else if within idx 0x2200 0x22FF ∧ ¬ (idx = 0x2201 ∧ sub = 3) ∧ s.isl.safe = 0 then some 0x03E0
  else if idx = 0x2000 ∧ sub = 0x10 ∧ s.anyDram then some 0x0312
  else if idx = 0x2500 ∧ sub = 1 ∧ s.apers.any (fun p => p.2.st != 0) then some 0x03C3
  else if idx / 256 = 0x26 then s.condFuse idx sub v
  else none

/-- Check 6: does the module state allow the access or command (Table 14-5, R352, R460)? -/
def State.stateOd (s : State) (idx sub v : Nat) : Bool :=
  let st := s.md.st
  if idx = 0x2000 ∧ sub = 5 then
    match v with
    | 1 => decide (3 ≤ st) && s.esp.st == 0
    | 2 => decide (7 ≤ st)
    | 3 => decide (7 ≤ st)
    | 4 => decide (6 ≤ st)
    | 5 => st == 11
    | _ => true
  else if idx = 0x5000 ∧ sub = 3 then decide (6 ≤ st)
  else if idx = 0x2030 ∧ sub = 6 ∧ within v 1 3 then st == 11
  else true

/-! ### Checks 1 to 8 (Table 14-2) -/

/-- The item that an access of a path concerns: a context, an identity, the path itself for a selector. -/
def State.instOf (s : State) (path idx sub : Nat) : Nat :=
  if isWindow idx ∧ sub = 1 then path
  else if idx = 0x5000 ∨ idx = 0x2003 then s.sel path idx
  else 0

/-- Is an entry in the process image's outputs (Table 14-11)? -/
def rxMapped (idx sub : Nat) : Bool := (idx == 0x2002 && sub == 1) || (idx == 0x2000 && sub == 0x0B)

/-- A write of `len` bytes of value `v`: the first check that fails, with its status. `pdo` marks the process image. -/
def State.checkWrite (s : State) (path : Nat) (pdo : Bool) (idx sub len v : Nat) : Option (Nat × Nat) :=
  if !(hasIndex idx) then some (1, 0x03D2)
  else match entry idx sub with
    | none => if sub = 0 then some (3, 0x03D4) else some (2, 0x03D3)
    | some e =>
      let inst := s.instOf path idx sub
      let key := odKey idx sub inst
      if e.acc ≤ 1 ∨ (e.cond = 5 ∧ 0x31FD ≤ idx) ∨ (path = 1 ∧ ¬ pdo ∧ rxMapped idx sub ∧ s.md.al = 8) then some (3, 0x03D4)
      else if (path = 0 ∧ e.auth ≠ 1) ∨ (path = 0 ∧ s.md.claims.contains key) then some (4, 0x03D1)
      else if len ≠ e.size then some (5, 0x03D5)
      else if ¬ s.stateOd idx sub v then some (6, 0x03D0)
      else match s.condOd path idx sub e.cond inst v with
        | some st => some (7, st)
        | none => if s.inRangeOd idx sub v then none else some (8, 0x030B)

/-- A read: the first check that fails. -/
def checkRead (idx sub : Nat) : Option (Nat × Nat) :=
  if !(hasIndex idx) then some (1, 0x03D2)
  else match entry idx sub with
    | none => if sub = 0 then none else some (2, 0x03D3)
    | some e => if e.acc = 3 then some (3, 0x03D4) else none

/-- The bytes that a read returns: a string's present length, else the entry's size. -/
def State.readLen (s : State) (idx sub : Nat) : Nat :=
  if idx = 0x1008 ∨ idx = 0x1009 ∨ idx = 0x100A then (s.textOf idx).1
  else match entry idx sub with | some e => e.size | none => 1

/-! ### What a write does -/

/-- Module command (Table 14-5); the restart of command 1 begins after its answer. -/
def State.modCommand (s : State) (v : Nat) : State × Nat :=
  match v with
  | 1 => (s, 0)
  | 2 => if s.md.decaf then (s, 0x01D0) else (({ s with md := { s.md with decaf := true } }).modUpdate 0, 0)
  | 3 =>
    if ¬ s.md.decaf ∧ s.od 0x2000 0x0B = 0 then (s, 0x01D0)
    else ((({ s with md := { s.md with decaf := false } }).setOd 0x2000 0x0B 0).modUpdate 0, 0)
  | 4 => if s.isl.safe ≠ 0 then (s, 0x01D0) else (s.raiseCause 2, 0)
  | _ => if s.mayLift then (s.lift, 0) else (s, 0x03D8)

/-- Release the claim that the word names (R346). -/
def State.releaseClaim (s : State) (v : Nat) : State × Nat :=
  let idx := field v 16 16
  let sub := field v 8 8
  let key := odKey idx sub (if idx = 0x5000 then s.sel 1 0x5000 else 0)
  if s.md.claims.contains key then ({ s with md := { s.md with claims := s.md.claims.filter (· ≠ key) } }, 0) else (s, 0x01D0)

/-- CUSTOMER_FLASH_WRITE: whole sectors are erased and written (R285); a failure's status is free. -/
def State.flashWrite (s : State) (ok : Bool) : State :=
  let o := s.od 0x2402 1
  let n := s.od 0x2402 3
  let s := s.eraseFlash o n
  if ok then (s.wrFlash o (s.rdBytes (hub (s.od 0x2402 2)) n)).setOd 0x2402 5 0
  else
    let (z, s) := s.freeStatus
    s.setOd 0x2402 5 z

def State.effMod (s : State) (idx sub v : Nat) (x : Seg) : Option (State × Nat) :=
  if idx = 0x1003 then some ({ s with md := { s.md with errs := [] } }, 0)
  else if idx = 0x2000 ∧ sub = 5 then some (s.modCommand v)
  else if idx = 0x2001 then
    some (if sub = 1 then s.releaseClaim v else ({ s with md := { s.md with claims := [] } }, 0))
  else if idx = 0x2002 then some ((s.setOd 0x2002 1 v).setOd 0x2002 5 v, 0)
  else if idx = 0x2020 ∧ sub = 2 then some s.attest
  else if idx = 0x2030 ∧ sub = 6 then some (if v = 4 then s.raiseFloor else s.bind v)
  else if idx = 0x2100 ∧ sub = 0x0A then some (s.clearBattery, 0)
  else if idx = 0x2100 ∧ sub = 0x0F then some (s.clearLedger, 0)
  else if within idx 0x2140 0x217F ∧ sub = 3 then some (s.clearLearned (idx - 0x2140), 0)
  else if idx = 0x2201 ∧ sub = 3 then some (s.limitCommit v)
  else if within idx 0x2220 0x225F ∧ sub ≤ 2 then some ((s.setOd idx sub v).rearmMon (idx - 0x2220), 0)
  else if idx = 0x2300 then some ({ s with md := { s.md with crash := false } }, 0)
  else if idx = 0x2402 ∧ sub = 4 then some (s.flashWrite x.ok, 0)
  else none

def State.effFuse (s : State) (idx sub v : Nat) : Option (State × Nat) :=
  if within idx 0x2610 0x264F ∧ sub = 1 then
    let n := idx - 0x2610
    some (if v = 1 ∧ ¬ s.srcOn n then (s.setOd idx 1 1).startSource n else s.setOd idx 1 v, 0)
  else if within idx 0x2660 0x266F ∧ sub = 1 then
    let g := idx - 0x2660
    some (if v = 1 then (if s.grpOn g then s else (s.setOd idx 1 1).startGroup g)
          else if s.grpOn g then (s.setOd idx 1 0).stopGroup g (s.claimsOut g) else s, 0)
  else if within idx 0x2670 0x2677 ∧ sub = 1 then
    let t := idx - 0x2670
    some (if v = 1 then (if s.setOn t then s else (s.setOd idx 1 1).startSet t) else (s.setOd idx 1 0).stopSet t, 0)
  else if idx = 0x2680 ∧ sub = 1 then some ((s.setOd idx 1 v).egoTurn v, 0)
  else if idx = 0x2680 ∧ sub = 4 then
    let q := Config.normalise ((List.range 4).map (fun i => field v (32 * i) 32))
    some (s.setOd idx 4 (word ((List.range 4).map (fun i => (32 * i, q.getD i 0 % 2 ^ 32)))), 0)
  else if idx = 0x2680 ∧ sub = 9 then
    some ({ s with fse := { s.fse with ego := { s.fse.ego with reset := true } } }, 0)
  else none

def State.effUnit (s : State) (idx sub inst v : Nat) (x : Seg) : Option (State × Nat) :=
  if idx = 0x2700 ∧ sub = 2 then some (s.loopCommand v x.ids x.delay x.ring)
  else if idx = 0x2700 ∧ sub = 0x26 then some s.rejoin
  else if idx = 0x2701 ∧ sub = 6 then some ((s.setOd idx 6 v).bodySdo (v == 1) x.ok x.data, 0)
  else if within idx 0x3100 0x31FF ∧ sub = 1 then some ((s.setOd idx 1 v).setOd idx 2 0, 0)
  else if within idx 0x4000 0x40FF ∧ sub = 0x22 then
    some (if v = 1 then s.resetCore (idx - 0x4000) else s.fenceCore (idx - 0x4000))
  else if within idx 0x4100 0x411F ∧ sub = 0x51 then some (s.resetClus (idx - 0x4100))
  else if within idx 0x4200 0x4203 ∧ sub = 0x79 then some (s.retrainCommand (idx - 0x4200) v, 0)
  else if within idx 0x4200 0x4203 ∧ sub = 0x82 then some (s.recoverDie (idx - 0x4200))
  else if idx = 0x5000 ∧ sub = 3 then some (s.ctxCommand inst v)
  else none

/-- The island re-judges the confirmed CRC after a write of the safety configuration (R395). -/
def State.judgeCrc (s : State) (idx sub : Nat) : State :=
  if inSafetySet idx sub ∨ (idx = 0x2200 ∧ sub = 5) then s.condCause 16 (s.safetyCrc != s.od 0x2200 5) else s

/-- The effect of a write that has passed its checks. -/
def State.effect (s : State) (idx sub inst v : Nat) (x : Seg) : State × Nat :=
  match (s.effMod idx sub v x <|> s.effFuse idx sub v <|> s.effUnit idx sub inst v x) with
  | some r => (r.1.judgeCrc idx sub, r.2)
  | none => ((s.setOd idx sub v inst).judgeCrc idx sub, 0)

/-- A supervisor write claims a host entry; selectors are never claimed (R346, R347). -/
def State.claim (s : State) (path idx sub inst st : Nat) : State :=
  let host : Bool := match entry idx sub with | some e => e.auth == 1 | none => false
  let key := odKey idx sub inst
  if path = 1 ∧ host = true ∧ ¬ (isWindow idx ∧ sub = 1) ∧ stClass st ≤ 2 ∧ ¬ s.md.claims.contains key then
    { s with md := { s.md with claims := key :: s.md.claims } }
  else s

/-! ### Groups (R354–R357) -/

/-- The kind and the members of group `gg`. -/
def State.groupKind (s : State) (gg : Nat) : Nat := s.od (0x3100 + gg) 1
def State.groupMembers (s : State) (gg : Nat) : List Nat :=
  (List.range (kindSpan (s.groupKind gg))).filter (s.od (0x3100 + gg) 2).testBit

/-- The failure of lowest check number. -/
def firstOf (l : List (Option (Nat × Nat))) : Option (Nat × Nat) :=
  l.foldl (fun b x => match b, x with
    | none, x => x
    | some b, some x => if x.1 < b.1 then some x else some b
    | some b, none => some b) none

/-- The checks of a group write. -/
def State.checkGroup (s : State) (path gg ss len v : Nat) : Option Nat :=
  let ms := s.groupMembers gg
  let b := kindBase (s.groupKind gg)
  if s.groupKind gg = 0 ∨ ms.isEmpty ∨ ss = 0 then some 0x03D7
  else (firstOf (ms.map (fun m => s.checkWrite path false (b + m) ss len v))).map (fun p => p.2)

/-- Does a broadcast reach a member: no fence response, no down hub link (R303)? -/
def State.reached (s : State) (kind m : Nat) : Bool :=
  let d := if kind = 1 then m / 64 else if kind = 2 then m / 8 else m
  (s.die d).st == 0 && decide (2 ≤ (s.link d).st)
    && (match kind with
        | 1 => !((s.core m).fenced) && (s.core m).rst == 0 && (s.clu (coreClus m)).rst == 0
        | 2 => (s.clu m).rst == 0
        | _ => true)

/-- A group's broadcast starts. -/
def State.startBcast (s : State) (b : Bcast) : State := { s with md := { s.md with bcast := some b } }

/-- The broadcast's writes take effect at the members it reaches, and Barista notes the result (R303, R355). -/
def State.runBcast (s : State) (b : Bcast) (x : Seg) : State × Nat :=
  let kind := s.groupKind b.gg
  let ms := s.groupMembers b.gg
  let ok := ms.filter (s.reached kind)
  let base := kindBase kind
  let s := ok.foldl (fun s m => ((s.effect (base + m) b.sub 0 b.value x).1).claim b.path (base + m) b.sub 0 0) s
  let st := if ok.length = ms.length then 0 else 0x01B0
  let g := 0x3100 + b.gg
  let s := ((s.setOd g 3 (bits 256 (fun i => ok.contains i))).setOd g 4 st).setOd g 5 b.sub
  ({ s with md := { s.md with bcast := none } }, st)

/-- A read of a group: its members' common value (R357). -/
def State.readGroup (s : State) (path gg ss : Nat) : Nat × Nat × Nat :=
  let ms := s.groupMembers gg
  let b := kindBase (s.groupKind gg)
  if s.groupKind gg = 0 ∨ ms.isEmpty ∨ ss = 0 then (0x03D7, 0, 0)
  else match firstOf (ms.map (fun m => checkRead (b + m) ss)) with
    | some (_, st) => (st, 0, 0)
    | none =>
      let vs := ms.map (fun m => s.odView path (b + m) ss)
      let v := vs.headD 0
      if vs.all (· == v) then (0, s.readLen (b + ms.headD 0) ss, v) else (0x03D6, 0, 0)

def isGroup (idx : Nat) : Bool := within idx 0x3000 0x30FF

/-! ### An access -/

/-- Is the dictionary served (R14, R345, R348)? -/
def State.dictUp (s : State) : Bool :=
  s.alive && s.md.barista == 0 && decide (3 ≤ s.md.st) && !s.md.bootMode && s.md.bcast.isNone

/-- The supervisor's mailbox serves SDOs from Pre-Op (R361). -/
def State.pathUp (s : State) (path : Nat) : Bool := s.dictUp && (path == 0 || (path == 1 && s.md.al != 1))

/-- A read: status, length, value. -/
def State.odRead (s : State) (path idx sub : Nat) : Nat × Nat × Nat :=
  if isGroup idx then s.readGroup path (idx - 0x3000) sub
  else match checkRead idx sub with
    | some (_, st) => (st, 0, 0)
    | none => (0, s.readLen idx sub, s.odView path idx sub)

/-- A write to a single entry. -/
def State.odWrite (s : State) (path : Nat) (pdo : Bool) (idx sub len v : Nat) (x : Seg) : State × Nat :=
  match s.checkWrite path pdo idx sub len v with
  | some (_, st) => (s, st)
  | none =>
    let inst := s.instOf path idx sub
    let r := s.effect idx sub inst v x
    (r.1.claim path idx sub inst r.2, r.2)

/-- The SDO abort code of a status (Table 14-12). -/
def abortCode (st : Nat) (wr : Bool) : Nat :=
  if stClass st ≤ 2 then 0
  else if st = 0x03D2 then 0x06020000
  else if st = 0x03D3 then 0x06090011
  else if st = 0x03D4 then (if wr then 0x06010002 else 0x06010001)
  else if st = 0x03D5 then 0x06070010
  else if st = 0x030B then 0x06090030
  else if st = 0x03D1 then 0x08000021
  else if st = 0x03D0 then 0x08000022
  else if stClass st = 3 then 0x08000020
  else 0x08000000

/-- The status of an access on its path: the host's last status, or 0x2002:03 and the SDO response. -/
def State.answer (s : State) (path st : Nat) (wr : Bool) (len v : Nat) : State :=
  if path = 0 then { s with md := { s.md with hostSt := st, hostVal := if wr then s.md.hostVal else v } }
  else { s.setOd 0x2002 3 st with md := { s.md with sdo := { status := st, abort := abortCode st wr, len := len, value := v } } }

/-- Module command 1: the restart begins once the write has been answered (R352). -/
def State.thenRestart (s : State) (idx sub v st : Nat) : State :=
  if idx = 0x2000 ∧ sub = 5 ∧ v = 1 ∧ st = 0 then s.restartBy else s

/-- A write by either path: a group's goes out as a broadcast and is answered when that completes. `tag` is the object
channel's. Answers the status where there is one yet. -/
def State.write (s : State) (path : Nat) (tag : Option Nat) (idx sub len v : Nat) (x : Seg) : State × Option Nat :=
  if isGroup idx then
    match s.checkGroup path (idx - 0x3000) sub len v with
    | some st => (s, some st)
    | none => (s.startBcast { path := path, tag := tag, gg := idx - 0x3000, sub := sub, len := len, value := v }, none)
  else
    let r := s.odWrite path false idx sub len v x
    (r.1, some r.2)

/-- A write command of a path: nothing happens while the dictionary is not served to it. -/
def State.access (s : State) (path idx sub len v : Nat) (x : Seg) : State :=
  if !(s.pathUp path) then s
  else match s.write path none idx sub len v x with
    | (s, none) => s
    | (s, some st) => (s.answer path st true 0 0).thenRestart idx sub v st

/-- What the segment answers to a command that asks nothing of it. -/
def Seg.none : Seg := { ids := [], delay := 0, ring := 0, ok := true, data := [] }

/-! ### The object channel (R331–R335) -/

def State.ackHost (s : State) (m code : Nat) : State :=
  { s with h2b := AMap.put Mbox.zero m ((s.h2bBox m).take_ code) s.h2b }

/-- A request as byte fields. -/
def State.reqField (s : State) (o n : Nat) : Nat := field (s.h2bBox 0).msg (8 * o) (8 * n)

/-- The response of a read in Barista-to-host mailbox 0. -/
def State.respond (s : State) (st len v : Nat) : State :=
  s.toHost 0 (word [(0, st), (32, s.reqField 4 2), (64, len), (128, v % 2 ^ 384)])

/-- Is the request malformed? -/
def State.badRequest (s : State) : Bool :=
  let op := s.reqField 0 1
  let len := s.reqField 8 4
  let o := s.reqField 12 4
  !(within op 1 4) || s.reqField 6 2 != 0 || decide (65536 < len) || (op == 2 && decide (48 < len))
    || (decide (3 ≤ op) && !(o % 64 == 0 && hubRange o len))

/-- A request of the object channel with op `op` is taken, performed and acknowledged. -/
def State.objectRequest (s : State) (op : Nat) (x : Seg) : State :=
  let code := s.reqField 0 1
  let mine := code == op || (op == 1 && !(within code 1 4))
  if !(s.dictUp) || !((s.h2bBox 0).full) || !mine then s
  else if s.badRequest then (s.ackHost 0 0x03C5).answer 0 0x03C5 false 0 0
  else
    let sub := s.reqField 1 1
    let idx := s.reqField 2 2
    let len := s.reqField 8 4
    let o := s.reqField 12 4
    if op = 1 ∨ op = 3 then
      let (st, n, v) := s.odRead 0 idx sub
      if op = 1 ∧ 48 < n then (s.ackHost 0 0x03C5).answer 0 0x03C5 false 0 0
      else
        let st := if op = 3 ∧ st = 0 ∧ len < n then 0x03D5 else st
        let n := if st = 0 then n else 0
        let s := if op = 3 ∧ st = 0 then s.wrHub o n v else s
        let s := s.respond st n (if op = 1 ∧ st = 0 then v else 0)
        (s.ackHost 0 st).answer 0 st false n (if st = 0 then v else 0)
    else
      let v := if op = 2 then s.reqField 16 48 % 2 ^ (8 * len) else s.rdHub o len
      match s.write 0 (some (s.reqField 4 2)) idx sub len v x with
      | (s, none) => s
      | (s, some st) => ((s.ackHost 0 st).answer 0 st true 0 0).thenRestart idx sub v st

/-- RESERVED_MAILBOX_MESSAGE: mailbox `m` is taken with 0x03C4. -/
def State.reservedBox (s : State) (m : Nat) : State :=
  if s.alive ∧ s.md.barista = 0 ∧ ¬ s.md.bootMode ∧ within m 1 63 ∧ (s.h2bBox m).full then s.ackHost m 0x03C4 else s

/-- BROADCAST_COMPLETE: the group write is answered on its path. -/
def State.bcastDone (s : State) (x : Seg) : State :=
  match s.md.bcast with
  | none => s
  | some b =>
    if s.md.barista ≠ 0 then s
    else
      let r := s.runBcast b x
      let s := match b.tag with | some _ => r.1.ackHost 0 r.2 | none => r.1
      s.answer b.path r.2 true 0 0

/-! ### SDOs and the process image on the supervisor segment (R360–R363) -/

/-- SDO_UPLOAD; `ca` asks for complete access, which is not supported. -/
def State.sdoUpload (s : State) (idx sub : Nat) (ca : Bool) : State :=
  if !(s.pathUp 1) then s
  else if ca then { s with md := { s.md with sdo := { s.md.sdo with abort := 0x06010000, len := 0, value := 0 } } }
  else
    let (st, n, v) := s.odRead 1 idx sub
    s.answer 1 st false n v

/-- GROUP_READ: the members' common value, or 0x03D6 (R357). -/
def State.groupRead (s : State) (path gg ss : Nat) : State :=
  if !(s.pathUp path) ∨ 256 ≤ gg then s
  else
    let (st, n, v) := s.odRead path (0x3000 + gg) ss
    s.answer path st false n v

/-- SDO_DOWNLOAD. -/
def State.sdoDownload (s : State) (idx sub len v : Nat) (ca : Bool) (x : Seg) : State :=
  if !(s.pathUp 1) then s
  else if ca ∨ 65536 < len then { s with md := { s.md with sdo := { s.md.sdo with abort := 0x06010000, len := 0, value := 0 } } }
  else match s.write 1 none idx sub len v x with
    | (s, none) => s
    | (s, some st) => (s.answer 1 st true 0 0).thenRestart idx sub v st

/-- AL_STATE_REQUEST: the orders of ETG.1000.6 (R361). -/
def alLegal (a b : Nat) : Bool :=
  a == b || (a == 1 && b == 2) || (a == 2 && (b == 1 || b == 4)) || (a == 4 && (b == 1 || b == 2 || b == 8))
    || (a == 8 && (b == 1 || b == 2 || b == 4))

def State.alRequest (s : State) (r : Nat) : State :=
  if ¬ s.alive ∨ s.md.st < 3 ∨ s.md.bootMode then s
  else if alLegal s.md.al r then
    { s with md := { s.md with al := r, alCode := 0, rxFull := if r = 8 ∧ s.md.al ≠ 8 then true else s.md.rxFull } }
  else { s with md := { s.md with alCode := 0x0011 } }

/-- SM2_WATCHDOG_EXPIRY. -/
def State.sm2Expiry (s : State) : State :=
  if s.md.al ≠ 8 then s
  else
    let s := { s with md := { s.md with al := 4, alCode := 0x001B } }
    (s.bumpOd 0x2002 6).notice 4 0 0 (toBytes 1 2 ++ toBytes 1 0xFF ++ toBytes 1 0xFF ++ toBytes 1 4 ++ toBytes 2 0x001B)

/-- One entry of the outputs: applied as a supervisor write where it is due; answers whether it was applied. -/
def State.applyRx (s : State) (due : Bool) (idx sub len v : Nat) : State × Bool :=
  if due then
    let r := s.odWrite 1 true idx sub len v Seg.none
    (r.1, decide (stClass r.2 ≤ 2))
  else (s, false)

/-- SUPERVISOR_OUTPUT_FRAME: life count and Decaf hold of a frame with a valid SM2 update (R362). -/
def State.outputFrame (s : State) (valid : Bool) (life hold : Nat) : State :=
  if ¬ s.dictUp ∨ s.md.al ≠ 8 ∨ !valid then s
  else
    let all := s.md.rxFull
    let life := life % 65536
    let hold := hold % 256
    let (s, a) := s.applyRx (all || life != s.md.rxLife) 0x2002 1 2 life
    let s := if a then { s with md := { s.md with rxLife := life } } else s
    let (s, b) := s.applyRx (all || hold != s.md.rxHold) 0x2000 0x0B 1 hold
    let s := if b then { s with md := { s.md with rxHold := hold } } else s
    { s with md := { s.md with rxFull := false } }

/-- SUPERVISOR_PORT_LINK_CHANGE. -/
def State.portChange (s : State) (b down : Bool) : State :=
  { s with md := if b then { s.md with portB := down } else { s.md with portA := down } }

end Sys2Proof.Machine
end

