-- ==== Sys2Proof/Machine/Port.lean ====
section
/-! DEFINITION. The host port: bursts by region, doorbell and staging slots, mailboxes, mode registers, training and idle
notices (R310–R337). -/

namespace Sys2Proof.Machine

/-! ### Addresses (R311, R318) -/

/-- The channel offset of a burst of `n` bytes: the row recorded for the bank, the bank, and the first column. -/
def State.offset (s : State) (ch bank col n : Nat) : Nat :=
  AMap.getD (bank % 16) 0 (s.chan ch).rows % 131072 * 32768 + bank % 16 * 2048 + col % 2048 / n * n

/-- Bursts are of 32 or 64 bytes (Table 13-1). -/
def burstLen (n : Nat) : Nat := if n = 64 then 64 else 32

def State.burstOff (s : State) (b : Burst) : Nat := s.offset b.ch b.bank b.col (burstLen b.n)

/-- ACT-1 and ACT-2. -/
def State.activate (s : State) (ch bank row : Nat) : State :=
  if !(s.alive) ∨ 4 ≤ ch then s
  else s.setChan ch { s.chan ch with rows := AMap.put 0 (bank % 16) (row % 131072) (s.chan ch).rows }

/-- Is byte `i` of a burst written: inside it, and not masked out? -/
def burstWrites (b : Burst) (i : Nat) : Bool := decide (i < b.n) && !(b.mask.testBit i)

/-- Byte `i` of a burst. -/
def burstByte (b : Burst) (i : Nat) : Nat := field b.data (8 * i) 8

/-! ### Writes by region -/

/-- A write to the status region: HP_RESET acts, anything else is discarded (R320, R336). -/
def State.statusWrite (s : State) (o : Nat) (b : Burst) : State :=
  if !b.ecc && o == 0x100 && (List.range 4).all (burstWrites b) then s.hpReset (b.data % 2 ^ 32) else s.discardWrite b.ch

/-- The host takes the message of Barista-to-host mailbox `m` with a return code; false where none waits. -/
def State.hostTake (s : State) (m code : Nat) : State × Bool :=
  let b := s.b2hBox m
  if b.full then ({ s with b2h := AMap.put Mbox.zero m (b.take_ code) s.b2h }, true) else (s, false)

/-- A write to the mailbox region (Table 13-10, R331–R333). -/
def State.mailboxWrite (s : State) (o : Nat) (b : Burst) : State :=
  if b.ecc then s.discardWrite b.ch
  else if o < 0x100400 then
    if b.n = 64 ∧ b.mask % 2 ^ 64 = 0 then
      let m := (o - 0x100000) / 64 * 4 + b.ch
      let x := s.h2bBox m
      ({ s with h2b := AMap.put Mbox.zero m (x.write (b.data % 2 ^ 512)) s.h2b }).countColl x.full
    else s.discardWrite b.ch
  else if 0x103000 ≤ o ∧ o < 0x103100 then
    let r := (List.range (b.n / 16)).foldl (fun (r : State × Bool) k =>
      if burstWrites b (16 * k) && burstWrites b (16 * k + 1) then
        let t := r.1.hostTake (((o - 0x103000) / 16 + k) * 4 + b.ch) (burstByte b (16 * k) + 256 * burstByte b (16 * k + 1))
        (t.1, r.2 || t.2)
      else r) (s, false)
    if r.2 then r.1 else s.discardWrite b.ch
  else s.discardWrite b.ch

/-- The key under which the bytes last written to a staging request slot are held. -/
def slotKey (a : Nat) : Nat := 0x060000100000 + a

/-- A slot's 64 bytes after a burst at byte `at_` of it. -/
def slotBytes (old at_ : Nat) (b : Burst) : Nat :=
  (List.range b.n).foldl (fun w i => if burstWrites b i then setField w (8 * (at_ + i)) 8 (burstByte b i) else w) old

/-- A write to the doorbell and staging slots (R321, R322, R324, R326). A burst that covers none of bytes 0–3 of a staging
slot lays down its bytes and starts nothing. -/
def State.slotWrite (s : State) (o : Nat) (b : Burst) : State :=
  let rel := o - 0x200000
  let head := rel % 64 == 0
  let some_ := head && (List.range 4).any (burstWrites b)
  let all_ := head && (List.range 4).all (burstWrites b)
  if 0x40400 ≤ rel then s.discardWrite b.ch
  else if s.md.bootMode ∨ s.md.st < 6 ∨ b.ecc = true ∨ (some_ = true ∧ all_ = false) then s.dropSlot b.ch
  else if rel < 0x40000 then (if all_ then s.forward (rel / 64 * 4 + b.ch) (b.data % 2 ^ 32) else s)
  else
    let a := (rel - 0x40000) / 64 * 4 + b.ch
    let w := slotBytes (s.reg (slotKey a)) (rel % 64) b
    if !all_ then s.setReg (slotKey a) w
    else if w % 2 ^ 32 ≠ ((s.aper a).request + 1) % 2 ^ 32 then s.dropSlot b.ch
    else (s.setReg (slotKey a) w).stageRequest a w

/-- A write to the command-ring window (R325); the image area is closed until Cores is complete (R451). -/
def State.windowWrite (s : State) (o : Nat) (b : Burst) : State :=
  let w := s.cmdW b.ch o
  if b.ecc ∨ 0x1800000 ≤ w ∨ (0x800000 ≤ w ∧ s.md.st < 7) then s.discardWrite b.ch
  else (List.range b.n).foldl (fun s i => if burstWrites b i then s.wrByte (hub (w + i)) (BitVec.ofNat 8 (burstByte b i)) else s) s

/-- A write to the staging region. -/
def State.stagingWrite (s : State) (o : Nat) (b : Burst) : State :=
  let y := s.stageY b.ch o
  if y / apWindow < 64 then s.apWrite (y / apWindow) (y % apWindow) b else s.discardWrite b.ch

/-- The region of a channel offset (Table 13-5): 0 status, 1 mailboxes, 2 slots, 3 command ring, 4 staging, 5 unmapped. -/
def regionOf (o : Nat) : Nat :=
  if o < 0x100000 then 0 else if o < 0x200000 then 1 else if o < 0x300000 then 2
  else if 0x1000000 ≤ o ∧ o < 0x10000000 then 3 else if 0x40000000 ≤ o ∧ o < 0x100000000 then 4 else 5

/-- A host WRITE burst. Link ECC rejects or corrects only where it is on (log entry 83). -/
def State.hostWrite (s : State) (b : Burst) : State :=
  if !(s.alive) ∨ 4 ≤ b.ch then s
  else
    let on := (s.chan b.ch).wecc
    let o := s.burstOff b
    let b := { b with n := burstLen b.n, ecc := b.ecc && on }
    let s := if on && b.fixed && !b.ecc then (s.bumpReg (hpc b.ch 0x50)).bumpOd 0x2500 8 else s
    match regionOf o with
    | 0 => s.statusWrite o b
    | 1 => if s.md.bootMode then s.discardWrite b.ch else s.mailboxWrite o b
    | 2 => s.slotWrite o b
    | 3 => if s.md.bootMode then s.discardWrite b.ch else s.windowWrite o b
    | 4 => s.stagingWrite o b
    | _ => s.discardWrite b.ch

/-- A burst that a named command requires to lie in what `p` says of its channel offset. -/
def State.burstIn (s : State) (p : Nat → Bool) (b : Burst) : State := if p (s.burstOff b) then s.hostWrite b else s

def inDoorbells (o : Nat) : Bool := decide (0x200000 ≤ o ∧ o < 0x240000)
def inH2b (o : Nat) : Bool := decide (0x100000 ≤ o ∧ o < 0x100400)
def inAcks (o : Nat) : Bool := decide (0x103000 ≤ o ∧ o < 0x103100)

/-- A staging request slot written with op `op` (Table 13-8). -/
def State.stagingOp (s : State) (op : Nat) (b : Burst) : State :=
  let o := s.burstOff b
  if 0x240000 ≤ o ∧ o < 0x240400 ∧ o % 64 = 0
      ∧ field (slotBytes (s.reg (slotKey ((o - 0x240000) / 64 * 4 + b.ch))) 0 { b with n := burstLen b.n }) 32 8 = op
  then s.hostWrite b else s

/-- HP_RESET written with code `v`. -/
def State.resetCode (s : State) (v : Nat) (b : Burst) : State :=
  if s.burstOff b = 0x100 ∧ b.data % 2 ^ 32 = v then s.hostWrite b else s

/-! ### Reads (R312, R317, R320, R323, R328) -/

/-- The poison pattern over `n` bytes. -/
def poisonWord (n : Nat) : Nat := word ((List.range (n / 4)).map (fun i => (32 * i, 0xD0A5D0A5)))

/-- An acknowledge register (Table 13-11). -/
def Mbox.ack (m : Mbox) : Nat :=
  word [(0, m.code), (16, m.taken), (32, m.written), (48, m.coll), (64, b2n m.full + 2 * b2n m.lastOver)]

/-- A read of the status region: eight bytes at a time; what Table 13-6 does not list has no stated value (free). -/
def State.statusRead (s : State) (ch o n : Nat) : State × Nat :=
  let (k, s) := s.draw
  let v := word ((List.range (n / 8)).map (fun i => (64 * i, (s.hpReg ch (o + 8 * i)).getD (Config.free k i % 2 ^ 64) % 2 ^ 64)))
  ((List.range (n / 8)).foldl (fun s i =>
    if [0x40, 0x48, 0x50, 0x58, 0x60].contains (o + 8 * i) then s.setReg (hpc ch (o + 8 * i)) 0 else s) s, v)

/-- The mailbox region as read; none where nothing is mapped. -/
def State.mailboxRead (s : State) (ch o n : Nat) : Option Nat :=
  let part (x i : Nat) : Nat := field x (8 * i) (8 * n)
  let acks (f : Nat → Mbox) (i : Nat) : Nat := word ((List.range (n / 16)).map (fun k => (128 * k, (f ((i + k) * 4 + ch)).ack)))
  if o < 0x100400 then some (part (s.h2bBox ((o - 0x100000) / 64 * 4 + ch)).msg (o % 64))
  else if 0x101000 ≤ o ∧ o < 0x101400 then some (part (s.b2hBox ((o - 0x101000) / 64 * 4 + ch)).msg (o % 64))
  else if 0x102000 ≤ o ∧ o < 0x102100 then some (acks s.h2bBox ((o - 0x102000) / 16))
  else if 0x103000 ≤ o ∧ o < 0x103100 then some (acks s.b2hBox ((o - 0x103000) / 16))
  else none

/-- The doorbell and staging slots as read (R323). -/
def State.slotRd (s : State) (ch o n : Nat) : Option Nat :=
  let rel := o - 0x200000
  let part (x : Nat) : Nat := field x (8 * (rel % 64)) (8 * n)
  if rel < 0x40000 then
    let x := s.ctx (rel / 64 * 4 + ch)
    some (part (word [(0, x.prod), (32, x.cons), (64, ctxCode x.st)]))
  else if rel < 0x40400 then some (part (s.aper ((rel - 0x40000) / 64 * 4 + ch)).request)
  else none

/-- A staging window as read: object bytes below the limit of a ready read; beyond it a burst's bytes are free. -/
def State.stagingRead (s : State) (ch o n : Nat) : State × Option Nat :=
  let y := s.stageY ch o
  let v := y % apWindow
  let x := s.aper (y / apWindow)
  if y / apWindow < 64 ∧ x.st = 2 ∧ x.ready ∧ v < x.limit then
    let (k, s) := s.draw
    (s, some (ofBytes ((List.range n).map (fun i =>
      if v + i < x.limit then cellGet 0 (v + i) x.data else BitVec.ofNat 8 (Config.free k i)))))
  else (s, none)

/-- A host READ burst: what it returns is left in the channel's `out`. -/
def State.hostRead (s : State) (ch bank col n : Nat) : State :=
  if !(s.alive) ∨ 4 ≤ ch then s
  else
    let n := burstLen n
    let o := s.offset ch bank col n
    let r : State × Option Nat := match regionOf o with
      | 0 => let t := s.statusRead ch o n; (t.1, some t.2)
      | 1 => (s, if s.md.bootMode then none else s.mailboxRead ch o n)
      | 2 => (s, if s.md.bootMode then none else s.slotRd ch o n)
      | 3 =>
        let w := s.cmdW ch o
        (s, if s.md.bootMode ∨ 0x1800000 ≤ w then none else some (s.rdHub w n))
      | 4 => s.stagingRead ch o n
      | _ => (s, none)
    let s := if r.2.isNone then (r.1.bumpReg (hpc ch 0x40)).bumpOd 0x2500 4 else r.1
    s.setChan ch { s.chan ch with out := r.2.getD (poisonWord n), outLen := n }

/-! ### Mode registers, training, idle notices (R312–R315) -/

/-- The mode registers that JESD209-5B defines, as far as this model takes them (log entry 84). -/
def mrDefined (m : Nat) : Bool := decide (m ≤ 46)

/-- Mode registers that no write changes: features, refresh rate, identification, density; the decision feedback
equaliser's register reads zero (Tables 13-3, 13-4). -/
def mrFixed (m : Nat) : Bool := [0, 4, 5, 6, 7, 8, 24].contains m

/-- A mode register's value. -/
def Chan.mr (c : Chan) (m : Nat) : Nat :=
  if m = 5 then 0xD5 else if m = 6 then 0xB1 else if m = 7 then 0x01 else if m = 24 then 0
  else if m = 0 ∨ m = 4 ∨ m = 8 then Config.modeRegister m % 256
  else if mrDefined m then AMap.getD m 0 c.mrs % 256 else 0

/-- The frequency set point in use, by mode register 16 OP[3:2] of JESD209-5B (log entry 82). -/
def Chan.setPoint (c : Chan) : Nat := field (AMap.getD 16 0 c.mrs) 2 2

/-- The data rate shown follows the set point in use. -/
def Chan.refit (c : Chan) : Chan := { c with rate := AMap.getD c.setPoint 0 c.rates }

/-- MRW; `ps` is the read latency, in ps, that the value selects at the channel's data rate. -/
def State.modeWrite (s : State) (ch m v ps : Nat) : State :=
  if !(s.alive) ∨ 4 ≤ ch ∨ mrFixed m ∨ !(mrDefined m) ∨ ((m = 1 ∨ m = 2) ∧ ps < 12000) then s
  else
    let c := { s.chan ch with mrs := AMap.put 0 m (v % 256) (s.chan ch).mrs }
    s.setChan ch (if m = 16 then c.refit else c)

/-- MRR. -/
def State.modeRead (s : State) (ch m : Nat) : State :=
  if !(s.alive) ∨ 4 ≤ ch then s else s.setChan ch { s.chan ch with out := (s.chan ch).mr m, outLen := 1 }

/-- A command that the port accepts without an effect on the module (Table 13-2). -/
def State.accept (s : State) (_ch _what : Nat) : State := s

/-- SRE or DSM entry: an idle notice. -/
def State.idleEntry (s : State) (ch : Nat) : State :=
  if !(s.alive) ∨ 4 ≤ ch then s
  else ((s.setChan ch { s.chan ch with idle := true }).bumpReg (hpc ch 0x60)).bumpOd 0x2500 7

/-- SRX or DSM exit. -/
def State.idleExit (s : State) (ch : Nat) : State :=
  if !(s.alive) ∨ 4 ≤ ch then s else s.setChan ch { s.chan ch with idle := false }

/-- CHANNEL_TRAINING in a mode of Table 13-3 (0 command bus, 1 WCK levelling, 2 read calibration, 3 write training, else
accepted and fixed at nominal), at set point `fsp` with a data rate in MT/s. -/
def State.train (s : State) (ch mode fsp rate : Nat) : State :=
  if !(s.alive) ∨ 4 ≤ ch ∨ rate < 533 ∨ 8533 < rate ∨ 2 ≤ fsp then s
  else
    let c := s.chan ch
    let c := { c with rates := AMap.put 0 fsp rate c.rates, calib := if mode < 4 then c.calib ||| 2 ^ mode else c.calib,
                      trained := c.trained || mode == 3 }
    s.setChan ch c.refit

/-- HOST_CHANNEL_RESET: training, mode registers and set point are lost. -/
def State.channelReset (s : State) (ch : Nat) : State :=
  if !(s.alive) ∨ 4 ≤ ch then s
  else s.setChan ch { Chan.zero with rows := (s.chan ch).rows, idle := (s.chan ch).idle, out := (s.chan ch).out,
                                     outLen := (s.chan ch).outLen }

/-- The key of what the last read of a block register over the fabric returned. -/
def keyRead : Nat := 0x050000000028

/-- RC_COUNTER_READ: a register that a read clears, at module address `a`; for the host port, that of channel `ch`. -/
def State.rcRead (s : State) (a ch : Nat) : State :=
  if !(s.alive) ∨ !(isRC a) then s
  else if a / 0x10000 * 0x10000 = baseHP then
    if ch < 4 then
      let v := s.reg (hpc ch (a % 0x10000))
      (s.setChan ch { s.chan ch with out := v, outLen := 8 }).setReg (hpc ch (a % 0x10000)) 0
    else s
  else (s.setReg keyRead (s.regVal a)).readRC a

end Sys2Proof.Machine
end

