-- ==== Sys2Proof/Machine/Run.lean ====
section
/-! DEFINITION. How a placed descriptor's operation runs: what every operation shares (R88, R282, R283), the ends of
spills and background eviction (R280, R281), and reads of register pages. -/

namespace Sys2Proof.Machine

/-- Descriptor `id`, if it runs operation `op` and has no result yet. -/
def State.opOn (s : State) (id op : Nat) : Option Desc :=
  match s.desc? id with
  | some d => if d.st = .running ∧ d.result.isNone ∧ d.op = op then some d else none
  | none => none

/-- Does a descriptor read a byte whose error is on record (R283)? -/
def State.meetsError (s : State) (d : Desc) : Bool :=
  ((s.rngsOf d).filter (fun r => !r.wr)).any (fun r => s.errIn r.a r.n)

/-- The registers of a descriptor's read ranges. -/
def State.regReads (s : State) (d : Desc) : List Nat :=
  ((s.rngsOf d).filter (fun r => !r.wr && isRegSpace r.a)).flatMap (fun r =>
    (List.range (r.n / 8 + 1)).map (fun i => r.a / 8 * 8 + 8 * i))

/-- Lay the registers that a descriptor reads where its loads find them. -/
def State.showRegs (s : State) (d : Desc) : State := if (s.regReads d).isEmpty then s else s.syncRegs

/-- An operation's reads clear what a read clears (R320). -/
def State.clearReads (s : State) (d : Desc) : State := (s.regReads d).foldl (fun s a => s.readRC a) s

/-- How a descriptor's accesses end it before its operation has its effect: at an address whose grant is revoked (R20), or at
a recorded error (R283). -/
def State.stopOf (s : State) (d : Desc) : Option Nat :=
  if s.revoked d then some 0x0540 else if s.meetsError d then some 0x05A0 else none

/-- Run operation `op` of descriptor `id`: its accesses end it, or it has its effects, status and flags. -/
def State.runOp (s : State) (id op : Nat) (p : Desc → Bool) (f : State → Desc → State × Nat × Nat) : State :=
  match s.opOn id op with
  | none => s
  | some d =>
    if !(p d) then s
    else match s.stopOf d with
      | some st => s.endDesc id st 0x09
      | none =>
        let r := f (s.showRegs d) d
        (r.1.clearReads d).finish id r.2.1 r.2.2

/-- A request waits for an on-demand spill: the delay counts under reason 0x0A (R281). `stopAt` holds when it began. -/
def State.spillWait (s : State) (id : Nat) : State :=
  s.updDesc id (fun d => if d.stopAt = 0 then { d with stopAt := s.dspTime d.die + 1, waited := true } else d)

def State.spillWaited (s : State) (id : Nat) : State :=
  s.updDesc id (fun d => if d.stopAt = 0 then d else
    { d with stopAt := 0, delays := AMap.put 0 0x0A (AMap.getD 0x0A 0 d.delays + (s.dspTime d.die + 1 - d.stopAt)) d.delays })

/-- Run a Carafe operation of descriptor `id`. `spills` says that a wait is for a spill, not for a stream's move. -/
def State.runCar (s : State) (id op : Nat) (p : Desc → Bool) (spills : Bool) (f : State → Desc → CRes) : State :=
  match s.opOn id op with
  | none => s
  | some d =>
    if !(p d) then s
    else match s.stopOf d with
      | some st => s.endDesc id st 0x09
      | none =>
        match f (s.showRegs d) d with
        | .done t st => ((if spills then t.spillWaited id else t).clearReads d).finish id st 0
        | .wait t => if spills then t.spillWait id else t

/-- Run a clearance operation, which sets its own result. -/
def State.runCle (s : State) (id op : Nat) (p : Desc → Bool) (f : State → Desc → State) : State :=
  match s.opOn id op with
  | none => s
  | some d =>
    if !(p d) then s
    else match s.stopOf d with
      | some st => s.endDesc id st 0x09
      | none => (f (s.showRegs d) d).clearReads d

/-- CACHE_APPEND: the list entries it writes at completion must be granted; otherwise its store ends it 0x0540 (R20). -/
def State.cacheAppend (s : State) (id : Nat) : State :=
  match s.opOn id 0x0110 with
  | none => s
  | some d =>
    let g := appGeom d
    let v := d.aux.getD 1 0
    let n := ceilDiv (d.f 48 4 + d.f 52 4) g.pt - v
    if !(appRefill d) && !((List.range g.groups).all (fun q =>
        s.grantedFor d ⟨plSlot (d.f 36 6) (d.tbl.headD 0) q v, 4 * n, true, false⟩)) then s.endDesc id 0x0540 0x09
    else s.runOp id 0x0110 (fun d => !(appRefill d)) appendRun

/-- CACHE_REFILL: the first refill write takes the backing it needs; it waits where an on-demand spill may free room (R281),
and faults 0x0545 where none can (R136). -/
def State.cacheRefill (s : State) (id : Nat) : State :=
  match s.opOn id 0x0110 with
  | none => s
  | some d =>
    if !(appRefill d) then s
    else match s.stopOf d with
      | some st => s.endDesc id st 0x09
      | none =>
        match refillBack d.pages s with
        | (0, t) => (t.spillWaited id).runOp id 0x0110 appRefill refillRun
        | (n, t) =>
          match t.pageSpill d.ctx 4 n with
          | some u => u.spillWait id
          | none => t.endDesc id 0x0545 0x09

/-- The sub-operation of a control descriptor: byte `o` is `v`. -/
def subOp (o v : Nat) (d : Desc) : Bool := d.f o 1 == v

/-- Every descriptor of an opcode. -/
def anyDesc (_ : Desc) : Bool := true

/-- HALO_FLAG_WAIT_END: a wait for row flags ends after `ns`; over 100 µs it is counted and noticed (R98, R99). -/
def State.haloWait (s : State) (id ns : Nat) : State :=
  match s.opOn id 0x0030 with
  | none => s
  | some d =>
    if d.f 53 1 % 2 = 1 ∧ 100000 < ns then (s.bumpOd (0x4200 + d.die) 0x20).updDesc id (fun d => { d with stage := 1 }) else s

/-! ### Spills and background eviction (R280, R281, R284) -/

/-- The oldest request that waits for a spill. -/
def State.spillWaiter (s : State) : Option Nat :=
  (s.descs.find? (fun p => p.2.result.isNone
    && (decide (p.2.st = .running ∧ p.2.stopAt ≠ 0) && [0x0110, 0x0120, 0x0200, 0x0500].contains p.2.op
      || decide (p.2.st = .waiting) && p.2.reason == 0x0A))).map (fun p => p.1)

/-- SPILL_COMPLETE: the spill of object `h` ends; `bad` marks a program failure. -/
def State.spillComplete (s : State) (h : Nat) (bad : Bool) : State :=
  match s.spills.find? (fun p => p.obj == h) with
  | none => s
  | some sp =>
    let s := { s with spills := s.spills.filter (fun p => p.obj != h) }
    let o := s.obj h
    if bad then
      let s := s.suspectAt o.addr true
      match (if sp.trigger = 1 then s.spillWaiter else none) with
      | some id => s.endDesc id 0x05A6 0x09
      | none => s.countTier o.die 0x05A6
    else
      let (k, s) := s.draw
      let n := storedBytes o.comp k o.size
      let lo := coldBase + h * coldSpan
      let s := { s with mem := cellPaste 0 lo (s.slice o.addr o.size) (cellClear lo o.size s.mem) }
      let s := (s.setObj h { o with stored := n }).evictObj h sp.trigger true
      ((s.bumpReg (baseCAR + 0x18) n).bumpReg (baseCAR + 0x28) n).bumpOd 0x2400 0x0A

/-- Start background spills until what they free reaches `goal`. -/
def bgSpill (goal : Nat) : Nat → State → State
  | 0, s => s
  | n + 1, s =>
    if goal ≤ s.poolFree + s.spillFoot 4 then s
    else match s.pass3 4 with
      | some h => bgSpill goal n { s with spills := s.spills ++ [{ obj := h, trigger := 2 }] }
      | none => s

/-- BACKGROUND_EVICTION: below the low watermark Carafe evicts until the high watermark. -/
def State.bgEvict (s : State) : State :=
  let goal := s.od 0x2400 6 * mib
  if !(s.alive) ∨ s.md.st < 4 ∨ s.od 0x2400 5 * mib ≤ s.poolFree then s
  else
    let s := evictUntil 4 2 (fun s => decide (goal ≤ s.poolFree)) s.evictFuel s
    bgSpill goal s.evictFuel s

end Sys2Proof.Machine
end

