-- ==== Sys2Proof/Machine/Solve.lean ====
section
/-! DEFINITION. The ends of solver and clearance work by time, and hangs as the ladder meets them (R179, R188, R200, R271,
R401). -/

namespace Sys2Proof.Machine

/-- SOLVER_FACTOR, its two kinds of solve, and QUADRATIC_PROGRAM: the problems finish before the stop instants of their
engines (R179). -/
def State.solve (s : State) (id op : Nat) (p : Desc → Bool) : State :=
  match s.desc? id with
  | some d => if solverInTime s d then s.runOp id op p solverRun else s
  | none => s

/-- SOLVER_STOP_INSTANT. -/
def State.solverStopped (s : State) (id e : Nat) (prog : List StopAt) : State :=
  match s.desc? id with
  | some d => if d.op = 0x0300 ∨ d.op = 0x0310 then solverStop s id d e prog else s
  | none => s

/-- Has the stop instant of a check come? -/
def State.stopDue (s : State) (d : Desc) : Bool := d.stopAt != 0 && decide (d.stopAt ≤ s.dspTime d.die)

/-- PATH_CHECK: the check that the engine runs ends before its stop instant (R188, R198). -/
def State.pathCheck (s : State) (id : Nat) : State :=
  s.runCle id 0x0410 anyDesc (fun s d =>
    if s.runningCheck d.die = some id ∧ s.stopDue d = false then checkRun s id d none else s)

/-- CHECK_STOP_INSTANT: the check that the engine runs ends with `groups` examined in all, one that is suspended or preempted
with what it had examined before, a check that has not begun with nothing (R188, R200, R204). -/
def State.checkStop (s : State) (id groups : Nat) : State :=
  match s.desc? id with
  | none => s
  | some d =>
    if d.op ≠ 0x0410 ∨ d.st = .waiting ∨ d.result.isSome ∨ s.stopDue d = false then s
    else match s.stopOf d with
      | some st => s.endDesc id st 0x09
      | none => checkRun s id d (some (if s.runningCheck d.die = some id then max groups (checkDone d) else checkDone d))

/-- OBJECT_PLACE with `n` entries before a cold read fails (R271). -/
def placeSome (n : Nat) (s : State) (d : Desc) : CRes :=
  match placeRun s d n with
  | .done t st => .done t (if stClass st ≤ 1 ∧ n < d.f 30 2 then 0x05A1 else st)
  | .wait t => .wait t

/-- A reset unit that holds work has made no progress (R401). -/
def State.hangAt (s : State) (e level : Nat) : State :=
  if e < 292 ∧ (s.elemRst e).1 = 0 ∧ (s.runningIn (Desc.onElem e)).any (fun p => p.2.result.isNone) then s.hang e level else s

/-- CORE_WATCHDOG_EXPIRY. -/
def State.hangCore (s : State) (n : Nat) : State := if n < 256 then s.hangAt n 0x05F1 else s

end Sys2Proof.Machine
end

