-- ==== Sys2Proof/Machine/CmdCache.lean ====
section
/-! DEFINITION. The meanings of the commands of attention and the key-value cache. -/

namespace Sys2Proof.Machine

/-- `FUSED_ATTENTION` (R129). -/
def execFusedAttention (id : Nat) (s : State) : Host.Outcome State Fault Refusal :=
  s.done (s.runOp id 0x0100 anyDesc attnRun)

/-- `PARTIAL_MERGE` (R132). -/
def execPartialMerge (id : Nat) (s : State) : Host.Outcome State Fault Refusal :=
  s.done (s.runOp id 0x0108 anyDesc mergeRun)

/-- `CACHE_APPEND` (R135). -/
def execCacheAppend (id : Nat) (s : State) : Host.Outcome State Fault Refusal :=
  s.done (s.cacheAppend id)

/-- `CACHE_REFILL` (R136). -/
def execCacheRefill (id : Nat) (s : State) : Host.Outcome State Fault Refusal :=
  s.done (s.cacheRefill id)

/-- `PAGE_ALLOCATE` (R124). -/
def execPageAllocate (id : Nat) (s : State) : Host.Outcome State Fault Refusal :=
  s.done (s.runCar id 0x0120 (subOp 40 1) true pageAllocRun)

/-- `PAGE_SHARE` (R124). -/
def execPageShare (id : Nat) (s : State) : Host.Outcome State Fault Refusal :=
  s.done (s.runCar id 0x0120 (subOp 40 2) false pageShareRun)

/-- `PAGE_RELEASE` (R124). -/
def execPageRelease (id : Nat) (s : State) : Host.Outcome State Fault Refusal :=
  s.done (s.runCar id 0x0120 (subOp 40 3) false pageReleaseRun)

/-- `PAGE_QUERY` (R124). -/
def execPageQuery (id : Nat) (s : State) : Host.Outcome State Fault Refusal :=
  s.done (s.runCar id 0x0120 (subOp 40 4) false pageQueryRun)

end Sys2Proof.Machine
end

