-- ==== Sys2Proof/Machine/CmdDense.lean ====
section
/-! DEFINITION. The meanings of the commands of the dense operations. -/

namespace Sys2Proof.Machine

/-- `GEMM` (R91). -/
def execGemm (id : Nat) (s : State) : Host.Outcome State Fault Refusal :=
  s.done (s.runOp id 0x0001 anyDesc gemmRun)

/-- `ELEMENTWISE` (R101). -/
def execElementwise (id : Nat) (s : State) : Host.Outcome State Fault Refusal :=
  s.done (s.runOp id 0x0010 anyDesc elementwiseRun)

/-- `NORMALISE` (R104). -/
def execNormalise (id : Nat) (s : State) : Host.Outcome State Fault Refusal :=
  s.done (s.runOp id 0x0018 anyDesc normaliseRun)

/-- `POOL` (R105). -/
def execPool (id : Nat) (s : State) : Host.Outcome State Fault Refusal :=
  s.done (s.runOp id 0x0020 anyDesc poolRun)

/-- `CONVOLUTION_CHAIN` (R93). -/
def execConvolutionChain (id : Nat) (s : State) : Host.Outcome State Fault Refusal :=
  s.done (s.runOp id 0x0030 anyDesc convRun)

/-- `HALO_FLAG_WAIT_END` (R98). -/
def execHaloFlagWaitEnd (id : Nat) (ns : Nat) (s : State) : Host.Outcome State Fault Refusal :=
  s.done (s.haloWait id ns)

/-- `GATHER_ROWS` (R106). -/
def execGatherRows (id : Nat) (s : State) : Host.Outcome State Fault Refusal :=
  s.done (s.runOp id 0x0040 anyDesc gatherRun)

/-- `CHANNEL_ARG_MAX` (R107). -/
def execChannelArgMax (id : Nat) (s : State) : Host.Outcome State Fault Refusal :=
  s.done (s.runOp id 0x0050 anyDesc argMaxRun)

/-- `BOX_DECODE` (R109). -/
def execBoxDecode (id : Nat) (s : State) : Host.Outcome State Fault Refusal :=
  s.done (s.runOp id 0x0058 anyDesc boxRun)

/-- `TOKEN_SAMPLING` (R111). -/
def execTokenSampling (id : Nat) (s : State) : Host.Outcome State Fault Refusal :=
  s.done (s.runOp id 0x0060 anyDesc samplingRun)

/-- `TILE_PACK` (R112). -/
def execTilePack (id : Nat) (s : State) : Host.Outcome State Fault Refusal :=
  s.done (s.runOp id 0x0070 anyDesc packRun)

end Sys2Proof.Machine
end

