-- ==== Sys2Proof/Machine/CmdDict.lean ====
section
/-! DEFINITION. The meanings of the commands of the object dictionary, the object channel and the supervisor segment. -/

namespace Sys2Proof.Machine

/-- `RESERVED_MAILBOX_MESSAGE` (R334). -/
def execReservedMailboxMessage (m : Nat) (s : State) : Host.Outcome State Fault Refusal :=
  s.done (s.reservedBox m)

/-- `OBJECT_CHANNEL_READ` (R335). -/
def execObjectChannelRead (s : State) : Host.Outcome State Fault Refusal :=
  s.done (s.objectRequest 1 Seg.none)

/-- `OBJECT_CHANNEL_WRITE` (R335). -/
def execObjectChannelWrite (x : Seg) (s : State) : Host.Outcome State Fault Refusal :=
  s.done (s.objectRequest 2 x)

/-- `OBJECT_CHANNEL_READ_BUFFER` (R335). -/
def execObjectChannelReadBuffer (s : State) : Host.Outcome State Fault Refusal :=
  s.done (s.objectRequest 3 Seg.none)

/-- `OBJECT_CHANNEL_WRITE_BUFFER` (R335). -/
def execObjectChannelWriteBuffer (x : Seg) (s : State) : Host.Outcome State Fault Refusal :=
  s.done (s.objectRequest 4 x)

/-- `OD_ENTRY_WRITE` (R348). -/
def execOdEntryWrite (path : Nat) (idx : Nat) (sub : Nat) (len : Nat) (v : Nat) (x : Seg)
    (s : State) : Host.Outcome State Fault Refusal :=
  s.done (s.access path idx sub len v x)

/-- `SDO_UPLOAD` (R363). -/
def execSdoUpload (idx : Nat) (sub : Nat) (ca : Bool) (s : State) : Host.Outcome State Fault Refusal :=
  s.done (s.sdoUpload idx sub ca)

/-- `SDO_DOWNLOAD` (R363). -/
def execSdoDownload (idx : Nat) (sub : Nat) (len : Nat) (v : Nat) (ca : Bool) (x : Seg)
    (s : State) : Host.Outcome State Fault Refusal :=
  s.done (s.sdoDownload idx sub len v ca x)

/-- `AL_STATE_REQUEST` (R361). -/
def execAlStateRequest (r : Nat) (s : State) : Host.Outcome State Fault Refusal :=
  s.done (s.alRequest r)

/-- `SM2_WATCHDOG_EXPIRY` (R361). -/
def execSm2WatchdogExpiry (s : State) : Host.Outcome State Fault Refusal :=
  s.done (s.sm2Expiry)

/-- `SUPERVISOR_OUTPUT_FRAME` (R362). -/
def execSupervisorOutputFrame (valid : Bool) (life : Nat) (hold : Nat) (s : State) : Host.Outcome State Fault Refusal :=
  s.done (s.outputFrame valid life hold)

/-- `CLEAR_ERROR_HISTORY` (R365). -/
def execClearErrorHistory (path : Nat) (s : State) : Host.Outcome State Fault Refusal :=
  s.done (s.access path 0x1003 0 1 0 Seg.none)

/-- `RELEASE_CLAIM` (R346). -/
def execReleaseClaim (path : Nat) (v : Nat) (s : State) : Host.Outcome State Fault Refusal :=
  s.done (s.access path 0x2001 1 4 v Seg.none)

/-- `RELEASE_ALL_CLAIMS` (R346). -/
def execReleaseAllClaims (path : Nat) (s : State) : Host.Outcome State Fault Refusal :=
  s.done (s.access path 0x2001 2 1 1 Seg.none)

/-- `MODULE_RESTART` (R352). -/
def execModuleRestart (path : Nat) (s : State) : Host.Outcome State Fault Refusal :=
  s.done (s.access path 0x2000 5 1 1 Seg.none)

/-- `ENTER_DECAF` (R352). -/
def execEnterDecaf (path : Nat) (s : State) : Host.Outcome State Fault Refusal :=
  s.done (s.access path 0x2000 5 1 2 Seg.none)

/-- `LEAVE_DECAF` (R352). -/
def execLeaveDecaf (path : Nat) (s : State) : Host.Outcome State Fault Refusal :=
  s.done (s.access path 0x2000 5 1 3 Seg.none)

/-- `REQUEST_SAFE_HOLD` (R352). -/
def execRequestSafeHold (path : Nat) (s : State) : Host.Outcome State Fault Refusal :=
  s.done (s.access path 0x2000 5 1 4 Seg.none)

/-- `REQUEST_LEAVE_SAFE_HOLD` (R374). -/
def execRequestLeaveSafeHold (path : Nat) (s : State) : Host.Outcome State Fault Refusal :=
  s.done (s.access path 0x2000 5 1 5 Seg.none)

/-- `GROUP_KIND_WRITE` (R354). -/
def execGroupKindWrite (path : Nat) (gg : Nat) (v : Nat) (s : State) : Host.Outcome State Fault Refusal :=
  s.done (s.access path (0x3100 + gg) 1 1 v Seg.none)

/-- `GROUP_WRITE` (R355). -/
def execGroupWrite (path : Nat) (gg : Nat) (ss : Nat) (len : Nat) (v : Nat)
    (s : State) : Host.Outcome State Fault Refusal :=
  s.done (s.access path (0x3000 + gg) ss len v Seg.none)

/-- `GROUP_READ` (R357). -/
def execGroupRead (path : Nat) (gg : Nat) (ss : Nat) (s : State) : Host.Outcome State Fault Refusal :=
  s.done (s.groupRead path gg ss)

/-- `BROADCAST_COMPLETE` (R303). -/
def execBroadcastComplete (x : Seg) (s : State) : Host.Outcome State Fault Refusal :=
  s.done (s.bcastDone x)

/-- `DRAM_INTERLEAVE_WRITE` (R18). -/
def execDramInterleaveWrite (path : Nat) (v : Nat) (s : State) : Host.Outcome State Fault Refusal :=
  s.done (s.access path 0x2000 0x10 1 v Seg.none)

end Sys2Proof.Machine
end

