-- ==== Sys2Proof/Machine/CmdDispatch.lean ====
section
/-! DEFINITION. The meanings of the commands of doorbells, the slot read, placement, records, windows and context commands. -/

namespace Sys2Proof.Machine

/-- `DSP_DOORBELL_WRITE` (R54). -/
def execDspDoorbellWrite (die : Nat) (w : Nat) (s : State) : Host.Outcome State Fault Refusal :=
  s.done (s.dspDoorbell die w)

/-- `DESCRIPTOR_SLOT_READ` (R55). -/
def execDescriptorSlotRead (c : Nat) (bad : Nat) (s : State) : Host.Outcome State Fault Refusal :=
  s.done (s.slotRead c bad)

/-- `NOP` (R58). -/
def execNop (id : Nat) (s : State) : Host.Outcome State Fault Refusal :=
  s.done (s.runOp id 0x0F00 anyDesc (fun s _ => (s, 0, 0)))

/-- `GANG_PLACEMENT` (R66). -/
def execGangPlacement (die : Nat) (s : State) : Host.Outcome State Fault Refusal :=
  s.done (s.place die)

/-- `PREEMPTED_GANG_STOP` (R69). -/
def execPreemptedGangStop (id : Nat) (bytes : Nat) (s : State) : Host.Outcome State Fault Refusal :=
  s.done (s.gangStop id bytes)

/-- `DESCRIPTOR_FINAL_RECORD` (R74). -/
def execDescriptorFinalRecord (id : Nat) (energy : Nat) (s : State) : Host.Outcome State Fault Refusal :=
  s.done (s.finalRecord id energy)

/-- `INTERIM_RECORD` (R75). -/
def execInterimRecord (id : Nat) (s : State) : Host.Outcome State Fault Refusal :=
  s.done (s.interimRecord id)

/-- `DESCRIPTOR_DEADLINE_PASS` (R71). -/
def execDescriptorDeadlinePass (id : Nat) (s : State) : Host.Outcome State Fault Refusal :=
  s.done (s.deadlinePass id)

/-- `QUOTA_PERIOD_START` (R64). -/
def execQuotaPeriodStart (c : Nat) (s : State) : Host.Outcome State Fault Refusal :=
  s.done (s.quotaPeriod c)

/-- `SHARE_WINDOW_START` (R65). -/
def execShareWindowStart (die : Nat) (s : State) : Host.Outcome State Fault Refusal :=
  s.done (s.shareWindow die)

/-- `CONTEXT_OPEN` (R53). -/
def execContextOpen (path : Nat) (s : State) : Host.Outcome State Fault Refusal :=
  s.done (s.access path 0x5000 3 1 1 Seg.none)

/-- `CONTEXT_PAUSE` (R51). -/
def execContextPause (path : Nat) (s : State) : Host.Outcome State Fault Refusal :=
  s.done (s.access path 0x5000 3 1 2 Seg.none)

/-- `CONTEXT_RESUME` (R51). -/
def execContextResume (path : Nat) (s : State) : Host.Outcome State Fault Refusal :=
  s.done (s.access path 0x5000 3 1 3 Seg.none)

/-- `CONTEXT_FLUSH` (R52). -/
def execContextFlush (path : Nat) (s : State) : Host.Outcome State Fault Refusal :=
  s.done (s.access path 0x5000 3 1 4 Seg.none)

/-- `CONTEXT_CLOSE` (R485). -/
def execContextClose (path : Nat) (s : State) : Host.Outcome State Fault Refusal :=
  s.done (s.access path 0x5000 3 1 5 Seg.none)

end Sys2Proof.Machine
end

