-- ==== Sys2Proof/Machine/CmdFabric.lean ====
section
/-! DEFINITION. The meanings of the commands of the fabric, hang detection, reset and recovery. -/

namespace Sys2Proof.Machine

/-- `FABRIC_REQUEST_TIMEOUT` (R401). -/
def execFabricRequestTimeout (id : Nat) (level : Nat) (a : Nat) (s : State) : Host.Outcome State Fault Refusal :=
  s.done (s.requestTimeout id level a)

/-- `TIER_FAULT` (R282). -/
def execTierFault (id : Nat) (a : Nat) (k : Nat) (s : State) : Host.Outcome State Fault Refusal :=
  s.done (s.tierFaultAt id a k)

/-- `FENCE_RESPONSE` (R295). -/
def execFenceResponse (id : Nat) (a : Nat) (s : State) : Host.Outcome State Fault Refusal :=
  s.done (s.fenceResponse id a)

/-- `FLIT_REPLAY` (R298). -/
def execFlitReplay (l : Nat) (same : Bool) (s : State) : Host.Outcome State Fault Refusal :=
  s.done (s.flitReplay l same)

/-- `RECEIVER_LOSS_OF_LOCK` (R299). -/
def execReceiverLossOfLock (l : Nat) (s : State) : Host.Outcome State Fault Refusal :=
  s.done (s.lossOfLock l)

/-- `RETRAIN_COMMAND` (R299). -/
def execRetrainCommand (path : Nat) (d : Nat) (v : Nat) (s : State) : Host.Outcome State Fault Refusal :=
  s.done (s.access path (0x4200 + d) 0x79 1 v Seg.none)

/-- `LINK_RETRAIN_END` (R300). -/
def execLinkRetrainEnd (l : Nat) (f : Nat) (s : State) : Host.Outcome State Fault Refusal :=
  s.done (s.retrainEnd l f)

/-- `ROUTER_ECC_ERROR` (R297). -/
def execRouterEccError (g : Nat) (id : Nat) (corrected : Bool) (s : State) : Host.Outcome State Fault Refusal :=
  s.done (s.routerError g id corrected)

/-- `JOB_ABORT_RECEIVE` (R305). -/
def execJobAbortReceive (d : Nat) (job : Nat) (s : State) : Host.Outcome State Fault Refusal :=
  s.done (s.abortReceive d job)

/-- `JOB_ABORT_RELAY` (R307). -/
def execJobAbortRelay (job : Nat) (s : State) : Host.Outcome State Fault Refusal :=
  s.done (s.abortRelay job)

/-- `ENGINE_PROGRESS_TIMEOUT` (R401). -/
def execEngineProgressTimeout (e : Nat) (s : State) : Host.Outcome State Fault Refusal :=
  s.done (s.hangAt e 0x05F0)

/-- `CORE_WATCHDOG_EXPIRY` (R401). -/
def execCoreWatchdogExpiry (n : Nat) (s : State) : Host.Outcome State Fault Refusal :=
  s.done (s.hangCore n)

/-- `FENCE_DRAIN_END` (R407). -/
def execFenceDrainEnd (e : Nat) (s : State) : Host.Outcome State Fault Refusal :=
  s.done (s.drainEnd e)

/-- `DOMAIN_RESET_END` (R408). -/
def execDomainResetEnd (e : Nat) (s : State) : Host.Outcome State Fault Refusal :=
  s.done (s.resetEnd e)

/-- `RESET_ESCALATION` (R410). -/
def execResetEscalation (e : Nat) (s : State) : Host.Outcome State Fault Refusal :=
  s.done (s.escalate e)

/-- `REPLAY_START` (R411). -/
def execReplayStart (e : Nat) (s : State) : Host.Outcome State Fault Refusal :=
  s.done (s.replayStart e)

/-- `REPLAY_OUTCOME` (R412). -/
def execReplayOutcome (e : Nat) (how : Nat) (energy : Nat) (s : State) : Host.Outcome State Fault Refusal :=
  s.done (s.replayOutcome e how energy)

/-- `REMAP_CLUSTER_RESET` (R415). -/
def execRemapClusterReset (g : Nat) (s : State) : Host.Outcome State Fault Refusal :=
  s.done (s.remapReset g)

/-- `CORE_RESET_COMMAND` (R426). -/
def execCoreResetCommand (path : Nat) (n : Nat) (s : State) : Host.Outcome State Fault Refusal :=
  s.done (s.access path (0x4000 + n) 0x22 1 1 Seg.none)

/-- `CORE_FENCE_PENDING_REMAP` (R414). -/
def execCoreFencePendingRemap (path : Nat) (n : Nat) (s : State) : Host.Outcome State Fault Refusal :=
  s.done (s.access path (0x4000 + n) 0x22 1 2 Seg.none)

/-- `CLUSTER_RESET_COMMAND` (R415). -/
def execClusterResetCommand (path : Nat) (g : Nat) (s : State) : Host.Outcome State Fault Refusal :=
  s.done (s.access path (0x4100 + g) 0x51 1 1 Seg.none)

/-- `DIE_RECOVERY_COMMAND` (R416). -/
def execDieRecoveryCommand (path : Nat) (d : Nat) (s : State) : Host.Outcome State Fault Refusal :=
  s.done (s.access path (0x4200 + d) 0x82 1 1 Seg.none)

/-- `DIE_RECOVERY_END` (R418). -/
def execDieRecoveryEnd (d : Nat) (lanes : List Nat) (bad : List Nat) (s : State) : Host.Outcome State Fault Refusal :=
  s.done (s.recoveryEnd d lanes bad)

/-- `DIE_OUT_OF_SERVICE` (R417). -/
def execDieOutOfService (d : Nat) (status : Nat) (s : State) : Host.Outcome State Fault Refusal :=
  s.done (s.outOfService d status)

/-- `BARISTA_HEARTBEAT_LOSS` (R419). -/
def execBaristaHeartbeatLoss (s : State) : Host.Outcome State Fault Refusal :=
  s.done (s.heartbeatLoss)

/-- `BARISTA_CRASH` (R419). -/
def execBaristaCrash (s : State) : Host.Outcome State Fault Refusal :=
  s.done (s.baristaCrash)

/-- `HUB_UNCORRECTABLE_FAULT` (R419). -/
def execHubUncorrectableFault (s : State) : Host.Outcome State Fault Refusal :=
  s.done (s.hubFault)

/-- `BARISTA_RESTART_COMPLETE` (R419). -/
def execBaristaRestartComplete (s : State) : Host.Outcome State Fault Refusal :=
  s.done (s.baristaUp)

/-- `CLEAR_CRASH_FLAG` (R424). -/
def execClearCrashFlag (path : Nat) (s : State) : Host.Outcome State Fault Refusal :=
  s.done (s.access path 0x2300 0x0B 1 1 Seg.none)

/-- `CORE_MAILBOX_WRITE` (R421). -/
def execCoreMailboxWrite (n : Nat) (w : Nat) (s : State) : Host.Outcome State Fault Refusal :=
  s.done (s.coreMessage n w)

end Sys2Proof.Machine
end

