-- ==== Sys2Proof/Machine/CmdFusion.lean ====
section
/-! DEFINITION. The meanings of the commands of the fusion engine. -/

namespace Sys2Proof.Machine

/-- `CSI2_FRAME_END` (R210). -/
def execCsi2FrameEnd (port : Nat) (vc : Nat) (frame : Nat) (ago : Nat) (bad : Bool) (pkts : List (Nat × List Byte))
    (s : State) : Host.Outcome State Fault Refusal :=
  s.done (s.csiFrame port vc frame ago bad pkts)

/-- `ETHERNET_DATAGRAM` (R213). -/
def execEthernetDatagram (port : Nat) (kind : Nat) (key : Nat) (vlan : Nat) (bad : Bool) (l : List Byte)
    (s : State) : Host.Outcome State Fault Refusal :=
  s.done (s.datagram port kind key vlan bad l)

/-- `IMU_DATA_READY` (R212). -/
def execImuDataReady (port : Nat) (s : State) : Host.Outcome State Fault Refusal :=
  s.done (s.imuReady port)

/-- `IMU_READ_END` (R212). -/
def execImuReadEnd (port : Nat) (l : List Byte) (s : State) : Host.Outcome State Fault Refusal :=
  s.done (s.imuEnd port l)

/-- `TDM_BLOCK_END` (R208). -/
def execTdmBlockEnd (n : Nat) (ago : Nat) (l : List Byte) (s : State) : Host.Outcome State Fault Refusal :=
  s.done (s.tdmEnd n ago l)

/-- `INSTANT_CUT` (R217). -/
def execInstantCut (t : Nat) (s : State) : Host.Outcome State Fault Refusal :=
  s.done (s.instantCut t)

/-- `INSTANT_RELEASE` (R221). -/
def execInstantRelease (t : Nat) (pos : Nat) (s : State) : Host.Outcome State Fault Refusal :=
  s.done (s.instantRelease t pos)

/-- `INSTANT_HOLD_LIMIT` (R221). -/
def execInstantHoldLimit (t : Nat) (pos : Nat) (s : State) : Host.Outcome State Fault Refusal :=
  s.done (s.instantLimit t pos)

/-- `SOURCE_ENABLE` (R235). -/
def execSourceEnable (path : Nat) (n : Nat) (s : State) : Host.Outcome State Fault Refusal :=
  s.done (s.access path (0x2610 + n) 1 1 1 Seg.none)

/-- `SOURCE_DISABLE` (R234). -/
def execSourceDisable (path : Nat) (n : Nat) (s : State) : Host.Outcome State Fault Refusal :=
  s.done (s.access path (0x2610 + n) 1 1 0 Seg.none)

/-- `VOTING_GROUP_ENABLE` (R230). -/
def execVotingGroupEnable (path : Nat) (g : Nat) (s : State) : Host.Outcome State Fault Refusal :=
  s.done (s.access path (0x2660 + g) 1 1 1 Seg.none)

/-- `VOTING_GROUP_DISABLE` (R230). -/
def execVotingGroupDisable (path : Nat) (g : Nat) (s : State) : Host.Outcome State Fault Refusal :=
  s.done (s.access path (0x2660 + g) 1 1 0 Seg.none)

/-- `FUSION_SET_ENABLE` (R217). -/
def execFusionSetEnable (path : Nat) (t : Nat) (s : State) : Host.Outcome State Fault Refusal :=
  s.done (s.access path (0x2670 + t) 1 1 1 Seg.none)

/-- `FUSION_SET_DISABLE` (R235). -/
def execFusionSetDisable (path : Nat) (t : Nat) (s : State) : Host.Outcome State Fault Refusal :=
  s.done (s.access path (0x2670 + t) 1 1 0 Seg.none)

/-- `INERTIAL_SOURCE_WRITE` (R233). -/
def execInertialSourceWrite (path : Nat) (v : Nat) (s : State) : Host.Outcome State Fault Refusal :=
  s.done (s.access path 0x2680 1 1 v Seg.none)

/-- `RESET_POSE` (R231). -/
def execResetPose (path : Nat) (s : State) : Host.Outcome State Fault Refusal :=
  s.done (s.access path 0x2680 9 1 1 Seg.none)

end Sys2Proof.Machine
end

