-- ==== Sys2Proof/Machine/CmdLoop.lean ====
section
/-! DEFINITION. The meanings of the commands of the Espresso loop and the body segment. -/

namespace Sys2Proof.Machine

/-- `CYCLE_TICK` (R239). -/
def execCycleTick (ring : Nat) (s : State) : Host.Outcome State Fault Refusal :=
  s.done (s.cycleTick ring)

/-- `INPUT_FRAME_RETURN` (R242). -/
def execInputFrameReturn (k : Nat) (port : Nat) (wkc : Nat) (good : Bool) (data : List Byte) (e : Nat) (reloc : List Nat)
    (s : State) : Host.Outcome State Fault Refusal :=
  s.done (s.inputReturn k port wkc good data e reloc)

/-- `INPUT_CUTOFF` (R243). -/
def execInputCutoff (e : Nat) (reloc : List Nat) (left : List Nat) (s : State) : Host.Outcome State Fault Refusal :=
  s.done (s.inputCutoff e reloc left)

/-- `SIDE_CYCLE_SUCCESS` (R248). -/
def execSideCycleSuccess (side : Nat) (s : State) : Host.Outcome State Fault Refusal :=
  s.done (s.sideSuccess side)

/-- `LIMIT_CHECK_DONE` (R249). -/
def execLimitCheckDone (s : State) : Host.Outcome State Fault Refusal :=
  s.done (s.limitDone)

/-- `BUDGET_END` (R250). -/
def execBudgetEnd (s : State) : Host.Outcome State Fault Refusal :=
  s.done (s.budgetEnd)

/-- `OUTPUT_FRAME_RETURN` (R243). -/
def execOutputFrameReturn (c : Nat) (wkc : Nat) (s : State) : Host.Outcome State Fault Refusal :=
  s.done (s.outputReturn c wkc)

/-- `STATE_MIRROR` (R253). -/
def execStateMirror (l : List (Nat × Nat × Nat × Nat)) (s : State) : Host.Outcome State Fault Refusal :=
  s.done (s.mirror l)

/-- `ACYCLIC_FRAME` (R239). -/
def execAcyclicFrame (l : List Byte) (back : List Nat) (s : State) : Host.Outcome State Fault Refusal :=
  s.done (s.acyclicFrame l back)

/-- `LOOP_ARM` (R257). -/
def execLoopArm (path : Nat) (x : Seg) (s : State) : Host.Outcome State Fault Refusal :=
  s.done (s.access path 0x2700 2 1 1 x)

/-- `LOOP_START` (R257). -/
def execLoopStart (path : Nat) (s : State) : Host.Outcome State Fault Refusal :=
  s.done (s.access path 0x2700 2 1 2 Seg.none)

/-- `LOOP_STOP` (R257). -/
def execLoopStop (path : Nat) (s : State) : Host.Outcome State Fault Refusal :=
  s.done (s.access path 0x2700 2 1 3 Seg.none)

/-- `LOOP_DISARM` (R257). -/
def execLoopDisarm (path : Nat) (s : State) : Host.Outcome State Fault Refusal :=
  s.done (s.access path 0x2700 2 1 4 Seg.none)

/-- `REJOIN_STANDBY` (R254). -/
def execRejoinStandby (path : Nat) (s : State) : Host.Outcome State Fault Refusal :=
  s.done (s.access path 0x2700 0x26 1 1 Seg.none)

/-- `BATTERY_DECAF_REQUEST` (R256). -/
def execBatteryDecafRequest (s : State) : Host.Outcome State Fault Refusal :=
  s.done (s.batteryDecaf)

/-- `SUBDEVICE_SDO_UPLOAD` (R237). -/
def execSubdeviceSdoUpload (path : Nat) (x : Seg) (s : State) : Host.Outcome State Fault Refusal :=
  s.done (s.access path 0x2701 6 1 1 x)

/-- `SUBDEVICE_SDO_DOWNLOAD` (R237). -/
def execSubdeviceSdoDownload (path : Nat) (x : Seg) (s : State) : Host.Outcome State Fault Refusal :=
  s.done (s.access path 0x2701 6 1 2 x)

/-- `SUBDEVICE_EMERGENCY` (R237). -/
def execSubdeviceEmergency (station : Nat) (msg : Nat) (s : State) : Host.Outcome State Fault Refusal :=
  s.done (s.emergency station msg)

end Sys2Proof.Machine
end

