-- ==== Sys2Proof/Machine/CmdMemory.lean ====
section
/-! DEFINITION. The meanings of the commands of objects, tile copies, eviction and spills. -/

namespace Sys2Proof.Machine

/-- `OBJECT_CREATE` (R269). -/
def execObjectCreate (id : Nat) (s : State) : Host.Outcome State Fault Refusal :=
  s.done (s.runCar id 0x0500 (subOp 32 1) true createRun)

/-- `OBJECT_DESTROY` (R270). -/
def execObjectDestroy (id : Nat) (s : State) : Host.Outcome State Fault Refusal :=
  s.done (s.runCar id 0x0500 (subOp 32 2) false destroyRun)

/-- `OBJECT_QUERY` (R268). -/
def execObjectQuery (id : Nat) (s : State) : Host.Outcome State Fault Refusal :=
  s.done (s.runCar id 0x0500 (subOp 32 3) false queryRun)

/-- `OBJECT_SET_POLICY` (R264). -/
def execObjectSetPolicy (id : Nat) (s : State) : Host.Outcome State Fault Refusal :=
  s.done (s.runCar id 0x0500 (subOp 32 4) false setPolicyRun)

/-- `OBJECT_PLACE` (R271). -/
def execObjectPlace (id : Nat) (n : Nat) (s : State) : Host.Outcome State Fault Refusal :=
  s.done (s.runCar id 0x0500 (subOp 32 5) true (placeSome n))

/-- `OBJECT_PERSIST` (R272). -/
def execObjectPersist (id : Nat) (s : State) : Host.Outcome State Fault Refusal :=
  s.done (s.runCar id 0x0500 (subOp 32 6) false persistRun)

/-- `OPEN_PERSISTENT` (R272). -/
def execOpenPersistent (id : Nat) (s : State) : Host.Outcome State Fault Refusal :=
  s.done (s.runCar id 0x0500 (subOp 32 7) false openPersRun)

/-- `CLEAR_SUSPECT` (R283). -/
def execClearSuspect (id : Nat) (bad : List Nat) (s : State) : Host.Outcome State Fault Refusal :=
  s.done (s.runCar id 0x0500 (subOp 32 8) false (fun s d => clearSuspectRun s d bad))

/-- `DELETE_PERSISTENT` (R272). -/
def execDeletePersistent (id : Nat) (s : State) : Host.Outcome State Fault Refusal :=
  s.done (s.runCar id 0x0500 (subOp 32 9) false deletePersRun)

/-- `TILE_COPY` (R279). -/
def execTileCopy (id : Nat) (s : State) : Host.Outcome State Fault Refusal :=
  s.done (s.runCar id 0x0510 anyDesc false tileCopyRun)

/-- `UNIT_FLASH_READ` (R285). -/
def execUnitFlashRead (id : Nat) (s : State) : Host.Outcome State Fault Refusal :=
  s.done (s.runCar id 0x0530 anyDesc false flashReadRun)

/-- `BACKGROUND_EVICTION` (R280). -/
def execBackgroundEviction (s : State) : Host.Outcome State Fault Refusal :=
  s.done (s.bgEvict)

/-- `SPILL_COMPLETE` (R281). -/
def execSpillComplete (h : Nat) (bad : Bool) (s : State) : Host.Outcome State Fault Refusal :=
  s.done (s.spillComplete h bad)

end Sys2Proof.Machine
end

