-- ==== Sys2Proof/Machine/CmdPort.lean ====
section
/-! DEFINITION. The meanings of the commands of the host port and staging. -/

namespace Sys2Proof.Machine

/-- `HOST_DOORBELL_WRITE` (R322). -/
def execHostDoorbellWrite (b : Burst) (s : State) : Host.Outcome State Fault Refusal :=
  s.done (s.burstIn inDoorbells b)

/-- `HOST_READ_BURST` (R312). -/
def execHostReadBurst (ch : Nat) (bank : Nat) (col : Nat) (n : Nat) (s : State) : Host.Outcome State Fault Refusal :=
  s.done (s.hostRead ch bank col n)

/-- `HOST_WRITE_BURST` (R316). -/
def execHostWriteBurst (b : Burst) (s : State) : Host.Outcome State Fault Refusal :=
  s.done (s.hostWrite b)

/-- `COMMAND_RING_WINDOW_WRITE` (R325). -/
def execCommandRingWindowWrite (b : Burst) (s : State) : Host.Outcome State Fault Refusal :=
  s.done (s.burstIn (fun o => regionOf o == 3) b)

/-- `ACTIVATE` (R311). -/
def execActivate (ch : Nat) (bank : Nat) (row : Nat) (s : State) : Host.Outcome State Fault Refusal :=
  s.done (s.activate ch bank row)

/-- `PRECHARGE` (R310). -/
def execPrecharge (ch : Nat) (bank : Nat) (s : State) : Host.Outcome State Fault Refusal :=
  s.done (s.accept ch bank)

/-- `MODE_REGISTER_WRITE` (R314). -/
def execModeRegisterWrite (ch : Nat) (mr : Nat) (v : Nat) (ps : Nat) (s : State) : Host.Outcome State Fault Refusal :=
  s.done (s.modeWrite ch mr v ps)

/-- `MODE_REGISTER_READ` (R314). -/
def execModeRegisterRead (ch : Nat) (mr : Nat) (s : State) : Host.Outcome State Fault Refusal :=
  s.done (s.modeRead ch mr)

/-- `REFRESH` (R315). -/
def execRefresh (ch : Nat) (kind : Nat) (s : State) : Host.Outcome State Fault Refusal :=
  s.done (s.accept ch kind)

/-- `SELF_REFRESH_ENTRY` (R315). -/
def execSelfRefreshEntry (ch : Nat) (s : State) : Host.Outcome State Fault Refusal :=
  s.done (s.idleEntry ch)

/-- `SELF_REFRESH_EXIT` (R315). -/
def execSelfRefreshExit (ch : Nat) (s : State) : Host.Outcome State Fault Refusal :=
  s.done (s.idleExit ch)

/-- `POWER_DOWN_ENTRY_EXIT` (R310). -/
def execPowerDownEntryExit (ch : Nat) (exit : Bool) (s : State) : Host.Outcome State Fault Refusal :=
  s.done (s.accept ch (b2n exit))

/-- `WCK_SYNC_MPC` (R310). -/
def execWckSyncMpc (ch : Nat) (op : Nat) (s : State) : Host.Outcome State Fault Refusal :=
  s.done (s.accept ch op)

/-- `CHANNEL_TRAINING` (R313). -/
def execChannelTraining (ch : Nat) (mode : Nat) (fsp : Nat) (rate : Nat) (s : State) : Host.Outcome State Fault Refusal :=
  s.done (s.train ch mode fsp rate)

/-- `HOST_CHANNEL_RESET` (R313). -/
def execHostChannelReset (ch : Nat) (s : State) : Host.Outcome State Fault Refusal :=
  s.done (s.channelReset ch)

/-- `HP_RESET_APERTURES` (R336). -/
def execHpResetApertures (b : Burst) (s : State) : Host.Outcome State Fault Refusal :=
  s.done (s.resetCode 0x0000A5C1 b)

/-- `HP_RESET_RESTART` (R336). -/
def execHpResetRestart (b : Burst) (s : State) : Host.Outcome State Fault Refusal :=
  s.done (s.resetCode 0x0000A5C3 b)

/-- `STAGING_READ_REQUEST` (R328). -/
def execStagingReadRequest (b : Burst) (s : State) : Host.Outcome State Fault Refusal :=
  s.done (s.stagingOp 1 b)

/-- `STAGING_WRITE_REQUEST` (R329). -/
def execStagingWriteRequest (b : Burst) (s : State) : Host.Outcome State Fault Refusal :=
  s.done (s.stagingOp 2 b)

/-- `STAGING_RELEASE` (R326). -/
def execStagingRelease (b : Burst) (s : State) : Host.Outcome State Fault Refusal :=
  s.done (s.stagingOp 3 b)

/-- `STAGING_CANCEL` (R326). -/
def execStagingCancel (b : Burst) (s : State) : Host.Outcome State Fault Refusal :=
  s.done (s.stagingOp 4 b)

/-- `STAGING_BLOCKS_GRANTED` (R327). -/
def execStagingBlocksGranted (s : State) : Host.Outcome State Fault Refusal :=
  s.done (s.blocksGranted)

/-- `STAGING_COPY_DONE` (R328). -/
def execStagingCopyDone (a : Nat) (fault : Nat) (s : State) : Host.Outcome State Fault Refusal :=
  s.done (s.copyDone a fault)

/-- `APERTURE_WINDOW_WRITE` (R329). -/
def execApertureWindowWrite (b : Burst) (s : State) : Host.Outcome State Fault Refusal :=
  s.done (s.burstIn (fun o => regionOf o == 4) b)

/-- `STAGING_BLOCK_DRAIN` (R329). -/
def execStagingBlockDrain (a : Nat) (k : Nat) (fault : Nat) (s : State) : Host.Outcome State Fault Refusal :=
  s.done (s.blockDrain a k fault)

/-- `WRITE_IDLE_TIMEOUT` (R330). -/
def execWriteIdleTimeout (a : Nat) (s : State) : Host.Outcome State Fault Refusal :=
  s.done (s.writeIdle a)

/-- `READ_HOLD_TIMEOUT` (R330). -/
def execReadHoldTimeout (a : Nat) (s : State) : Host.Outcome State Fault Refusal :=
  s.done (s.readHold a)

/-- `CHANNEL_INTERLEAVE_WRITE` (R319). -/
def execChannelInterleaveWrite (path : Nat) (v : Nat) (s : State) : Host.Outcome State Fault Refusal :=
  s.done (s.access path 0x2500 1 1 v Seg.none)

/-- `HOST_MAILBOX_MESSAGE_WRITE` (R332). -/
def execHostMailboxMessageWrite (b : Burst) (s : State) : Host.Outcome State Fault Refusal :=
  s.done (s.burstIn inH2b b)

/-- `HOST_MAILBOX_ACKNOWLEDGE` (R332). -/
def execHostMailboxAcknowledge (b : Burst) (s : State) : Host.Outcome State Fault Refusal :=
  s.done (s.burstIn inAcks b)

end Sys2Proof.Machine
end

