-- ==== Sys2Proof/Machine/CmdPower.lean ====
section
/-! DEFINITION. The meanings of the commands of the Governor. -/

namespace Sys2Proof.Machine

/-- `CONTROL_PERIOD` (R431). -/
def execControlPeriod (m : Meas) (s : State) : Host.Outcome State Fault Refusal :=
  s.done (s.controlPeriod m)

/-- `SHEDDING_LIFT` (R436). -/
def execSheddingLift (s : State) : Host.Outcome State Fault Refusal :=
  s.done (s.shedOff)

/-- `THERMAL_EMERGENCY` (R441). -/
def execThermalEmergency (d : Nat) (t : Int) (s : State) : Host.Outcome State Fault Refusal :=
  s.done (s.thermalEmergency d t)

/-- `DROOP_DETECT` (R439). -/
def execDroopDetect (e : Nat) (n : Nat) (s : State) : Host.Outcome State Fault Refusal :=
  s.done (s.droop e n)

/-- `DROOP_STEP_EXPIRY` (R439). -/
def execDroopStepExpiry (s : State) : Host.Outcome State Fault Refusal :=
  s.done (s.droopExpiry)

/-- `TWIHUS_LEARN_STEP` (R438). -/
def execTwihusLearnStep (p : Nat) (num : Nat) (den : Nat) (s : State) : Host.Outcome State Fault Refusal :=
  s.done (s.learn p num den)

/-- `CLUSTER_GATE` (R443). -/
def execClusterGate (g : Nat) (s : State) : Host.Outcome State Fault Refusal :=
  s.done (s.gate g)

/-- `AVSBUS_TIMEOUT` (R464). -/
def execAvsbusTimeout (d : Nat) (s : State) : Host.Outcome State Fault Refusal :=
  s.done (s.avsTimeout d)

/-- `CLEAR_BATTERY_LIMIT` (R430). -/
def execClearBatteryLimit (path : Nat) (s : State) : Host.Outcome State Fault Refusal :=
  s.done (s.access path 0x2100 0x0A 1 1 Seg.none)

/-- `CLEAR_LEDGER` (R445). -/
def execClearLedger (path : Nat) (s : State) : Host.Outcome State Fault Refusal :=
  s.done (s.access path 0x2100 0x0F 1 1 Seg.none)

/-- `CLEAR_LEARNED` (R438). -/
def execClearLearned (path : Nat) (p : Nat) (s : State) : Host.Outcome State Fault Refusal :=
  s.done (s.access path (0x2140 + p) 3 1 1 Seg.none)

end Sys2Proof.Machine
end

