-- ==== Sys2Proof/Machine/CmdSafety.lean ====
section
/-! DEFINITION. The meanings of the commands of the safety island. -/

namespace Sys2Proof.Machine

/-- `SHADOW_PLACE` (R379). -/
def execShadowPlace (id : Nat) (s : State) : Host.Outcome State Fault Refusal :=
  s.done (s.shadowPlace id)

/-- `PAIR_COMPARE` (R381). -/
def execPairCompare (id : Nat) (home : List (Nat × Nat)) (shadow : List (Nat × Nat × Nat)) (flags : Nat) (status : Nat)
    (s : State) : Host.Outcome State Fault Refusal :=
  s.done (s.pairCompare id home shadow flags status)

/-- `SS1_DELAY_EXPIRY` (R372). -/
def execSs1DelayExpiry (s : State) : Host.Outcome State Fault Refusal :=
  s.done (s.ss1Expiry)

/-- `ALIVE_WINDOW_EXPIRY` (R385). -/
def execAliveWindowExpiry (w : Nat) (s : State) : Host.Outcome State Fault Refusal :=
  s.done (s.aliveExpiry w)

/-- `GOLDEN_FRAME_CHECK` (R390). -/
def execGoldenFrameCheck (id : Nat) (s : State) : Host.Outcome State Fault Refusal :=
  s.done (s.goldenCheck id)

/-- `SWEEP_SLICE_START` (R392). -/
def execSweepSliceStart (e : Nat) (s : State) : Host.Outcome State Fault Refusal :=
  s.done (s.sliceStart e)

/-- `SWEEP_SLICE_END` (R392). -/
def execSweepSliceEnd (e : Nat) (ok : Bool) (s : State) : Host.Outcome State Fault Refusal :=
  s.done (s.sliceEnd e ok)

/-- `DIAGNOSTIC_INTERVAL_LAPSE` (R393). -/
def execDiagnosticIntervalLapse (e : Nat) (s : State) : Host.Outcome State Fault Refusal :=
  s.done (s.diagLapse e)

/-- `SAFE_STOP_TEST_PULSE` (R376). -/
def execSafeStopTestPulse (b : Bool) (s : State) : Host.Outcome State Fault Refusal :=
  s.done (s.testPulse b)

/-- `SAFE_STOP_READBACK_MISMATCH` (R376). -/
def execSafeStopReadbackMismatch (b : Bool) (level : Bool) (ns : Nat) (s : State) : Host.Outcome State Fault Refusal :=
  s.done (s.readback b level ns)

/-- `ISLAND_INTERNAL_FAULT` (R369). -/
def execIslandInternalFault (s : State) : Host.Outcome State Fault Refusal :=
  s.done (s.islandFault)

/-- `LIMIT_TABLE_COMMIT` (R387). -/
def execLimitTableCommit (path : Nat) (crc : Nat) (s : State) : Host.Outcome State Fault Refusal :=
  s.done (s.access path 0x2201 3 4 crc Seg.none)

/-- `ESPRESSO_OUTPUT_ABSENT` (R377). -/
def execEspressoOutputAbsent (s : State) : Host.Outcome State Fault Refusal :=
  s.done (s.outputAbsent)

/-- `ISLAND_FRAME_SEND` (R377). -/
def execIslandFrameSend (s : State) : Host.Outcome State Fault Refusal :=
  s.done (s.islandFrame)

/-- `FSOE_WATCHDOG_EXPIRY` (R255). -/
def execFsoeWatchdogExpiry (c : Nat) (leaves : Bool) (s : State) : Host.Outcome State Fault Refusal :=
  s.done (s.fsoeExpire c leaves)

/-- `SAF_DROPPED_WRITE` (R19). -/
def execSafDroppedWrite (s : State) : Host.Outcome State Fault Refusal :=
  s.done (s.safDrop)

end Sys2Proof.Machine
end

