-- ==== Sys2Proof/Machine/CmdSolve.lean ====
section
/-! DEFINITION. The meanings of the commands of the solver engines and the clearance engines. -/

namespace Sys2Proof.Machine

/-- `SOLVER_FACTOR` (R171). -/
def execSolverFactor (id : Nat) (s : State) : Host.Outcome State Fault Refusal :=
  s.done (s.solve id 0x0300 (subOp 79 0))

/-- `SOLVER_FACTOR_AND_SOLVE` (R171). -/
def execSolverFactorAndSolve (id : Nat) (s : State) : Host.Outcome State Fault Refusal :=
  s.done (s.solve id 0x0300 (subOp 79 1))

/-- `SOLVER_SOLVE_STORED` (R171). -/
def execSolverSolveStored (id : Nat) (s : State) : Host.Outcome State Fault Refusal :=
  s.done (s.solve id 0x0300 (subOp 79 2))

/-- `QUADRATIC_PROGRAM` (R173). -/
def execQuadraticProgram (id : Nat) (s : State) : Host.Outcome State Fault Refusal :=
  s.done (s.solve id 0x0310 anyDesc)

/-- `SOLVER_STOP_INSTANT` (R179). -/
def execSolverStopInstant (id : Nat) (e : Nat) (prog : List (Nat × Nat)) (s : State) : Host.Outcome State Fault Refusal :=
  s.done (s.solverStopped id e prog)

/-- `MAP_DEFINE` (R192). -/
def execMapDefine (id : Nat) (s : State) : Host.Outcome State Fault Refusal :=
  s.done (s.runCle id 0x0400 (subOp 24 1) (fun s d => (mapDefineRun s d).1.finish id (mapDefineRun s d).2 0))

/-- `MAP_RETIRE` (R192). -/
def execMapRetire (id : Nat) (s : State) : Host.Outcome State Fault Refusal :=
  s.done (s.runCle id 0x0400 (fun d => subOp 24 2 d && d.stage == 0) (fun s d => mapRetire s id d))

/-- `MAP_RETIRE_FREE` (R192). -/
def execMapRetireFree (n : Nat) (s : State) : Host.Outcome State Fault Refusal :=
  s.done (mapRetireFree s n)

/-- `MAP_QUERY` (R192). -/
def execMapQuery (id : Nat) (s : State) : Host.Outcome State Fault Refusal :=
  s.done (s.runCle id 0x0400 (subOp 24 3) (fun s d => (mapQueryRun s d).1.finish id (mapQueryRun s d).2 0))

/-- `MAP_UPDATE` (R194). -/
def execMapUpdate (id : Nat) (s : State) : Host.Outcome State Fault Refusal :=
  s.done (s.runCle id 0x0408 (fun d => d.stage == 0) (fun s d => updateStart s id d))

/-- `MAP_UPDATE_COPY` (R194). -/
def execMapUpdateCopy (id : Nat) (s : State) : Host.Outcome State Fault Refusal :=
  s.done (s.runCle id 0x0408 (fun d => d.stage == 1) (fun s d => updateCopy s id d))

/-- `MAP_UPDATE_PUBLISH` (R194). -/
def execMapUpdatePublish (id : Nat) (s : State) : Host.Outcome State Fault Refusal :=
  s.done (s.runCle id 0x0408 (fun d => d.stage == 2) (fun s d => updatePublish s id d))

/-- `PATH_CHECK` (R198). -/
def execPathCheck (id : Nat) (s : State) : Host.Outcome State Fault Refusal :=
  s.done (s.pathCheck id)

/-- `CHECK_STOP_INSTANT` (R200). -/
def execCheckStopInstant (id : Nat) (groups : Nat) (s : State) : Host.Outcome State Fault Refusal :=
  s.done (s.checkStop id groups)

end Sys2Proof.Machine
end

