-- ==== Sys2Proof/Machine/CmdStream.lean ====
section
/-! DEFINITION. The meanings of the commands of streams, recurrent cells and scans. -/

namespace Sys2Proof.Machine

/-- `STREAM_OPEN` (R148). -/
def execStreamOpen (id : Nat) (s : State) : Host.Outcome State Fault Refusal :=
  s.done (s.runCar id 0x0200 (subOp 38 1) true streamOpenRun)

/-- `STREAM_RESET` (R148). -/
def execStreamReset (id : Nat) (s : State) : Host.Outcome State Fault Refusal :=
  s.done (s.runCar id 0x0200 (subOp 38 2) false streamResetRun)

/-- `STREAM_PAUSE` (R148). -/
def execStreamPause (id : Nat) (s : State) : Host.Outcome State Fault Refusal :=
  s.done (s.runCar id 0x0200 (subOp 38 3) false (fun s d => streamPauseRun s id d))

/-- `STREAM_RESUME` (R148). -/
def execStreamResume (id : Nat) (s : State) : Host.Outcome State Fault Refusal :=
  s.done (s.runCar id 0x0200 (subOp 38 4) false (fun s d => streamResumeRun s id d))

/-- `STREAM_END` (R148). -/
def execStreamEnd (id : Nat) (s : State) : Host.Outcome State Fault Refusal :=
  s.done (s.runCar id 0x0200 (subOp 38 5) false streamEndRun)

/-- `STREAM_PIN` (R159). -/
def execStreamPin (id : Nat) (s : State) : Host.Outcome State Fault Refusal :=
  s.done (s.runCar id 0x0200 (subOp 38 6) false (fun s d => streamPinRun s id d))

/-- `STREAM_UNPIN` (R160). -/
def execStreamUnpin (id : Nat) (s : State) : Host.Outcome State Fault Refusal :=
  s.done (s.runCar id 0x0200 (subOp 38 7) false (fun s d => streamUnpinRun s id d))

/-- `STREAM_QUERY` (R148). -/
def execStreamQuery (id : Nat) (s : State) : Host.Outcome State Fault Refusal :=
  s.done (s.runCar id 0x0200 (subOp 38 8) false streamQueryRun)

/-- `STREAM_COPY_OUT` (R148). -/
def execStreamCopyOut (id : Nat) (s : State) : Host.Outcome State Fault Refusal :=
  s.done (s.runCar id 0x0200 (subOp 38 9) false streamCopyOutRun)

/-- `RECURRENT_CELL_CHUNK` (R153). -/
def execRecurrentCellChunk (id : Nat) (s : State) : Host.Outcome State Fault Refusal :=
  s.done (s.runOp id 0x0210 anyDesc (cellRun id))

/-- `LINEAR_SCAN_CHUNK` (R156). -/
def execLinearScanChunk (id : Nat) (s : State) : Host.Outcome State Fault Refusal :=
  s.done (s.runOp id 0x0220 anyDesc (scanRun id))

/-- `STREAM_MOVE_COMPLETE` (R149). -/
def execStreamMoveComplete (x : Nat) (err : Nat) (s : State) : Host.Outcome State Fault Refusal :=
  s.done (moveComplete s x err)

end Sys2Proof.Machine
end

