-- ==== Sys2Proof/Machine/CmdUnit.lean ====
section
/-! DEFINITION. The meanings of the commands of bring-up, identity, power and clocks. -/

namespace Sys2Proof.Machine

/-- `STANDBY_POWER_ON` (R448). -/
def execStandbyPowerOn (seed : Nat) (hubBad : Bool) (custBad : Bool) (s : State) : Host.Outcome State Fault Refusal :=
  s.done (s.powerOn seed hubBad custBad)

/-- `IMAGE_HEADER_JUDGE` (R451). -/
def execImageHeaderJudge (s : State) : Host.Outcome State Fault Refusal :=
  s.done (s.headerJudge)

/-- `IMAGE_VERIFY` (R453). -/
def execImageVerify (bad : List Nat) (s : State) : Host.Outcome State Fault Refusal :=
  s.done (s.imageVerify bad)

/-- `ATTESTATION_REPORT` (R458). -/
def execAttestationReport (path : Nat) (s : State) : Host.Outcome State Fault Refusal :=
  s.done (s.access path 0x2020 2 1 1 Seg.none)

/-- `CUSTOMER_BIND` (R460). -/
def execCustomerBind (path : Nat) (s : State) : Host.Outcome State Fault Refusal :=
  s.done (s.access path 0x2030 6 1 1 Seg.none)

/-- `CUSTOMER_REBIND` (R460). -/
def execCustomerRebind (path : Nat) (s : State) : Host.Outcome State Fault Refusal :=
  s.done (s.access path 0x2030 6 1 2 Seg.none)

/-- `CUSTOMER_UNBIND` (R460). -/
def execCustomerUnbind (path : Nat) (s : State) : Host.Outcome State Fault Refusal :=
  s.done (s.access path 0x2030 6 1 3 Seg.none)

/-- `RAISE_FLOOR` (R459). -/
def execRaiseFloor (path : Nat) (s : State) : Host.Outcome State Fault Refusal :=
  s.done (s.access path 0x2030 6 1 4 Seg.none)

/-- `CUSTOMER_FLASH_WRITE` (R285). -/
def execCustomerFlashWrite (path : Nat) (x : Seg) (s : State) : Host.Outcome State Fault Refusal :=
  s.done (s.access path 0x2402 4 1 1 x)

/-- `MAIN_PG_LOSS` (R467). -/
def execMainPgLoss (ns : Nat) (s : State) : Host.Outcome State Fault Refusal :=
  s.done (s.mainPgFall ns)

/-- `RESET_N_ASSERT` (R467). -/
def execResetNAssert (ns : Nat) (s : State) : Host.Outcome State Fault Refusal :=
  s.done (s.resetPin ns)

/-- `HUB_BROWN_OUT` (R468). -/
def execHubBrownOut (ns : Nat) (s : State) : Host.Outcome State Fault Refusal :=
  s.done (s.hubBrown ns)

/-- `COMPUTE_BROWN_OUT` (R468). -/
def execComputeBrownOut (ns : Nat) (s : State) : Host.Outcome State Fault Refusal :=
  s.done (s.compBrown ns)

/-- `STANDBY_LOSS` (R468). -/
def execStandbyLoss (s : State) : Host.Outcome State Fault Refusal :=
  s.done (s.standbyLoss)

/-- `XTAL_CLOCK_LOSS` (R470). -/
def execXtalClockLoss (ns : Nat) (s : State) : Host.Outcome State Fault Refusal :=
  s.done (s.clockLoss ns)

/-- `XTAL_CLOCK_RESTORED` (R470). -/
def execXtalClockRestored (ns : Nat) (s : State) : Host.Outcome State Fault Refusal :=
  s.done (s.clockBack ns)

/-- `BARISTA_HEARTBEAT_TICK` (R320). -/
def execBaristaHeartbeatTick (s : State) : Host.Outcome State Fault Refusal :=
  s.done (s.heartbeat)

/-- `RC_COUNTER_READ` (R320). -/
def execRcCounterRead (a : Nat) (ch : Nat) (s : State) : Host.Outcome State Fault Refusal :=
  s.done (s.rcRead a ch)

/-- `MAIN_PG_ASSERT` (R465). -/
def execMainPgAssert (s : State) : Host.Outcome State Fault Refusal :=
  s.done (s.mainPgRise)

/-- `SUPERVISOR_PORT_LINK_CHANGE` (R364). -/
def execSupervisorPortLinkChange (b : Bool) (down : Bool) (s : State) : Host.Outcome State Fault Refusal :=
  s.done (s.portChange b down)

end Sys2Proof.Machine
end

