-- ==== Sys2Proof/Machine/Dispatch.lean ====
section
/-! DEFINITION. The dispatch of a command to its meaning. -/

namespace Sys2Proof.Machine

def exec (i : Instr) (s : State) : Host.Outcome State Fault Refusal :=
  match i with
  | .hostDoorbellWrite b => Sys2Proof.Machine.execHostDoorbellWrite b s
  | .dspDoorbellWrite die w => Sys2Proof.Machine.execDspDoorbellWrite die w s
  | .descriptorSlotRead c bad => Sys2Proof.Machine.execDescriptorSlotRead c bad s
  | .nop id => Sys2Proof.Machine.execNop id s
  | .gemm id => Sys2Proof.Machine.execGemm id s
  | .elementwise id => Sys2Proof.Machine.execElementwise id s
  | .normalise id => Sys2Proof.Machine.execNormalise id s
  | .pool id => Sys2Proof.Machine.execPool id s
  | .convolutionChain id => Sys2Proof.Machine.execConvolutionChain id s
  | .haloFlagWaitEnd id ns => Sys2Proof.Machine.execHaloFlagWaitEnd id ns s
  | .gatherRows id => Sys2Proof.Machine.execGatherRows id s
  | .channelArgMax id => Sys2Proof.Machine.execChannelArgMax id s
  | .boxDecode id => Sys2Proof.Machine.execBoxDecode id s
  | .tokenSampling id => Sys2Proof.Machine.execTokenSampling id s
  | .tilePack id => Sys2Proof.Machine.execTilePack id s
  | .fusedAttention id => Sys2Proof.Machine.execFusedAttention id s
  | .partialMerge id => Sys2Proof.Machine.execPartialMerge id s
  | .cacheAppend id => Sys2Proof.Machine.execCacheAppend id s
  | .cacheRefill id => Sys2Proof.Machine.execCacheRefill id s
  | .pageAllocate id => Sys2Proof.Machine.execPageAllocate id s
  | .pageShare id => Sys2Proof.Machine.execPageShare id s
  | .pageRelease id => Sys2Proof.Machine.execPageRelease id s
  | .pageQuery id => Sys2Proof.Machine.execPageQuery id s
  | .streamOpen id => Sys2Proof.Machine.execStreamOpen id s
  | .streamReset id => Sys2Proof.Machine.execStreamReset id s
  | .streamPause id => Sys2Proof.Machine.execStreamPause id s
  | .streamResume id => Sys2Proof.Machine.execStreamResume id s
  | .streamEnd id => Sys2Proof.Machine.execStreamEnd id s
  | .streamPin id => Sys2Proof.Machine.execStreamPin id s
  | .streamUnpin id => Sys2Proof.Machine.execStreamUnpin id s
  | .streamQuery id => Sys2Proof.Machine.execStreamQuery id s
  | .streamCopyOut id => Sys2Proof.Machine.execStreamCopyOut id s
  | .recurrentCellChunk id => Sys2Proof.Machine.execRecurrentCellChunk id s
  | .linearScanChunk id => Sys2Proof.Machine.execLinearScanChunk id s
  | .streamMoveComplete x err => Sys2Proof.Machine.execStreamMoveComplete x err s
  | .solverFactor id => Sys2Proof.Machine.execSolverFactor id s
  | .solverFactorAndSolve id => Sys2Proof.Machine.execSolverFactorAndSolve id s
  | .solverSolveStored id => Sys2Proof.Machine.execSolverSolveStored id s
  | .quadraticProgram id => Sys2Proof.Machine.execQuadraticProgram id s
  | .solverStopInstant id e prog => Sys2Proof.Machine.execSolverStopInstant id e prog s
  | .mapDefine id => Sys2Proof.Machine.execMapDefine id s
  | .mapRetire id => Sys2Proof.Machine.execMapRetire id s
  | .mapRetireFree n => Sys2Proof.Machine.execMapRetireFree n s
  | .mapQuery id => Sys2Proof.Machine.execMapQuery id s
  | .mapUpdate id => Sys2Proof.Machine.execMapUpdate id s
  | .mapUpdateCopy id => Sys2Proof.Machine.execMapUpdateCopy id s
  | .mapUpdatePublish id => Sys2Proof.Machine.execMapUpdatePublish id s
  | .pathCheck id => Sys2Proof.Machine.execPathCheck id s
  | .checkStopInstant id groups => Sys2Proof.Machine.execCheckStopInstant id groups s
  | .objectCreate id => Sys2Proof.Machine.execObjectCreate id s
  | .objectDestroy id => Sys2Proof.Machine.execObjectDestroy id s
  | .objectQuery id => Sys2Proof.Machine.execObjectQuery id s
  | .objectSetPolicy id => Sys2Proof.Machine.execObjectSetPolicy id s
  | .objectPlace id n => Sys2Proof.Machine.execObjectPlace id n s
  | .objectPersist id => Sys2Proof.Machine.execObjectPersist id s
  | .openPersistent id => Sys2Proof.Machine.execOpenPersistent id s
  | .clearSuspect id bad => Sys2Proof.Machine.execClearSuspect id bad s
  | .deletePersistent id => Sys2Proof.Machine.execDeletePersistent id s
  | .tileCopy id => Sys2Proof.Machine.execTileCopy id s
  | .unitFlashRead id => Sys2Proof.Machine.execUnitFlashRead id s
  | .backgroundEviction => Sys2Proof.Machine.execBackgroundEviction s
  | .spillComplete h bad => Sys2Proof.Machine.execSpillComplete h bad s
  | .gangPlacement die => Sys2Proof.Machine.execGangPlacement die s
  | .preemptedGangStop id bytes => Sys2Proof.Machine.execPreemptedGangStop id bytes s
  | .descriptorFinalRecord id energy => Sys2Proof.Machine.execDescriptorFinalRecord id energy s
  | .interimRecord id => Sys2Proof.Machine.execInterimRecord id s
  | .descriptorDeadlinePass id => Sys2Proof.Machine.execDescriptorDeadlinePass id s
  | .quotaPeriodStart c => Sys2Proof.Machine.execQuotaPeriodStart c s
  | .shareWindowStart die => Sys2Proof.Machine.execShareWindowStart die s
  | .contextOpen path => Sys2Proof.Machine.execContextOpen path s
  | .contextPause path => Sys2Proof.Machine.execContextPause path s
  | .contextResume path => Sys2Proof.Machine.execContextResume path s
  | .contextFlush path => Sys2Proof.Machine.execContextFlush path s
  | .contextClose path => Sys2Proof.Machine.execContextClose path s
  | .hostReadBurst ch bank col n => Sys2Proof.Machine.execHostReadBurst ch bank col n s
  | .hostWriteBurst b => Sys2Proof.Machine.execHostWriteBurst b s
  | .commandRingWindowWrite b => Sys2Proof.Machine.execCommandRingWindowWrite b s
  | .activate ch bank row => Sys2Proof.Machine.execActivate ch bank row s
  | .precharge ch bank => Sys2Proof.Machine.execPrecharge ch bank s
  | .modeRegisterWrite ch mr v ps => Sys2Proof.Machine.execModeRegisterWrite ch mr v ps s
  | .modeRegisterRead ch mr => Sys2Proof.Machine.execModeRegisterRead ch mr s
  | .refresh ch kind => Sys2Proof.Machine.execRefresh ch kind s
  | .selfRefreshEntry ch => Sys2Proof.Machine.execSelfRefreshEntry ch s
  | .selfRefreshExit ch => Sys2Proof.Machine.execSelfRefreshExit ch s
  | .powerDownEntryExit ch exit => Sys2Proof.Machine.execPowerDownEntryExit ch exit s
  | .wckSyncMpc ch op => Sys2Proof.Machine.execWckSyncMpc ch op s
  | .channelTraining ch mode fsp rate => Sys2Proof.Machine.execChannelTraining ch mode fsp rate s
  | .hostChannelReset ch => Sys2Proof.Machine.execHostChannelReset ch s
  | .hpResetApertures b => Sys2Proof.Machine.execHpResetApertures b s
  | .hpResetRestart b => Sys2Proof.Machine.execHpResetRestart b s
  | .stagingReadRequest b => Sys2Proof.Machine.execStagingReadRequest b s
  | .stagingWriteRequest b => Sys2Proof.Machine.execStagingWriteRequest b s
  | .stagingRelease b => Sys2Proof.Machine.execStagingRelease b s
  | .stagingCancel b => Sys2Proof.Machine.execStagingCancel b s
  | .stagingBlocksGranted => Sys2Proof.Machine.execStagingBlocksGranted s
  | .stagingCopyDone a fault => Sys2Proof.Machine.execStagingCopyDone a fault s
  | .apertureWindowWrite b => Sys2Proof.Machine.execApertureWindowWrite b s
  | .stagingBlockDrain a k fault => Sys2Proof.Machine.execStagingBlockDrain a k fault s
  | .writeIdleTimeout a => Sys2Proof.Machine.execWriteIdleTimeout a s
  | .readHoldTimeout a => Sys2Proof.Machine.execReadHoldTimeout a s
  | .channelInterleaveWrite path v => Sys2Proof.Machine.execChannelInterleaveWrite path v s
  | .hostMailboxMessageWrite b => Sys2Proof.Machine.execHostMailboxMessageWrite b s
  | .hostMailboxAcknowledge b => Sys2Proof.Machine.execHostMailboxAcknowledge b s
  | .reservedMailboxMessage m => Sys2Proof.Machine.execReservedMailboxMessage m s
  | .objectChannelRead => Sys2Proof.Machine.execObjectChannelRead s
  | .objectChannelWrite x => Sys2Proof.Machine.execObjectChannelWrite x s
  | .objectChannelReadBuffer => Sys2Proof.Machine.execObjectChannelReadBuffer s
  | .objectChannelWriteBuffer x => Sys2Proof.Machine.execObjectChannelWriteBuffer x s
  | .odEntryWrite path idx sub len v x => Sys2Proof.Machine.execOdEntryWrite path idx sub len v x s
  | .sdoUpload idx sub ca => Sys2Proof.Machine.execSdoUpload idx sub ca s
  | .sdoDownload idx sub len v ca x => Sys2Proof.Machine.execSdoDownload idx sub len v ca x s
  | .alStateRequest r => Sys2Proof.Machine.execAlStateRequest r s
  | .sm2WatchdogExpiry => Sys2Proof.Machine.execSm2WatchdogExpiry s
  | .supervisorOutputFrame valid life hold => Sys2Proof.Machine.execSupervisorOutputFrame valid life hold s
  | .clearErrorHistory path => Sys2Proof.Machine.execClearErrorHistory path s
  | .releaseClaim path v => Sys2Proof.Machine.execReleaseClaim path v s
  | .releaseAllClaims path => Sys2Proof.Machine.execReleaseAllClaims path s
  | .moduleRestart path => Sys2Proof.Machine.execModuleRestart path s
  | .enterDecaf path => Sys2Proof.Machine.execEnterDecaf path s
  | .leaveDecaf path => Sys2Proof.Machine.execLeaveDecaf path s
  | .requestSafeHold path => Sys2Proof.Machine.execRequestSafeHold path s
  | .requestLeaveSafeHold path => Sys2Proof.Machine.execRequestLeaveSafeHold path s
  | .groupKindWrite path gg v => Sys2Proof.Machine.execGroupKindWrite path gg v s
  | .groupWrite path gg ss len v => Sys2Proof.Machine.execGroupWrite path gg ss len v s
  | .groupRead path gg ss => Sys2Proof.Machine.execGroupRead path gg ss s
  | .broadcastComplete x => Sys2Proof.Machine.execBroadcastComplete x s
  | .dramInterleaveWrite path v => Sys2Proof.Machine.execDramInterleaveWrite path v s
  | .fabricRequestTimeout id level a => Sys2Proof.Machine.execFabricRequestTimeout id level a s
  | .tierFault id a k => Sys2Proof.Machine.execTierFault id a k s
  | .fenceResponse id a => Sys2Proof.Machine.execFenceResponse id a s
  | .flitReplay l same => Sys2Proof.Machine.execFlitReplay l same s
  | .receiverLossOfLock l => Sys2Proof.Machine.execReceiverLossOfLock l s
  | .retrainCommand path d v => Sys2Proof.Machine.execRetrainCommand path d v s
  | .linkRetrainEnd l f => Sys2Proof.Machine.execLinkRetrainEnd l f s
  | .routerEccError g id corrected => Sys2Proof.Machine.execRouterEccError g id corrected s
  | .jobAbortReceive d job => Sys2Proof.Machine.execJobAbortReceive d job s
  | .jobAbortRelay job => Sys2Proof.Machine.execJobAbortRelay job s
  | .engineProgressTimeout e => Sys2Proof.Machine.execEngineProgressTimeout e s
  | .coreWatchdogExpiry n => Sys2Proof.Machine.execCoreWatchdogExpiry n s
  | .fenceDrainEnd e => Sys2Proof.Machine.execFenceDrainEnd e s
  | .domainResetEnd e => Sys2Proof.Machine.execDomainResetEnd e s
  | .resetEscalation e => Sys2Proof.Machine.execResetEscalation e s
  | .replayStart e => Sys2Proof.Machine.execReplayStart e s
  | .replayOutcome e how energy => Sys2Proof.Machine.execReplayOutcome e how energy s
  | .remapClusterReset g => Sys2Proof.Machine.execRemapClusterReset g s
  | .coreResetCommand path n => Sys2Proof.Machine.execCoreResetCommand path n s
  | .coreFencePendingRemap path n => Sys2Proof.Machine.execCoreFencePendingRemap path n s
  | .clusterResetCommand path g => Sys2Proof.Machine.execClusterResetCommand path g s
  | .dieRecoveryCommand path d => Sys2Proof.Machine.execDieRecoveryCommand path d s
  | .dieRecoveryEnd d lanes bad => Sys2Proof.Machine.execDieRecoveryEnd d lanes bad s
  | .dieOutOfService d status => Sys2Proof.Machine.execDieOutOfService d status s
  | .baristaHeartbeatLoss => Sys2Proof.Machine.execBaristaHeartbeatLoss s
  | .baristaCrash => Sys2Proof.Machine.execBaristaCrash s
  | .hubUncorrectableFault => Sys2Proof.Machine.execHubUncorrectableFault s
  | .baristaRestartComplete => Sys2Proof.Machine.execBaristaRestartComplete s
  | .clearCrashFlag path => Sys2Proof.Machine.execClearCrashFlag path s
  | .shadowPlace id => Sys2Proof.Machine.execShadowPlace id s
  | .pairCompare id home shadow flags status => Sys2Proof.Machine.execPairCompare id home shadow flags status s
  | .ss1DelayExpiry => Sys2Proof.Machine.execSs1DelayExpiry s
  | .aliveWindowExpiry w => Sys2Proof.Machine.execAliveWindowExpiry w s
  | .goldenFrameCheck id => Sys2Proof.Machine.execGoldenFrameCheck id s
  | .sweepSliceStart e => Sys2Proof.Machine.execSweepSliceStart e s
  | .sweepSliceEnd e ok => Sys2Proof.Machine.execSweepSliceEnd e ok s
  | .diagnosticIntervalLapse e => Sys2Proof.Machine.execDiagnosticIntervalLapse e s
  | .safeStopTestPulse b => Sys2Proof.Machine.execSafeStopTestPulse b s
  | .safeStopReadbackMismatch b level ns => Sys2Proof.Machine.execSafeStopReadbackMismatch b level ns s
  | .islandInternalFault => Sys2Proof.Machine.execIslandInternalFault s
  | .limitTableCommit path crc => Sys2Proof.Machine.execLimitTableCommit path crc s
  | .espressoOutputAbsent => Sys2Proof.Machine.execEspressoOutputAbsent s
  | .islandFrameSend => Sys2Proof.Machine.execIslandFrameSend s
  | .fsoeWatchdogExpiry c leaves => Sys2Proof.Machine.execFsoeWatchdogExpiry c leaves s
  | .cycleTick ring => Sys2Proof.Machine.execCycleTick ring s
  | .inputFrameReturn k port wkc good data e reloc => Sys2Proof.Machine.execInputFrameReturn k port wkc good data e reloc s
  | .inputCutoff e reloc left => Sys2Proof.Machine.execInputCutoff e reloc left s
  | .sideCycleSuccess side => Sys2Proof.Machine.execSideCycleSuccess side s
  | .limitCheckDone => Sys2Proof.Machine.execLimitCheckDone s
  | .budgetEnd => Sys2Proof.Machine.execBudgetEnd s
  | .outputFrameReturn c wkc => Sys2Proof.Machine.execOutputFrameReturn c wkc s
  | .stateMirror l => Sys2Proof.Machine.execStateMirror l s
  | .acyclicFrame l back => Sys2Proof.Machine.execAcyclicFrame l back s
  | .loopArm path x => Sys2Proof.Machine.execLoopArm path x s
  | .loopStart path => Sys2Proof.Machine.execLoopStart path s
  | .loopStop path => Sys2Proof.Machine.execLoopStop path s
  | .loopDisarm path => Sys2Proof.Machine.execLoopDisarm path s
  | .rejoinStandby path => Sys2Proof.Machine.execRejoinStandby path s
  | .batteryDecafRequest => Sys2Proof.Machine.execBatteryDecafRequest s
  | .subdeviceSdoUpload path x => Sys2Proof.Machine.execSubdeviceSdoUpload path x s
  | .subdeviceSdoDownload path x => Sys2Proof.Machine.execSubdeviceSdoDownload path x s
  | .subdeviceEmergency station msg => Sys2Proof.Machine.execSubdeviceEmergency station msg s
  | .csi2FrameEnd port vc frame ago bad pkts => Sys2Proof.Machine.execCsi2FrameEnd port vc frame ago bad pkts s
  | .ethernetDatagram port kind key vlan bad l => Sys2Proof.Machine.execEthernetDatagram port kind key vlan bad l s
  | .imuDataReady port => Sys2Proof.Machine.execImuDataReady port s
  | .imuReadEnd port l => Sys2Proof.Machine.execImuReadEnd port l s
  | .tdmBlockEnd n ago l => Sys2Proof.Machine.execTdmBlockEnd n ago l s
  | .instantCut t => Sys2Proof.Machine.execInstantCut t s
  | .instantRelease t pos => Sys2Proof.Machine.execInstantRelease t pos s
  | .instantHoldLimit t pos => Sys2Proof.Machine.execInstantHoldLimit t pos s
  | .sourceEnable path n => Sys2Proof.Machine.execSourceEnable path n s
  | .sourceDisable path n => Sys2Proof.Machine.execSourceDisable path n s
  | .votingGroupEnable path g => Sys2Proof.Machine.execVotingGroupEnable path g s
  | .votingGroupDisable path g => Sys2Proof.Machine.execVotingGroupDisable path g s
  | .fusionSetEnable path t => Sys2Proof.Machine.execFusionSetEnable path t s
  | .fusionSetDisable path t => Sys2Proof.Machine.execFusionSetDisable path t s
  | .inertialSourceWrite path v => Sys2Proof.Machine.execInertialSourceWrite path v s
  | .resetPose path => Sys2Proof.Machine.execResetPose path s
  | .coreMailboxWrite n w => Sys2Proof.Machine.execCoreMailboxWrite n w s
  | .controlPeriod m => Sys2Proof.Machine.execControlPeriod m s
  | .sheddingLift => Sys2Proof.Machine.execSheddingLift s
  | .thermalEmergency d t => Sys2Proof.Machine.execThermalEmergency d t s
  | .droopDetect e n => Sys2Proof.Machine.execDroopDetect e n s
  | .droopStepExpiry => Sys2Proof.Machine.execDroopStepExpiry s
  | .twihusLearnStep p num den => Sys2Proof.Machine.execTwihusLearnStep p num den s
  | .clusterGate g => Sys2Proof.Machine.execClusterGate g s
  | .avsbusTimeout d => Sys2Proof.Machine.execAvsbusTimeout d s
  | .clearBatteryLimit path => Sys2Proof.Machine.execClearBatteryLimit path s
  | .clearLedger path => Sys2Proof.Machine.execClearLedger path s
  | .clearLearned path p => Sys2Proof.Machine.execClearLearned path p s
  | .standbyPowerOn seed hubBad custBad => Sys2Proof.Machine.execStandbyPowerOn seed hubBad custBad s
  | .imageHeaderJudge => Sys2Proof.Machine.execImageHeaderJudge s
  | .imageVerify bad => Sys2Proof.Machine.execImageVerify bad s
  | .attestationReport path => Sys2Proof.Machine.execAttestationReport path s
  | .customerBind path => Sys2Proof.Machine.execCustomerBind path s
  | .customerRebind path => Sys2Proof.Machine.execCustomerRebind path s
  | .customerUnbind path => Sys2Proof.Machine.execCustomerUnbind path s
  | .raiseFloor path => Sys2Proof.Machine.execRaiseFloor path s
  | .customerFlashWrite path x => Sys2Proof.Machine.execCustomerFlashWrite path x s
  | .mainPgLoss ns => Sys2Proof.Machine.execMainPgLoss ns s
  | .resetNAssert ns => Sys2Proof.Machine.execResetNAssert ns s
  | .hubBrownOut ns => Sys2Proof.Machine.execHubBrownOut ns s
  | .computeBrownOut ns => Sys2Proof.Machine.execComputeBrownOut ns s
  | .standbyLoss => Sys2Proof.Machine.execStandbyLoss s
  | .xtalClockLoss ns => Sys2Proof.Machine.execXtalClockLoss ns s
  | .xtalClockRestored ns => Sys2Proof.Machine.execXtalClockRestored ns s
  | .baristaHeartbeatTick => Sys2Proof.Machine.execBaristaHeartbeatTick s
  | .rcCounterRead a ch => Sys2Proof.Machine.execRcCounterRead a ch s
  | .mainPgAssert => Sys2Proof.Machine.execMainPgAssert s
  | .safDroppedWrite => Sys2Proof.Machine.execSafDroppedWrite s
  | .supervisorPortLinkChange b down => Sys2Proof.Machine.execSupervisorPortLinkChange b down s

end Sys2Proof.Machine
end

