-- ==== Sys2Proof/WellFormed.lean ====
section
/-! DEFINITION. Well-formed commands: every operand is one that the interface it arrives on can carry. -/

namespace Sys2Proof

/-- A path to the dictionary: the host's or the supervisor's. -/
def okPath (p : Nat) : Bool := decide (p ≤ 1)
/-- A host channel (Table 13-1). -/
def okCh (c : Nat) : Bool := decide (c < 4)
def okBank (b : Nat) : Bool := decide (b < 16)
def okRow (r : Nat) : Bool := decide (r < 131072)
/-- A byte of a page. -/
def okCol (c : Nat) : Bool := decide (c < 2048)
/-- A burst length (Table 13-1). -/
def okLen (n : Nat) : Bool := n == 32 || n == 64
/-- A WRITE burst: channel, bank, column aligned to its length, data and mask of its length. -/
def okBurst (b : Burst) : Bool :=
  okCh b.ch && okBank b.bank && okCol b.col && okLen b.n && b.col % b.n == 0 && decide (b.data < 2 ^ (8 * b.n))
    && decide (b.mask < 2 ^ b.n)
/-- A compute die; and a die or the hub, by its junction. -/
def okDie (d : Nat) : Bool := decide (d < 4)
def okHot (d : Nat) : Bool := decide (d ≤ 4)
/-- A context (Table 03-1). -/
def okCtx (c : Nat) : Bool := decide (c < 16384)
def okJob (j : Nat) : Bool := decide (j < 4096)
/-- A cluster. -/
def okClus (g : Nat) : Bool := decide (g < 32)
/-- A reset unit: a core, a cluster or a clearance engine. -/
def okElem (e : Nat) : Bool := decide (e < 292)
/-- An engine of a gang of solver units. -/
def okEngine (e : Nat) : Bool := decide (e < 8)
/-- A core, or a mesh, by its clock island. -/
def okIsland (i : Nat) : Bool := decide (i < 260)
/-- A link: hub links, then peer links. -/
def okLink (l : Nat) : Bool := decide (l < 10)
/-- A staging aperture. -/
def okAper (a : Nat) : Bool := decide (a < 64)
/-- A reserved host-to-Barista mailbox. -/
def okBox (m : Nat) : Bool := decide (1 ≤ m ∧ m < 64)
/-- Fields of 1, 2, 4 and 8 bytes, and a message of 64. -/
def okByte (n : Nat) : Bool := decide (n < 256)
def okWord (n : Nat) : Bool := decide (n < 65536)
def okCrc (n : Nat) : Bool := decide (n < 2 ^ 32)
def okQuad (n : Nat) : Bool := decide (n < 2 ^ 64)
def okMsg (n : Nat) : Bool := decide (n < 2 ^ 512)
/-- A module address (R15). -/
def okAddr (a : Nat) : Bool := decide (a < 2 ^ 48)
/-- A status code: a class of R7. -/
def okStatus (v : Nat) : Bool := decide (v < 0x700)
/-- The slot of a descriptor whose read fails: none, the first or the second. -/
def okBad (b : Nat) : Bool := decide (b ≤ 2)
/-- A value of `len` bytes. -/
def okVal (len v : Nat) : Bool := decide (len ≤ 65536) && decide (v < 2 ^ (8 * len))
/-- A sensor source, or a phase; a voting group; a fusion set. -/
def okSource (n : Nat) : Bool := decide (n < 64)
def okVote (g : Nat) : Bool := decide (g < 16)
def okSet (t : Nat) : Bool := decide (t < 8)
/-- A task monitor, or an FSoE connection. -/
def okMon (i : Nat) : Bool := decide (i < 64)
/-- A map. -/
def okMap (n : Nat) : Bool := decide (n < 8)
/-- A ring state, a side or a body port, an AL state. -/
def okRing (r : Nat) : Bool := decide (r < 4)
def okSide (n : Nat) : Bool := decide (n < 2)
def okAl (r : Nat) : Bool := [1, 2, 4, 8].contains r

/-- Is a command well formed? -/
def WellFormed (i : Instr) : Bool :=
  match i with
  | .hostDoorbellWrite b => okBurst b
  | .dspDoorbellWrite die w => okDie die && okQuad w
  | .descriptorSlotRead c bad => okCtx c && okBad bad
  | .nop _ => true
  | .gemm _ => true
  | .elementwise _ => true
  | .normalise _ => true
  | .pool _ => true
  | .convolutionChain _ => true
  | .haloFlagWaitEnd _ _ => true
  | .gatherRows _ => true
  | .channelArgMax _ => true
  | .boxDecode _ => true
  | .tokenSampling _ => true
  | .tilePack _ => true
  | .fusedAttention _ => true
  | .partialMerge _ => true
  | .cacheAppend _ => true
  | .cacheRefill _ => true
  | .pageAllocate _ => true
  | .pageShare _ => true
  | .pageRelease _ => true
  | .pageQuery _ => true
  | .streamOpen _ => true
  | .streamReset _ => true
  | .streamPause _ => true
  | .streamResume _ => true
  | .streamEnd _ => true
  | .streamPin _ => true
  | .streamUnpin _ => true
  | .streamQuery _ => true
  | .streamCopyOut _ => true
  | .recurrentCellChunk _ => true
  | .linearScanChunk _ => true
  | .streamMoveComplete x _ => okWord x
  | .solverFactor _ => true
  | .solverFactorAndSolve _ => true
  | .solverSolveStored _ => true
  | .quadraticProgram _ => true
  | .solverStopInstant _ e _ => okEngine e
  | .mapDefine _ => true
  | .mapRetire _ => true
  | .mapRetireFree n => okMap n
  | .mapQuery _ => true
  | .mapUpdate _ => true
  | .mapUpdateCopy _ => true
  | .mapUpdatePublish _ => true
  | .pathCheck _ => true
  | .checkStopInstant _ _ => true
  | .objectCreate _ => true
  | .objectDestroy _ => true
  | .objectQuery _ => true
  | .objectSetPolicy _ => true
  | .objectPlace _ _ => true
  | .objectPersist _ => true
  | .openPersistent _ => true
  | .clearSuspect _ _ => true
  | .deletePersistent _ => true
  | .tileCopy _ => true
  | .unitFlashRead _ => true
  | .backgroundEviction => true
  | .spillComplete h _ => okWord h
  | .gangPlacement die => okDie die
  | .preemptedGangStop _ _ => true
  | .descriptorFinalRecord _ _ => true
  | .interimRecord _ => true
  | .descriptorDeadlinePass _ => true
  | .quotaPeriodStart c => okCtx c
  | .shareWindowStart die => okDie die
  | .contextOpen path => okPath path
  | .contextPause path => okPath path
  | .contextResume path => okPath path
  | .contextFlush path => okPath path
  | .contextClose path => okPath path
  | .hostReadBurst ch bank col n => okCh ch && okBank bank && okCol col && okLen n
  | .hostWriteBurst b => okBurst b
  | .commandRingWindowWrite b => okBurst b
  | .activate ch bank row => okCh ch && okBank bank && okRow row
  | .precharge ch bank => okCh ch && okBank bank
  | .modeRegisterWrite ch mr v _ => okCh ch && okByte mr && okByte v
  | .modeRegisterRead ch mr => okCh ch && okByte mr
  | .refresh ch _ => okCh ch
  | .selfRefreshEntry ch => okCh ch
  | .selfRefreshExit ch => okCh ch
  | .powerDownEntryExit ch _ => okCh ch
  | .wckSyncMpc ch _ => okCh ch
  | .channelTraining ch _ _ _ => okCh ch
  | .hostChannelReset ch => okCh ch
  | .hpResetApertures b => okBurst b
  | .hpResetRestart b => okBurst b
  | .stagingReadRequest b => okBurst b
  | .stagingWriteRequest b => okBurst b
  | .stagingRelease b => okBurst b
  | .stagingCancel b => okBurst b
  | .stagingBlocksGranted => true
  | .stagingCopyDone a _ => okAper a
  | .apertureWindowWrite b => okBurst b
  | .stagingBlockDrain a _ _ => okAper a
  | .writeIdleTimeout a => okAper a
  | .readHoldTimeout a => okAper a
  | .channelInterleaveWrite path v => okPath path && okByte v
  | .hostMailboxMessageWrite b => okBurst b
  | .hostMailboxAcknowledge b => okBurst b
  | .reservedMailboxMessage m => okBox m
  | .objectChannelRead => true
  | .objectChannelWrite _ => true
  | .objectChannelReadBuffer => true
  | .objectChannelWriteBuffer _ => true
  | .odEntryWrite path idx sub len v _ => okPath path && okWord idx && okByte sub && okVal len v
  | .sdoUpload idx sub _ => okWord idx && okByte sub
  | .sdoDownload idx sub len v _ _ => okWord idx && okByte sub && okVal len v
  | .alStateRequest r => okAl r
  | .sm2WatchdogExpiry => true
  | .supervisorOutputFrame _ life hold => okWord life && okByte hold
  | .clearErrorHistory path => okPath path
  | .releaseClaim path v => okPath path && okCrc v
  | .releaseAllClaims path => okPath path
  | .moduleRestart path => okPath path
  | .enterDecaf path => okPath path
  | .leaveDecaf path => okPath path
  | .requestSafeHold path => okPath path
  | .requestLeaveSafeHold path => okPath path
  | .groupKindWrite path gg v => okPath path && okByte gg && okByte v
  | .groupWrite path gg ss len v => okPath path && okByte gg && okByte ss && okVal len v
  | .groupRead path gg ss => okPath path && okByte gg && okByte ss
  | .broadcastComplete _ => true
  | .dramInterleaveWrite path v => okPath path && okByte v
  | .fabricRequestTimeout _ _ a => okAddr a
  | .tierFault _ a _ => okAddr a
  | .fenceResponse _ a => okAddr a
  | .flitReplay l _ => okLink l
  | .receiverLossOfLock l => okLink l
  | .retrainCommand path d v => okPath path && okDie d && okByte v
  | .linkRetrainEnd l _ => okLink l
  | .routerEccError g _ _ => okClus g
  | .jobAbortReceive d job => okDie d && okJob job
  | .jobAbortRelay job => okJob job
  | .engineProgressTimeout e => okElem e
  | .coreWatchdogExpiry n => okByte n
  | .fenceDrainEnd e => okElem e
  | .domainResetEnd e => okElem e
  | .resetEscalation e => okElem e
  | .replayStart e => okElem e
  | .replayOutcome e _ _ => okElem e
  | .remapClusterReset g => okClus g
  | .coreResetCommand path n => okPath path && okByte n
  | .coreFencePendingRemap path n => okPath path && okByte n
  | .clusterResetCommand path g => okPath path && okClus g
  | .dieRecoveryCommand path d => okPath path && okDie d
  | .dieRecoveryEnd d _ _ => okDie d
  | .dieOutOfService d status => okDie d && okStatus status
  | .baristaHeartbeatLoss => true
  | .baristaCrash => true
  | .hubUncorrectableFault => true
  | .baristaRestartComplete => true
  | .clearCrashFlag path => okPath path
  | .shadowPlace _ => true
  | .pairCompare _ _ _ _ _ => true
  | .ss1DelayExpiry => true
  | .aliveWindowExpiry w => okMon w
  | .goldenFrameCheck _ => true
  | .sweepSliceStart e => okElem e
  | .sweepSliceEnd e _ => okElem e
  | .diagnosticIntervalLapse e => okElem e
  | .safeStopTestPulse _ => true
  | .safeStopReadbackMismatch _ _ _ => true
  | .islandInternalFault => true
  | .limitTableCommit path crc => okPath path && okCrc crc
  | .espressoOutputAbsent => true
  | .islandFrameSend => true
  | .fsoeWatchdogExpiry c _ => okMon c
  | .cycleTick ring => okRing ring
  | .inputFrameReturn _ port wkc _ _ _ _ => okSide port && okWord wkc
  | .inputCutoff _ _ _ => true
  | .sideCycleSuccess side => okSide side
  | .limitCheckDone => true
  | .budgetEnd => true
  | .outputFrameReturn _ wkc => okWord wkc
  | .stateMirror _ => true
  | .acyclicFrame _ _ => true
  | .loopArm path _ => okPath path
  | .loopStart path => okPath path
  | .loopStop path => okPath path
  | .loopDisarm path => okPath path
  | .rejoinStandby path => okPath path
  | .batteryDecafRequest => true
  | .subdeviceSdoUpload path _ => okPath path
  | .subdeviceSdoDownload path _ => okPath path
  | .subdeviceEmergency station _ => okWord station
  | .csi2FrameEnd _ _ _ _ _ _ => true
  | .ethernetDatagram _ _ _ _ _ _ => true
  | .imuDataReady _ => true
  | .imuReadEnd _ _ => true
  | .tdmBlockEnd n _ _ => okSource n
  | .instantCut t => okSet t
  | .instantRelease t _ => okSet t
  | .instantHoldLimit t _ => okSet t
  | .sourceEnable path n => okPath path && okSource n
  | .sourceDisable path n => okPath path && okSource n
  | .votingGroupEnable path g => okPath path && okVote g
  | .votingGroupDisable path g => okPath path && okVote g
  | .fusionSetEnable path t => okPath path && okSet t
  | .fusionSetDisable path t => okPath path && okSet t
  | .inertialSourceWrite path v => okPath path && okByte v
  | .resetPose path => okPath path
  | .coreMailboxWrite n w => okByte n && okMsg w
  | .controlPeriod _ => true
  | .sheddingLift => true
  | .thermalEmergency d _ => okHot d
  | .droopDetect e _ => okIsland e
  | .droopStepExpiry => true
  | .twihusLearnStep p _ _ => okSource p
  | .clusterGate g => okClus g
  | .avsbusTimeout d => okDie d
  | .clearBatteryLimit path => okPath path
  | .clearLedger path => okPath path
  | .clearLearned path p => okPath path && okSource p
  | .standbyPowerOn _ _ _ => true
  | .imageHeaderJudge => true
  | .imageVerify _ => true
  | .attestationReport path => okPath path
  | .customerBind path => okPath path
  | .customerRebind path => okPath path
  | .customerUnbind path => okPath path
  | .raiseFloor path => okPath path
  | .customerFlashWrite path _ => okPath path
  | .mainPgLoss _ => true
  | .resetNAssert _ => true
  | .hubBrownOut _ => true
  | .computeBrownOut _ => true
  | .standbyLoss => true
  | .xtalClockLoss _ => true
  | .xtalClockRestored _ => true
  | .baristaHeartbeatTick => true
  | .rcCounterRead a ch => okAddr a && okCh ch
  | .mainPgAssert => true
  | .safDroppedWrite => true
  | .supervisorPortLinkChange _ _ => true

end Sys2Proof
end

