-- ==== Sys2Proof/Safety.lean ====
section
/-! DEFINITION. What counts as a safe run, in the terms that claims use: the invariant, and what a command leaves alone. -/

namespace Sys2Proof

open Sys2Proof.Machine

/-- The command has an effect and the block goes on: neither a fault nor a refusal. -/
def Answers (o : Host.Outcome State Fault Refusal) : Prop := ∃ t, o = .next t

/-- What every state of the block keeps: memory and flash are in canonical form. -/
def Invariant (s : State) : Prop := Memory.wf s.mem = true ∧ Flash.wf s.flash = true

/-- The safe state is held with both outputs low, as motion is to be prevented (R372, R376). -/
def Stopped (s : State) : Prop := s.isl.safe = 2 ∧ s.isl.pinA = false ∧ s.isl.pinB = false

/-! ### Frames -/

/-- Every byte of memory, the register pages apart, and of the unit flash reads in `t` as it did in `s`. -/
def SameBytes (s t : State) : Prop :=
  (∀ a, isRegSpace a = false → t.byteAt a = s.byteAt a) ∧ t.flash = s.flash

/-- The same outside the locations of the `n` bytes at `a` (an address and its alias name one location, R16). -/
def SameBytesBut (a n : Nat) (s t : State) : Prop :=
  (∀ b, isRegSpace b = false → (∀ i, i < n → s.loc (a + i) ≠ s.loc b) → t.byteAt b = s.byteAt b) ∧ t.flash = s.flash

/-- Every stored entry of the dictionary but those with a listed key is as before. -/
def SameOd (ks : List Nat) (s t : State) : Prop := ∀ i j k, odKey i j k ∉ ks → t.od i j k = s.od i j k

/-- Every block register but the listed ones is as before. -/
def SameRegs (as : List Nat) (s t : State) : Prop := ∀ a, a ∉ as → t.reg a = s.reg a

/-! ### Samples -/

/-- Source `n` stands alone: no fusion set is enabled, no enabled group has it as a member, and it is not the inertial source. -/
def Alone (s : State) (n : Nat) : Prop :=
  (∀ i, i < 8 → s.setOn i = false) ∧ s.groupOf n = none ∧ s.od 0x2680 1 ≠ n

/-- A sample of source `n` with bytes `l` can be stored whole in slot `k`: the slot is the first free one from its number on, its
ring lies in DRAM, every die that holds a part of the ring is in service, and the bytes fit. -/
def Storable (s : State) (n k : Nat) (l : List Byte) : Prop :=
  s.slotFor n ((s.src n).seq + 1) = some k ∧ s.so n 5 + (k + 1) * s.so n 6 ≤ 2 ^ 36 ∧ l.length ≤ s.so n 6 ∧
  ∀ d, d ∈ s.diesOf ⟨s.so n 5, s.so n 6 * s.so n 7, true, false⟩ → (s.die d).st = 0

/-- From `s` to `t` a sample of source `n` was stored in slot `k`, with its frame number, start time and damage: it takes the next
number, its bytes are in the slot, it is counted, and no other source has a new sample (R214–R216). -/
def Stored (s t : State) (n k frame start : Nat) (bad : Bool) (l : List Byte) : Prop :=
  t = { s with
    free := t.free, mem := t.mem, dict := t.dict, regs := t.regs, descs := t.descs, pages := t.pages, maps := t.maps, b2h := t.b2h,
    md := t.md, isl := t.isl, fse := t.fse, brd := t.brd } ∧
  t.flash = s.flash ∧ (t.src n).seq = (s.src n).seq + 1 ∧ (t.src n).slot = k ∧ (t.src n).start = start ∧ (t.src n).arr = s.fseTime ∧
  (t.src n).bytes = l.length ∧ (t.src n).frame = frame ∧ (t.src n).damaged = bad ∧ (t.src n).late = (s.src n).owing ∧
  t.so n 0x11 = (s.so n 0x11 + 1) % 2 ^ 32 ∧ t.fse.sets = s.fse.sets ∧ t.fse.ego = s.fse.ego ∧
  (∀ m, m ≠ n → (t.src m).seq = (s.src m).seq) ∧
  ∀ i, i < l.length → t.byteAt (s.so n 5 + k * s.so n 6 + i) = l.getD i 0

/-! ### Commands that write an entry of the dictionary -/

/-- Path `path` is served and a write of `len` bytes of value `v` passes every check of Table 14-2. -/
def Accepted (s : State) (path idx sub len v : Nat) : Prop :=
  s.pathUp path = true ∧ s.checkWrite path false idx sub len v = none

/-- An entry that only holds a value: a write of it that is accepted stores the value and has no other effect. -/
def Plain (idx sub : Nat) : Prop :=
  ∀ (s : State) (inst v : Nat) (x : Seg), s.effect idx sub inst v x = (s.setOd idx sub v inst, 0)

/-- The access has been answered with status `st` on its path: the host's last status, or 0x2002:03 with the SDO answer. -/
def Answered (path st : Nat) (t : State) : Prop :=
  if path = 0 then t.md.hostSt = st else t.od 0x2002 3 = st ∧ t.md.sdo.status = st ∧ t.md.sdo.abort = abortCode st true

/-! ### Hangs and Barista's failures -/

/-- From `s` to `t` element `e` hung: its drain has begun, and the S and C work that ran on it has ended 0x0403 (R401, R405). -/
def Hung (e : Nat) (s t : State) : Prop :=
  (t.elemRst e).1 = 1 ∧ t.md.st = s.md.st ∧ t.fse = s.fse ∧ t.esp = s.esp ∧ t.gov = s.gov ∧ t.brd = s.brd ∧
  ∀ id d, s.desc? id = some d → d.st = .running → d.onElem e = true → d.result = none → d.cls ≤ 1 →
    t.desc? id = some { d with result := some { status := 0x0403, outcome := 8, flags := 0 } }

/-- From `s` to `t` Barista failed and left state Running for `st`: a crash record is written and Barista restarts, unless it is
halted or three restarts lie within ten minutes (R419, R424). -/
def BaristaDown (st : Nat) (s t : State) : Prop :=
  t = { s with free := t.free, flash := t.flash, dict := t.dict, regs := t.regs, b2h := t.b2h, md := t.md, rcv := t.rcv } ∧
  (∀ a, isRegSpace a = false → t.byteAt a = s.byteAt a) ∧ t.md.st = s.md.st ∧ t.md.crash = true ∧
  t.rcv.record = (s.rcv.record + 1) % 2 ^ 32 ∧
  (s.rcv.halted = false → (s.md.restarts.filter (fun t => decide (s.recTime < t + 600000000000))).length < 3 →
    t.md.barista = st ∧ t.rcv.halted = false ∧ t.od 0x2300 9 = (s.od 0x2300 9 + 1) % 2 ^ 32 ∧ t.reg keyBarista = 0) ∧
  (s.rcv.halted = true → t.md.barista = 4 ∧ t.rcv.halted = true ∧ t.od 0x2300 9 = s.od 0x2300 9)

/-! ### The customer record -/

/-- From `s` to `t` the customer record `c` has taken the place of the one in force, in the other sector, for a command of path
`path` that is answered 0 (R459, R460). -/
def Recorded (path : Nat) (c : Cust) (s t : State) : Prop :=
  t = { s with free := t.free, flash := t.flash, dict := t.dict, md := t.md, brd := { s.brd with cust := some c } } ∧
  (∀ a, isRegSpace a = false → t.byteAt a = s.byteAt a) ∧ Answered path 0 t ∧ t.od 0x2030 8 = 0 ∧
  c.seq = (s.custNow).seq + 1 ∧ c.sector = 1 - (s.custNow).sector % 2

/-- From `s` to `t` a binding command of path `path` has been refused 0x03EC. -/
def BindRefused (path : Nat) (s t : State) : Prop :=
  t = { s with dict := t.dict, md := t.md } ∧ SameBytes s t ∧ Answered path 0x03EC t ∧ t.od 0x2030 8 = 0x03EC

/-! ### The loop's takeover -/

/-- From `s` to `t` the standby has been selected: its outputs go to the limit check in this cycle, the roles change from the next
one on (R252). -/
def TookOver (s t : State) : Prop :=
  t = { s with dict := t.dict, regs := t.regs, esp := t.esp } ∧ t.esp.takeover = true ∧ t.esp.swapped = s.esp.swapped ∧
  t.esp.phase = 3 ∧ t.esp.side = some 1 ∧ t.esp.flags.testBit 7 = true ∧ 0x0191 ∈ t.esp.stats ∧
  SameRegs [baseESP + 0x20] s t ∧ t.reg (baseESP + 0x20) = (s.reg (baseESP + 0x20) + 1) % 2 ^ 64 ∧
  SameOd [odKey 0x2700 0x1A 0] s t ∧ t.od 0x2700 0x1A = (s.od 0x2700 0x1A + 1) % 2 ^ 32

end Sys2Proof
end

