-- ==== Sys2Proof/Certificates/Slice0/Obligations.lean ====
section
/-! DEFINITION. The statements about the block. Each one's docstring names the rules of the spec that it follows. A clause that
ends in `.next s` says when a command changes nothing (log entry 5). -/

open Sys2Proof Sys2Proof.Machine

/-! ### The block as a whole -/

/-- A step takes the command at the front of the queue and runs it on the state with the queue's rest. Its readings that are the
model's are in log entry 1. -/
def Obligations.StepRunsTheFront : Prop :=
  ∀ (c : Instr) (rest : List Instr) (s : State), step { s with pending := c :: rest } = exec c { s with pending := rest }

/-- Every command of the table answers a next state from every state: none faults, none is refused; the queue is as it found it,
and memory and flash are in canonical form. Its readings that are the model's are in log entry 5. -/
def Obligations.EveryCommandAnswers : Prop :=
  ∀ (c : Instr) (s : State), ∃ t, exec c s = .next t ∧ t.pending = s.pending ∧ Invariant t

/-- Headline: from every state that keeps the invariant, any number of steps goes on without a fault or a refusal and ends in a
state that keeps it, with as many commands fewer waiting as steps were taken. -/
def Obligations.RunsKeepTheInvariant : Prop :=
  ∀ (n : Nat) (s : State), Invariant s →
    ∃ t, core.run n s = .next t ∧ Invariant t ∧ t.pending = s.pending.drop n

/-- Each step from a state that keeps the invariant answers a state that keeps it. -/
def Obligations.StepKeepsInv : Prop :=
  ∀ s t : State, Invariant s → step s = .next t → Invariant t

/-- The invariant holds at reset. Its readings that are the model's are in log entry 6. -/
def Obligations.ResetKeepsInv : Prop := Invariant State.reset

/-- What the spec says of the module after power-on, before the Boot-ROM has run (R337, R369, R448, R450): Boot-ROM, boot mode,
aperture 0 preset in state 3 for 16 MiB with sixteen blocks, the safe state held by cause 0 alone, STO with both outputs low; no
context open, no object, no page, no stream, no map, nothing outstanding. Its readings that are the model's are in log entry 9. -/
def Obligations.ResetState : Prop :=
  State.reset.md.st = 1 ∧ State.reset.md.bootMode = true ∧ Stopped State.reset ∧ State.reset.isl.causes = 1 ∧
  (State.reset.aper 0).st = 3 ∧ (State.reset.aper 0).len = 16777216 ∧ (State.reset.aper 0).blocks = 16 ∧
  (∀ c, (State.reset.ctx c).st = .closed) ∧ (∀ h, (State.reset.obj h).st = .free) ∧
  (∀ h, (State.reset.page h).st = .free) ∧ (∀ x, (State.reset.strm x).st = .free) ∧
  (∀ n, (State.reset.sdMap n).st = .undef) ∧ (∀ i, State.reset.desc? i = none) ∧ State.reset.pending = []

/-- While no command waits a step is a nanosecond of the module's own (log entry 1): the counters that run gain 1, the island's,
on its own oscillator, gains 0, 1 or 2, and no context, descriptor, object, mailbox or byte of memory changes. -/
def Obligations.IdleNanosecond : Prop :=
  ∀ s : State, Invariant s → s.pending = [] → s.alive = true → 4 ≤ s.md.st →
    ∃ t, step s = .next t ∧
      t = { s with free := t.free, regs := t.regs, isl := t.isl } ∧ SameBytes s t ∧
      t.hpTime = (s.hpTime + 1) % 2 ^ 64 ∧ t.govTime = (s.govTime + 1) % 2 ^ 64 ∧ t.recTime = (s.recTime + 1) % 2 ^ 64 ∧
      t.fseTime = (s.fseTime + 1) % 2 ^ 64 ∧ t.espTime = (s.espTime + 1) % 2 ^ 64 ∧ t.carTime = (s.carTime + 1) % 2 ^ 64 ∧
      (∃ k, k ≤ 2 ∧ t.safTime = (s.safTime + k) % 2 ^ 64) ∧
      (∀ d, d < 4 → t.dspTime d = if (s.die d).running ∧ (s.die d).st = 0 then (s.dspTime d + 1) % 2 ^ 64 else s.dspTime d)

/-! ### The host port -/

/-- What the row commands and the idle notices do (R310, R311, R315): ACT records the row for a bank, so that a burst's offset
follows R311; SRE and SRX keep the idle notice and count the entry; PRE, REF, PDE and PDX, CAS and MPC are accepted and change
nothing; a channel reset loses mode registers, training and set point and keeps the recorded rows. Its readings that are the
model's are in log entries 5, 82, 99. -/
def Obligations.HostRowsAndIdle : Prop :=
  ∀ (s : State) (ch bank row : Nat), Invariant s → s.alive = true → ch < 4 → bank < 16 → row < 131072 →
    (∃ t, exec (.activate ch bank row) s = .next t ∧ t = { s with chans := t.chans } ∧ SameBytes s t ∧
      (∀ c, c ≠ ch → t.chan c = s.chan c) ∧ t.chan ch = { s.chan ch with rows := (t.chan ch).rows } ∧
      (∀ col n, t.offset ch bank col n = row * 32768 + bank * 2048 + col % 2048 / n * n) ∧
      (∀ b col n, b < 16 → b ≠ bank → t.offset ch b col n = s.offset ch b col n)) ∧
    (∃ t, exec (.selfRefreshEntry ch) s = .next t ∧ t = { s with chans := t.chans, regs := t.regs, dict := t.dict } ∧
      (∀ c, c ≠ ch → t.chan c = s.chan c) ∧ t.chan ch = { s.chan ch with idle := true } ∧
      t.reg (hpc ch 0x60) = (s.reg (hpc ch 0x60) + 1) % 2 ^ 64 ∧ t.od 0x2500 7 = (s.od 0x2500 7 + 1) % 2 ^ 32 ∧
      SameRegs [hpc ch 0x60] s t ∧ SameOd [odKey 0x2500 7 0] s t ∧ SameBytes s t) ∧
    (∃ t, exec (.selfRefreshExit ch) s = .next t ∧ t = { s with chans := t.chans } ∧ SameBytes s t ∧
      (∀ c, c ≠ ch → t.chan c = s.chan c) ∧ t.chan ch = { s.chan ch with idle := false }) ∧
    (∃ t, exec (.hostChannelReset ch) s = .next t ∧ t = { s with chans := t.chans } ∧ SameBytes s t ∧
      (∀ c, c ≠ ch → t.chan c = s.chan c) ∧ (t.chan ch).rows = (s.chan ch).rows ∧ (t.chan ch).mrs = [] ∧
      (t.chan ch).trained = false ∧ (t.chan ch).rate = 0 ∧ (t.chan ch).calib = 0 ∧ (t.chan ch).rates = []) ∧
    exec (.precharge ch bank) s = .next s ∧ (∀ kind, exec (.refresh ch kind) s = .next s) ∧
    (∀ x, exec (.powerDownEntryExit ch x) s = .next s) ∧ (∀ op, exec (.wckSyncMpc ch op) s = .next s)

/-- Mode registers and training (R312, R313, R314): MRW of a register that a write can change stores the byte, MRR returns it,
fixed registers answer Table 13-4's values whatever is written, a read latency below 12 ns is not taken, and write training at a
rate of 533 to 8,533 MT/s leaves the channel trained. Its readings that are the model's are in log entries 5, 82, 84, 99. -/
def Obligations.ModeRegistersAndTraining : Prop :=
  ∀ (s : State) (ch m v ps : Nat), Invariant s → s.alive = true → ch < 4 →
    (mrFixed m = false → m ≤ 46 → ((m = 1 ∨ m = 2) → 12000 ≤ ps) →
      ∃ t, exec (.modeRegisterWrite ch m v ps) s = .next t ∧ t = { s with chans := t.chans } ∧ SameBytes s t ∧
        (∀ c, c ≠ ch → t.chan c = s.chan c) ∧ (t.chan ch).mr m = v % 256 ∧
        (∀ k, k ≠ m → (t.chan ch).mr k = (s.chan ch).mr k) ∧ (t.chan ch).rows = (s.chan ch).rows) ∧
    ((mrFixed m = true ∨ 46 < m ∨ ((m = 1 ∨ m = 2) ∧ ps < 12000)) → exec (.modeRegisterWrite ch m v ps) s = .next s) ∧
    (∃ t, exec (.modeRegisterRead ch m) s = .next t ∧ t = { s with chans := t.chans } ∧ SameBytes s t ∧
      (∀ c, c ≠ ch → t.chan c = s.chan c) ∧ t.chan ch = { s.chan ch with out := (s.chan ch).mr m, outLen := 1 }) ∧
    (s.chan ch).mr 5 = 0xD5 ∧ (s.chan ch).mr 6 = 0xB1 ∧ (s.chan ch).mr 7 = 0x01 ∧
    (∀ mode fsp rate, fsp < 2 → 533 ≤ rate → rate ≤ 8533 →
      ∃ t, exec (.channelTraining ch mode fsp rate) s = .next t ∧ t = { s with chans := t.chans } ∧ SameBytes s t ∧
        (∀ c, c ≠ ch → t.chan c = s.chan c) ∧ (t.chan ch).mrs = (s.chan ch).mrs ∧ (t.chan ch).rows = (s.chan ch).rows ∧
        ((t.chan ch).trained = true ↔ mode = 3 ∨ (s.chan ch).trained = true) ∧
        (mode < 4 → (t.chan ch).calib.testBit mode = true) ∧
        ((s.chan ch).setPoint = fsp → (t.chan ch).rate = rate))

/-- A host READ burst (R312, R317, R325): in the command-ring region it returns the bytes of the window that R318's address names
and changes nothing but what the channel has returned; where nothing is mapped, and everywhere but the status and staging regions
in boot mode, it returns the poison pattern and is counted (Table 13-6, 0x2500:04). Its readings that are the model's are in log
entry 16. -/
def Obligations.HostReadBursts : Prop :=
  ∀ (s : State) (ch bank col n : Nat), Invariant s → s.alive = true → ch < 4 → (n = 32 ∨ n = 64) →
    (regionOf (s.offset ch bank col n) = 3 → s.md.bootMode = false → s.cmdW ch (s.offset ch bank col n) < 0x1800000 →
      ∃ t, exec (.hostReadBurst ch bank col n) s = .next t ∧ t = { s with chans := t.chans } ∧ SameBytes s t ∧
        (∀ c, c ≠ ch → t.chan c = s.chan c) ∧
        t.chan ch = { s.chan ch with out := s.rdHub (s.cmdW ch (s.offset ch bank col n)) n, outLen := n }) ∧
    (regionOf (s.offset ch bank col n) = 5 ∨
        (s.md.bootMode = true ∧ (regionOf (s.offset ch bank col n) = 1 ∨ regionOf (s.offset ch bank col n) = 2 ∨
          regionOf (s.offset ch bank col n) = 3)) →
      ∃ t, exec (.hostReadBurst ch bank col n) s = .next t ∧ t = { s with chans := t.chans, regs := t.regs, dict := t.dict } ∧
        SameBytes s t ∧ SameRegs [hpc ch 0x40] s t ∧ SameOd [odKey 0x2500 4 0] s t ∧
        (∀ c, c ≠ ch → t.chan c = s.chan c) ∧ t.chan ch = { s.chan ch with out := poisonWord n, outLen := n } ∧
        t.reg (hpc ch 0x40) = (s.reg (hpc ch 0x40) + 1) % 2 ^ 64 ∧ t.od 0x2500 4 = (s.od 0x2500 4 + 1) % 2 ^ 32)

/-- Host WRITE bursts by region (R320, R322, R325, R331, R333). A burst into the command-ring window stores its unmasked bytes at
R318's address and nothing else; a doorbell write that the module takes sets the context's producer count (R54); a whole message
fills its host-to-Barista mailbox, counting a collision where one still waited; an acknowledgement takes the waiting
Barista-to-host message with its code; a write where nothing may be written is discarded and counted. Its readings that are the
model's are in log entries 12, 14, 15, 18, 83. -/
def Obligations.HostWriteBursts : Prop :=
  ∀ (s : State) (b : Burst), Invariant s → s.alive = true → b.ch < 4 → (b.n = 32 ∨ b.n = 64) → b.ecc = false → b.fixed = false →
    s.md.bootMode = false →
    (regionOf (s.burstOff b) = 3 → s.cmdW b.ch (s.burstOff b) + b.n ≤ 0x1800000 →
        (s.cmdW b.ch (s.burstOff b) < 0x800000 ∨ 7 ≤ s.md.st) →
      ∃ t, exec (.commandRingWindowWrite b) s = .next t ∧ exec (.hostWriteBurst b) s = .next t ∧
        t = { s with mem := t.mem } ∧ SameBytesBut (hub (s.cmdW b.ch (s.burstOff b))) b.n s t ∧
        ∀ i, i < b.n → t.byteAt (hub (s.cmdW b.ch (s.burstOff b) + i)) =
          if b.mask.testBit i then s.byteAt (hub (s.cmdW b.ch (s.burstOff b) + i)) else BitVec.ofNat 8 (field b.data (8 * i) 8)) ∧
    (∀ k, k < 4096 → s.burstOff b = 0x200000 + 64 * k → b.mask % 16 = 0 → 6 ≤ s.md.st → s.esp.st = 0 →
        (s.die (s.home (4 * k + b.ch))).st = 0 → s.hubLink (s.home (4 * k + b.ch)) = true →
        ((s.ctx (4 * k + b.ch)).st = .opened ∨ (s.ctx (4 * k + b.ch)).st = .paused) →
        (b.data % 2 ^ 32 + 2 ^ 32 - (s.ctx (4 * k + b.ch)).cons) % 2 ^ 32 ≤ s.od 0x5000 0x0A (4 * k + b.ch) →
      ∃ t, exec (.hostDoorbellWrite b) s = .next t ∧ t = { s with ctxs := t.ctxs } ∧ SameBytes s t ∧
        (∀ c, c ≠ 4 * k + b.ch → t.ctx c = s.ctx c) ∧
        t.ctx (4 * k + b.ch) = { s.ctx (4 * k + b.ch) with prod := b.data % 2 ^ 32 }) ∧
    (∀ k, k < 16 → s.burstOff b = 0x100000 + 64 * k → b.n = 64 → b.mask % 2 ^ 64 = 0 →
      ∃ t, exec (.hostMailboxMessageWrite b) s = .next t ∧ t = { s with h2b := t.h2b, dict := t.dict } ∧ SameBytes s t ∧
        SameOd [odKey 0x2500 0x14 0] s t ∧ (∀ m, m ≠ 4 * k + b.ch → t.h2bBox m = s.h2bBox m) ∧
        (t.h2bBox (4 * k + b.ch)).msg = b.data % 2 ^ 512 ∧ (t.h2bBox (4 * k + b.ch)).full = true ∧
        (t.h2bBox (4 * k + b.ch)).written = ((s.h2bBox (4 * k + b.ch)).written + 1) % 65536 ∧
        t.od 0x2500 0x14 = if (s.h2bBox (4 * k + b.ch)).full then (s.od 0x2500 0x14 + 1) % 2 ^ 32 else s.od 0x2500 0x14) ∧
    (∀ k, k < 16 → s.burstOff b = 0x103000 + 16 * k → b.n = 32 → b.mask % 4 = 0 → b.mask.testBit 16 = true →
        (s.b2hBox (4 * k + b.ch)).full = true →
      ∃ t, exec (.hostMailboxAcknowledge b) s = .next t ∧ t = { s with b2h := t.b2h } ∧ SameBytes s t ∧
        (∀ m, m ≠ 4 * k + b.ch → t.b2hBox m = s.b2hBox m) ∧ (t.b2hBox (4 * k + b.ch)).full = false ∧
        (t.b2hBox (4 * k + b.ch)).code = b.data % 65536 ∧
        (t.b2hBox (4 * k + b.ch)).taken = ((s.b2hBox (4 * k + b.ch)).taken + 1) % 65536) ∧
    (regionOf (s.burstOff b) = 5 ∨ (regionOf (s.burstOff b) = 0 ∧ s.burstOff b ≠ 0x100) →
      ∃ t, exec (.hostWriteBurst b) s = .next t ∧ t = { s with regs := t.regs, dict := t.dict } ∧ SameBytes s t ∧
        SameRegs [hpc b.ch 0x48] s t ∧ SameOd [odKey 0x2500 5 0] s t ∧
        t.reg (hpc b.ch 0x48) = (s.reg (hpc b.ch 0x48) + 1) % 2 ^ 64 ∧ t.od 0x2500 5 = (s.od 0x2500 5 + 1) % 2 ^ 32)

/-- Staging requests that are accepted (R326, R327): a whole slot written with the next request number and a judgement of success.
A read or a write takes its blocks at once where enough are free and none waits, holds its object from then on and stamps its age;
a write's first limit is 1 MiB or its length (R329). A release leaves the aperture idle, a cancel leaves it ended with 0x04C0;
both free its blocks. Bytes of memory keep their values. Its readings that are the model's are in log entry 19. -/
def Obligations.StagingRequests : Prop :=
  ∀ (s : State) (b : Burst) (a w : Nat), Invariant s → s.alive = true → b.ch < 4 → b.n = 64 → b.ecc = false → b.fixed = false →
    b.mask = 0 → s.md.bootMode = false → 6 ≤ s.md.st → a < 64 → a % 4 = b.ch → s.burstOff b = 0x240000 + a / 4 * 64 →
    w = slotBytes (s.reg (slotKey a)) 0 b → field w 0 32 = ((s.aper a).request + 1) % 2 ^ 32 →
    s.judgeStage (s.aper a) w = none →
    (field w 32 8 = 1 → s.stageQ = [] → ceilDiv (field w 192 64) 65536 ≤ s.blocksFree →
      ∃ t, exec (.stagingReadRequest b) s = .next t ∧ t = { s with apers := t.apers, objs := t.objs, regs := t.regs } ∧
        SameBytes s t ∧ SameRegs [slotKey a] s t ∧ (∀ k, k ≠ a → t.aper k = s.aper k) ∧
        (∀ h, h ≠ field w 64 32 → t.obj h = s.obj h) ∧
        t.aper a = { Aper.zero with st := 1, request := field w 0 32, ctx := field w 48 16, handle := field w 64 32,
                                    off := field w 128 64, len := field w 192 64, at_ := s.hpTime,
                                    blocks := ceilDiv (field w 192 64) 65536 } ∧
        t.obj (field w 64 32) = { s.obj (field w 64 32) with holds := (s.obj (field w 64 32)).holds + 1, stamp := s.carTime }) ∧
    (field w 32 8 = 2 → s.stageQ = [] → min 16 (ceilDiv (field w 192 64) 65536) ≤ s.blocksFree →
      ∃ t, exec (.stagingWriteRequest b) s = .next t ∧ t = { s with apers := t.apers, objs := t.objs, regs := t.regs } ∧
        SameBytes s t ∧ SameRegs [slotKey a] s t ∧ (∀ k, k ≠ a → t.aper k = s.aper k) ∧
        (∀ h, h ≠ field w 64 32 → t.obj h = s.obj h) ∧ (t.aper a).st = 3 ∧ (t.aper a).request = field w 0 32 ∧
        (t.aper a).limit = min (field w 192 64) 1048576 ∧ (t.aper a).blocks = min 16 (ceilDiv (field w 192 64) 65536) ∧
        (t.obj (field w 64 32)).holds = (s.obj (field w 64 32)).holds + 1) ∧
    (field w 32 8 = 3 →
      ∃ t, exec (.stagingRelease b) s = .next t ∧
        t = { s with apers := t.apers, stageQ := t.stageQ, objs := t.objs, pages := t.pages, regs := t.regs, dict := t.dict } ∧
        SameOd [odKey 0x2410 5 0] s t ∧ SameBytes s t ∧
        SameRegs [slotKey a] s t ∧ (∀ k, k ≠ a → t.aper k = s.aper k) ∧ (t.aper a).st = 0 ∧ (t.aper a).status = 0 ∧
        (t.aper a).blocks = 0 ∧ (t.aper a).request = field w 0 32) ∧
    (field w 32 8 = 4 →
      ∃ t, exec (.stagingCancel b) s = .next t ∧
        t = { s with apers := t.apers, stageQ := t.stageQ, objs := t.objs, pages := t.pages, regs := t.regs, dict := t.dict } ∧
        SameOd [odKey 0x2410 5 0] s t ∧ SameBytes s t ∧
        SameRegs [slotKey a] s t ∧ (∀ k, k ≠ a → t.aper k = s.aper k) ∧ (t.aper a).st = 6 ∧ (t.aper a).status = 0x04C0 ∧
        (t.aper a).blocks = 0 ∧ (t.aper a).request = field w 0 32)

/-- The data of an aperture (R327, R328, R329, R330). The head of the queue takes its blocks as soon as enough are free; a good
copy leaves a read ready with the object's bytes; a burst below the limit covers its sectors and nothing else of the aperture's
standing; the write idle and read hold times end a request; an idle notice of one aperture touches no other. Its readings that are
the model's are in log entries 13, 19. -/
def Obligations.StagingData : Prop :=
  ∀ (s : State) (a : Nat), Invariant s →
    (∀ q, s.stageQ = a :: q → (s.aper a).want ≤ s.blocksFree →
      ∃ t, exec .stagingBlocksGranted s = .next t ∧ t = { s with apers := t.apers, stageQ := q } ∧ SameBytes s t ∧
        (∀ k, k ≠ a → t.aper k = s.aper k) ∧ (t.aper a).want = 0 ∧ (t.aper a).status = 0 ∧ (t.aper a).blocks = (s.aper a).need) ∧
    ((s.aper a).st = 1 → (s.aper a).want = 0 → s.xferStatus (s.aper a).handle 0 = 0 →
      ∃ t, exec (.stagingCopyDone a 0) s = .next t ∧ t = { s with apers := t.apers } ∧ SameBytes s t ∧
        (∀ k, k ≠ a → t.aper k = s.aper k) ∧ (t.aper a).st = 2 ∧ (t.aper a).status = 0 ∧ (t.aper a).ready = true ∧
        (t.aper a).limit = (s.aper a).len ∧
        (t.aper a).data = s.slice ((s.obj (s.aper a).handle).addr + (s.aper a).off) (s.aper a).len) ∧
    (∀ b : Burst, s.alive = true → b.ch < 4 → b.n = 32 → b.ecc = false → b.fixed = false → b.mask = 0 →
        regionOf (s.burstOff b) = 4 → s.stageY b.ch (s.burstOff b) / apWindow = a → a < 64 → (s.aper a).st = 3 →
        s.stageY b.ch (s.burstOff b) % apWindow < (s.aper a).limit →
        s.stageY b.ch (s.burstOff b) % apWindow / 65536 ∉ (s.aper a).drained →
      ∃ t, exec (.apertureWindowWrite b) s = .next t ∧ t = { s with apers := t.apers, free := t.free } ∧ SameBytes s t ∧
        (∀ k, k ≠ a → t.aper k = s.aper k) ∧ (t.aper a).blocks = (s.aper a).blocks ∧ (t.aper a).limit = (s.aper a).limit ∧
        (t.aper a).drained = (s.aper a).drained ∧ ((t.aper a).st = 3 ∨ (t.aper a).st = 4) ∧ (t.aper a).at_ = s.hpTime ∧
        (s.stageY b.ch (s.burstOff b) % apWindow / 32 < (s.aper a).sectors →
          s.stageY b.ch (s.burstOff b) % apWindow / 32 ∈ (t.aper a).covered)) ∧
    (∀ k, (s.aper a).st = 4 → (s.aper a).boot = false → (s.aper a).want = 0 → 65536 * k < (s.aper a).len →
        k ∉ (s.aper a).drained → (s.aper a).blockCovered k = true → s.xferStatus (s.aper a).handle 0 = 0 →
        (insNat k (s.aper a).drained).length < ceilDiv (s.aper a).len 65536 →
      ∃ t, exec (.stagingBlockDrain a k 0) s = .next t ∧ t = { s with apers := t.apers, objs := t.objs, mem := t.mem } ∧
        (∀ j, j ≠ a → t.aper j = s.aper j) ∧ (∀ h, h ≠ (s.aper a).handle → t.obj h = s.obj h) ∧
        t.mem = (s.paste ((s.obj (s.aper a).handle).addr + (s.aper a).off + 65536 * k) (min 65536 ((s.aper a).len - 65536 * k))
          (cellSlice (65536 * k) (min 65536 ((s.aper a).len - 65536 * k)) (s.aper a).data)).mem ∧
        (t.aper a).st = 4 ∧ (t.aper a).drained = insNat k (s.aper a).drained ∧
        (t.aper a).limit = min (s.aper a).len ((s.aper a).limit + 65536) ∧
        (t.obj (s.aper a).handle).coldCur = false) ∧
    (((s.aper a).st = 3 ∨ (s.aper a).st = 4) → (s.aper a).boot = false →
        (s.aper a).at_ + s.od 0x2500 2 * 1000000 ≤ s.hpTime →
      ∃ t, exec (.writeIdleTimeout a) s = .next t ∧
        t = { s with apers := t.apers, stageQ := t.stageQ, objs := t.objs, pages := t.pages, dict := t.dict } ∧
        SameOd [odKey 0x2410 5 0] s t ∧ SameBytes s t ∧
        (∀ k, k ≠ a → t.aper k = s.aper k) ∧ (t.aper a).st = 6 ∧ (t.aper a).status = 0x04C0 ∧ (t.aper a).blocks = 0) ∧
    ((s.aper a).st = 2 → (s.aper a).at_ + s.od 0x2500 3 * 1000000 < s.hpTime →
      ∃ t, exec (.readHoldTimeout a) s = .next t ∧
        t = { s with apers := t.apers, stageQ := t.stageQ, objs := t.objs, pages := t.pages, dict := t.dict } ∧
        SameOd [odKey 0x2410 5 0] s t ∧ SameBytes s t ∧
        (∀ k, k ≠ a → t.aper k = s.aper k) ∧ (t.aper a).st = 0 ∧ (t.aper a).status = 0x04C1 ∧ (t.aper a).blocks = 0)

/-! ### The object dictionary -/

/-- A write that fails a check of Table 14-2 answers its status on its path and changes nothing else (R348): neither the entry nor
any other, no memory, no claim. An accepted write of an entry that only holds a value stores it, leaves every other entry as it
was, and is answered 0x0000; the supervisor's write of an entry of host authority claims it, the host's claims nothing (R341,
R345, R346). The channel interleave, the DRAM interleave and the kind of a group are such entries; a group's kind clears its
members as well (R18, R318, R354). Its readings that are the model's are in log entry 68. -/
def Obligations.DictionaryWrites : Prop :=
  (∀ (s : State) (path idx sub len v k st : Nat) (x : Seg), Invariant s → path ≤ 1 → isGroup idx = false → s.pathUp path = true →
    s.checkWrite path false idx sub len v = some (k, st) →
    ∃ t, exec (.odEntryWrite path idx sub len v x) s = .next t ∧ t = { s with dict := t.dict, md := t.md } ∧
      SameBytes s t ∧ SameOd [odKey 0x2002 3 0] s t ∧ (path = 0 → t.dict = s.dict) ∧ Answered path st t ∧
      t.md = { s.md with hostSt := t.md.hostSt, sdo := t.md.sdo }) ∧
  (∀ (s : State) (path : Nat), Invariant s → path ≤ 1 →
    (∀ idx sub len v x, isGroup idx = false → Plain idx sub → Accepted s path idx sub len v →
        odKey idx sub (s.instOf path idx sub) ≠ odKey 0x2002 3 0 → odKey idx sub (s.instOf path idx sub) ≠ odKey 0x2000 0x10 0 →
        ¬ (idx = 0x2000 ∧ sub = 5) →
      ∃ t, exec (.odEntryWrite path idx sub len v x) s = .next t ∧ t = { s with dict := t.dict, md := t.md } ∧
        SameBytes s t ∧ t.od idx sub (s.instOf path idx sub) = v ∧
        SameOd [odKey idx sub (s.instOf path idx sub), odKey 0x2002 3 0] s t ∧ Answered path 0 t ∧
        (path = 0 → t.md.claims = s.md.claims) ∧
        (∀ e, path = 1 → entry idx sub = some e → e.auth = 1 → ¬ (isWindow idx = true ∧ sub = 1) →
          odKey idx sub (s.instOf path idx sub) ∈ t.md.claims)) ∧
    (∀ v, Accepted s path 0x2500 1 1 v →
      ∃ t, exec (.channelInterleaveWrite path v) s = .next t ∧ t = { s with dict := t.dict, md := t.md } ∧ SameBytes s t ∧
        t.od 0x2500 1 = v ∧ SameOd [odKey 0x2500 1 0, odKey 0x2002 3 0] s t ∧ Answered path 0 t) ∧
    (∀ v, Accepted s path 0x2000 0x10 1 v →
      ∃ t, exec (.dramInterleaveWrite path v) s = .next t ∧ t = { s with dict := t.dict, md := t.md } ∧
        t.od 0x2000 0x10 = v ∧ SameOd [odKey 0x2000 0x10 0, odKey 0x2002 3 0] s t ∧ Answered path 0 t) ∧
    (∀ gg v, gg < 253 → Accepted s path (0x3100 + gg) 1 1 v →
      ∃ t, exec (.groupKindWrite path gg v) s = .next t ∧ t = { s with dict := t.dict, md := t.md } ∧ SameBytes s t ∧
        t.od (0x3100 + gg) 1 = v ∧ t.od (0x3100 + gg) 2 = 0 ∧
        SameOd [odKey (0x3100 + gg) 1 0, odKey (0x3100 + gg) 2 0, odKey 0x2002 3 0] s t ∧ Answered path 0 t))

/-- The object channel (R331, R335). Op 1 reads an entry of at most 48 bytes into the response in Barista-to-host mailbox 0, op 3
into the named buffer of hub SRAM; op 2 and op 4 write an entry from the request or from the buffer; each takes the request from
host-to-Barista mailbox 0 with the access's status. A read answers whatever the access does, a group's common value or an error
too; a write of a group goes out as a broadcast, and its request waits for that (R355). Its readings that are the model's are in
log entry 69. -/
def Obligations.ObjectChannel : Prop :=
  ∀ (s : State) (x : Seg) (idx sub len o : Nat), Invariant s → s.dictUp = true → (s.h2bBox 0).full = true → s.badRequest = false →
    idx = s.reqField 2 2 → sub = s.reqField 1 1 → len = s.reqField 8 4 → o = s.reqField 12 4 →
    (∀ st n v, s.reqField 0 1 = 1 → s.odRead 0 idx sub = (st, n, v) → n ≤ 48 →
      ∃ t, exec .objectChannelRead s = .next t ∧ t = { s with h2b := t.h2b, b2h := t.b2h, dict := t.dict, md := t.md } ∧
        SameBytes s t ∧ SameOd [odKey 0x2500 0x14 0] s t ∧ (∀ m, m ≠ 0 → t.h2bBox m = s.h2bBox m ∧ t.b2hBox m = s.b2hBox m) ∧
        (t.h2bBox 0).full = false ∧ (t.h2bBox 0).code = st ∧ (t.b2hBox 0).full = true ∧ t.md.hostSt = st ∧
        (st = 0 → t.md.hostVal = v) ∧
        (isGroup idx = false → checkRead idx sub = none → st = 0 ∧ n = s.readLen idx sub ∧ v = s.odView 0 idx sub)) ∧
    (∀ st n v, s.reqField 0 1 = 3 → s.odRead 0 idx sub = (st, n, v) →
      (st = 0 → n ≤ len →
        ∃ t, exec .objectChannelReadBuffer s = .next t ∧
          t = { s with h2b := t.h2b, b2h := t.b2h, dict := t.dict, md := t.md, mem := t.mem } ∧
          SameBytesBut (hub o) n s t ∧ t.mem = (s.wrHub o n v).mem ∧
          (t.h2bBox 0).full = false ∧ (t.h2bBox 0).code = 0 ∧ (t.b2hBox 0).full = true ∧ t.md.hostSt = 0 ∧
          (isGroup idx = false → checkRead idx sub = none → n = s.readLen idx sub ∧ v = s.odView 0 idx sub)) ∧
      (st ≠ 0 ∨ len < n →
        ∃ t, exec .objectChannelReadBuffer s = .next t ∧
          t = { s with h2b := t.h2b, b2h := t.b2h, dict := t.dict, md := t.md } ∧ SameBytes s t ∧
          (t.h2bBox 0).full = false ∧ (t.h2bBox 0).code = (if st = 0 then 0x03D5 else st) ∧ (t.b2hBox 0).full = true)) ∧
    (∀ v, s.reqField 0 1 = 2 → v = s.reqField 16 48 % 2 ^ (8 * len) → ¬ (idx = 0x2000 ∧ sub = 5) →
      (∀ r st, isGroup idx = false → s.odWrite 0 false idx sub len v x = (r, st) →
        ∃ t, exec (.objectChannelWrite x) s = .next t ∧ t = (r.ackHost 0 st).answer 0 st true 0 0) ∧
      (Plain idx sub → isGroup idx = false → s.checkWrite 0 false idx sub len v = none →
        ∃ t, exec (.objectChannelWrite x) s = .next t ∧ t = { s with h2b := t.h2b, dict := t.dict, md := t.md } ∧
          t.od idx sub (s.instOf 0 idx sub) = v ∧ SameOd [odKey idx sub (s.instOf 0 idx sub)] s t ∧
          (t.h2bBox 0).full = false ∧ (t.h2bBox 0).code = 0 ∧ t.md.hostSt = 0) ∧
      (∀ k st, isGroup idx = false → s.checkWrite 0 false idx sub len v = some (k, st) →
        ∃ t, exec (.objectChannelWrite x) s = .next t ∧ t = { s with h2b := t.h2b, md := t.md } ∧ SameBytes s t ∧
          (t.h2bBox 0).full = false ∧ (t.h2bBox 0).code = st ∧ t.md = { s.md with hostSt := st }) ∧
      (isGroup idx = true → s.checkGroup 0 (idx - 0x3000) sub len v = none →
        ∃ t b, exec (.objectChannelWrite x) s = .next t ∧ t = { s with md := { s.md with bcast := some b } } ∧
          b = { path := 0, tag := some (s.reqField 4 2), gg := idx - 0x3000, sub := sub, len := len, value := v })) ∧
    (∀ v, s.reqField 0 1 = 4 → v = s.rdHub o len → ¬ (idx = 0x2000 ∧ sub = 5) →
      (∀ r st, isGroup idx = false → s.odWrite 0 false idx sub len v x = (r, st) →
        ∃ t, exec (.objectChannelWriteBuffer x) s = .next t ∧ t = (r.ackHost 0 st).answer 0 st true 0 0) ∧
      (Plain idx sub → isGroup idx = false → s.checkWrite 0 false idx sub len v = none →
        ∃ t, exec (.objectChannelWriteBuffer x) s = .next t ∧ t = { s with h2b := t.h2b, dict := t.dict, md := t.md } ∧
          t.od idx sub (s.instOf 0 idx sub) = v ∧ SameOd [odKey idx sub (s.instOf 0 idx sub)] s t ∧
          (t.h2bBox 0).full = false ∧ (t.h2bBox 0).code = 0 ∧ t.md.hostSt = 0) ∧
      (∀ k st, isGroup idx = false → s.checkWrite 0 false idx sub len v = some (k, st) →
        ∃ t, exec (.objectChannelWriteBuffer x) s = .next t ∧ t = { s with h2b := t.h2b, md := t.md } ∧ SameBytes s t ∧
          (t.h2bBox 0).full = false ∧ (t.h2bBox 0).code = st ∧ t.md = { s.md with hostSt := st }) ∧
      (isGroup idx = true → s.checkGroup 0 (idx - 0x3000) sub len v = none →
        ∃ t b, exec (.objectChannelWriteBuffer x) s = .next t ∧ t = { s with md := { s.md with bcast := some b } } ∧
          b = { path := 0, tag := some (s.reqField 4 2), gg := idx - 0x3000, sub := sub, len := len, value := v }))

/-- SDOs of the supervisor segment and messages in reserved mailboxes (R360, R363, R334). An upload answers the entry's value as
the supervisor sees it; a download is the supervisor's entry write; complete access is refused with abort code 0x0601_0000 and
reaches no entry; a message in a reserved mailbox is taken with 0x03C4. -/
def Obligations.SegmentSdos : Prop :=
  ∀ (s : State) (idx sub len v : Nat) (x : Seg), Invariant s →
    (s.pathUp 1 = true →
      (isGroup idx = false → checkRead idx sub = none →
        ∃ t, exec (.sdoUpload idx sub false) s = .next t ∧ t = { s with dict := t.dict, md := t.md } ∧ SameBytes s t ∧
          SameOd [odKey 0x2002 3 0] s t ∧ t.od 0x2002 3 = 0 ∧
          t.md = { s.md with sdo := { status := 0, abort := 0, len := s.readLen idx sub, value := s.odView 1 idx sub } }) ∧
      (isGroup idx = false → ∀ k st, checkRead idx sub = some (k, st) →
        ∃ t, exec (.sdoUpload idx sub false) s = .next t ∧ t = { s with dict := t.dict, md := t.md } ∧ SameBytes s t ∧
          SameOd [odKey 0x2002 3 0] s t ∧ t.od 0x2002 3 = st ∧ t.md.sdo.abort = abortCode st false) ∧
      (∃ t, exec (.sdoUpload idx sub true) s = .next t ∧ t = { s with md := t.md } ∧ SameBytes s t ∧
        t.md.sdo.abort = 0x06010000 ∧ t.md = { s.md with sdo := t.md.sdo }) ∧
      (len ≤ 65536 → exec (.sdoDownload idx sub len v false x) s = exec (.odEntryWrite 1 idx sub len v x) s) ∧
      (∃ t, exec (.sdoDownload idx sub len v true x) s = .next t ∧ t = { s with md := t.md } ∧ SameBytes s t ∧
        t.md.sdo.abort = 0x06010000 ∧ t.md = { s.md with sdo := t.md.sdo })) ∧
    (∀ m, 1 ≤ m → m ≤ 63 → s.alive = true → s.md.barista = 0 → s.md.bootMode = false → (s.h2bBox m).full = true →
      ∃ t, exec (.reservedMailboxMessage m) s = .next t ∧ t = { s with h2b := t.h2b } ∧ SameBytes s t ∧
        (∀ k, k ≠ m → t.h2bBox k = s.h2bBox k) ∧ (t.h2bBox m).full = false ∧ (t.h2bBox m).code = 0x03C4 ∧
        (t.h2bBox m).taken = ((s.h2bBox m).taken + 1) % 65536)

/-- Groups (R354, R355, R356, R357). A group write that passes its members' checks goes out as a broadcast and is answered when
that completes: then every member that the broadcast reaches holds the value, a member it does not reach keeps its own, and the
answer is 0x0000 or 0x01B0. A group read answers the members' common value, or 0x03D6 where they differ. Its readings that are the
model's are in log entry 68. -/
def Obligations.Groups : Prop :=
  ∀ (s : State) (path gg ss len v : Nat), Invariant s → path ≤ 1 → gg < 256 →
    (s.pathUp path = true → s.checkGroup path gg ss len v = none →
      ∃ t, exec (.groupWrite path gg ss len v) s = .next t ∧ t = { s with md := t.md } ∧ SameBytes s t ∧
        t.md = { s.md with bcast := some { path := path, tag := none, gg := gg, sub := ss, len := len, value := v } }) ∧
    (∀ b x, s.md.bcast = some b → s.md.barista = 0 → b.tag = none → b.path ≤ 1 → b.gg < 253 → b.sub < 256 →
        1 ≤ s.groupKind b.gg → s.groupKind b.gg ≤ 3 → (∀ m, Plain (kindBase (s.groupKind b.gg) + m) b.sub) →
      ∃ t, exec (.broadcastComplete x) s = .next t ∧ t = { s with dict := t.dict, md := t.md } ∧ SameBytes s t ∧
        t.md.bcast = none ∧
        (∀ m, m ∈ s.groupMembers b.gg → t.od (kindBase (s.groupKind b.gg) + m) b.sub =
          if s.reached (s.groupKind b.gg) m then b.value else s.od (kindBase (s.groupKind b.gg) + m) b.sub) ∧
        Answered b.path (if (s.groupMembers b.gg).all (s.reached (s.groupKind b.gg)) then 0 else 0x01B0) t) ∧
    (∀ w, s.pathUp path = true → ss ≠ 0 → s.groupKind gg ≠ 0 → s.groupMembers gg ≠ [] →
        (∀ m, m ∈ s.groupMembers gg → checkRead (kindBase (s.groupKind gg) + m) ss = none) →
        (∀ m, m ∈ s.groupMembers gg → s.odView path (kindBase (s.groupKind gg) + m) ss = w) →
      ∃ t, exec (.groupRead path gg ss) s = .next t ∧ t = { s with dict := t.dict, md := t.md } ∧ SameBytes s t ∧
        SameOd [odKey 0x2002 3 0] s t ∧
        (if path = 0 then t.md.hostSt = 0 ∧ t.md.hostVal = w else t.md.sdo.status = 0 ∧ t.md.sdo.value = w)) ∧
    (∀ m k, s.pathUp path = true → ss ≠ 0 → s.groupKind gg ≠ 0 → m ∈ s.groupMembers gg → k ∈ s.groupMembers gg →
        (∀ m, m ∈ s.groupMembers gg → checkRead (kindBase (s.groupKind gg) + m) ss = none) →
        s.odView path (kindBase (s.groupKind gg) + m) ss ≠ s.odView path (kindBase (s.groupKind gg) + k) ss →
      ∃ t, exec (.groupRead path gg ss) s = .next t ∧ t = { s with dict := t.dict, md := t.md } ∧ SameBytes s t ∧
        (if path = 0 then t.md.hostSt = 0x03D6 else t.md.sdo.status = 0x03D6 ∧ t.md.sdo.abort = 0x08000020))

/-- Claims and the error field (R346, R365): a release drops the claim it names, a release of all drops every claim, a write of
0x1003:00 empties the error field; each is answered 0x0000 and touches no other state. Its readings that are the model's are in
log entry 68. -/
def Obligations.ClaimsAndErrors : Prop :=
  ∀ (s : State) (path : Nat), Invariant s → path ≤ 1 →
    (∀ v key, Accepted s path 0x2001 1 4 v →
        key = odKey (field v 16 16) (field v 8 8) (if field v 16 16 = 0x5000 then s.sel 1 0x5000 else 0) → key ∈ s.md.claims →
      ∃ t, exec (.releaseClaim path v) s = .next t ∧ t = { s with dict := t.dict, md := t.md } ∧ SameBytes s t ∧
        SameOd [odKey 0x2002 3 0] s t ∧ Answered path 0 t ∧ (∀ k, k ∈ t.md.claims ↔ k ∈ s.md.claims ∧ k ≠ key)) ∧
    (Accepted s path 0x2001 2 1 1 →
      ∃ t, exec (.releaseAllClaims path) s = .next t ∧ t = { s with dict := t.dict, md := t.md } ∧ SameBytes s t ∧
        SameOd [odKey 0x2002 3 0] s t ∧ Answered path 0 t ∧ t.md.claims = []) ∧
    (Accepted s path 0x1003 0 1 0 →
      ∃ t, exec (.clearErrorHistory path) s = .next t ∧ t = { s with dict := t.dict, md := t.md } ∧ SameBytes s t ∧
        SameOd [odKey 0x2002 3 0] s t ∧ Answered path 0 t ∧ t.md.errs = [])

/-- The supervisor segment (R361, R362, R364): a legal AL request enters the state, one out of order leaves it with AL status code
0x0011; when SM2's watchdog expires in Op the segment falls to Safe-Op with code 0x001B and is counted; a valid output frame in Op
whose life count has changed is applied as the supervisor's write of 0x2002:01; a port's link state is kept. Its readings that are
the model's are in log entry 98. -/
def Obligations.SupervisorSegment : Prop :=
  ∀ (s : State), Invariant s →
    (∀ r, s.alive = true → 3 ≤ s.md.st → s.md.bootMode = false →
      (alLegal s.md.al r = true →
        ∃ t, exec (.alStateRequest r) s = .next t ∧ t = { s with md := t.md } ∧ SameBytes s t ∧ t.md.al = r ∧ t.md.alCode = 0 ∧
          t.md = { s.md with al := r, alCode := 0, rxFull := t.md.rxFull }) ∧
      (alLegal s.md.al r = false →
        ∃ t, exec (.alStateRequest r) s = .next t ∧ t = { s with md := t.md } ∧ SameBytes s t ∧
          t.md = { s.md with alCode := 0x0011 })) ∧
    (s.md.al = 8 →
      ∃ t, exec .sm2WatchdogExpiry s = .next t ∧ t = { s with dict := t.dict, b2h := t.b2h, md := t.md } ∧ SameBytes s t ∧
        t.md.al = 4 ∧ t.md.alCode = 0x001B ∧ t.od 0x2002 6 = (s.od 0x2002 6 + 1) % 2 ^ 32 ∧
        SameOd [odKey 0x2002 6 0, odKey 0x2500 0x14 0] s t ∧ t.md.st = s.md.st ∧ t.md.claims = s.md.claims) ∧
    (∀ life hold, s.dictUp = true → s.md.al = 8 → s.md.rxFull = false → life < 65536 → life ≠ s.md.rxLife → hold = s.md.rxHold →
        hold < 256 → s.checkWrite 1 true 0x2002 1 2 life = none →
      ∃ t, exec (.supervisorOutputFrame true life hold) s = .next t ∧ t = { s with dict := t.dict, md := t.md } ∧ SameBytes s t ∧
        t.od 0x2002 1 = life ∧ t.od 0x2002 5 = life ∧ SameOd [odKey 0x2002 1 0, odKey 0x2002 5 0] s t ∧ t.md.rxLife = life ∧
        t.md.rxHold = s.md.rxHold) ∧
    (∀ down,
      (∃ t, exec (.supervisorPortLinkChange false down) s = .next t ∧ t = { s with md := { s.md with portA := down } } ∧
        SameBytes s t) ∧
      (∃ t, exec (.supervisorPortLinkChange true down) s = .next t ∧ t = { s with md := { s.md with portB := down } } ∧
        SameBytes s t))

/-- The module commands that change state (R350, R352, R372, R373, R374; Tables 14-4 and 14-5), from a module in service that
holds no safe state and recovers no die: Enter Decaf, Leave Decaf and Request Safe-Hold enter the state that the ranking gives and
leave the last state in 0x2000:06; Request leave Safe-Hold lifts the safe state when the island may, and is refused 0x03D8
otherwise. Its readings that are the model's are in log entry 88. -/
def Obligations.ModuleCommands : Prop :=
  ∀ (s : State) (path : Nat), Invariant s → path ≤ 1 →
    (Accepted s path 0x2000 5 1 2 → s.md.decaf = false → s.isl.safe = 0 → s.recovering = false → s.md.st ≠ 10 →
      ∃ t, exec (.enterDecaf path) s = .next t ∧
        t = { s with mem := t.mem, dict := t.dict, descs := t.descs, dies := t.dies, b2h := t.b2h, md := t.md, brd := t.brd } ∧
        t.md.decaf = true ∧ t.md.st = 10 ∧ t.od 0x2000 6 = s.md.st ∧ t.od 0x2000 7 = 0 ∧
        t.od 0x2000 0x0A = (s.od 0x2000 0x0A + 1) % 2 ^ 32 ∧ t.md.notices = (s.md.notices + 1) % 2 ^ 32 ∧ Answered path 0 t ∧
        ((∀ p, p ∈ s.descs → p.2.cls < 3) → SameBytes s t ∧ t.descs = s.descs ∧ t.dies = s.dies)) ∧
    (Accepted s path 0x2000 5 1 3 → s.md.decaf = true → s.isl.safe = 0 → s.recovering = false → s.md.st = 10 →
      ∃ t, exec (.leaveDecaf path) s = .next t ∧ t = { s with dict := t.dict, b2h := t.b2h, md := t.md, brd := t.brd } ∧
        SameBytes s t ∧ t.md.decaf = false ∧ t.od 0x2000 0x0B = 0 ∧ t.md.st = (if s.degraded then 8 else 7) ∧
        t.od 0x2000 6 = 10 ∧ Answered path 0 t) ∧
    (Accepted s path 0x2000 5 1 4 → s.isl.safe = 0 → 7 ≤ s.md.st → s.md.st ≠ 11 → s.od 0x2202 2 = 2 →
      ∃ t, exec (.requestSafeHold path) s = .next t ∧
        t = { s with free := t.free, mem := t.mem, dict := t.dict, descs := t.descs, pages := t.pages, maps := t.maps,
                     b2h := t.b2h, md := t.md, isl := t.isl, brd := t.brd } ∧
        Stopped t ∧ t.hasCause 2 = true ∧ t.md.st = 11 ∧ t.od 0x2000 6 = s.md.st ∧ Answered path 0 t ∧
        ((∀ i d, s.desc? i = some d → d.st ≠ .stopped ∧ (d.st = .waiting → d.pages = [])) → SameBytes s t ∧
          ∀ i d, s.desc? i = some d → t.desc? i = some (if 2 ≤ d.cls ∧ d.st = .waiting ∧ d.result = none then
            { d with result := some { status := 0x030C, outcome := 0x03, flags := 0 } } else d))) ∧
    (Accepted s path 0x2000 5 1 5 →
      (s.mayLift = true →
        ∃ t, exec (.requestLeaveSafeHold path) s = .next t ∧
          t = { s with mem := t.mem, dict := t.dict, descs := t.descs, dies := t.dies, b2h := t.b2h, md := t.md, isl := t.isl,
                       brd := t.brd } ∧
          t.isl.causes = 0 ∧ t.isl.safe = 0 ∧ t.isl.pinA = (s.isl.pulseA == 0) ∧ t.isl.pinB = (s.isl.pulseB == 0) ∧
          t.md.st = (if s.recovering then 9 else if s.md.decaf then 10 else if s.degraded then 8 else 7) ∧ Answered path 0 t) ∧
      (s.mayLift = false →
        ∃ t, exec (.requestLeaveSafeHold path) s = .next t ∧ t = { s with dict := t.dict, md := t.md } ∧ SameBytes s t ∧
          SameOd [odKey 0x2002 3 0] s t ∧ Answered path 0x03D8 t))

/-! ### Contexts and dispatch -/

/-- Context commands on the path's selected context (R51–R54, R485). Open puts a Closed context that passes the checks of R53 in
service with both counts at 0 and the quota and reservation its entries ask for; Pause and Resume move between Open and Paused;
Flush leaves Paused, discards what the ring holds unread and ends what waits with 0x0406; Close releases what the context holds. A
command that is not legal in the context's state is refused 0x030D and changes no context. Its readings that are the model's are
in log entries 41, 70, 117. -/
def Obligations.ContextCommands : Prop :=
  ∀ (s : State) (path c : Nat), Invariant s → path ≤ 1 → s.sel path 0x5000 = c →
    (Accepted s path 0x5000 3 1 1 → s.openCheck c = none →
      ∃ t, exec (.contextOpen path) s = .next t ∧ t = { s with dict := t.dict, ctxs := t.ctxs, md := t.md, isl := t.isl } ∧
        SameBytes s t ∧ SameOd [odKey 0x2002 3 0] s t ∧ Answered path 0 t ∧ t.isl = { s.isl with mons := t.isl.mons } ∧
        (∀ k, k ≠ c → t.ctx k = s.ctx k) ∧ (t.ctx c).st = .opened ∧ (t.ctx c).prod = 0 ∧ (t.ctx c).cons = 0 ∧
        (t.ctx c).periodAt = s.dspTime (s.home c) ∧ (t.ctx c).quota = s.od 0x5000 0x13 c ∧ (t.ctx c).used = 0 ∧
        (t.ctx c).remain = s.od 0x5000 0x13 c ∧ (t.ctx c).period = s.od 0x5000 0x14 c ∧
        (t.ctx c).rsvCl = (if s.cls c = 1 then maskClus (s.od 0x5000 0x15 c) else []) ∧
        (t.ctx c).pool = (if s.cls c ≤ 1 then s.od 0x5000 0x17 c else 0)) ∧
    (Accepted s path 0x5000 3 1 2 → (s.ctx c).st = .opened →
      ∃ t, exec (.contextPause path) s = .next t ∧ t = { s with dict := t.dict, ctxs := t.ctxs, md := t.md } ∧ SameBytes s t ∧
        SameOd [odKey 0x2002 3 0] s t ∧ Answered path 0 t ∧ (∀ k, k ≠ c → t.ctx k = s.ctx k) ∧
        t.ctx c = { s.ctx c with st := .paused }) ∧
    (Accepted s path 0x5000 3 1 3 → (s.ctx c).st = .paused →
      ∃ t, exec (.contextResume path) s = .next t ∧ t = { s with dict := t.dict, ctxs := t.ctxs, md := t.md } ∧ SameBytes s t ∧
        SameOd [odKey 0x2002 3 0] s t ∧ Answered path 0 t ∧ (∀ k, k ≠ c → t.ctx k = s.ctx k) ∧
        t.ctx c = { s.ctx c with st := .opened }) ∧
    (Accepted s path 0x5000 3 1 4 → (s.ctx c).st = .opened ∨ (s.ctx c).st = .paused →
        (∀ i d, s.desc? i = some d → d.st ≠ .stopped ∧ (d.st = .waiting → d.pages = [])) →
      ∃ t, exec (.contextFlush path) s = .next t ∧ t = { s with dict := t.dict, descs := t.descs, ctxs := t.ctxs, md := t.md } ∧
        SameBytes s t ∧ SameOd [odKey 0x2002 3 0] s t ∧ Answered path 0 t ∧ (∀ k, k ≠ c → t.ctx k = s.ctx k) ∧
        t.ctx c = { s.ctx c with st := .paused, cons := (s.ctx c).prod } ∧
        (∀ i d, s.desc? i = some d → d.st = .running → t.desc? i = some d) ∧
        (∀ i d, s.desc? i = some d → d.ctx = c → d.st = .waiting → d.result = none →
          t.desc? i = some { d with result := some { status := 0x0406, outcome := 8, flags := 0 } })) ∧
    (Accepted s path 0x5000 3 1 4 → (s.ctx c).st = .opened ∨ (s.ctx c).st = .paused →
      ∃ t, exec (.contextFlush path) s = .next t ∧
        t = { s with free := t.free, mem := t.mem, dict := t.dict, regs := t.regs, descs := t.descs, ctxs := t.ctxs,
                     pages := t.pages, maps := t.maps, md := t.md } ∧
        Answered path 0 t ∧ (t.ctx c).st = .paused ∧ (∀ k, k ≠ c → t.ctx k = s.ctx k)) ∧
    (Accepted s path 0x5000 3 1 5 → s.closable c = true →
      ∃ t, exec (.contextClose path) s = .next t ∧ Answered path 0 t ∧
        t = { s with mem := t.mem, dict := t.dict, regs := t.regs, descs := t.descs, ctxs := t.ctxs, cores := t.cores,
                     pages := t.pages, strs := t.strs, maps := t.maps, objs := t.objs, spills := t.spills, apers := t.apers,
                     stageQ := t.stageQ, md := t.md } ∧
        (∀ k, k ≠ c → t.ctx k = s.ctx k) ∧
        t.ctx c = { s.ctx c with st := .closed, rsv := [], rsvCl := [], pool := 0 } ∧
        (∀ x, (s.strm x).owner = c → (t.strm x).st = .free) ∧
        (AMap.wf s.objs = true → ∀ h, (s.obj h).owner = c → (s.obj h).st ≠ .free → (t.obj h).st = .destroying ∨ (t.obj h).st = .free) ∧
        (∀ n, (s.sdMap n).owner = c → (t.sdMap n).st = .retiring ∨ (t.sdMap n).st = .undef)) ∧
    (s.pathUp path = true → ∀ (i : Instr) (v : Nat),
        (i = .contextPause path ∧ v = 2 ∧ (s.ctx c).st ≠ .opened) ∨ (i = .contextResume path ∧ v = 3 ∧ (s.ctx c).st ≠ .paused) ∨
        (i = .contextFlush path ∧ v = 4 ∧ (s.ctx c).st ≠ .opened ∧ (s.ctx c).st ≠ .paused) ∨
        (i = .contextOpen path ∧ v = 1 ∧ (s.ctx c).st ≠ .closed) ∨ (i = .contextClose path ∧ v = 5 ∧ s.closable c = false) →
        Accepted s path 0x5000 3 1 v →
      ∃ t, exec i s = .next t ∧ t = { s with dict := t.dict, md := t.md } ∧ SameBytes s t ∧ SameOd [odKey 0x2002 3 0] s t ∧
        Answered path 0x030D t)

/-- Doorbells (R54, R60): a doorbell of the context's home die whose count is at most a ring ahead of the consumer count replaces
the producer count of an Open or Paused context; any other is dropped and counted in 0x5000:18. While the hub link of a die in
service carries nothing the doorbell waits for it (R10). -/
def Obligations.Doorbells : Prop :=
  ∀ (s : State) (die w c : Nat), Invariant s → c = w % 16384 →
    (s.home c = die → die < 4 → (s.die die).st ≠ 2 → (s.esp.st = 0 ∨ (s.od 0x2700 0x0B ≠ c ∧ s.od 0x2700 0x0C ≠ c)) →
      ((s.hubLink die = true ∨ (s.die die).running = false ∨ (s.die die).st ≠ 0) →
          (s.ctx c).st = .opened ∨ (s.ctx c).st = .paused →
          (w / 2 ^ 32 % 2 ^ 32 + 2 ^ 32 - (s.ctx c).cons) % 2 ^ 32 ≤ s.od 0x5000 0x0A c →
        ∃ t, exec (.dspDoorbellWrite die w) s = .next t ∧ t = { s with ctxs := t.ctxs } ∧ SameBytes s t ∧
          (∀ k, k ≠ c → t.ctx k = s.ctx k) ∧ t.ctx c = { s.ctx c with prod := w / 2 ^ 32 % 2 ^ 32 }) ∧
      (s.hubLink die = false → (s.die die).running = true → (s.die die).st = 0 →
        ∃ t, exec (.dspDoorbellWrite die w) s = .next t ∧ t = { s with dies := t.dies } ∧ SameBytes s t ∧
          (∀ k, k ≠ die → t.die k = s.die k) ∧
          t.die die = { s.die die with doors := (s.die die).doors ++ [(c, w / 2 ^ 32 % 2 ^ 32)] })) ∧
    ((s.home c ≠ die ∨ s.esp.st ≠ 0 ∧ (s.od 0x2700 0x0B = c ∨ s.od 0x2700 0x0C = c) ∨
        (s.hubLink die = true ∨ (s.die die).running = false ∨ (s.die die).st ≠ 0) ∧
          ((s.die (s.home c)).st = 2 ∨ ((s.ctx c).st ≠ .opened ∧ (s.ctx c).st ≠ .paused) ∨
            s.od 0x5000 0x0A c < (w / 2 ^ 32 % 2 ^ 32 + 2 ^ 32 - (s.ctx c).cons) % 2 ^ 32)) →
      ∃ t, exec (.dspDoorbellWrite die w) s = .next t ∧ t = { s with dict := t.dict } ∧ SameBytes s t ∧
        SameOd [odKey 0x5000 0x18 c] s t ∧ t.od 0x5000 0x18 c = (s.od 0x5000 0x18 c + 1) % 2 ^ 32)

/-- The slot read (R55, R58, R60, R61). It takes one slot, or two of an extended descriptor, and one sequence number. A descriptor
that fails a check, or one of whose slots had an uncorrectable error (the first slot's hides whether there is a second), is
refused: a record with the status and outcome 0x03, at its own offset where check 10 allows it and else at the fallback, and the
refusal counts, nothing else. One that passes is admitted. A context that is not Open, whose ring is read out or whose die's hub
link carries nothing is left alone. A NOP that runs completes with status 0x0000 and does nothing else (Table 03-4). Its readings
that are the model's are in log entries 5, 112. -/
def Obligations.SlotReadAndNop : Prop :=
  (∀ (s u : State) (c bad n cons seq slots words : Nat) (ecc : Bool) (d : Desc), Invariant s → c < 16384 → bad ≤ 2 →
    cons = (s.ctx c).cons → n = ((s.ctx c).prod + 2 ^ 32 - cons) % 2 ^ 32 → seq = s.od 0x5000 0x0E c →
    (((bad = 1 ∨ (s.slotAt c cons >>> 32).testBit 14 = false) ∧ slots = 1 ∧ ecc = (bad == 1) ∧ words = s.slotAt c cons) ∨
      (bad ≠ 1 ∧ (s.slotAt c cons >>> 32).testBit 14 = true ∧ slots = 2 ∧ ecc = (bad == 2) ∧
        words = s.slotAt c cons + s.slotAt c (cons + 1) * 2 ^ 512)) →
    u = (((s.setCtx c { s.ctx c with cons := (cons + slots) % 2 ^ 32 }).setOd 0x5000 0x0E ((seq + 1) % 2 ^ 32) c).bumpReg
      (baseDSP (s.home c) + 0x18)) →
    d = u.mkDesc c words →
    ((s.ctx c).st ≠ .opened ∨ n < slots ∨ s.hubLink (s.home c) = false → exec (.descriptorSlotRead c bad) s = .next s) ∧
    ((s.ctx c).st = .opened → slots ≤ n → (s.die (s.home c)).running = true → (s.die (s.home c)).st = 0 →
        s.hubLink (s.home c) = true →
      (∀ st job off, (ecc = true ∧ st = 0x0501 ∧ job = s.od 0x5000 5 c ∧ off = s.od 0x5000 0x0D c) ∨
          (ecc = false ∧ u.check d seq = some st ∧ job = d.job ∧
            off = if u.recOk c d.recOff then d.recOff else s.od 0x5000 0x0D c) →
        s.verOf c = none → s.watched c = false → off + 32 ≤ hubSize →
        ∃ t, exec (.descriptorSlotRead c bad) s = .next t ∧
          t = { s with mem := t.mem, dict := t.dict, regs := t.regs, ctxs := t.ctxs } ∧
          (∀ k, k ≠ c → t.ctx k = s.ctx k) ∧ t.ctx c = { s.ctx c with cons := (cons + slots) % 2 ^ 32 } ∧
          t.od 0x5000 0x0E c = (seq + 1) % 2 ^ 32 ∧ t.od 0x5000 0x19 c = (s.od 0x5000 0x19 c + 1) % 2 ^ 32 ∧
          t.od 0x2A00 3 = (s.od 0x2A00 3 + 1) % 2 ^ 32 ∧
          SameOd [odKey 0x5000 0x0E c, odKey 0x5000 0x19 c, odKey 0x2A00 3 0] s t ∧
          SameRegs [baseDSP (s.home c) + 0x18, baseDSP (s.home c) + 0x20] s t ∧ SameBytesBut (hub off) 32 s t ∧
          (∀ k, k < 32 → t.byteAt (hub off + k) =
            (recordBytes st 3 0 (if ecc then seq else d.seq) 0 0 0 0 c true 0 job).getD k 0)) ∧
      (ecc = false → u.check d seq = none →
        ∃ t, exec (.descriptorSlotRead c bad) s = .next t ∧ t.ctxs = u.ctxs ∧ t.nextId = s.nextId + 1 ∧ t.cores = s.cores ∧
          ∃ e, t.desc? s.nextId = some e ∧ e.ctx = c ∧ e.words = words ∧ e.seq = seq ∧ e.start = s.dspTime (s.home c) ∧
            e.die = s.home c ∧ e.cls = d.cls ∧ e.job = d.job ∧ e.recOff = d.recOff))) ∧
  (∀ (s : State) (id : Nat) (d : Desc), Invariant s → s.desc? id = some d → d.st = .running → d.result = none → d.op = 0x0F00 →
    ∃ t, exec (.nop id) s = .next t ∧ t = { s with descs := t.descs } ∧ SameBytes s t ∧
      t.desc? id = some { d with result := some { status := 0, outcome := 0, flags := 0 } } ∧
      ∀ j, j ≠ id → t.desc? j = s.desc? j)

/-- Placement (R59, R66–R68) of a descriptor that alone waits on its die. Where enough free cores remain its gang gets them, those
that last ran its context first, and it runs from this instant; where too few are free it stays, cores that become free are held
for it, and it is told why; and what bars it otherwise is its delay reason, with an interim record of its own where that turns
waiting into a pause (R73, R75). What an operation does at its placement comes first, and may end it there or make it wait. A gang
that has been asked to stop (R69, R73). Where its save area can be held it gives up its cores and waits with a delay reason of its
own; where a spill can make the room it goes on stopping until it has (R280); else a B gang or one that is paused or forced is
evicted 0x0405, and a D gang goes on. Its readings that are the model's are in log entries 39, 40, 110. -/
def Obligations.Gangs : Prop :=
  (∀ (s : State) (die id : Nat) (d : Desc) (free : List Nat), Invariant s → (s.die die).running = true → (s.die die).st = 0 →
    s.waitOrder die = [id] → s.desc? id = some d → d.die = die → d.st = .waiting → d.save = none →
    free = s.freeFor d.ctx d.cls die →
    (s.blocker id d = none → s.unitOf d = .cores → 2 ≤ d.cls → pinCoreOf s d = none →
      d.op ≠ 0x0030 → d.op ≠ 0x0100 → d.op ≠ 0x0110 → d.op ≠ 0x0120 → d.op ≠ 0x0200 → d.op ≠ 0x0210 → d.op ≠ 0x0220 →
      d.op ≠ 0x0300 → d.op ≠ 0x0310 → d.op ≠ 0x0410 →
      (s.gangOf d ≤ free.length →
        ∃ t, exec (.gangPlacement die) s = .next t ∧
          t = { s with dict := t.dict, descs := t.descs, clus := t.clus, dies := t.dies, isl := t.isl, gov := t.gov } ∧ SameBytes s t ∧
          (∀ j, j ≠ id → t.desc? j = s.desc? j) ∧
          t.desc? id = some { d with st := .running, cores := s.prefer d.ctx free (s.gangOf d), placedAt := s.dspTime die,
                                     delays := d.delaysAt (s.dspTime die), since := s.dspTime die, why := .none } ∧
          (t.die die).head = none) ∧
      (free.length < s.gangOf d →
        ∃ t, exec (.gangPlacement die) s = .next t ∧ t = { s with descs := t.descs, dies := t.dies } ∧ SameBytes s t ∧
          (t.die die).head = some id ∧
          ∃ e, t.desc? id = some e ∧ e.st = .waiting ∧ e.reason = s.shortReason d ∧ e.waited = true ∧ e.result = d.result)) ∧
    (∀ x e, s.blocker id d = none → s.unitOf d = .cores → 2 ≤ d.cls → pinCoreOf s d = none → d.op ≠ 0x0210 →
        s.gangOf d ≤ free.length → x.desc? id = some e →
      (s.placeHook id d = .ok x →
        ∃ t f, exec (.gangPlacement die) s = .next t ∧ t.desc? id = some f ∧ f.st = .running ∧
          f.cores = s.prefer d.ctx free (s.gangOf d) ∧ f.result = e.result ∧ f.aux = e.aux ∧ f.words = e.words) ∧
      (∀ st, s.placeHook id d = .fault x st →
        ∃ t f, exec (.gangPlacement die) s = .next t ∧ t.desc? id = some f ∧
          f.result = some { status := st, outcome := 0, flags := 0 }) ∧
      (∀ r, s.placeHook id d = .wait x r → e.st = .waiting →
        ∃ t f, exec (.gangPlacement die) s = .next t ∧ t.desc? id = some f ∧ f.st = .waiting ∧ f.result = e.result ∧ f.waited = true)) ∧
    (∀ r, s.blocker id d = some r → d.recOff + 32 ≤ hubSize →
      (d.pausedBy r = d.pausedBy d.reason →
        ∃ t, exec (.gangPlacement die) s = .next t ∧ t = { s with descs := t.descs, dies := t.dies } ∧ SameBytes s t ∧
          (∀ j, j ≠ id → t.desc? j = s.desc? j) ∧
          t.desc? id = some { d.setReason (s.dspTime die) r with waited := true }) ∧
      (d.pausedBy r = true → d.pausedBy d.reason = false → s.hubLink die = true →
        ∃ t e, exec (.gangPlacement die) s = .next t ∧ t = { s with mem := t.mem, descs := t.descs, dies := t.dies } ∧
          (∀ j, j ≠ id → t.desc? j = s.desc? j) ∧ e = { d.setReason (s.dspTime die) r with waited := true } ∧
          t.desc? id = some { e with epAt := s.dspTime die, interim := true } ∧ SameBytesBut (hub d.recOff) 32 s t ∧
          (∀ k, k < 32 → t.byteAt (hub d.recOff + k) =
            (recordBytes 0x0211 6 0 d.seq (s.dspTime die - d.start) (e.delayAt (s.dspTime die)) r d.coreNo d.ctx false 0
              d.job).getD k 0)) ∧
      (d.pausedBy r = false → d.pausedBy d.reason = true →
        ∃ t, exec (.gangPlacement die) s = .next t ∧ t = { s with descs := t.descs, dies := t.dies } ∧ SameBytes s t ∧
          (∀ j, j ≠ id → t.desc? j = s.desc? j) ∧
          t.desc? id = some { d.setReason (s.dspTime die) r with waited := true, epAt := s.dspTime die, interim := false }))) ∧
  (∀ (s : State) (id bytes size : Nat) (d : Desc) (m : Option (Nat × State)) (w : Option State), Invariant s → s.desc? id = some d → d.st = .running →
    d.why ≠ .none → d.result = none →
    size = max 1 ((if d.op = 0x0300 ∨ d.op = 0x0310 then 32768 * d.cores.length else 0) +
      min bytes ((d.cores.length + 1) * 1056768)) →
    m = s.makeObj 8 d.ctx d.die size (roundUp size 65536) (decide (d.why ≠ .reset)) →
    w = s.makeSpill d.ctx d.die (roundUp size 65536) (decide (d.why ≠ .reset)) →
    (∀ h x, m = some (h, x) →
      ∃ t e, exec (.preemptedGangStop id bytes) s = .next t ∧
        t = { s with free := t.free, mem := t.mem, dict := t.dict, regs := t.regs, descs := t.descs, ctxs := t.ctxs, cores := t.cores,
                     clus := t.clus, dies := t.dies, pages := t.pages, objs := t.objs } ∧
        t.desc? id = some e ∧ e.st = .stopped ∧ e.cores = [] ∧ e.was = d.cores ∧ e.save = some h ∧ e.preempted = true ∧ e.reason = stopReason d.why ∧
        e.why = .none ∧ e.result = none ∧ (∀ j, j ≠ id → t.desc? j = s.desc? j) ∧ (∀ k, k ≠ d.ctx → t.ctx k = s.ctx k) ∧
        (t.obj h).st = .present ∧ (t.obj h).kind = 8 ∧ (t.obj h).owner = d.ctx ∧
        t.reg (baseDSP d.die + 0x28) = (x.reg (baseDSP d.die + 0x28) + 1) % 2 ^ 64) ∧
    (∀ x, m = none → w = some x → exec (.preemptedGangStop id bytes) s = .next x) ∧
    (m = none → w = none → d.cls = 4 ∨ d.why ≠ .preempt →
      ∃ t e, exec (.preemptedGangStop id bytes) s = .next t ∧ t.desc? id = some e ∧
        e.result = some { status := 0x0405, outcome := 7, flags := 0 } ∧ e.why = .none ∧
        t.reg (baseDSP d.die + 0x30) = (s.reg (baseDSP d.die + 0x30) + 1) % 2 ^ 64) ∧
    (m = none → w = none → d.cls ≠ 4 → d.why = .preempt →
      ∃ t, exec (.preemptedGangStop id bytes) s = .next t ∧ t = { s with descs := t.descs } ∧ SameBytes s t ∧
        t.desc? id = some { d with why := .none } ∧ ∀ j, j ≠ id → t.desc? j = s.desc? j))

/-- The final record (R74, R425, R445). The descriptor is no longer outstanding. For one that needs no verdict, is watched by no
monitor or frame and starts no job abort: its 32 bytes go to its record offset, its job's entry of the energy ledger gains what it
used while the ledger runs, its context is charged, and nothing else of memory changes. Its readings that are the model's are in
log entry 61. -/
def Obligations.FinalRecord : Prop :=
  ∀ (s : State) (id energy : Nat) (d : Desc) (r : Result), Invariant s → s.desc? id = some d → d.result = some r →
    (s.mayFinish d = true →
      ∃ t, exec (.descriptorFinalRecord id energy) s = .next t ∧ t.desc? id = none) ∧
    (∀ now st oc e led : Nat, s.mayFinish d = true → d.st = .running → s.verOf d.ctx = none → s.watched d.ctx = false →
      (s.ctx d.ctx).st = .opened → now = s.dspTime d.die → st = s.doneStatus d r.status → oc = d.outcomeOf r st →
      startsAbort st oc = false → oc ≠ 3 → oc ≠ 5 → isTierFault st = false → d.recOff + 32 ≤ hubSize →
      e = (if s.ledger then min energy (2 ^ 32 - 1) else 0) → led = s.od 0x2100 0x0E + 8 * (d.job % 4096) → led + 8 ≤ hubSize →
      (led + 8 ≤ d.recOff ∨ d.recOff + 32 ≤ led) →
      ∃ t, exec (.descriptorFinalRecord id energy) s = .next t ∧
        t = { s with free := t.free, mem := t.mem, dict := t.dict, descs := t.descs, ctxs := t.ctxs, cores := t.cores, clus := t.clus,
                     objs := t.objs, pages := t.pages, rcv := t.rcv } ∧
        t.desc? id = none ∧ (∀ j, j ≠ id → t.desc? j = s.desc? j) ∧
        (∀ b, isRegSpace b = false → (∀ i, i < 32 → s.loc (hub d.recOff + i) ≠ s.loc b) →
          (s.ledger = true → ∀ i, i < 8 → s.loc (hub led + i) ≠ s.loc b) → t.byteAt b = s.byteAt b) ∧
        (∀ k, k < 32 → t.byteAt (hub d.recOff + k) =
          (recordBytes st oc (s.eventFlags d r).1 d.seq (now - d.start) (d.delayAt now) (if d.replays = 2 then 0x08 else d.mainReason now) d.coreNo
            d.ctx true e d.job).getD k 0) ∧
        (r.outcome < 7 → (s.eventFlags d r).1 = r.flags ∧ t.free = s.free) ∧
        (s.ledger = true → t.rdHub led 8 = (s.rdHub led 8 + e) % 2 ^ 64) ∧
        (∀ n, n ∈ d.cores → (t.core n).last = d.ctx) ∧
        (t.ctx d.ctx).used = (s.ctx d.ctx).used + d.cores.length * (now - d.since))

/-- What time brings to a descriptor and its context: an interim record for one that has waited past the report threshold (R75),
kept while the hub link carries nothing (R10), an end or a mark when its deadline passes (R71), a fresh quota at a period's start
with the overdraft carried (R64), and a fresh share window (R65). Its readings that are the model's are in log entry 8. -/
def Obligations.TimeOnDescriptors : Prop :=
  ∀ (s : State) (id c die : Nat) (d : Desc), Invariant s →
    (s.desc? id = some d → d.delayed = true → d.interim = false → d.result = none → s.od 0x2A00 4 ≠ 0 →
        s.od 0x2A00 4 < s.dspTime d.die - d.epAt → d.recOff + 32 ≤ hubSize →
      (s.hubLink d.die = true →
        ∃ t, exec (.interimRecord id) s = .next t ∧ t = { s with mem := t.mem, descs := t.descs } ∧
          t.desc? id = some { d with interim := true } ∧ (∀ j, j ≠ id → t.desc? j = s.desc? j) ∧
          SameBytesBut (hub d.recOff) 32 s t ∧
          (∀ k, k < 32 → t.byteAt (hub d.recOff + k) =
            (recordBytes 0x0210 1 0 d.seq (s.dspTime d.die - d.start) (d.delayAt (s.dspTime d.die)) d.reason d.coreNo d.ctx false 0
              d.job).getD k 0)) ∧
      (s.hubLink d.die = false →
        ∃ t, exec (.interimRecord id) s = .next t ∧ t = { s with descs := t.descs, dies := t.dies } ∧ SameBytes s t ∧
          t.desc? id = some { d with interim := true } ∧ (t.die d.die).notes.length = (s.die d.die).notes.length + 1)) ∧
    (s.desc? id = some d → d.due ≠ 0 → d.due ≤ s.dspTime d.die → d.result = none →
      (3 ≤ d.cls → d.notice = true →
        ∃ t, exec (.descriptorDeadlinePass id) s = .next t ∧ t = { s with descs := t.descs } ∧ SameBytes s t ∧
          t.desc? id = some { d with late := true } ∧ ∀ j, j ≠ id → t.desc? j = s.desc? j) ∧
      (d.st = .waiting → d.pages = [] → (d.cls < 3 ∨ d.notice = false) →
        ∃ t, exec (.descriptorDeadlinePass id) s = .next t ∧ t = { s with descs := t.descs } ∧ SameBytes s t ∧
          t.desc? id = some { d with result := some (if d.cls = 2 then { status := 0x0313, outcome := 5, flags := 0 }
            else { status := 0x0401, outcome := 8, flags := 0 }) } ∧
          ∀ j, j ≠ id → t.desc? j = s.desc? j) ∧
      ((d.cls < 3 ∨ d.notice = false) →
        ∃ t e, exec (.descriptorDeadlinePass id) s = .next t ∧ t.desc? id = some e ∧
          e.result = some (if d.cls = 2 ∧ d.st = .waiting then { status := 0x0313, outcome := 5, flags := 0 }
            else { status := 0x0401, outcome := 8, flags := 0 }))) ∧
    ((s.ctx c).st ≠ .closed → (s.ctx c).periodAt + (s.ctx c).period ≤ s.dspTime (s.home c) → (∀ p, p ∈ s.descs → p.2.st ≠ .running) →
      ∃ t, exec (.quotaPeriodStart c) s = .next t ∧ t = { s with ctxs := t.ctxs } ∧ SameBytes s t ∧
        (∀ k, k ≠ c → t.ctx k = s.ctx k) ∧
        t.ctx c = { s.ctx c with periodAt := (s.ctx c).periodAt + (s.ctx c).period, period := s.od 0x5000 0x14 c,
                                 quota := s.od 0x5000 0x13 c,
                                 remain := s.od 0x5000 0x13 c + (if (s.ctx c).quota = 0 then 0 else min 0 (s.ctx c).remain) }) ∧
    ((s.ctx c).st ≠ .closed → (s.ctx c).periodAt + (s.ctx c).period ≤ s.dspTime (s.home c) →
      ∃ t, exec (.quotaPeriodStart c) s = .next t ∧ t = { s with dict := t.dict, descs := t.descs, ctxs := t.ctxs } ∧
        (t.ctx c).periodAt = (s.ctx c).periodAt + (s.ctx c).period) ∧
    ((s.die die).running = true → (s.die die).windowAt + (s.die die).windowLen ≤ s.dspTime die →
        (∀ p, p ∈ s.descs → p.2.st ≠ .running) →
      ∃ t, exec (.shareWindowStart die) s = .next t ∧ t = { s with ctxs := t.ctxs, dies := t.dies } ∧ SameBytes s t ∧
        (∀ k, k ≠ die → t.die k = s.die k) ∧
        t.die die = { s.die die with windowAt := (s.die die).windowAt + (s.die die).windowLen, windowLen := s.od 0x2A00 2 } ∧
        (∀ k, (s.ctx k).st ≠ .closed → s.home k = die →
          t.ctx k = { s.ctx k with used := 0, owed := if s.cls k = 3 then s.owedFor k die (s.od 0x2A00 2) else 0 }) ∧
        (∀ k, s.home k ≠ die → t.ctx k = s.ctx k)) ∧
    ((s.die die).running = true → (s.die die).windowAt + (s.die die).windowLen ≤ s.dspTime die →
      ∃ t, exec (.shareWindowStart die) s = .next t ∧ t = { s with dict := t.dict, descs := t.descs, ctxs := t.ctxs, dies := t.dies } ∧
        (t.die die).windowAt = (s.die die).windowAt + (s.die die).windowLen)

/-! ### Dense operations -/

/-- Every dense operation that runs completes (R85–R112), unless its accesses end it, at an address whose grant is revoked
(0x0540, R20) or at a recorded error (0x05A0, R283): its descriptor gets its result and no other descriptor changes, no byte
outside the ranges its check granted for writing changes, and the status is 0x0000, or 0x0541 where sparse metadata names no pair
(R84), 0x0121 where a gather index is out of range (R106), 0x0120 where a chain waited too long (R99). A convolution chain that
runs completes (R93–R100), with 0x0120 where a wait for row flags was noticed, or 0x0541 for sparse metadata that names no pair; a
wait for row flags of over 100 µs is counted and noticed once the chain ends. Its readings that are the model's are in log entries
5, 37. -/
def Obligations.DenseOperations : Prop :=
  (∀ (s : State) (id : Nat) (d : Desc) (i : Instr), Invariant s → s.desc? id = some d → d.st = .running → d.result = none →
    ((i = .gemm id ∧ d.op = 0x0001) ∨ (i = .elementwise id ∧ d.op = 0x0010) ∨ (i = .normalise id ∧ d.op = 0x0018) ∨
      (i = .pool id ∧ d.op = 0x0020) ∨ (i = .gatherRows id ∧ d.op = 0x0040) ∨ (i = .channelArgMax id ∧ d.op = 0x0050) ∨
      (i = .boxDecode id ∧ d.op = 0x0058) ∨ (i = .tokenSampling id ∧ d.op = 0x0060) ∨ (i = .tilePack id ∧ d.op = 0x0070)) →
    (∀ st, s.stopOf d = some st →
      ∃ t e, exec i s = .next t ∧ t.desc? id = some e ∧ e.result = some { status := st, outcome := 9, flags := 0 }) ∧
    (s.stopOf d = none → ∃ t r, exec i s = .next t ∧
      t = { s with free := t.free, mem := t.mem, dict := t.dict, regs := t.regs, descs := t.descs } ∧
      SameOd [odKey (0x4200 + d.die) 0x21 0, odKey (0x4200 + d.die) 0x22 0] s t ∧
      t.desc? id = some { d with result := some r } ∧ r.outcome = 0 ∧ (∀ j, j ≠ id → t.desc? j = s.desc? j) ∧
      (∀ b, isRegSpace b = false →
        (∀ g, g ∈ s.rngsOf d → g.wr = true → ∀ k, k < g.n → s.loc (g.a + k) ≠ s.loc b) → t.byteAt b = s.byteAt b) ∧
      (s.regReads d = [] → t.regs = s.regs ∧
        r.status = (if d.op = 0x0001 then
            (if (d.f 61 1).testBit 1 = true ∧ s.sparseOk (d.f 60 1) (d.f 30 6) (d.f 52 4) (d.f 56 4) = false then 0x0541 else 0)
          else if d.op = 0x0040 then (if gatherBad s d = 0 then 0 else 0x0121) else 0)))) ∧
  (∀ (s : State) (id ns : Nat) (d : Desc), Invariant s → s.desc? id = some d → d.st = .running → d.result = none → d.op = 0x0030 →
    s.stopOf d = none →
    (∃ t r, exec (.convolutionChain id) s = .next t ∧
      t = { s with free := t.free, mem := t.mem, dict := t.dict, regs := t.regs, descs := t.descs } ∧
      t.desc? id = some { d with result := some r } ∧ r.outcome = 0 ∧ (∀ j, j ≠ id → t.desc? j = s.desc? j) ∧
      SameOd [odKey (0x4200 + d.die) 0x21 0] s t ∧
      (s.regReads d = [] → t.regs = s.regs ∧
        r.status = (if convSparseOk s d.tbl = false then 0x0541 else if d.stage = 1 then 0x0120 else 0))) ∧
    (d.f 53 1 % 2 = 1 →
      (100000 < ns → ∃ t, exec (.haloFlagWaitEnd id ns) s = .next t ∧ t = { s with dict := t.dict, descs := t.descs } ∧ SameBytes s t ∧
        SameOd [odKey (0x4200 + d.die) 0x20 0] s t ∧
        t.od (0x4200 + d.die) 0x20 = (s.od (0x4200 + d.die) 0x20 + 1) % 2 ^ 32 ∧
        t.desc? id = some { d with stage := 1 } ∧ ∀ j, j ≠ id → t.desc? j = s.desc? j) ∧
      (ns ≤ 100000 → exec (.haloFlagWaitEnd id ns) s = .next s)))

/-- Elementwise addition of INT32 matrices (R35, R101; Table 04-10) adds modulo 2^32, element by element in tile form, whatever
the shape; the record's flags stay clear. A GEMM of INT8 matrices into INT32, without bias, residual or sparsity, and of a depth
at which no order of accumulation can saturate, is exact (R32, R90, R92): each element of the output is the sum of the products of
a row of A and a row of B. Its readings that are the model's are in log entry 37. -/
def Obligations.IntegerResults : Prop :=
  (∀ (s : State) (id r j : Nat) (d : Desc), Invariant s → s.desc? id = some d → d.st = .running → d.result = none → d.op = 0x0010 →
    s.stopOf d = none → d.f 56 1 = 1 → d.inF = 13 → d.outF = 13 → d.f 57 1 = 13 → d.f 59 1 = 0 →
    d.f 24 6 + matBytes 13 false (d.f 48 4) (d.f 52 4) ≤ 2 ^ 36 → d.f 30 6 + matBytes 13 false (d.f 48 4) (d.f 52 4) ≤ 2 ^ 36 →
    d.f 42 6 + matBytes 13 false (d.f 48 4) (d.f 52 4) ≤ 2 ^ 36 → r < d.f 48 4 → j < d.f 52 4 →
    ∃ t, exec (.elementwise id) s = .next t ∧
      t.desc? id = some { d with result := some { status := 0, outcome := 0, flags := 0 } } ∧
      t.rd (tileAt 13 false (d.f 42 6) (d.f 52 4) r j + 4 * (r % 32 * 32 + j % 32)) 4 =
        (s.rd (tileAt 13 false (d.f 24 6) (d.f 52 4) r j + 4 * (r % 32 * 32 + j % 32)) 4 +
          s.rd (tileAt 13 false (d.f 30 6) (d.f 52 4) r j + 4 * (r % 32 * 32 + j % 32)) 4) % 2 ^ 32) ∧
  (∀ (s : State) (id i j : Nat) (d : Desc), Invariant s → s.desc? id = some d → d.st = .running → d.result = none → d.op = 0x0001 →
    s.stopOf d = none → d.inF = 11 → d.f 60 1 = 11 → d.outF = 13 → d.f 61 1 = 0 → d.f 56 4 ≤ 131071 →
    d.f 24 6 + matBytes 11 false (d.f 48 4) (d.f 56 4) ≤ 2 ^ 36 → d.f 30 6 + matBytes 11 false (d.f 52 4) (d.f 56 4) ≤ 2 ^ 36 →
    d.f 36 6 + matBytes 13 false (d.f 48 4) (d.f 52 4) ≤ 2 ^ 36 → i < d.f 48 4 → j < d.f 52 4 →
    ∃ t, exec (.gemm id) s = .next t ∧
      t.desc? id = some { d with result := some { status := 0, outcome := 0, flags := 0 } } ∧
      toSigned 32 (t.rd (tileAt 13 false (d.f 36 6) (d.f 52 4) i j + 4 * (i % 32 * 32 + j % 32)) 4) =
        ((List.range (d.f 56 4)).map (fun c =>
          toSigned 8 (s.byteAt (tileAt 11 false (d.f 24 6) (d.f 56 4) i c + (i % 32 * 32 + c % 32))).toNat *
            toSigned 8 (s.byteAt (tileAt 11 false (d.f 30 6) (d.f 56 4) j c + (j % 32 * 32 + c % 32))).toNat)).sum)

/-! ### Attention and the key-value cache -/

/-- Fused attention and the partial merge that run complete with 0x0000, or 0x0130 where some row sees no position, which is
counted (R126–R132); they write no byte outside the range their check granted, and the pages attention reads are as old as that
(R120). Its readings that are the model's are in log entries 37, 61. -/
def Obligations.AttentionAndMerge : Prop :=
  ∀ (s : State) (id : Nat) (d : Desc) (i : Instr), Invariant s → s.desc? id = some d → d.st = .running → d.result = none →
    s.stopOf d = none →
    ((i = .fusedAttention id ∧ d.op = 0x0100 ∧ (attnGeom d).hd % 32 = 0) ∨ (i = .partialMerge id ∧ d.op = 0x0108)) →
    ∃ t r, exec i s = .next t ∧
      t = { s with free := t.free, mem := t.mem, dict := t.dict, regs := t.regs, descs := t.descs, pages := t.pages } ∧
      (∀ h, t.page h = if i = .fusedAttention id ∧ h ∈ d.pages ∧ (s.page h).st ≠ .free then { s.page h with stamp := s.carTime }
        else s.page h) ∧
      t.desc? id = some { d with result := some r } ∧ r.outcome = 0 ∧ (r.status = 0 ∨ r.status = 0x0130) ∧
      (∀ j, j ≠ id → t.desc? j = s.desc? j) ∧ SameOd [odKey (0x4200 + d.die) 0x30 0] s t ∧
      (r.status = 0 → t.od (0x4200 + d.die) 0x30 = s.od (0x4200 + d.die) 0x30) ∧ (s.regReads d = [] → t.regs = s.regs) ∧
      (∀ b, isRegSpace b = false →
        (∀ g, g ∈ s.rngsOf d → g.wr = true → ∀ k, k < g.n → s.loc (g.a + k) ≠ s.loc b) → t.byteAt b = s.byteAt b)

/-- Cache append and refill that run (R135, R136): each page written gets its fill and loses its claim, no other page changes, the
list's valid count is what the append makes it, and a refill writes nothing but page backing; a refilled page is Present once its
fill is back. `hs` are the handles fixed at placement, group by group. Its readings that are the model's are in log entry 29. -/
def Obligations.CacheAppendAndRefill : Prop :=
  ∀ (s : State) (id per i0 fin : Nat) (d : Desc) (g : KvGeom) (hs : List Nat), Invariant s → s.desc? id = some d →
    d.st = .running → d.result = none → d.op = 0x0110 → s.stopOf d = none → g = appGeom d → per = d.aux.getD 2 0 →
    fin = d.f 48 4 + d.f 52 4 → hs.Nodup → hs.length = g.groups * per →
    (appRefill d = false → (List.range g.groups).all (fun q =>
          s.grantedFor d ⟨plSlot (d.f 36 6) (d.tbl.headD 0) q (d.aux.getD 1 0), 4 * (ceilDiv fin g.pt - d.aux.getD 1 0), true, false⟩) = false →
      ∃ t e, exec (.cacheAppend id) s = .next t ∧ t.desc? id = some e ∧
        e.result = some { status := 0x0540, outcome := 9, flags := 0 }) ∧
    (appRefill d = false → hs = d.aux.drop (4 + d.aux.getD 3 0) → i0 = min (d.f 48 4 / g.pt) (d.aux.getD 1 0) →
        (List.range g.groups).all (fun q =>
          s.grantedFor d ⟨plSlot (d.f 36 6) (d.tbl.headD 0) q (d.aux.getD 1 0), 4 * (ceilDiv fin g.pt - d.aux.getD 1 0), true, false⟩) = true →
      ∃ t fl, exec (.cacheAppend id) s = .next t ∧
        t = { s with mem := t.mem, regs := t.regs, descs := t.descs, pages := t.pages } ∧
        t.desc? id = some { d with result := some { status := 0, outcome := 0, flags := fl } } ∧
        (∀ j, j ≠ id → t.desc? j = s.desc? j) ∧ (∀ h, h ∉ hs → t.page h = s.page h) ∧
        (∀ q j, q < g.groups → j < per → (t.page (hs.getD (q * per + j) 0)).fill = min g.pt (fin - (i0 + j) * g.pt) ∧
          (t.page (hs.getD (q * per + j) 0)).claim = none ∧
          (t.page (hs.getD (q * per + j) 0)).refs = (s.page (hs.getD (q * per + j) 0)).refs) ∧
        (d.f 36 6 + 4 ≤ 2 ^ 36 → t.rd (d.f 36 6) 4 = ceilDiv fin g.pt % 2 ^ 32)) ∧
    (appRefill d = true → hs = d.aux.drop 4 → i0 = d.f 48 4 / g.pt →
      (∀ u x, refillBack d.pages s = (0, u) → x = u.spillWaited id → (∀ e, x.desc? id = some e → x.stopOf e = none) →
        ∃ t e fl, exec (.cacheRefill id) s = .next t ∧ t = { u with mem := t.mem, regs := t.regs, descs := t.descs, pages := t.pages } ∧
          t.desc? id = some e ∧ e.result = some { status := 0, outcome := 0, flags := fl } ∧
          (∀ j, j ≠ id → t.desc? j = s.desc? j) ∧ (∀ h, h ∉ hs → t.page h = u.page h) ∧
          (∀ b, b < 2 ^ 48 → isRegSpace b = false → t.byteAt b = u.byteAt b) ∧
          ((∀ h, h ∈ d.pages → (s.page h).st ≠ .absent) → u = s) ∧
          (∀ q j, q < g.groups → j < per → (t.page (hs.getD (q * per + j) 0)).fill = min g.pt (fin - (i0 + j) * g.pt) ∧
            (t.page (hs.getD (q * per + j) 0)).claim = none ∧
            (t.page (hs.getD (q * per + j) 0)).st =
              (if (u.page (hs.getD (q * per + j) 0)).goal ≤ min g.pt (fin - (i0 + j) * g.pt) then .present else .refilling))) ∧
      (∀ n u, n ≠ 0 → refillBack d.pages s = (n, u) →
        (∀ x, u.pageSpill d.ctx 4 n = some x →
          ∃ t e, exec (.cacheRefill id) s = .next t ∧ t = { x with descs := t.descs } ∧ t.desc? id = some e ∧ e.result = none) ∧
        (u.pageSpill d.ctx 4 n = none →
          ∃ t e, exec (.cacheRefill id) s = .next t ∧ t.desc? id = some e ∧
            e.result = some { status := 0x0545, outcome := 9, flags := 0 })))

/-- Page handle operations (R115, R121, R124, R125). Allocate gives as many new handles as it is asked for, all or none, each
Present with one reference and nothing filled, and writes them to the list; it waits while a spill makes room and faults 0x0545
without a cache; what was dropped to make room stays dropped (R281). Share and release go by the handles that the list named at
placement: of distinct live handles they add and take one reference, and a page that nothing refers to or holds is Free. Query
writes the records that it read at placement and changes no page. Its readings that are the model's are in log entries 28, 29, 31.
-/
def Obligations.PageOperations : Prop :=
  ∀ (s : State) (id n : Nat) (d : Desc) (a : Option (List Nat) × State), Invariant s → s.desc? id = some d → d.st = .running →
    d.result = none → d.op = 0x0120 → s.stopOf d = none → n = d.f 36 4 →
    a = allocPages d.ctx (d.f 41 1) ((List.range n).map (fun _ => 0)) s →
    (d.f 40 1 = 1 →
      (s.hasCache d.ctx = true → a.1.isSome = true → d.f 24 6 + 4 * n ≤ 2 ^ 36 →
        ∃ (t : State) (hs : List Nat) (e : Desc), exec (.pageAllocate id) s = .next t ∧
          t = { s with mem := t.mem, dict := t.dict, regs := t.regs, descs := t.descs, pages := t.pages, objs := t.objs } ∧
          t.desc? id = some e ∧ e.result = some { status := 0, outcome := 0, flags := 0 } ∧ (∀ j, j ≠ id → t.desc? j = s.desc? j) ∧
          a.1 = some hs ∧ hs.length = n ∧ hs.Nodup ∧
          (∀ h, h ∈ hs → (s.page h).st = .free ∧ (t.page h).st = .present ∧ (t.page h).refs = 1 ∧ (t.page h).fill = 0 ∧
            (t.page h).owner = d.ctx ∧ (t.page h).claim = none) ∧
          (∀ i, i < n → t.rd (d.f 24 6 + 4 * i) 4 = hs.getD i 0)) ∧
      (s.hasCache d.ctx = true → a.1 = none → ∀ u, a.2.pageSpill d.ctx (d.f 41 1) n = some u →
        ∃ t e, exec (.pageAllocate id) s = .next t ∧ t = { u with descs := t.descs } ∧ t.desc? id = some e ∧ e.result = none) ∧
      (s.hasCache d.ctx = true → a.1 = none → a.2.pageSpill d.ctx (d.f 41 1) n = none →
        ∃ t e, exec (.pageAllocate id) s = .next t ∧ t = { a.2 with descs := t.descs } ∧ t.desc? id = some e ∧
          e.result = some { status := 0x0545, outcome := 0, flags := 0 }) ∧
      (s.hasCache d.ctx = false →
        ∃ t e, exec (.pageAllocate id) s = .next t ∧ t = { s with descs := t.descs } ∧ SameBytes s t ∧ t.desc? id = some e ∧
          e.result = some { status := 0x0545, outcome := 0, flags := 0 })) ∧
    (s.regReads d = [] → d.tbl.Nodup →
      (d.f 40 1 = 2 → (∀ h, h ∈ d.tbl → h < 1048576 ∧ (s.page h).st ≠ .free ∧ (s.page h).refs < 65534) →
        ∃ t, exec (.pageShare id) s = .next t ∧ t = { s with descs := t.descs, pages := t.pages } ∧ SameBytes s t ∧
          t.desc? id = some { d with result := some { status := 0, outcome := 0, flags := 0 } } ∧
          (∀ h, t.page h = if h ∈ d.tbl then { s.page h with refs := (s.page h).refs + 1 } else s.page h)) ∧
      (d.f 40 1 = 3 → (∀ h, h ∈ d.tbl → h < 1048576 ∧ (s.page h).st ≠ .free ∧ 1 ≤ (s.page h).refs ∧ (s.page h).refs < 65535) →
        ∃ t, exec (.pageRelease id) s = .next t ∧ t = { s with mem := t.mem, descs := t.descs, pages := t.pages } ∧
          (∀ b, b < 2 ^ 48 → isRegSpace b = false → t.byteAt b = s.byteAt b) ∧
          t.desc? id = some { d with result := some { status := 0, outcome := 0, flags := 0 } } ∧
          (∀ h, h ∉ d.tbl → t.page h = s.page h) ∧
          (∀ h, h ∈ d.tbl → (2 ≤ (s.page h).refs → (t.page h).refs = (s.page h).refs - 1) ∧
            ((s.page h).refs = 1 → s.pageHeld h = false → t.page h = Page.zero)))) ∧
    (∀ h st refs i, s.regReads d = [] → d.tbl = [h] →
        (d.f 40 1 = 2 ∧ i = .pageShare id ∧ h < 1048576 ∧ (s.page h).st ≠ .free ∧ (s.page h).refs = 65534 ∧ st = 0x0131 ∧ refs = 65535) ∨
        (((d.f 40 1 = 2 ∧ i = .pageShare id) ∨ (d.f 40 1 = 3 ∧ i = .pageRelease id)) ∧ h < 1048576 ∧ (s.page h).st ≠ .free ∧
          (s.page h).refs = 65535 ∧ st = 0x0132 ∧ refs = 65535) ∨
        (((d.f 40 1 = 2 ∧ i = .pageShare id) ∨ (d.f 40 1 = 3 ∧ i = .pageRelease id)) ∧ (1048576 ≤ h ∨ (s.page h).st = .free) ∧
          st = 0x0133 ∧ refs = (s.page h).refs) →
      ∃ t, exec i s = .next t ∧ t = { s with descs := t.descs, pages := t.pages } ∧ SameBytes s t ∧
        t.desc? id = some { d with result := some { status := st, outcome := 0, flags := 0 } } ∧ (t.page h).refs = refs) ∧
    (d.f 40 1 = 4 → s.regReads d = [] → d.tbl.length = n → d.f 30 6 + 16 * n ≤ 2 ^ 36 →
      ∃ t, exec (.pageQuery id) s = .next t ∧ t = { s with mem := t.mem, descs := t.descs } ∧ SameBytesBut (d.f 30 6) (16 * n) s t ∧
        t.desc? id = some { d with result := some { status := 0, outcome := 0, flags := 0 } } ∧
        (∀ j, j ≠ id → t.desc? j = s.desc? j) ∧
        (∀ i k, i < n → k < 16 → t.byteAt (d.f 30 6 + 16 * i + k) = (toBytes 16 (d.tbl.getD i 0)).getD k 0))

/-! ### Streams -/

/-- Stream control that only judges and marks (R148, R159, R160; Table 06-5), on a list of distinct streams none of which is
moving: Reset marks them to start from zero, End frees them with their banks and backing, Pin and Unpin move a stream's state
between slots and an accumulator bank, Pause sends Resident streams out, Resume of Resident streams has nothing to do, Query
writes records and Copy out writes state. Skipped streams are told by 0x0140. Its readings that are the model's are in log entries
24, 25, 26, 116. -/
def Obligations.StreamControl : Prop :=
  ∀ (s : State) (id : Nat) (d : Desc), Invariant s → s.desc? id = some d → d.st = .running → d.result = none → d.op = 0x0200 →
    s.stopOf d = none → s.regReads d = [] → d.strs.Nodup →
    (d.f 38 1 = 2 →
      ∃ t, exec (.streamReset id) s = .next t ∧ t = { s with descs := t.descs, strs := t.strs } ∧ SameBytes s t ∧
        t.desc? id = some { d with result := some { status := 0, outcome := 0, flags := 0 } } ∧
        (∀ x, t.strm x = if x ∈ d.strs then { s.strm x with reset := true, stamp := s.carTime, lastSeq := d.seq,
                                                            st := if (s.strm x).st = .lost then .swapped else (s.strm x).st }
          else s.strm x)) ∧
    ((∀ x, x ∈ d.strs → (s.strm x).st ≠ .moving) →
      (d.f 38 1 = 5 →
        ∃ t, exec (.streamEnd id) s = .next t ∧
          t = { s with descs := t.descs, strs := t.strs, objs := t.objs, cores := t.cores } ∧ SameBytes s t ∧
          t.desc? id = some { d with result := some { status := 0, outcome := 0, flags := 0 } } ∧
          (∀ x, x ∈ d.strs → (t.strm x).st = .free ∧ ((s.strm x).st ≠ .free → (t.obj (s.strm x).obj).st = .free)) ∧
          (∀ x, x ∉ d.strs → t.strm x = s.strm x)) ∧
      (∀ x y, d.f 38 1 = 6 → d.strs = [x] → (s.core (d.f 46 1)).pinned = some y → y ≠ x →
        ∃ t, exec (.streamPin id) s = .next t ∧ t = { s with descs := t.descs } ∧ SameBytes s t ∧
          t.desc? id = some { d with result := some { status := 0x0554, outcome := 0, flags := 0 } }) ∧
      (∀ x u g j, d.f 38 1 = 6 → d.strs = [x] → (s.strm x).st = .swapped →
          (s.core (d.f 46 1)).pinned = none ∨ (s.core (d.f 46 1)).pinned = some x →
          s.claimSlots d.die (s.strm x).slots = .at_ u g j →
        ∃ t e, exec (.streamPin id) s = .next t ∧ t = { s with free := t.free, descs := t.descs, strs := t.strs } ∧ SameBytes s t ∧
          t.desc? id = some e ∧ e.result = none ∧ e.tbl = [x] ∧
          t.strm x = { s.strm x with st := .moving, movIn := true, cluster := g, slot := j } ∧ (∀ y, y ≠ x → t.strm y = s.strm y)) ∧
      (∀ x, d.f 38 1 = 6 → d.strs = [x] → (s.strm x).st = .resident →
          (s.core (d.f 46 1)).pinned = none ∨ (s.core (d.f 46 1)).pinned = some x →
        ∃ t, exec (.streamPin id) s = .next t ∧ t = { s with descs := t.descs, strs := t.strs, cores := t.cores } ∧ SameBytes s t ∧
          t.desc? id = some { d with result := some { status := 0, outcome := 0, flags := 0 } } ∧
          t.strm x = { s.strm x with st := .pinned, core := d.f 46 1, cluster := 0, slot := 0, stamp := s.carTime, lastSeq := d.seq } ∧
          (t.core (d.f 46 1)).pinned = some x ∧ (∀ y, y ≠ x → t.strm y = s.strm y) ∧
          (∀ n, n ≠ d.f 46 1 → t.core n = s.core n)) ∧
      (∀ x, d.f 38 1 = 6 → d.strs = [x] → (s.strm x).st = .pinned →
          (s.core (d.f 46 1)).pinned = none ∨ (s.core (d.f 46 1)).pinned = some x →
        ∃ t, exec (.streamPin id) s = .next t ∧ t = { s with descs := t.descs, strs := t.strs } ∧ SameBytes s t ∧
          t.desc? id = some { d with result := some { status := 0x0140, outcome := 0, flags := 0 } } ∧
          t.strm x = { s.strm x with stamp := s.carTime }) ∧
      (∀ x u g j, d.f 38 1 = 7 → d.strs = [x] → d.stage = 0 → (s.strm x).st = .pinned →
          (s.updDesc id (fun y => { y with stage := 1, aux := [0] })).claimSlots d.die (s.strm x).slots = .at_ u g j →
        ∃ t e, exec (.streamUnpin id) s = .next t ∧
          t = { s with free := t.free, mem := t.mem, descs := t.descs, strs := t.strs, cores := t.cores } ∧
          (∀ b, isRegSpace b = false → (∀ k, k < 4 * (s.strm x).data.length → s.loc ((t.strm x).slotAddr + k) ≠ s.loc b) →
            ((s.obj (s.strm x).obj).kind = 4 →
              ∀ k, k < 4 * (s.strm x).data.length → s.loc ((s.obj (s.strm x).obj).addr + k) ≠ s.loc b) → t.byteAt b = s.byteAt b) ∧
          t.desc? id = some e ∧ e.result = some { status := 0, outcome := 0, flags := 0 } ∧
          t.strm x = { s.strm x with st := .resident, cluster := g, slot := j, core := 0, stamp := s.carTime, lastSeq := d.seq } ∧
          (t.core (s.strm x).core).pinned = none ∧ (∀ y, y ≠ x → t.strm y = s.strm y)) ∧
      (d.f 38 1 = 3 → d.stage = 0 →
        ∃ t e, exec (.streamPause id) s = .next t ∧ t = { s with descs := t.descs, strs := t.strs } ∧ SameBytes s t ∧
          (∀ x, t.strm x = if x ∈ d.strs then
              (if (s.strm x).st = .resident then { s.strm x with st := .moving, movIn := false, stamp := s.carTime, lastSeq := d.seq }
               else { s.strm x with stamp := s.carTime }) else s.strm x) ∧
          t.desc? id = some e ∧ e.stage = 1 ∧
          e.result = (if d.strs.any (fun x => (s.strm x).st == .resident) then none
            else some { status := if d.strs = [] then 0 else 0x0140, outcome := 0, flags := 0 })) ∧
      (d.f 38 1 = 3 → d.stage ≠ 0 →
        ∃ t, exec (.streamPause id) s = .next t ∧ t = { s with descs := t.descs } ∧ SameBytes s t ∧
          t.desc? id = some { d with result := some { status := if d.aux.headD 0 = 1 then 0x0140 else 0, outcome := 0, flags := 0 } }) ∧
      (d.f 38 1 = 4 → d.stage = 0 → d.strs ≠ [] →
          (∀ x, x ∈ d.strs → (s.strm x).st = .resident ∨ (s.strm x).st = .pinned) →
        ∃ t e, exec (.streamResume id) s = .next t ∧ t = { s with descs := t.descs, strs := t.strs } ∧ SameBytes s t ∧
          t.desc? id = some e ∧ e.result = some { status := 0x0140, outcome := 0, flags := 0 } ∧
          (∀ x, t.strm x = if x ∈ d.strs then { s.strm x with stamp := s.carTime } else s.strm x)) ∧
      (d.f 38 1 = 9 →
        ∃ t, exec (.streamCopyOut id) s = .next t ∧ t = { s with mem := t.mem, descs := t.descs, strs := t.strs } ∧
          t.desc? id = some { d with result := some { status := 0, outcome := 0, flags := 0 } } ∧
          (∀ x, t.strm x = if x ∈ d.strs then { s.strm x with stamp := s.carTime } else s.strm x) ∧
          (∀ x, d.strs = [x] → SameBytesBut (d.f 30 6) (4 * (s.strm x).data.length) s t ∧
            (d.f 30 6 + 4 * (s.strm x).data.length ≤ 2 ^ 36 →
              ∀ k, k < (s.strm x).data.length → t.rd (d.f 30 6 + 4 * k) 4 = (s.strm x).data.getD k 0 % 2 ^ 32)))) ∧
    (∀ x u g j, d.f 38 1 = 4 → d.stage = 0 → d.strs = [x] → (s.strm x).st = .swapped →
        (s.updDesc id (fun y => { y with stage := 1, aux := [] })).claimSlots d.die (s.strm x).slots = .at_ u g j →
      ∃ t e, exec (.streamResume id) s = .next t ∧ t = { s with free := t.free, descs := t.descs, strs := t.strs } ∧ SameBytes s t ∧
        t.desc? id = some e ∧ e.result = none ∧ e.stage = 1 ∧ e.tbl = [x] ∧
        t.strm x = { s.strm x with st := .moving, movIn := true, cluster := g, slot := j } ∧ (∀ y, y ≠ x → t.strm y = s.strm y)) ∧
    (d.f 38 1 = 8 →
      ∃ t, exec (.streamQuery id) s = .next t ∧ t = { s with mem := t.mem, descs := t.descs, strs := t.strs } ∧
        t.desc? id = some { d with result := some { status := 0, outcome := 0, flags := 0 } } ∧
        SameBytesBut (d.f 30 6) (32 * d.strs.length) s t ∧
        (∀ x, t.strm x = if x ∈ d.strs ∧ (s.strm x).st ≠ .free then { s.strm x with stamp := s.carTime } else s.strm x) ∧
        (d.f 30 6 + 32 * d.strs.length ≤ 2 ^ 36 → ∀ i k, i < d.strs.length → k < 32 →
          t.byteAt (d.f 30 6 + 32 * i + k) = (strRecord s (d.strs.getD i 0)).getD k 0))

/-- Stream open (R142–R144, R148): within the quota and with room made for it, a stream becomes Swapped with its state to start
from zero and a backing object of kind 4; over the quota the operation faults 0x0552, on a stream that is not Free 0x0551, and
opens nothing. Recurrent cell and linear scan chunks that run (R147, R153, R156): every stream of the chunk has one chunk more,
its new state and no reset pending, every other stream is untouched, and nothing is written outside the range the check granted
and the slots of its Resident streams. A class S chunk keeps what the streams were until its pair has been compared. Its readings
that are the model's are in log entries 22, 23, 30, 31. -/
def Obligations.StreamOpensAndChunks : Prop :=
  (∀ (s u v : State) (id x h states bytes foot : Nat) (d : Desc), Invariant s → s.desc? id = some d → d.st = .running → d.result = none →
    d.op = 0x0200 → s.stopOf d = none → s.regReads d = [] → d.f 38 1 = 1 → states = (if d.f 39 1 = 3 then d.f 44 1 else 1) →
    bytes = strBytes (d.f 39 1) (d.f 40 4) states ((d.f 45 1).testBit 0) → foot = roundUp bytes 8192 →
    (d.strs = [x] → (s.strm x).st = .free → s.quotaOk d.ctx foot = true → s.makeRoom d.ctx d.die (roundUp foot 65536) = .ok u →
        u.makeObj 4 d.ctx d.die bytes foot true = some (h, v) →
      ∃ t e, exec (.streamOpen id) s = .next t ∧ t = { v with strs := t.strs, descs := t.descs } ∧
        t.desc? id = some e ∧ e.result = some { status := 0, outcome := 0, flags := 0 } ∧ (∀ y, y ≠ x → t.strm y = v.strm y) ∧
        (t.strm x).st = .swapped ∧ (t.strm x).owner = d.ctx ∧ (t.strm x).kind = d.f 39 1 ∧ (t.strm x).size = d.f 40 4 ∧
        (t.strm x).states = states ∧ (t.strm x).reset = true ∧ (t.strm x).obj = h ∧ (t.strm x).lastSeq = d.seq ∧
        (t.obj h).st = .present ∧ (t.obj h).kind = 4 ∧ (t.obj h).owner = d.ctx) ∧
    (d.strs.any (fun y => decide ((s.strm y).st ≠ .free)) = true →
      ∃ t e, exec (.streamOpen id) s = .next t ∧ t = { s with descs := t.descs } ∧ SameBytes s t ∧ t.desc? id = some e ∧
        e.result = some { status := 0x0551, outcome := 0, flags := 0 }) ∧
    ((∀ y, y ∈ d.strs → (s.strm y).st = .free) → s.quotaOk d.ctx (d.strs.length * foot) = false →
      ∃ t e, exec (.streamOpen id) s = .next t ∧ t = { s with descs := t.descs } ∧ SameBytes s t ∧ t.desc? id = some e ∧
        e.result = some { status := 0x0552, outcome := 0, flags := 0 })) ∧
  (∀ (s : State) (id : Nat) (d : Desc) (i : Instr), Invariant s → s.desc? id = some d → d.st = .running → d.result = none →
    s.stopOf d = none → d.strs.Nodup →
    ((i = .recurrentCellChunk id ∧ d.op = 0x0210 ∧ d.strs.length = d.f 63 1) ∨
      (i = .linearScanChunk id ∧ d.op = 0x0220 ∧ d.strs.length = 1)) →
    ∃ t e fl, exec i s = .next t ∧
      t = { s with free := t.free, mem := t.mem, regs := t.regs, descs := t.descs, strs := t.strs } ∧
      t.desc? id = some e ∧ e.result = some { status := 0, outcome := 0, flags := fl } ∧
      (d.cls ≠ 0 → e = { d with result := some { status := 0, outcome := 0, flags := fl } }) ∧
      (d.cls = 0 → e.aux = (d.strs.map (fun x => (s.strm x).keep)).flatten) ∧ (∀ j, j ≠ id → t.desc? j = s.desc? j) ∧
      (∀ x, x ∉ d.strs → t.strm x = s.strm x) ∧
      (∀ x, x ∈ d.strs → (t.strm x).chunks = (s.strm x).chunks + 1 ∧ (t.strm x).reset = false ∧ (t.strm x).lastSeq = d.seq ∧
        (t.strm x).st = (s.strm x).st) ∧
      (∀ b, isRegSpace b = false →
        (∀ g, g ∈ s.rngsOf d → g.wr = true → ∀ k, k < g.n → s.loc (g.a + k) ≠ s.loc b) →
        (∀ x, x ∈ d.strs → (s.strm x).st = .resident → ∀ k, k < 4 * (t.strm x).data.length → s.loc ((s.strm x).slotAddr + k) ≠ s.loc b) →
        t.byteAt b = s.byteAt b) ∧
      (∀ x, d.strs = [x] → (s.strm x).st = .resident → (s.strm x).cluster < 32 →
        (s.strm x).slot * 8192 + 4 * (t.strm x).data.length ≤ 0x100000 →
        ∀ k, k < 4 * (t.strm x).data.length → t.byteAt ((s.strm x).slotAddr + k) = (t.strm x).image.getD k 0))

/-- The end of a stream's move (R149, R151): a swap-in leaves it Resident, with zeros where a reset waited, its state in its slots
(R144), and is counted; a swap-out leaves it Swapped without slots, its state in its backing; a tier fault leaves it Lost and ends
what needed the move with its status. -/
def Obligations.StreamMoves : Prop :=
  ∀ (s : State) (x err : Nat), Invariant s → (s.strm x).st = .moving →
    (err = 0 → (s.strm x).movIn = true →
      ∃ t, exec (.streamMoveComplete x err) s = .next t ∧ t = { s with mem := t.mem, dict := t.dict, strs := t.strs } ∧
        SameBytesBut (s.strm x).slotAddr (4 * (t.strm x).data.length) s t ∧
        ((s.strm x).cluster < 32 → (s.strm x).slot * 8192 + 4 * (t.strm x).data.length ≤ 0x100000 →
          ∀ k, k < 4 * (t.strm x).data.length → t.byteAt ((s.strm x).slotAddr + k) = (t.strm x).image.getD k 0) ∧
        SameOd [odKey 0x2420 4 0] s t ∧ t.od 0x2420 4 = (s.od 0x2420 4 + 1) % 2 ^ 32 ∧ (∀ y, y ≠ x → t.strm y = s.strm y) ∧
        t.strm x = { s.strm x with st := .resident,
                                   data := if (s.strm x).reset then List.replicate ((s.strm x).bytes / 4) 0 else (s.strm x).data }) ∧
    (err = 0 → (s.strm x).movIn = false →
      ∃ t, exec (.streamMoveComplete x err) s = .next t ∧ t = { s with mem := t.mem, strs := t.strs } ∧
        SameBytesBut (s.obj (s.strm x).obj).addr (4 * (s.strm x).data.length) s t ∧
        ((s.obj (s.strm x).obj).kind = 4 → (s.obj (s.strm x).obj).addr + 4 * (s.strm x).data.length ≤ 2 ^ 36 →
          ∀ k, k < 4 * (s.strm x).data.length → t.byteAt ((s.obj (s.strm x).obj).addr + k) = (s.strm x).image.getD k 0) ∧
        (∀ y, y ≠ x → t.strm y = s.strm y) ∧ t.strm x = { s.strm x with st := .swapped, cluster := 0, slot := 0 }) ∧
    (err = 0x05A0 ∨ err = 0x05A2 ∨ err = 0x05A5 →
      ∃ t, exec (.streamMoveComplete x err) s = .next t ∧
        t = { s with dict := t.dict, regs := t.regs, descs := t.descs, cores := t.cores, strs := t.strs } ∧ SameBytes s t ∧
        (∀ y, y ≠ x → t.strm y = s.strm y) ∧ (t.strm x).st = .lost ∧ t.od 0x2420 6 = (s.od 0x2420 6 + 1) % 2 ^ 32 ∧
        t.reg (baseCAR + 0x30) = (s.reg (baseCAR + 0x30) + 1) % 2 ^ 64 ∧
        (∀ i d, s.desc? i = some d → t.desc? i = some (if d.result = none ∧ d.needsMove x = true then
          { d with result := some { status := err, outcome := 9, flags := 0 } } else d)))

/-! ### Solver and clearance engines -/

/-- Every solver descriptor that runs completes (R164, R171–R180): it has a result of outcome 0 with the notice its problems leave
and no other descriptor changes; each engine counts the problems it ran; no byte changes outside the ranges the check granted for
writing and the work areas. A stop instant that has come ends the problems of its engine, which gives the descriptor its result
once every engine has stopped; one that has not come changes nothing. Problems that the stop instants of their engines leave no
time for do not end by themselves. Its readings that are the model's are in log entries 5, 44, 45, 46. -/
def Obligations.SolverOperations : Prop :=
  ∀ (s : State) (id : Nat) (d : Desc), Invariant s → s.desc? id = some d → d.st = .running → d.result = none →
    (∀ i : Instr, s.stopOf d = none → solverInTime s d = true →
      ((i = .solverFactor id ∧ d.op = 0x0300 ∧ d.f 79 1 = 0) ∨ (i = .solverFactorAndSolve id ∧ d.op = 0x0300 ∧ d.f 79 1 = 1) ∨
        (i = .solverSolveStored id ∧ d.op = 0x0300 ∧ d.f 79 1 = 2) ∨ (i = .quadraticProgram id ∧ d.op = 0x0310)) →
      ∃ t r, exec i s = .next t ∧
        t = { s with free := t.free, mem := t.mem, dict := t.dict, regs := t.regs, descs := t.descs } ∧
        t.desc? id = some { d with result := some r } ∧ r.outcome = 0 ∧ (∀ j, j ≠ id → t.desc? j = s.desc? j) ∧
        (d.aux.getD (slvGang d) 0 = 0 → r.status ∈ [0, 0x0150, 0x0151, 0x0152, 0x0153]) ∧
        SameOd [odKey 0x2900 0x10 0, odKey 0x2900 0x11 0, odKey 0x2900 0x12 0, odKey 0x2900 0x13 0] s t ∧
        (s.regReads d = [] →
          SameRegs ((engines d ++ [0]).flatMap (fun g => [baseSLV g + 8, baseSLV g + 0x10, baseSLV g + 0x18, baseSLV g + 0x20])) s t ∧
          (slvGang d = 1 → t.reg (baseSLV ((engines d).getD 0 0) + 0x10) % 2 ^ 64 =
            (s.reg (baseSLV ((engines d).getD 0 0) + 0x10) + (engineLeft d 0).length) % 2 ^ 64)) ∧
        (∀ b, isRegSpace b = false →
          (∀ g, g ∈ s.rngsOf d → g.wr = true → ∀ k, k < g.n → s.loc (g.a + k) ≠ s.loc b) →
          (∀ g, g ∈ engines d → ∀ k, k < workSize d → s.loc (workBase d g + k) ≠ s.loc b) → t.byteAt b = s.byteAt b)) ∧
    (solverInTime s d = false → exec (.solverFactor id) s = .next s ∧ exec (.solverFactorAndSolve id) s = .next s ∧
      exec (.solverSolveStored id) s = .next s ∧ exec (.quadraticProgram id) s = .next s) ∧
    (∀ e prog, d.op = 0x0300 ∨ d.op = 0x0310 →
      (e < slvGang d → d.aux.getD e 0 ≠ 0 → d.aux.getD e 0 ≤ s.dspTime d.die → d.stage.testBit e = false →
          slvGang d ≤ d.aux.length →
        ∃ t x r, exec (.solverStopInstant id e prog) s = .next t ∧
          t = { s with free := t.free, mem := t.mem, dict := t.dict, regs := t.regs, descs := t.descs } ∧
          t.desc? id = some { d with stage := d.stage ||| 2 ^ e, aux := x, result := r } ∧
          r = (if (d.stage ||| 2 ^ e) % 2 ^ slvGang d = 2 ^ slvGang d - 1
            then some (okResult (x.getD (slvGang d) 0) (x.getD (slvGang d + 1) 0)) else none) ∧
          (∀ j, j ≠ id → t.desc? j = s.desc? j) ∧
          (prog = [] → problemsOf d e ≠ [] → 1 ≤ x.getD (slvGang d) 0 ∧ x.getD (slvGang d) 0 ≤ 0x0153) ∧
          t.reg (baseSLV ((engines d).getD e 0) + 0x10) % 2 ^ 64 =
            (s.reg (baseSLV ((engines d).getD e 0) + 0x10) + (problemsOf d e).length) % 2 ^ 64) ∧
      (slvGang d ≤ e ∨ d.aux.getD e 0 = 0 ∨ s.dspTime d.die < d.aux.getD e 0 ∨ d.stage.testBit e = true →
        exec (.solverStopInstant id e prog) s = .next s))

/-- Map control that runs completes (R192). A define makes an undefined map Defined, with every voxel unknown where no data is
given, and notices 0x0571 of a map that is not; a retire marks the owner's map Retiring and its descriptor waits until the last
update and pin have ended, which frees the map; a query writes the map's 64-byte record. Else nothing changes but the result. Its
readings that are the model's are in log entries 5, 47. -/
def Obligations.MapControl : Prop :=
  (∀ (s : State) (id n : Nat) (d : Desc) (m : SdMap), Invariant s → s.desc? id = some d → d.st = .running → d.result = none →
    d.op = 0x0400 → s.stopOf d = none → s.regReads d = [] → n = d.f 25 1 → m = s.sdMap n →
    (d.f 24 1 = 1 → m.st = .undef →
      ∃ t, exec (.mapDefine id) s = .next t ∧ t = { s with mem := t.mem, maps := t.maps, descs := t.descs } ∧
        t.desc? id = some { d with result := some { status := 0, outcome := 0, flags := 0 } } ∧ (∀ j, j ≠ id → t.desc? j = s.desc? j) ∧
        (d.f 52 6 + poolBytes (t.sdMap n).bricks 0 ≤ 2 ^ 36 → SameBytesBut (d.f 52 6) (poolBytes (t.sdMap n).bricks 0) s t) ∧
        (∀ k, k ≠ n → t.sdMap k = s.sdMap k) ∧
        t.sdMap n = { SdMap.zero with
          st := .defined, nx := d.f 28 2, ny := d.f 30 2, nz := d.f 32 2, um := d.f 36 4, ox := d.f 40 4, oy := d.f 44 4,
          oz := d.f 48 4, unkFree := (d.f 26 1).testBit 1, outFree := (d.f 26 1).testBit 2, pool := d.f 52 6,
          spare := d.f 64 4, owner := d.ctx } ∧
        (d.f 52 6 + poolBytes (t.sdMap n).bricks 0 ≤ 2 ^ 36 → (d.f 26 1).testBit 0 = false →
          ∀ i, i < 512 * (t.sdMap n).bricks → t.rd ((t.sdMap n).slot0 + 2 * i) 2 = 0x8000)) ∧
    (d.f 24 1 = 1 → m.st ≠ .undef →
      ∃ t, exec (.mapDefine id) s = .next t ∧ t = { s with descs := t.descs } ∧ SameBytes s t ∧
        t.desc? id = some { d with result := some { status := 0x0571, outcome := 0, flags := 0 } } ∧ ∀ j, j ≠ id → t.desc? j = s.desc? j) ∧
    (d.f 24 1 = 2 → d.stage = 0 →
      ∃ t, exec (.mapRetire id) s = .next t ∧ t = { s with maps := t.maps, descs := t.descs } ∧ SameBytes s t ∧
        (∀ k, k ≠ n → t.sdMap k = s.sdMap k) ∧ (∀ j, j ≠ id → t.desc? j = s.desc? j) ∧
        (m.live = true ∧ m.owner = d.ctx → t.sdMap n = { m with st := .retiring, retire := some id } ∧
          t.desc? id = some { d with stage := 1 }) ∧
        (m.live = false ∨ m.owner ≠ d.ctx → t.maps = s.maps ∧
          t.desc? id = some { d with result := some (okResult (if m.live then 0x0572 else 0x0570) 0) })) ∧
    (d.f 24 1 = 3 → d.f 58 6 + 64 ≤ 2 ^ 36 →
      ∃ t, exec (.mapQuery id) s = .next t ∧ t = { s with mem := t.mem, descs := t.descs } ∧ SameBytesBut (d.f 58 6) 64 s t ∧
        t.desc? id = some { d with result := some { status := 0, outcome := 0, flags := 0 } } ∧ (∀ j, j ≠ id → t.desc? j = s.desc? j) ∧
        ∀ i, i < 64 → t.byteAt (d.f 58 6 + i) = (mapRecord s n).getD i 0)) ∧
  (∀ (s : State) (n : Nat), Invariant s →
    ((s.sdMap n).st = .retiring → s.updating n = false → (s.sdMap n).update = none → s.pinned n = false →
      ∃ t, exec (.mapRetireFree n) s = .next t ∧ t = { s with maps := t.maps, descs := t.descs } ∧ SameBytes s t ∧
        t.sdMap n = SdMap.zero ∧ (∀ k, k ≠ n → t.sdMap k = s.sdMap k) ∧
        (∀ id d, (s.sdMap n).retire = some id → s.desc? id = some d → d.result = none →
          t.desc? id = some { d with result := some { status := 0, outcome := 0, flags := 0 } }) ∧
        ∀ j, (s.sdMap n).retire ≠ some j → t.desc? j = s.desc? j) ∧
    ((s.sdMap n).st ≠ .retiring ∨ s.updating n = true ∨ (s.sdMap n).update ≠ none ∨ s.pinned n = true → exec (.mapRetireFree n) s = .next s))

/-- Map updates (R194, R195). The start judges state, owner and epoch, reads the list, and makes the checks of class D and B that
pin the previous epoch yield to an update of class S, C or P; the copy waits for pins of the previous epoch and for another
update, refuses a list that names a brick twice or out of range, or, writing nothing, too few free slots, and else gives every
brick of the list a new current slot, its old one becoming its previous one; the publication raises the epoch by one, counts it
and ends the descriptor with 0x0000. Its readings that are the model's are in log entries 5, 49. -/
def Obligations.MapUpdates : Prop :=
  ∀ (s : State) (id n : Nat) (d : Desc) (m : SdMap), Invariant s → s.desc? id = some d → d.st = .running → d.result = none →
    d.op = 0x0408 → s.stopOf d = none → s.regReads d = [] → n = d.f 48 1 → m = s.sdMap n →
    (d.stage = 0 →
      (m.live = true → m.owner = d.ctx → m.gen % 65536 = d.f 46 2 →
        (2 < d.cls ∨ s.pinsPrev n = 0 →
          ∃ t e, exec (.mapUpdate id) s = .next t ∧ t = { s with descs := t.descs } ∧ SameBytes s t ∧
            (∀ j, j ≠ id → t.desc? j = s.desc? j) ∧ t.desc? id = some e ∧ e = { d with
              stage := 1, aux := [s.dspTime d.die],
              tbl := (List.range (d.f 42 4)).map (fun i => s.rd (d.f 24 6 + 4 * i) 4), stopAt := e.stopAt }) ∧
        (d.cls ≤ 2 →
          ∃ t e, exec (.mapUpdate id) s = .next t ∧
            t = { s with free := t.free, mem := t.mem, dict := t.dict, regs := t.regs, descs := t.descs } ∧
            t.desc? id = some e ∧ e.stage = 1 ∧
            (∀ j x, s.desc? j = some x → x.op = 0x0410 → 3 ≤ x.cls → x.result = none → x.stage = 0 → 1 ≤ m.gen →
              (n, m.gen - 1) ∈ x.pins → ∃ y, t.desc? j = some y ∧ y.stage = 9 ∧ y.stopAt ≠ 0) ∧
            (∀ j x, j ≠ id → s.desc? j = some x → x.op ≠ 0x0410 → t.desc? j = some x))) ∧
      (m.live = false ∨ m.owner ≠ d.ctx →
        ∃ t, exec (.mapUpdate id) s = .next t ∧ t = { s with descs := t.descs } ∧ SameBytes s t ∧
          (∀ j, j ≠ id → t.desc? j = s.desc? j) ∧
          t.desc? id = some { d with result := some (okResult (if m.live = false then 0x0570 else 0x0572) 0) }) ∧
      (m.live = true → m.owner = d.ctx → m.gen % 65536 ≠ d.f 46 2 →
        ∃ t, exec (.mapUpdate id) s = .next t ∧ t = { s with mem := t.mem, descs := t.descs } ∧ SameBytesBut (d.f 36 6) 32 s t ∧
          (∀ j, j ≠ id → t.desc? j = s.desc? j) ∧ t.desc? id = some { d with result := some (okResult 0x0573 0) })) ∧
    (d.stage = 1 →
      (s.pinsPrev n ≠ 0 ∨ m.update ≠ none → exec (.mapUpdateCopy id) s = .next s) ∧
      (∀ l, l = d.tbl → s.pinsPrev n = 0 → m.update = none →
        (distinct l = false ∨ (∃ b, b ∈ l ∧ m.bricks ≤ b) →
          ∃ t, exec (.mapUpdateCopy id) s = .next t ∧ t = { s with mem := t.mem, descs := t.descs } ∧ SameBytesBut (d.f 36 6) 32 s t ∧
            t.desc? id = some { d with result := some { status := 0x0575, outcome := 0, flags := 0 } } ∧
              ∀ j, j ≠ id → t.desc? j = s.desc? j) ∧
        (distinct l = true → (∀ b, b ∈ l → b < m.bricks) →
          ((freeSlots s m).length < (l.filter (fun b => !(entValid s m b))).length →
            ∃ t, exec (.mapUpdateCopy id) s = .next t ∧ t = { s with descs := t.descs } ∧ SameBytes s t ∧
              t.desc? id = some { d with result := some { status := 0x0574, outcome := 0, flags := 0 } } ∧
              ∀ j, j ≠ id → t.desc? j = s.desc? j) ∧
          ((l.filter (fun b => !(entValid s m b))).length ≤ (freeSlots s m).length →
              (∀ b, b < m.bricks → entPrev s m b < m.bricks + m.spare) → m.pool + poolBytes m.bricks m.spare ≤ 2 ^ 36 →
            ∃ t x, exec (.mapUpdateCopy id) s = .next t ∧ t = { s with mem := t.mem, maps := t.maps, descs := t.descs } ∧
              SameBytesBut m.pool (poolBytes m.bricks m.spare) s t ∧ t.desc? id = some { d with stage := 2, aux := x } ∧
              t.sdMap n = { m with update := some id, st := (if m.st = .retiring then .retiring else .copying) } ∧
              (∀ k, k ≠ n → t.sdMap k = s.sdMap k) ∧ (∀ j, j ≠ id → t.desc? j = s.desc? j) ∧
              (∀ b, b ∈ l → entPrev t m b = entCur s m b ∧ entGen t m b = (m.gen + 1) % 2 ^ 63 ∧ entValid t m b = true ∧
                (entValid s m b = true → entCur t m b = entPrev s m b)) ∧
              (∀ b, b < m.bricks → b ∉ l → entCur t m b = entCur s m b))))) ∧
    (d.stage = 2 →
      (∃ t, exec (.mapUpdatePublish id) s = .next t ∧
        t = { s with free := t.free, mem := t.mem, dict := t.dict, regs := t.regs, maps := t.maps, descs := t.descs } ∧
        t.sdMap n = { m with gen := (m.gen + 1) % 2 ^ 64, update := none, st := (if m.st = .retiring then .retiring else .defined) } ∧
        (∀ k, k ≠ n → t.sdMap k = s.sdMap k) ∧ t.od 0x2800 0x06 = (s.od 0x2800 0x06 + 1) % 2 ^ 32 ∧
        t.desc? id = some { d with result := some { status := 0, outcome := 0, flags := 0 } } ∧
        (∀ j x, j ≠ id → s.desc? j = some x → x.op ≠ 0x0410 → t.desc? j = some x)) ∧
      ((∀ p, p ∈ s.descs → p.2.op = 0x0408 → p.2.stage ≠ 1) →
        ∃ t, exec (.mapUpdatePublish id) s = .next t ∧
          t = { s with mem := t.mem, dict := t.dict, maps := t.maps, descs := t.descs } ∧ SameBytesBut (d.f 36 6) 32 s t ∧
          SameOd [odKey 0x2800 0x06 0] s t ∧ ∀ j, j ≠ id → t.desc? j = s.desc? j))

/-- A path check that its engine runs completes when no stop instant has come before its end, and a stop instant that has come
ends it with what it has examined, wherever it stands (R188, R196–R200, R204): the result is 0x0000, 0x0160, 0x0161 or 0x0162,
counted, and no byte changes outside the result and the profiles; or 0x0576, its results undefined, where a brick is in error. A
check that has examined nothing ends with 0x0161. Else nothing changes. Its readings that are the model's are in log entries 5,
35, 48, 50, 123. -/
def Obligations.PathChecks : Prop :=
  ∀ (s : State) (id k budget : Nat) (d : Desc), Invariant s → s.desc? id = some d → d.st ≠ .waiting → d.result = none → d.op = 0x0410 →
    s.stopOf d = none → s.regReads d = [] →
    budget = (if s.runningCheck d.die = some id then max k (checkDone d) else checkDone d) →
    (d.st = .running → s.runningCheck d.die = some id → s.stopDue d = false →
      ∃ t st fl e, exec (.pathCheck id) s = .next t ∧
        t = { s with free := t.free, mem := t.mem, dict := t.dict, regs := t.regs, descs := t.descs } ∧
        t.desc? id = some e ∧ e.result = some { status := st, outcome := 0, flags := fl } ∧
        (∀ j, j ≠ id → t.desc? j = s.desc? j) ∧ st ∈ [0, 0x0160, 0x0161, 0x0162, 0x0576] ∧
        SameOd [odKey 0x2800 2 0, odKey 0x2800 3 0, odKey 0x2800 4 0, odKey (0x4200 + d.die) 0x50 0] s t ∧
        (st ≠ 0x0576 → t.od 0x2800 0x02 = (s.od 0x2800 0x02 + 1) % 2 ^ 32 ∧
          SameRegs [baseCLE d.die + 8, baseCLE d.die + 0x10, baseCLE d.die + 0x18] s t) ∧
        (st = 0x0576 → t.dict = s.dict ∧ SameRegs [baseCLE d.die + 0x20] s t ∧
          t.reg (baseCLE d.die + 0x20) = (s.reg (baseCLE d.die + 0x20) + 1) % 2 ^ 64) ∧
        (d.aux.length = 2 * d.f 42 2 + 1 → ∀ b, isRegSpace b = false →
          (∀ g, g ∈ s.rngsOf d → g.wr = true → ∀ k, k < g.n → s.loc (g.a + k) ≠ s.loc b) → t.byteAt b = s.byteAt b)) ∧
    (s.stopDue d = true →
      ∃ t st fl e, exec (.checkStopInstant id k) s = .next t ∧
        t = { s with free := t.free, mem := t.mem, dict := t.dict, regs := t.regs, descs := t.descs } ∧
        t.desc? id = some e ∧ e.result = some { status := st, outcome := 0, flags := fl } ∧
        (∀ j, j ≠ id → t.desc? j = s.desc? j) ∧ st ∈ [0, 0x0160, 0x0161, 0x0162, 0x0576] ∧ (budget = 0 → st = 0x0161) ∧
        SameOd [odKey 0x2800 2 0, odKey 0x2800 3 0, odKey 0x2800 4 0, odKey (0x4200 + d.die) 0x50 0] s t ∧
        (st ≠ 0x0576 → t.od 0x2800 0x02 = (s.od 0x2800 0x02 + 1) % 2 ^ 32 ∧
          SameRegs [baseCLE d.die + 8, baseCLE d.die + 0x10, baseCLE d.die + 0x18] s t) ∧
        (st = 0x0576 → t.dict = s.dict ∧ SameRegs [baseCLE d.die + 0x20] s t ∧
          t.reg (baseCLE d.die + 0x20) = (s.reg (baseCLE d.die + 0x20) + 1) % 2 ^ 64) ∧
        (d.aux.length = 2 * d.f 42 2 + 1 → ∀ b, isRegSpace b = false →
          (∀ g, g ∈ s.rngsOf d → g.wr = true → ∀ k, k < g.n → s.loc (g.a + k) ≠ s.loc b) → t.byteAt b = s.byteAt b)) ∧
    (s.runningCheck d.die ≠ some id ∨ s.stopDue d = true → exec (.pathCheck id) s = .next s) ∧
    (s.stopDue d = false → exec (.checkStopInstant id k) s = .next s)

/-! ### Objects, copies and eviction -/

/-- Object control on handles (R264–R270, R272, R283): destroy, query, set policy, clear suspect and delete persistent complete on
their whole list where every entry passes, and change nothing but the result where one does not. A destroyed object that nothing
holds is Free. Its readings that are the model's are in log entries 29, 31, 34. -/
def Obligations.ObjectHandles : Prop :=
  ∀ (s : State) (id : Nat) (bad : List Nat) (d : Desc) (ws : List Nat), Invariant s → s.desc? id = some d → d.st = .running →
    d.result = none → d.op = 0x0500 → s.stopOf d = none → s.regReads d = [] → ws = objRecs s d →
    (d.f 32 1 = 2 → (∀ w, w ∈ ws → ownHandle s d.ctx w = true ∧ queryOnly s w = false ∧ (s.obj (rHandle w)).st ≠ .destroying) →
      ∃ t, exec (.objectDestroy id) s = .next t ∧
        t = { s with dict := t.dict, descs := t.descs, objs := t.objs, pages := t.pages, spills := t.spills } ∧ SameBytes s t ∧
        SameOd [odKey 0x2410 5 0] s t ∧
        t.desc? id = some { d with result := some { status := 0, outcome := 0, flags := 0 } } ∧ (∀ j, j ≠ id → t.desc? j = s.desc? j) ∧
        (∀ h, h ∉ ws.map rHandle → (s.obj h).st ≠ .destroying → t.obj h = s.obj h) ∧
        (∀ h, h ∈ ws.map rHandle → AMap.wf s.objs = true →
          t.obj h = if s.objHeld h then { s.obj h with st := .destroying } else Obj.zero)) ∧
    (d.f 32 1 = 3 → d.f 24 6 + 64 * ws.length ≤ 2 ^ 36 →
        (∀ w, w ∈ ws → rHandle w < 65536 ∧ ((s.obj (rHandle w)).st = .free ∨ (s.obj (rHandle w)).owner = d.ctx)) →
      ∃ t, exec (.objectQuery id) s = .next t ∧ t = { s with mem := t.mem, descs := t.descs } ∧
        SameBytesBut (d.f 24 6) (64 * ws.length) s t ∧
        t.desc? id = some { d with result := some { status := 0, outcome := 0, flags := 0 } } ∧ (∀ j, j ≠ id → t.desc? j = s.desc? j) ∧
        (∀ i k, i < ws.length → k < 64 →
          t.byteAt (d.f 24 6 + 64 * i + k) = (s.objRecord (rHandle (ws.getD i 0))).getD k 0)) ∧
    (d.f 32 1 = 4 → (ws.map rHandle).Nodup →
        (∀ w, w ∈ ws → ownHandle s d.ctx w = true ∧ queryOnly s w = false ∧
          ((s.obj (rHandle w)).st = .present ∨ (s.obj (rHandle w)).st = .cold)) →
      ∃ t, exec (.objectSetPolicy id) s = .next t ∧ t = { s with descs := t.descs, objs := t.objs } ∧ SameBytes s t ∧
        t.desc? id = some { d with result := some { status := 0, outcome := 0, flags := 0 } } ∧ (∀ j, j ≠ id → t.desc? j = s.desc? j) ∧
        (∀ h, h ∉ ws.map rHandle → t.obj h = s.obj h) ∧
        (∀ w, w ∈ ws → t.obj (rHandle w) = { s.obj (rHandle w) with
          flags := setField (s.obj (rHandle w)).flags 1 1 (field (rFlags w) 1 1) })) ∧
    (d.f 32 1 = 8 → (∀ w, w ∈ ws → ownHandle s d.ctx w = true ∧ queryOnly s w = false ∧ (s.obj (rHandle w)).st = .present) →
      ∃ t, exec (.clearSuspect id bad) s = .next t ∧ t = { s with descs := t.descs, objs := t.objs } ∧ SameBytes s t ∧
        t.desc? id = some { d with
          result := some (okResult (if ws.any (fun w => bad.contains (rHandle w)) then 0x05A0 else 0) 0) } ∧
        (∀ j, j ≠ id → t.desc? j = s.desc? j) ∧
        (∀ h, t.obj h = if h ∈ ws.map rHandle ∧ h ∉ bad then { s.obj h with suspect := false, badData := false, suspectOff := 0 }
          else s.obj h)) ∧
    (d.f 32 1 = 9 → (∀ w, w ∈ ws → rName w ≠ 0 ∧ (AMap.get? (rName w) s.copies).isSome = true) →
      ∃ t, exec (.deletePersistent id) s = .next t ∧ t = { s with descs := t.descs, copies := t.copies } ∧ SameBytes s t ∧
        t.desc? id = some { d with result := some { status := 0, outcome := 0, flags := 0 } } ∧ (∀ j, j ≠ id → t.desc? j = s.desc? j) ∧
        (∀ n, AMap.get? n t.copies = if n ∈ ws.map rName then none else AMap.get? n s.copies)) ∧
    (∀ i w st, w ∈ ws →
        (ownHandle s d.ctx w = false ∧ st = 0x05AA ∧
          ((i = .objectDestroy id ∧ d.f 32 1 = 2) ∨ (i = .objectSetPolicy id ∧ d.f 32 1 = 4) ∨ (i = .clearSuspect id bad ∧ d.f 32 1 = 8))) ∨
        ((rName w = 0 ∨ AMap.get? (rName w) s.copies = none) ∧ st = 0x05AC ∧
          ((i = .deletePersistent id ∧ d.f 32 1 = 9) ∨ (i = .openPersistent id ∧ d.f 32 1 = 7))) →
      ∃ t, exec i s = .next t ∧ t = { s with descs := t.descs } ∧ SameBytes s t ∧
        t.desc? id = some { d with result := some (okResult st 0) } ∧ ∀ j, j ≠ id → t.desc? j = s.desc? j)

/-- Objects that come to be or come back (R268–R272): create of one DRAM object of a class with room makes it Present at a free
aligned address; place brings a Cold or Discarded one back, with its cold content or zeros; persist stores a copy under its name;
open makes a Cold object of a copy. `w` is the one record, `n` the entries placed before a cold read fails. Its readings that are
the model's are in log entries 28, 29, 30, 32, 33. -/
def Obligations.ObjectSpace : Prop :=
  ∀ (s : State) (id n w g foot : Nat) (d : Desc) (o : Obj), Invariant s → s.desc? id = some d → d.st = .running →
    d.result = none → d.op = 0x0500 → s.stopOf d = none → s.regReads d = [] → objRecs s d = [w] →
    (d.f 32 1 = 1 → createOk s d.ctx w = true → rKind w ≠ 3 → rTier w = 0 → s.interleaved = false → g = rDie w → g < 4 →
        foot = footprint (rKind w) (rFmt w) (rFlags w) (rSize w) 0 → s.quotaOk d.ctx foot = true → s.objs.length < 65536 →
        s.roomFor d.ctx g foot = true → (∀ h, s.addrOk h 0 g 0 (g * 2 ^ 34) foot = true) → 2 ^ 36 ≤ d.f 24 6 →
      ∃ t h a, exec (.objectCreate id) s = .next t ∧ t = { s with free := t.free, mem := t.mem, descs := t.descs, objs := t.objs } ∧
        (∃ ds, t.desc? id = some { d with stopAt := 0, delays := ds, result := some { status := 0, outcome := 0, flags := 0 } }) ∧
        (∀ j, j ≠ id → t.desc? j = s.desc? j) ∧ h < 65536 ∧ s.obj h = Obj.zero ∧ s.addrOk h 0 g 0 a foot = true ∧
        t.obj h = { Obj.zero with
          st := .present, kind := rKind w, fmt := rFmt w, tier := 0, die := g, cluster := rClus w,
          flags := rFlags w, owner := d.ctx, size := rSize w, foot := foot, addr := a, prev := g, stamp := s.carTime } ∧
        (∀ j, j ≠ h → t.obj j = s.obj j) ∧
        (∀ b, isRegSpace b = false → (∀ k, k < rSize w → s.loc (a + k) ≠ s.loc b) → (∀ k, k < 64 → s.loc (d.f 24 6 + k) ≠ s.loc b) →
          t.byteAt b = s.byteAt b)) ∧
    (d.f 32 1 = 1 → createOk s d.ctx w = false →
      ∃ t ds, exec (.objectCreate id) s = .next t ∧ t = { s with descs := t.descs } ∧ SameBytes s t ∧
        t.desc? id = some { d with stopAt := 0, delays := ds, result := some { status := 0x05AA, outcome := 0, flags := 0 } }) ∧
    (o = s.obj (rHandle w) → ownHandle s d.ctx w = true → queryOnly s w = false →
      (d.f 32 1 = 5 → 1 ≤ n → (o.st = .cold ∨ o.st = .discarded) → o.tier = 0 → s.interleaved = false → g = o.die → g < 4 →
          foot = footprint o.kind o.fmt o.flags o.size 0 → s.quotaOk d.ctx foot = true → s.roomFor d.ctx g foot = true →
          (∀ h, s.addrOk h 0 g 0 (g * 2 ^ 34) foot = true) → 2 ^ 36 ≤ d.f 24 6 → o.size ≤ foot →
        ∃ t a, exec (.objectPlace id n) s = .next t ∧
          t = { s with free := t.free, mem := t.mem, regs := t.regs, descs := t.descs, objs := t.objs } ∧
          SameRegs [baseCAR + 0x20] s t ∧
          (∃ ds, t.desc? id = some { d with
            stopAt := 0, delays := ds, result := some (okResult (if o.st = .cold then 0 else 0x01A2) 0) }) ∧ (∀ j, j ≠ id → t.desc? j = s.desc? j) ∧
          s.addrOk (rHandle w) 0 g 0 a foot = true ∧
          t.obj (rHandle w) = { o with st := .present, addr := a, foot := foot, stamp := s.carTime } ∧
          (∀ j, j ≠ rHandle w → t.obj j = s.obj j) ∧
          (∀ k, k < o.size → t.byteAt (a + k) =
            if o.st = .cold then cellGet 0 (coldBase + rHandle w * coldSpan + k) s.mem else 0)) ∧
      (d.f 32 1 = 5 → n = 0 → o.tier ≤ 2 → (o.st = .present ∨ o.st = .cold ∨ o.st = .discarded) →
        ∃ t ds, exec (.objectPlace id n) s = .next t ∧ t = { s with descs := t.descs, objs := t.objs } ∧ SameBytes s t ∧
          (∀ h, t.obj h = s.obj h) ∧
          t.desc? id = some { d with stopAt := 0, delays := ds, result := some { status := 0x05A1, outcome := 0, flags := 0 } }) ∧
      (d.f 32 1 = 6 → o.st = .present → o.kind ≤ 1 → rName w ≠ 0 → nameOk s (rHandle w) (rName w) = true →
          s.copies.length < 16384 → s.coldUsed + roundUp o.size kib64 ≤ coldCap →
        ∃ t k, exec (.objectPersist id) s = .next t ∧
          t = { s with
            free := t.free, nextId := t.nextId, mem := t.mem, regs := t.regs, descs := t.descs, objs := t.objs, copies := t.copies } ∧
          t.desc? id = some { d with result := some { status := 0, outcome := 0, flags := 0 } } ∧
          (∀ j, j ≠ id → t.desc? j = s.desc? j) ∧ SameRegs [baseCAR + 0x28] s t ∧
          t.obj (rHandle w) = { o with name := rName w, coldCur := true, stored := k } ∧ k ≤ o.size ∧
          (∀ j, j ≠ rHandle w → t.obj j = s.obj j) ∧
          (∃ cp, AMap.get? (rName w) t.copies = some cp ∧ cp.size = o.size ∧ cp.kind = o.kind ∧ cp.fmt = o.fmt ∧
            cp.data = s.slice o.addr o.size) ∧
          (∀ m, m ≠ rName w → AMap.get? m t.copies = AMap.get? m s.copies) ∧
          (∀ b, b < 2 ^ 48 → isRegSpace b = false → t.byteAt b = s.byteAt b))) ∧
    (∀ cp, d.f 32 1 = 7 → rName w ≠ 0 → AMap.get? (rName w) s.copies = some cp → rDie w ≤ 4 → rClus w ≤ 7 →
        (rTier w = 3 ∨ (rTier w ≤ 2 ∧ cp.size ≤ 3 * mib)) → s.objs.length < 65536 →
      ∃ t h, exec (.openPersistent id) s = .next t ∧ t = { s with mem := t.mem, descs := t.descs, objs := t.objs } ∧
        t.desc? id = some { d with result := some { status := 0, outcome := 0, flags := 0 } } ∧ (∀ j, j ≠ id → t.desc? j = s.desc? j) ∧
        h < 65536 ∧ s.obj h = Obj.zero ∧ (t.obj h).st = .cold ∧ (t.obj h).name = rName w ∧ (t.obj h).size = cp.size ∧
        (t.obj h).owner = d.ctx ∧ (t.obj h).tier = rTier w ∧ (∀ j, j ≠ h → t.obj j = s.obj j) ∧
        (∀ b, b < 2 ^ 48 → isRegSpace b = false → (∀ k, k < 64 → s.loc (d.f 24 6 + k) ≠ s.loc b) → t.byteAt b = s.byteAt b))

/-- Tile copy, unit-flash read, the end of a spill and background eviction (R279–R281, R284, R285). A copy in DRAM moves its bytes
whole, even where they overlap; a flash read writes the flash's bytes; an ended spill leaves its object Cold, a failed one leaves
it where it is and counts; background eviction below the low watermark evicts only what may be evicted, and else does nothing. Its
readings that are the model's are in log entries 5, 33, 36. -/
def Obligations.CarafeMoves : Prop :=
  (∀ (s : State) (id : Nat) (d : Desc), Invariant s → s.desc? id = some d → d.st = .running → d.result = none → s.stopOf d = none →
    s.regReads d = [] →
    (d.op = 0x0510 → d.f 72 1 % 4 = 0 → d.f 24 6 + tcBytes d ≤ 2 ^ 36 → d.f 30 6 + tcBytes d ≤ 2 ^ 36 →
      ∃ t, exec (.tileCopy id) s = .next t ∧
        t = { s with free := t.free, mem := t.mem, regs := t.regs, descs := t.descs, objs := t.objs } ∧
        SameBytesBut (d.f 30 6) (tcBytes d) s t ∧ SameRegs [baseCAR + 0x38, baseCAR + 0x40] s t ∧
        t.desc? id = some { d with result := some { status := 0, outcome := 0, flags := 0 } } ∧ (∀ j, j ≠ id → t.desc? j = s.desc? j) ∧
        (∀ k, k < tcBytes d → t.byteAt (d.f 30 6 + k) = s.byteAt (d.f 24 6 + k)) ∧
        (∀ h, t.obj h = s.obj h ∨
          t.obj h = { s.obj h with suspect := false, badData := false, lost := false, suspectOff := 0 })) ∧
    (d.op = 0x0510 → d.f 72 1 % 4 = 1 → coldSide s d (d.f 36 4) (d.f 44 8) ((d.f 72 1).testBit 2) = 0 → d.f 30 6 + tcBytes d ≤ 2 ^ 36 →
      ∃ t, exec (.tileCopy id) s = .next t ∧
        t = { s with free := t.free, mem := t.mem, regs := t.regs, descs := t.descs, objs := t.objs } ∧
        SameBytesBut (d.f 30 6) (tcBytes d) s t ∧ SameRegs [baseCAR + 0x20, baseCAR + 0x38, baseCAR + 0x40] s t ∧
        t.desc? id = some { d with result := some { status := 0, outcome := 0, flags := 0 } } ∧ (∀ j, j ≠ id → t.desc? j = s.desc? j) ∧
        ∀ k, k < tcBytes d → t.byteAt (d.f 30 6 + k) = cellGet 0 (coldBase + d.f 36 4 * coldSpan + d.f 44 8 + k) s.mem) ∧
    (d.op = 0x0510 → d.f 72 1 % 4 = 2 → coldSide s d (d.f 40 4) (d.f 52 8) ((d.f 72 1).testBit 2) = 0 → d.f 24 6 + tcBytes d ≤ 2 ^ 36 →
      ∃ t, exec (.tileCopy id) s = .next t ∧ t = { s with mem := t.mem, regs := t.regs, descs := t.descs, objs := t.objs } ∧
        SameRegs [baseCAR + 0x28] s t ∧ (t.obj (d.f 40 4)).coldCur = true ∧ (∀ h, h ≠ d.f 40 4 → t.obj h = s.obj h) ∧
        t.desc? id = some { d with result := some { status := 0, outcome := 0, flags := 0 } } ∧ (∀ j, j ≠ id → t.desc? j = s.desc? j) ∧
        (∀ k, k < tcBytes d →
          cellGet 0 (coldBase + d.f 40 4 * coldSpan + d.f 52 8 + k) t.mem = s.byteAt (d.f 24 6 + k)) ∧
        ∀ b, b < 2 ^ 48 → isRegSpace b = false → t.byteAt b = s.byteAt b) ∧
    (d.op = 0x0530 → d.f 32 6 + d.f 28 4 ≤ 2 ^ 36 →
      ∃ t, exec (.unitFlashRead id) s = .next t ∧ t = { s with mem := t.mem, descs := t.descs } ∧
        SameBytesBut (d.f 32 6) (d.f 28 4) s t ∧
        t.desc? id = some { d with result := some { status := 0, outcome := 0, flags := 0 } } ∧ (∀ j, j ≠ id → t.desc? j = s.desc? j) ∧
        ∀ k, k < d.f 28 4 → t.byteAt (d.f 32 6 + k) = s.flashAt (d.f 24 4 + k))) ∧
  (∀ (s : State) (h : Nat) (sp : Spill), Invariant s →
    (s.spills.find? (fun p => p.obj == h) = none → ∀ bad, exec (.spillComplete h bad) s = .next s) ∧
    (s.spills.find? (fun p => p.obj == h) = some sp →
      (∃ t n, exec (.spillComplete h false) s = .next t ∧
        t = { s with free := t.free, mem := t.mem, dict := t.dict, regs := t.regs, objs := t.objs, spills := t.spills } ∧
        t.spills = s.spills.filter (fun p => p.obj != h) ∧ (∀ j, j ≠ h → t.obj j = s.obj j) ∧ n ≤ (s.obj h).size ∧
        t.obj h = { s.obj h with st := .cold, prev := (s.obj h).addr, addr := 0, coldCur := true, stored := n } ∧
        SameOd [odKey 0x2400 0x09 0, odKey 0x2400 0x0A 0] s t ∧ t.od 0x2400 0x0A = (s.od 0x2400 0x0A + 1) % 2 ^ 32 ∧
        (∀ b, b < 2 ^ 48 → isRegSpace b = false →
          (∀ k, k < 16 * s.od 0x2400 0x11 → hub (s.od 0x2400 0x10) + k ≠ s.loc b) → t.byteAt b = s.byteAt b)) ∧
      (sp.trigger ≠ 1 → ∃ t, exec (.spillComplete h true) s = .next t ∧
        t = { s with dict := t.dict, regs := t.regs, objs := t.objs, spills := t.spills } ∧ SameBytes s t ∧
        t.spills = s.spills.filter (fun p => p.obj != h) ∧ (∀ j, (t.obj j).st = (s.obj j).st ∧ (t.obj j).addr = (s.obj j).addr) ∧
        t.od 0x2400 0x0B = (s.od 0x2400 0x0B + 1) % 2 ^ 32))) ∧
  (∀ s : State, Invariant s →
    (s.alive = true → 4 ≤ s.md.st → s.poolFree < s.od 0x2400 5 * mib →
      ∃ t, exec .backgroundEviction s = .next t ∧
        t = { s with mem := t.mem, dict := t.dict, regs := t.regs, objs := t.objs, pages := t.pages, spills := t.spills } ∧
        SameOd [odKey 0x2400 0x09 0, odKey 0x2410 0x05 0] s t ∧
        (∀ h, t.obj h = s.obj h ∨ (s.evictable h = true ∧ ((t.obj h).st = .cold ∨ (t.obj h).st = .discarded))) ∧
        (∀ h, t.page h = s.page h ∨ (s.dropable h = true ∧ t.page h = { s.page h with st := .absent, goal := (s.page h).fill })) ∧
        (s.od 0x2400 6 * mib ≤ s.poolFree → t = s)) ∧
    (s.alive = false ∨ s.md.st < 4 ∨ s.od 0x2400 5 * mib ≤ s.poolFree → exec .backgroundEviction s = .next s))

/-! ### Resets, links and requests that fail -/

/-- HP_RESET and module command 1 (R336, R350, R352, R375, R424, R450). The aperture code leaves every aperture idle, with 0x04C0
where a request was in progress, and notes itself in HP_RESET_STATUS; the restart code and the accepted command bring the module
back to Boot-ROM: what the spec keeps stays, a crash record is written, and the island takes STO for cause 1 where it had not. Its
readings that are the model's are in log entries 86, 87. -/
def Obligations.ResetsAndRestart : Prop :=
  ∀ (s : State), Invariant s →
    (∀ b : Burst, s.alive = true → b.ch < 4 → b.ecc = false → b.fixed = false → b.mask % 16 = 0 → s.burstOff b = 0x100 →
      (b.data % 2 ^ 32 = 0x0000A5C1 → s.md.bootMode = false → AMap.wf s.apers = true →
        ∃ t, exec (.hpResetApertures b) s = .next t ∧
          t = { s with apers := t.apers, stageQ := t.stageQ, objs := t.objs, pages := t.pages, dict := t.dict, regs := t.regs } ∧
          SameBytes s t ∧ SameOd [odKey 0x2410 5 0] s t ∧ SameRegs [baseHP + 0x108] s t ∧ t.reg (baseHP + 0x108) % 2 ^ 32 = 0x0000A5C1 ∧
          (∀ a, (t.aper a).st = 0 ∧ (t.aper a).blocks = 0 ∧
            (t.aper a).status = if (s.aper a).st = 1 ∨ (s.aper a).st = 3 ∨ (s.aper a).st = 4 then 0x04C0 else (s.aper a).status)) ∧
      (b.data % 2 ^ 32 = 0x0000A5C3 →
        ∃ t, exec (.hpResetRestart b) s = .next t ∧
          t = { State.reset with
            pending := s.pending, free := t.free, flash := t.flash, dict := t.dict, regs := t.regs, nextId := s.nextId,
            copies := t.copies, chans := s.chans, isl := t.isl, rcv := t.rcv, brd := t.brd, wire := s.wire, md := t.md } ∧
          t.md.st = 1 ∧ t.md.bootMode = true ∧ t.md.crash = true ∧ t.rcv.record = (s.rcv.record + 1) % 2 ^ 32 ∧
          t.isl.causes.testBit 1 = true ∧ (s.hasCause 1 = false → s.isl.safe ≠ 2 → Stopped t) ∧
          t.reg (baseHP + 0x108) % 2 ^ 32 = 0x0000A5C3)) ∧
    (∀ path, Accepted s path 0x2000 5 1 1 → path ≤ 1 →
      ∃ t, exec (.moduleRestart path) s = .next t ∧
        t = { State.reset with
          pending := s.pending, free := t.free, flash := t.flash, dict := t.dict, regs := t.regs, nextId := s.nextId,
          copies := t.copies, chans := s.chans, isl := t.isl, rcv := t.rcv, brd := t.brd, wire := s.wire, md := t.md } ∧
        t.md.st = 1 ∧ t.md.bootMode = true ∧ t.md.crash = true ∧ t.rcv.record = (s.rcv.record + 1) % 2 ^ 32 ∧
        t.isl.causes.testBit 1 = true ∧ (s.hasCause 1 = false → s.isl.safe ≠ 2 → Stopped t))

/-- A request that the fabric or a tier fails ends the running descriptor that made it (R282, R295, R297, R401): its result tells
which, and no other descriptor changes. A request to a domain that is not fenced is not refused. Its readings that are the model's
are in log entries 5, 36. -/
def Obligations.RequestsThatFail : Prop :=
  ∀ (s : State) (id : Nat) (d : Desc), Invariant s → s.desc? id = some d → d.st = .running → d.result = none →
    (∀ level a, ∃ t, exec (.fabricRequestTimeout id level a) s = .next t ∧
      t = { s with free := t.free, mem := t.mem, descs := t.descs, pages := t.pages, maps := t.maps, objs := t.objs } ∧
      t.desc? id = some { d with
        result := some { status := if level = 4 then 0x05F2 else if level = 2 ∧ s.peerDown d.die a = true then 0x05B1 else 0x05A2,
                         outcome := 9, flags := 0 } } ∧ (∀ j, j ≠ id → t.desc? j = s.desc? j) ∧
      (level = 4 ∨ level = 2 ∧ s.peerDown d.die a = true → t.objs = s.objs) ∧
      ∀ h, t.obj h = s.obj h ∨ (s.obj h).suspect = false ∧
        t.obj h = { s.obj h with suspect := true, badData := false, suspectOff := (t.obj h).suspectOff }) ∧
    (∀ a k, k < 6 →
        ¬ ((d.op = 0x0300 ∨ d.op = 0x0310) ∧ (solverHit d a k).isSome) → ¬ (0x0400 ≤ d.op ∧ d.op ≤ 0x04FF ∧ k = 0 ∧ s.poolAt a = true) →
      ∃ t, exec (.tierFault id a k) s = .next t ∧
        t = { s with free := t.free, mem := t.mem, dict := t.dict, descs := t.descs, cores := t.cores, pages := t.pages,
                     strs := t.strs, maps := t.maps, objs := t.objs } ∧ SameOd [odKey 0x2420 6 0] s t ∧
        t.desc? id = some { d with result := some { status := tierFault k, outcome := 9, flags := 0 } } ∧
        (∀ j, j ≠ id → t.desc? j = s.desc? j) ∧ (k = 2 ∨ k = 3 → t.strs = s.strs ∧ t.cores = s.cores ∧ t.dict = s.dict) ∧
        ∀ h, (t.obj h).st = (s.obj h).st ∧ (t.obj h).addr = (s.obj h).addr ∧
          ((s.obj h).suspect = true → (t.obj h).suspect = true)) ∧
    (∀ a k g, d.op = 0x0300 ∨ d.op = 0x0310 → solverHit d a k = some g →
      ∃ t, exec (.tierFault id a k) s = .next t ∧ t.ctxs = s.ctxs ∧ t.clus = s.clus ∧ SameRegs [baseSLV g + 0x28] s t ∧
        t.reg (baseSLV g + 0x28) = (s.reg (baseSLV g + 0x28) + 1) % 2 ^ 64 ∧ (∀ j, j ≠ id → t.desc? j = s.desc? j) ∧
        t.desc? id = some { d with result := some { status := 0x0560, outcome := 9, flags := 0 } }) ∧
    (∀ a k, 0x0400 ≤ d.op → d.op ≤ 0x04FF → (6 ≤ k ∨ k = 0 ∧ s.poolAt a = true) →
      ∃ t, exec (.tierFault id a k) s = .next t ∧ t.ctxs = s.ctxs ∧ t.dies = s.dies ∧ SameRegs [baseCLE d.die + 0x20] s t ∧
        t.reg (baseCLE d.die + 0x20) = (s.reg (baseCLE d.die + 0x20) + 1) % 2 ^ 64 ∧ (∀ j, j ≠ id → t.desc? j = s.desc? j) ∧
        t.desc? id = some { d with result := some { status := 0x0576, outcome := 0, flags := 0 } }) ∧
    (∀ a k, 6 ≤ k → ¬ ((d.op = 0x0300 ∨ d.op = 0x0310) ∧ (solverHit d a k).isSome) → ¬ (0x0400 ≤ d.op ∧ d.op ≤ 0x04FF) →
      exec (.tierFault id a k) s = .next s) ∧
    (∀ a, s.fencedAt a = true → ∃ t, exec (.fenceResponse id a) s = .next t ∧
      t = { s with free := t.free, mem := t.mem, descs := t.descs, pages := t.pages, maps := t.maps } ∧
      t.desc? id = some { d with result := some { status := 0x0404, outcome := 8, flags := 0 } } ∧
      ∀ j, j ≠ id → t.desc? j = s.desc? j) ∧
    (∀ a, s.fencedAt a = false → exec (.fenceResponse id a) s = .next s) ∧
    (∀ g, (((s.clu g).unc.filter (fun t => decide (s.dspTime (g / 8) < t + 1000000000))).length < 3 →
      ∃ t, exec (.routerEccError g id false) s = .next t ∧
        t = { s with free := t.free, mem := t.mem, dict := t.dict, descs := t.descs, clus := t.clus, pages := t.pages, maps := t.maps } ∧
        t.desc? id = some { d with result := some { status := 0x05B2, outcome := 9, flags := 0 } } ∧
        (∀ j, j ≠ id → t.desc? j = s.desc? j) ∧ SameOd [odKey (0x4100 + g) 0x32 0] s t ∧
        t.od (0x4100 + g) 0x32 = (s.od (0x4100 + g) 0x32 + 1) % 2 ^ 32 ∧ (∀ h, h ≠ g → t.clu h = s.clu h)) ∧
      ∃ t, exec (.routerEccError g id true) s = .next t ∧ t = { s with dict := t.dict } ∧ SameBytes s t ∧
        SameOd [odKey (0x4100 + g) 0x31 0] s t ∧ t.od (0x4100 + g) 0x31 = (s.od (0x4100 + g) 0x31 + 1) % 2 ^ 32)

/-- Links and job aborts (R298–R301, R305–R307). A replay counts at each end of its link, a fourth of one flit in a row or a
sixteenth within a millisecond retrains it, as do a loss of lock and the command; a retraining that leaves enough lanes brings the
link to the width they give. A job abort packet over a trained link is acknowledged once, and the hub relays what has no
acknowledgement 2 µs on. Its readings that are the model's are in log entries 5, 88, 90, 111. -/
def Obligations.LinksAndAborts : Prop :=
  ∀ (s : State) (l : Nat), Invariant s → l < 10 →
    (∀ same n k, 2 ≤ (s.link l).st → k = (if same then (s.link l).consec + 1 else 1) →
        n = ((s.dspTime ((linkDies l).headD 0) :: (s.link l).times).filter
          (fun t => decide (s.dspTime ((linkDies l).headD 0) < t + 1000000))).length →
      (n < 16 → k < 4 →
        ∃ t, exec (.flitReplay l same) s = .next t ∧ t = { s with dict := t.dict, links := t.links } ∧ SameBytes s t ∧
          (t.link l).st = (s.link l).st ∧ (t.link l).consec = k ∧ (t.link l).times.length = n ∧
          (∀ m, m ≠ l → t.link m = s.link m) ∧
          (∀ d, d ∈ linkDies l → t.od (0x4200 + d) (retryEntry l d) = (s.od (0x4200 + d) (retryEntry l d) + 1) % 2 ^ 32) ∧
          SameOd ((linkDies l).map (fun d => odKey (0x4200 + d) (retryEntry l d) 0)) s t) ∧
      (16 ≤ n ∨ 4 ≤ k →
        ∃ t, exec (.flitReplay l same) s = .next t ∧ t = { s with dict := t.dict, links := t.links, b2h := t.b2h, md := t.md } ∧
          SameBytes s t ∧ (t.link l).st = 1 ∧ (∀ m, m ≠ l → t.link m = s.link m))) ∧
    (∀ same, (s.link l).st < 2 → exec (.flitReplay l same) s = .next s ∧ exec (.receiverLossOfLock l) s = .next s) ∧
    (2 ≤ (s.link l).st →
      ∃ t, exec (.receiverLossOfLock l) s = .next t ∧ t = { s with dict := t.dict, links := t.links, b2h := t.b2h, md := t.md } ∧
        SameBytes s t ∧ t.link l = { s.link l with st := 1, times := [], consec := 0 } ∧ (∀ m, m ≠ l → t.link m = s.link m) ∧
        (∀ d, d ∈ linkDies l → t.od (0x4200 + d) 0x78 = (s.od (0x4200 + d) 0x78 + 1) % 2 ^ 32) ∧
        SameOd (odKey 0x2500 0x14 0 :: (linkDies l).map (fun d => odKey (0x4200 + d) 0x78 0)) s t) ∧
    (∀ path d m, path ≤ 1 → d < 4 → Accepted s path (0x4200 + d) 0x79 1 m →
      ∃ t, exec (.retrainCommand path d m) s = .next t ∧ t = { s with dict := t.dict, links := t.links, b2h := t.b2h, md := t.md } ∧
        SameBytes s t ∧ Answered path 0 t ∧
        (∀ i, i < 4 → m.testBit i = true → 2 ≤ (s.link ((linksOf d).getD i 0)).st → (t.link ((linksOf d).getD i 0)).st = 1) ∧
        (∀ i, i < 4 → m.testBit i = false → t.link ((linksOf d).getD i 0) = s.link ((linksOf d).getD i 0)) ∧
        ∀ k, k ∉ linksOf d → t.link k = s.link k) ∧
    (∀ f, (s.link l).st = 1 → laneState l f ≠ 0 →
      ∃ t, exec (.linkRetrainEnd l f) s = .next t ∧
        t = { s with mem := t.mem, dict := t.dict, ctxs := t.ctxs, dies := t.dies, links := t.links, b2h := t.b2h, md := t.md } ∧
        t.link l = { s.link l with st := laneState l f, tries := 0 } ∧ (∀ m, m ≠ l → t.link m = s.link m) ∧
        (4 ≤ l → SameBytes s t ∧ t.dies = s.dies ∧ t.ctxs = s.ctxs ∧ SameOd [odKey 0x2500 0x14 0] s t) ∧
        (l < 4 → t.die l = { s.die l with doors := [], notes := [] } ∧ (∀ e, e ≠ l → t.die e = s.die e) ∧
          ((s.die l).notes = [] → SameBytes s t) ∧ ((s.die l).doors = [] → t.ctxs = s.ctxs ∧ SameOd [odKey 0x2500 0x14 0] s t) ∧
          ∀ c p, (s.die l).doors = [(c, p)] → t.ctxs = (s.ring c p).ctxs)) ∧
    (∀ f, (s.link l).st = 1 → laneState l f = 0 → (s.link l).tries ≠ 3 →
      ∃ t, exec (.linkRetrainEnd l f) s = .next t ∧ t = { s with dict := t.dict, links := t.links, b2h := t.b2h, md := t.md } ∧
        SameBytes s t ∧ t.link l = { s.link l with st := 0, tries := (s.link l).tries + 1 } ∧ ∀ m, m ≠ l → t.link m = s.link m) ∧
    (∀ f, 2 ≤ (s.link l).st → exec (.linkRetrainEnd l f) s = .next s) ∧
    (∀ d job a, AMap.get? job s.aborts = some a → d ∈ a.wait → 2 ≤ (s.link (peerLink a.origin d)).st →
      ∃ t, exec (.jobAbortReceive d job) s = .next t ∧
        t = { s with free := t.free, mem := t.mem, dict := t.dict, descs := t.descs, ctxs := t.ctxs, aborts := t.aborts,
                     pages := t.pages, maps := t.maps, rcv := t.rcv } ∧
        (AMap.get? job t.aborts = if a.wait.filter (· ≠ d) = [] then none else some { a with wait := a.wait.filter (· ≠ d) }) ∧
        (s.holdsJob d job = true → t.od (0x4200 + d) 0x7B = (s.od (0x4200 + d) 0x7B + 1) % 2 ^ 32) ∧
        (s.holdsJob d job = false → t = { s with aborts := t.aborts }) ∧
        (∀ c, (s.ctx c).st = .opened ∨ (s.ctx c).st = .paused → s.home c = d → s.od 0x5000 5 c = job →
          (t.ctx c).st = .paused ∧
          ∀ id x, s.desc? id = some x → x.ctx = c → ∃ r, t.desc? id = some { x with result := some r } ∧
            (x.result = none → r = { status := 0x0402, outcome := 8, flags := 0 }) ∧ (∀ q, x.result = some q → r = q))) ∧
    (∀ job a w, AMap.get? job s.aborts = some a → a.orphan = true ∨ a.at_ + 2000 ≤ s.dspTime a.origin → w = a.wait.filter (fun d => (s.die d).st == 0) →
      ∃ t, exec (.jobAbortRelay job) s = .next t ∧ t = { s with dict := t.dict, aborts := t.aborts } ∧ SameBytes s t ∧
        (AMap.get? job t.aborts = if w = [] then none else
          some { a with wait := w, relayed := a.relayed ++ w.filter (fun d => !(a.relayed.contains d)) }) ∧
        SameOd (w.map (fun d => odKey (0x4200 + d) 0x7C 0)) s t)

/-! ### The recovery sequencer -/

/-- The hang ladder (R401–R413): a unit that holds unfinished work and makes no progress is fenced and drains, and its S and C
work ends 0x0403; a drained unit is reset, an ended reset counts and owes its sweep, and a reset that takes ten times its time
escalates. A suspect is replayed alone and the ladder goes on from its outcome. Reset units: cores 0–255, clusters 256–287,
clearance engines 288–291. Its readings that are the model's are in log entries 5, 92. -/
def Obligations.HangLadder : Prop :=
  ∀ (s : State) (e : Nat), Invariant s → e < 292 →
    ((s.elemRst e).1 = 0 → AMap.wf s.descs = true → s.replayOn e = none →
        (∃ id d, s.desc? id = some d ∧ d.st = .running ∧ d.onElem e = true ∧ d.result = none) →
      (∃ t, exec (.engineProgressTimeout e) s = .next t ∧ Hung e s t) ∧
      (e < 256 → ∃ t, exec (.coreWatchdogExpiry e) s = .next t ∧ Hung e s t)) ∧
    ((s.elemRst e).1 ≠ 0 → exec (.engineProgressTimeout e) s = .next s ∧ exec (.coreWatchdogExpiry e) s = .next s) ∧
    ((s.elemRst e).1 = 1 →
      ∃ t, exec (.fenceDrainEnd e) s = .next t ∧ t = { s with cores := t.cores, clus := t.clus, dies := t.dies } ∧ SameBytes s t ∧
        t.elemRst e = (2, s.recTime) ∧ ∀ j, j ≠ e → t.elemRst j = s.elemRst j) ∧
    ((s.elemRst e).1 ≠ 1 → exec (.fenceDrainEnd e) s = .next s) ∧
    ((s.elemRst e).1 = 2 → s.explained e = false →
      ∃ t, exec (.domainResetEnd e) s = .next t ∧ (t.elemRst e).1 = 0 ∧
        (∀ i, i ∈ elemTests e → (t.tst i).owed = true ∧ (t.tst i).slices = 0 ∧ (t.tst i).tested = false) ∧
        t.fse = s.fse ∧ t.esp = s.esp ∧ t.gov = s.gov ∧ t.links = s.links ∧ t.apers = s.apers) ∧
    ((s.elemRst e).1 ≠ 2 → exec (.domainResetEnd e) s = .next s) ∧
    ((s.elemRst e).1 = 2 → (s.elemRst e).2 + 10 * resetTime e ≤ s.recTime → e < 256 →
      ∃ t, exec (.resetEscalation e) s = .next t ∧ (t.elemRst (256 + coreClus e)).1 = 1 ∧ t.fse = s.fse ∧ t.esp = s.esp ∧ t.links = s.links) ∧
    ((s.elemRst e).1 ≠ 2 ∨ s.recTime < (s.elemRst e).2 + 10 * resetTime e → exec (.resetEscalation e) s = .next s) ∧
    (∀ u h id r d cores k, u = s.pruneHang e → u.rcv.hangs.find? (fun h => h.elem == e) = some h → h.todo = id :: r → h.now = none →
        (u.elemRst e).1 = 0 → u.desc? id = some d → u.quarantine h d = some (cores, k) →
      ∃ t x, exec (.replayStart e) s = .next t ∧ t.desc? id = some x ∧ x.st = .running ∧ x.replays = 2 ∧ x.cores = cores ∧
        x.words = d.words ∧ x.seq = d.seq ∧
        (∀ j, j ≠ id → t.desc? j = u.desc? j ∨ (d.op = 0x0410 ∧ u.runningCheck d.die = some j)) ∧ (t.replayOn k).isSome = true ∧
        t.od 0x2300 5 = (u.od 0x2300 5 + 1) % 2 ^ 32) ∧
    (∀ h id k d energy, s.rcv.hangs.find? (fun h => h.elem == e) = some h → h.now = some (id, k) → s.desc? id = some d →
      (d.result = none → exec (.replayOutcome e 0 energy) s = .next s) ∧
      (d.result ≠ none →
        ∃ t, exec (.replayOutcome e 0 energy) s = .next t ∧ (∀ g, g ∈ t.rcv.hangs → g.elem = e → g.now = none) ∧ t.chans = s.chans))

/-- Resets and fences by command (R414, R415, R426). The core and cluster commands of a unit in service and not in a reset fence
it and start its drain; a fence for a remap leaves the core pending one; a pending remap in an unreserved cluster resets it. Of a
unit that is not in service the commands are refused 0x03F0 and change nothing else. Its readings that are the model's are in log
entries 5, 93. -/
def Obligations.ResetCommands : Prop :=
  ∀ (s : State) (path n g : Nat), Invariant s → path ≤ 1 → n < 256 → g < 32 →
    (Accepted s path (0x4000 + n) 0x22 1 1 →
      (s.resettable n = true → ∃ t, exec (.coreResetCommand path n) s = .next t ∧ Answered path 0 t ∧
        (t.core n).rst = 1 ∧ (t.core n).fenced = true ∧ (t.tst n).run = false ∧ t.md.st = s.md.st ∧ t.fse = s.fse ∧ t.esp = s.esp) ∧
      (s.resettable n = false → ∃ t, exec (.coreResetCommand path n) s = .next t ∧ Answered path 0x03F0 t ∧
        t = { s with dict := t.dict, md := t.md } ∧ SameBytes s t ∧ SameOd [odKey 0x2002 3 0] s t)) ∧
    (Accepted s path (0x4000 + n) 0x22 1 2 →
      (s.resettable n = true → (s.core n).remap = false → (s.core n).dead = false →
        ∃ t, exec (.coreFencePendingRemap path n) s = .next t ∧ Answered path 0 t ∧
          (t.core n).fenced = true ∧ (t.core n).remap = true ∧ t.md.st = s.md.st ∧ t.fse = s.fse ∧ t.esp = s.esp) ∧
      (s.resettable n = false ∨ (s.core n).remap = true ∨ (s.core n).dead = true →
        ∃ t, exec (.coreFencePendingRemap path n) s = .next t ∧ Answered path 0x03F0 t ∧
          t = { s with dict := t.dict, md := t.md } ∧ SameBytes s t ∧ SameOd [odKey 0x2002 3 0] s t)) ∧
    (Accepted s path (0x4100 + g) 0x51 1 1 →
      (s.resettable (256 + g) = true → ∃ t, exec (.clusterResetCommand path g) s = .next t ∧ Answered path 0 t ∧
        (t.clu g).rst = 1 ∧ (∀ k, k < 8 → (t.core (8 * g + k)).fenced = true) ∧ t.md.st = s.md.st ∧ t.fse = s.fse ∧ t.esp = s.esp) ∧
      (s.resettable (256 + g) = false → ∃ t, exec (.clusterResetCommand path g) s = .next t ∧ Answered path 0x03F0 t ∧
        t = { s with dict := t.dict, md := t.md } ∧ SameBytes s t ∧ SameOd [odKey 0x2002 3 0] s t)) ∧
    (s.resettable (256 + g) = true → (∀ k, k < 8 → s.reserver (8 * g + k) = none) → (∃ k, k < 8 ∧ (s.core (8 * g + k)).remap = true) →
      ∃ t, exec (.remapClusterReset g) s = .next t ∧ (t.clu g).rst = 1 ∧ (∀ k, k < 8 → (t.core (8 * g + k)).fenced = true) ∧
        t.md.st = s.md.st ∧ t.fse = s.fse ∧ t.esp = s.esp) ∧
    ((∀ k, k < 8 → (s.core (8 * g + k)).remap = false) ∨ (∃ k, k < 8 ∧ s.reserver (8 * g + k) ≠ none) →
      exec (.remapClusterReset g) s = .next s)

/-- Die recovery (R416–R418). The accepted command starts recovery of a die in service, and once more of one out of service;
another is refused 0x03F0. A die that does not come back in time, or whose hub link stays down, is out of service; one that does
is in service again. Its readings that are the model's are in log entries 5, 93. -/
def Obligations.DieRecovery : Prop :=
  ∀ (s : State) (path d : Nat), Invariant s → path ≤ 1 → d < 4 →
    (Accepted s path (0x4200 + d) 0x82 1 1 →
      ((s.die d).st = 0 ∨ ((s.die d).st = 2 ∧ (s.die d).retried = false) →
        ∃ t, exec (.dieRecoveryCommand path d) s = .next t ∧ Answered path 0 t ∧ (t.die d).st = 1 ∧ (t.die d).recAt = s.recTime ∧
          (t.die d).running = false ∧ t.fse = s.fse ∧ t.esp = s.esp ∧ t.chans = s.chans ∧ ∀ j, j ≠ d → (t.die j).st = (s.die j).st) ∧
      ((s.die d).st = 1 ∨ ((s.die d).st = 2 ∧ (s.die d).retried = true) →
        ∃ t, exec (.dieRecoveryCommand path d) s = .next t ∧ Answered path 0x03F0 t ∧ t = { s with dict := t.dict, md := t.md } ∧
          SameBytes s t ∧ SameOd [odKey 0x2002 3 0] s t)) ∧
    (∀ st, (s.die d).st = 1 → st < 0x0700 →
      ∃ t, exec (.dieOutOfService d st) s = .next t ∧ (t.die d).st = 2 ∧ t.od (0x4200 + d) 0x83 = st ∧
        (t.od 0x2000 9).testBit 1 = true ∧ (∀ j, j ≠ d → t.die j = { s.die j with notes := (t.die j).notes }) ∧ t.objs = s.objs ∧ t.chans = s.chans) ∧
    (∀ st, (s.die d).st ≠ 1 ∨ 0x0700 ≤ st → exec (.dieOutOfService d st) s = .next s) ∧
    (∀ lanes bad, (s.die d).st = 1 → (∀ p, p ∈ s.descs → p.2.die ≠ d) →
      (s.recTime ≤ (s.die d).recAt + 4000000000 → laneState d (lanes.getD 0 0) ≠ 0 →
        ∃ t, exec (.dieRecoveryEnd d lanes bad) s = .next t ∧ (t.die d).st = 0 ∧ (t.die d).running = true ∧
          t.od (0x4200 + d) 0x83 = 0 ∧ t.objs = s.objs ∧ t.chans = s.chans) ∧
      ((s.die d).recAt + 4000000000 < s.recTime ∨ laneState d (lanes.getD 0 0) = 0 →
        ∃ t, exec (.dieRecoveryEnd d lanes bad) s = .next t ∧ (t.die d).st = 2 ∧ t.od (0x4200 + d) 0x83 = 0x05B1)) ∧
    (∀ lanes bad, (s.die d).st ≠ 1 → exec (.dieRecoveryEnd d lanes bad) s = .next s)

/-- Barista's failures, restart and heartbeat, the crash flag and the core mailboxes (R419–R424, R333). A failure writes a crash
record; a failure without a fourth restart within ten minutes restarts Barista; a hub fault halts it until the module restarts.
Every write of a core's mailbox counts, replaces the message, and counts a collision where one waited. Its readings that are the
model's are in log entries 5, 88, 91. -/
def Obligations.BaristaFailures : Prop :=
  ∀ (s : State), Invariant s →
    (s.md.barista = 0 →
      (∃ t, exec .baristaCrash s = .next t ∧ BaristaDown 4 s t) ∧
      (s.rcv.beatAt + 10000000 ≤ s.recTime → ∃ t, exec .baristaHeartbeatLoss s = .next t ∧ BaristaDown 2 s t) ∧
      (s.recTime < s.rcv.beatAt + 10000000 → exec .baristaHeartbeatLoss s = .next s)) ∧
    (s.md.barista ≠ 0 → exec .baristaCrash s = .next s ∧ exec .baristaHeartbeatLoss s = .next s) ∧
    (∃ t, exec .hubUncorrectableFault s = .next t ∧
      t = { s with free := t.free, flash := t.flash, dict := t.dict, b2h := t.b2h, md := t.md, rcv := t.rcv } ∧
      (∀ a, isRegSpace a = false → t.byteAt a = s.byteAt a) ∧ t.md.barista = 4 ∧ t.rcv.halted = true ∧ t.md.st = s.md.st ∧
      t.rcv.record = (s.rcv.record + 1) % 2 ^ 32) ∧
    (s.md.barista ≠ 0 → s.rcv.halted = false → 3 ≤ s.md.st → s.ranked = s.md.st →
      ∃ t, exec .baristaRestartComplete s = .next t ∧
        t = { s with dict := t.dict, regs := t.regs, b2h := t.b2h, md := t.md, rcv := t.rcv } ∧ SameBytes s t ∧
        SameRegs [keyBarista] s t ∧ t.reg keyBarista = 0 ∧ t.md.at_ = 0 ∧ t.md.beatAt = 0 ∧
        t.md.barista = 0 ∧ t.md.owed = [] ∧ t.md.st = s.md.st ∧ t.rcv = { s.rcv with beatAt := s.recTime }) ∧
    (s.md.barista = 0 ∨ s.rcv.halted = true ∨ s.md.st < 3 → exec .baristaRestartComplete s = .next s) ∧
    (s.md.barista = 0 → s.md.beatAt + 1000000 ≤ s.barTime →
      exec .baristaHeartbeatTick s = .next { s with
        md := { s.md with beat := (s.md.beat + 1) % 2 ^ 32, beatAt := s.barTime }, rcv := { s.rcv with beatAt := s.recTime } }) ∧
    (s.md.barista ≠ 0 ∨ s.barTime < s.md.beatAt + 1000000 → exec .baristaHeartbeatTick s = .next s) ∧
    (∀ path, path ≤ 1 → Accepted s path 0x2300 0x0B 1 1 →
      ∃ t, exec (.clearCrashFlag path) s = .next t ∧ t = { s with dict := t.dict, md := t.md } ∧ SameBytes s t ∧
        t.md.crash = false ∧ Answered path 0 t ∧ SameOd [odKey 0x2002 3 0] s t) ∧
    (∀ n w, (n < 256 →
        ∃ t, exec (.coreMailboxWrite n w) s = .next t ∧ t = { s with rcv := { s.rcv with mboxes := t.rcv.mboxes } } ∧ SameBytes s t ∧
          (t.coreBox n).msg = w % 2 ^ 512 ∧ (t.coreBox n).full = true ∧ (t.coreBox n).written = ((s.coreBox n).written + 1) % 65536 ∧
          (t.coreBox n).coll = (if (s.coreBox n).full then ((s.coreBox n).coll + 1) % 65536 else (s.coreBox n).coll) ∧
          ∀ k, k ≠ n → t.coreBox k = s.coreBox k) ∧
      (256 ≤ n → exec (.coreMailboxWrite n w) s = .next s))

/-! ### Functional safety -/

/-- The island's causes and outputs (R369–R372, R376, R377, R385, R387, R255, R19). A fault of the island and a readback that
disagrees for over 20 µs raise cause 3 and stop motion; the SS1 delay ends in STO; a due test pulse pulls its channel low for 100
µs; an alive window without a good record raises cause 7; a connection that leaves Data raises cause 13; a missing Espresso output
raises cause 15 and the island sends its own frames; a limit table with the right CRC is adopted. Its readings that are the
model's are in log entries 5, 90. -/
def Obligations.SafetyIsland : Prop :=
  ∀ (s : State), Invariant s →
    (s.hasCause 3 = false →
      ∃ t, exec .islandInternalFault s = .next t ∧
        t = { s with free := t.free, mem := t.mem, dict := t.dict, regs := t.regs, descs := t.descs, pages := t.pages, maps := t.maps,
                     b2h := t.b2h, md := t.md, isl := t.isl, brd := t.brd } ∧ t.flash = s.flash ∧
        t.isl.causes = s.isl.causes ||| 8 ∧ t.isl.safe = 2 ∧ (s.isl.safe ≠ 2 → Stopped t) ∧
        t.od 0x2200 3 = (s.od 0x2200 3 + 1) % 2 ^ 32) ∧
    (s.hasCause 3 = true → exec .islandInternalFault s = .next s) ∧
    (∀ b level ns, 20000 < ns → s.stopCmd b ≠ level → s.hasCause 3 = false → s.isl.safe ≠ 2 →
      ∃ t, exec (.safeStopReadbackMismatch b level ns) s = .next t ∧
        t = { s with free := t.free, mem := t.mem, dict := t.dict, regs := t.regs, descs := t.descs, pages := t.pages, maps := t.maps,
                     b2h := t.b2h, md := t.md, isl := t.isl, brd := t.brd } ∧
        t.isl.causes = s.isl.causes ||| 8 ∧ Stopped t) ∧
    (∀ b level ns, ns ≤ 20000 ∨ s.stopCmd b = level → exec (.safeStopReadbackMismatch b level ns) s = .next s) ∧
    (s.isl.safe = 1 → s.isl.ss1End ≤ s.safTime →
      exec .ss1DelayExpiry s = .next { s with isl := { s.isl with safe := 2, ss1End := 0, pinA := false, pinB := false } }) ∧
    (s.isl.safe ≠ 1 ∨ s.safTime < s.isl.ss1End → exec .ss1DelayExpiry s = .next s) ∧
    (s.isl.pulseA = 0 → s.od 0x2200 0x0A = 1 → s.isl.lastA + 100000000 ≤ s.safTime →
      exec (.safeStopTestPulse false) s = .next { s with
        isl := { s.isl with pulseA := s.safTime + 100000, lastA := s.safTime, pinA := false, pinB := s.stopCmd true } }) ∧
    (s.isl.pulseB = 0 → s.od 0x2200 0x0A = 1 → s.isl.lastB + 100000000 ≤ s.safTime → s.isl.lastA + 50000000 ≤ s.safTime →
      exec (.safeStopTestPulse true) s = .next { s with
        isl := { s.isl with pulseB := s.safTime + 100000, lastB := s.safTime, pinA := s.stopCmd false, pinB := false } }) ∧
    (s.isl.pulseA ≠ 0 → s.isl.pulseA ≤ s.safTime →
      exec (.safeStopTestPulse false) s = .next { s with
        isl := { s.isl with pulseA := 0, pinA := s.isl.safe != 2, pinB := s.stopCmd true } }) ∧
    (∀ i, (s.mon i).ends ≠ 0 → (s.mon i).ends ≤ s.safTime →
      ∃ t, exec (.aliveWindowExpiry i) s = .next t ∧
        t = { s with free := t.free, mem := t.mem, dict := t.dict, regs := t.regs, descs := t.descs, pages := t.pages, maps := t.maps,
                     b2h := t.b2h, md := t.md, isl := t.isl, brd := t.brd } ∧
        t.mon i = { s.mon i with ends := (s.mon i).ends + s.od (0x2220 + i) 4, good := false } ∧ (∀ j, j ≠ i → t.mon j = s.mon j) ∧
        ((s.mon i).good = true → t = { s with isl := t.isl } ∧ t.isl.causes = s.isl.causes) ∧
        ((s.mon i).good = false → t.isl.causes = s.isl.causes ||| 0x80)) ∧
    (∀ i, (s.mon i).ends = 0 ∨ s.safTime < (s.mon i).ends → exec (.aliveWindowExpiry i) s = .next s) ∧
    (∀ e, e < 292 → (s.tst e).tested = true → (s.tst e).at_ + s.od 0x2200 8 * 1000000 < s.safTime →
      ∃ t, exec (.diagnosticIntervalLapse e) s = .next t ∧ t = { s with isl := t.isl } ∧ SameBytes s t ∧
        t.tst e = { s.tst e with tested := false } ∧ ∀ j, j ≠ e → t.tst j = s.tst j) ∧
    (∀ path crc base n tab, path ≤ 1 → Accepted s path 0x2201 3 4 crc → base = s.od 0x2201 1 → n = s.od 0x2201 2 →
        tab = (List.range n).map (fun i => s.rdHub (base + 16 * i) 16) →
      (n ≠ 0 → base % 16 = 0 → hubRange base (16 * n) = true →
          crc32c (natBytes (s.rdBytes (hub base) (16 * n))) = crc % 2 ^ 32 → tab.all limitOk = true →
        ∃ t, exec (.limitTableCommit path crc) s = .next t ∧ t = { s with dict := t.dict, md := t.md, isl := t.isl } ∧ SameBytes s t ∧
          Answered path 0 t ∧ t.isl = { s.isl with nextTab := some tab, verified := true }) ∧
      (crc32c (natBytes (s.rdBytes (hub base) (16 * n))) ≠ crc % 2 ^ 32 →
        ∃ t, exec (.limitTableCommit path crc) s = .next t ∧ t = { s with dict := t.dict, md := t.md } ∧ SameBytes s t ∧
          Answered path 0x03E1 t)) ∧
    (s.esp.st ≠ 0 → s.isl.frameAt + 2 * s.isl.period ≤ s.safTime →
      ∃ t, exec .espressoOutputAbsent s = .next t ∧
        t = { s with free := t.free, mem := t.mem, dict := t.dict, regs := t.regs, descs := t.descs, pages := t.pages, maps := t.maps,
                     b2h := t.b2h, md := t.md, isl := t.isl, brd := t.brd } ∧
        t.isl.own = true ∧ t.isl.causes = s.isl.causes ||| 0x8000) ∧
    (s.esp.st = 0 ∨ s.safTime < s.isl.frameAt + 2 * s.isl.period → exec .espressoOutputAbsent s = .next s) ∧
    (s.isl.own = true → s.isl.ownAt + s.isl.period ≤ s.safTime →
      ∃ t l, exec .islandFrameSend s = .next t ∧ t = { s with free := t.free, wire := t.wire, isl := { s.isl with ownAt := s.safTime } } ∧
        SameBytes s t ∧ t.wire = (s.copiesOf 3 l ++ s.wire).take 64) ∧
    (s.isl.own = false ∨ s.safTime < s.isl.ownAt + s.isl.period → exec .islandFrameSend s = .next s) ∧
    (∀ c leaves, s.od (0x2740 + c) 1 ≠ 0 → AMap.getD c 0 s.isl.fsoeSt ≠ 0 →
        (AMap.getD c 0 s.isl.fsoeAt + s.od (0x2740 + c) 6 * 1000000 ≤ s.safTime ∨ (leaves = true ∧ AMap.getD c 0 s.isl.fsoeSt = 4)) →
      ∃ t, exec (.fsoeWatchdogExpiry c leaves) s = .next t ∧
        t = { s with free := t.free, mem := t.mem, dict := t.dict, regs := t.regs, descs := t.descs, pages := t.pages, maps := t.maps,
                     b2h := t.b2h, md := t.md, isl := t.isl, brd := t.brd } ∧
        AMap.getD c 0 t.isl.fsoeSt = 0 ∧ c ∈ t.isl.fsoe ∧ t.isl.causes = s.isl.causes ||| 0x2000) ∧
    (∃ t, exec .safDroppedWrite s = .next t ∧ t = { s with regs := t.regs } ∧ SameBytes s t ∧ SameRegs [baseSAF + 0x40] s t ∧
      t.reg (baseSAF + 0x40) = (s.reg (baseSAF + 0x40) + 1) % 2 ^ 64)

/-- Paired execution, golden frames and sweeps (R379–R383, R389–R393). The shadow copy starts no sooner than the stagger; equal
signatures leave the result, different ones end the pair 0x0601 with cause 4 and every core of it untested, and a copy that is cut
short ends it 0x0602 with cause 5; each pair is judged once. A golden frame whose signature differs ends 0x0604 with cause 8. A
slice that passes counts, the last one returns the element tested, and one that fails leaves the element fenced and reports it.
Its readings that are the model's are in log entries 5, 90, 92, 94, 122. -/
def Obligations.PairsAndSweeps : Prop :=
  ∀ (s : State), Invariant s →
    (∀ id d x, s.desc? id = some d → d.shadow = some x → d.st = .running → x.placed = false → (s.die x.die).st = 0 →
        (∀ r, d.result = some r → stClass r.status < 2) →
      (x.at_ + s.od 0x2200 7 ≤ s.dspTime x.die →
        (d.unitless = true → s.cleShadow d x.die = true →
          ∃ t, exec (.shadowPlace id) s = .next t ∧
            t = { s with free := t.free, dict := t.dict, descs := t.descs, dies := t.dies, isl := t.isl } ∧ SameBytes s t ∧
            (d.op ≠ 0x0410 → t = { s with descs := t.descs, isl := t.isl }) ∧ SameOd [odKey (0x4200 + x.die) 0x51 0] s t ∧
            (d.op = 0x0410 → t.od (0x4200 + x.die) 0x51 = (s.od (0x4200 + x.die) 0x51 + 1) % 2 ^ 32) ∧
            (d.op ≠ 0x0410 ∨ s.runningCheck x.die = none →
              t.desc? id = some { d with shadow := some { x with placed := true, at_ := s.dspTime x.die } }) ∧
            ∀ j, j ≠ id → t.desc? j = s.desc? j ∨ (d.op = 0x0410 ∧ s.runningCheck x.die = some j)) ∧
        (d.unitless = true → s.cleShadow d x.die = false → exec (.shadowPlace id) s = .next s) ∧
        (∀ l, d.unitless = false → s.shadowCores d x.die = some l →
          ∃ t, exec (.shadowPlace id) s = .next t ∧ t = { s with descs := t.descs, dict := t.dict, clus := t.clus, isl := t.isl } ∧
            SameBytes s t ∧ t.desc? id = some { d with shadow := some { x with placed := true, cores := l, at_ := s.dspTime x.die } } ∧
            ∀ j, j ≠ id → t.desc? j = s.desc? j)) ∧
      (s.dspTime x.die < x.at_ + s.od 0x2200 7 → exec (.shadowPlace id) s = .next s)) ∧
    (∀ id d x r home shadow flags status, s.desc? id = some d → d.shadow = some x → d.result = some r → x.judged = false →
        stClass r.status < 2 → (∀ g, g ∈ home → g.1 + 64 ≤ 0x040000000000) →
      ((s.die x.die).st = 0 → x.placed = true → stClass status ≠ 4 → stClass status ≠ 5 →
        (pairSign (home.map (fun g => (g.1, g.2, s.rd g.1 64))) = pairSign shadow → home.length = shadow.length → flags = r.flags →
            stClass status = stClass r.status →
          ∃ t, exec (.pairCompare id home shadow flags status) s = .next t ∧
            t = { s with free := t.free, dict := t.dict, regs := t.regs, descs := t.descs } ∧ SameBytes s t ∧
            t.desc? id = some { d with shadow := some { x with judged := true } } ∧ (∀ j, j ≠ id → t.desc? j = s.desc? j) ∧
            (d.op ≠ 0x0410 → t.free = s.free ∧ SameRegs [baseSAF + 0x20] s t) ∧ t.reg (baseSAF + 0x20) = (s.reg (baseSAF + 0x20) + 1) % 2 ^ 64 ∧
            t.od (0x4200 + d.die) 0x11 = (s.od (0x4200 + d.die) 0x11 + 1) % 2 ^ 32) ∧
        (pairSign (home.map (fun g => (g.1, g.2, s.rd g.1 64))) ≠ pairSign shadow →
          ∃ t, exec (.pairCompare id home shadow flags status) s = .next t ∧
            t = { s with free := t.free, mem := t.mem, dict := t.dict, regs := t.regs, descs := t.descs, pages := t.pages, strs := t.strs,
                         maps := t.maps, b2h := t.b2h, md := t.md, isl := t.isl, brd := t.brd } ∧ (isChunk d = false → t.strs = s.strs) ∧
            t.desc? id = some { d with
              result := some { r with status := 0x0601, outcome := 9 }, shadow := some { x with judged := true } } ∧
            t.isl.causes = s.isl.causes ||| 0x10 ∧ t.reg (baseSAF + 0x28) = (s.reg (baseSAF + 0x28) + 1) % 2 ^ 64 ∧
            ∀ n, n ∈ d.cores ++ x.cores → (t.tst n).tested = false ∧ (t.tst n).owed = true)) ∧
      ((s.die x.die).st ≠ 0 ∨ stClass status = 4 ∨ stClass status = 5 →
        ∃ t, exec (.pairCompare id home shadow flags status) s = .next t ∧
          t = { s with free := t.free, mem := t.mem, dict := t.dict, regs := t.regs, descs := t.descs, pages := t.pages, strs := t.strs,
                       maps := t.maps, b2h := t.b2h, md := t.md, isl := t.isl, brd := t.brd } ∧ (isChunk d = false → t.strs = s.strs) ∧
          t.desc? id = some { d with
            result := some { r with status := 0x0602, outcome := 9 }, shadow := some { x with judged := true } } ∧
          t.isl.causes = s.isl.causes ||| 0x20)) ∧
    (∀ id d x r home shadow flags status, s.desc? id = some d → d.shadow = some x → d.result = some r →
      (x.judged = true ∨ (2 ≤ stClass r.status ∧ s.shadowOut d r = false) → exec (.pairCompare id home shadow flags status) s = .next s) ∧
      (x.judged = false → 2 ≤ stClass r.status → s.shadowOut d r = true →
        ∃ t, exec (.pairCompare id home shadow flags status) s = .next t ∧ t = { s with descs := t.descs } ∧ SameBytes s t ∧
          t.desc? id = some { d with shadow := some { x with judged := true } } ∧ ∀ j, j ≠ id → t.desc? j = s.desc? j)) ∧
    (∀ id d v r want, s.desc? id = some d → s.verOf d.ctx = some v → d.result = some r → d.closes = true → d.stage ≠ 1 →
        stClass r.status < 2 → (∀ p, p ∈ s.descs → p.2.ctx = d.ctx → id ≤ p.1) → (s.ver v).bad = false → (s.ver v).fresh = true →
        want = s.rd ((s.obj (s.od (0x2260 + v) 6)).addr + s.od (0x2260 + v) 7 * s.od (0x2260 + v) 3 + 8 * (s.ver v).input) 8 →
      (s.goldenSign (s.od (0x2260 + v) 4) (s.od (0x2260 + v) 5) = want →
        ∃ t, exec (.goldenFrameCheck id) s = .next t ∧ t = { s with descs := t.descs, isl := t.isl } ∧ SameBytes s t ∧
          t.desc? id = some { d with stage := 1, result := some { r with status := 0 } } ∧ (∀ j, j ≠ id → t.desc? j = s.desc? j) ∧
          (t.ver v).count = 0 ∧ t.isl.causes.testBit 9 = false) ∧
      (s.goldenSign (s.od (0x2260 + v) 4) (s.od (0x2260 + v) 5) ≠ want →
        ∃ t, exec (.goldenFrameCheck id) s = .next t ∧
          t = { s with free := t.free, mem := t.mem, dict := t.dict, regs := t.regs, descs := t.descs, pages := t.pages, maps := t.maps,
                       b2h := t.b2h, md := t.md, isl := t.isl, brd := t.brd } ∧
          t.desc? id = some { d with stage := 1, result := some { r with status := 0x0604 } } ∧
          (t.ver v).mism = ((s.ver v).mism + 1) % 2 ^ 32 ∧ t.isl.causes = s.isl.causes ||| 0x100)) ∧
    (∀ e, (s.sliceable e = true → (s.tst e).owed = true →
        ∃ t, exec (.sweepSliceStart e) s = .next t ∧ t = { s with isl := t.isl } ∧ SameBytes s t ∧
          t.tst e = { s.tst e with run := true } ∧ ∀ j, j ≠ e → t.tst j = s.tst j) ∧
      (s.sliceable e = false → exec (.sweepSliceStart e) s = .next s) ∧
      ((s.tst e).run = true → (s.tst e).slices + 1 < sweepLen e →
        ∃ t, exec (.sweepSliceEnd e true) s = .next t ∧ t = { s with free := t.free, isl := t.isl } ∧ SameBytes s t ∧
          t.tst e = { s.tst e with run := false, slices := (s.tst e).slices + 1, energy := (t.tst e).energy } ∧ ∀ j, j ≠ e → t.tst j = s.tst j) ∧
      ((s.tst e).run = true → sweepLen e ≤ (s.tst e).slices + 1 → s.barred e = true →
        ∃ t, exec (.sweepSliceEnd e true) s = .next t ∧ t = { s with free := t.free, isl := t.isl } ∧ SameBytes s t ∧
          t.tst e = { s.tst e with tested := true, slices := 0, run := false, owed := false, at_ := s.safTime, energy := (t.tst e).energy }) ∧
      ((s.tst e).run = true → sweepLen e ≤ (s.tst e).slices + 1 → s.barred e = false → e < 256 →
        ∃ t, exec (.sweepSliceEnd e true) s = .next t ∧ (t.core e).fenced = false ∧ t.objs = s.objs ∧ t.strs = s.strs ∧
          t.tst e = { s.tst e with tested := true, slices := 0, run := false, owed := false, at_ := s.safTime, energy := (t.tst e).energy }) ∧
      ((s.tst e).run = true → e < 256 →
        ∃ t, exec (.sweepSliceEnd e false) s = .next t ∧
          t = { s with free := t.free, dict := t.dict, b2h := t.b2h, md := t.md, isl := t.isl, cores := t.cores, strs := t.strs } ∧
          SameBytes s t ∧ t.core e = { s.core e with fenced := true, remap := true, pinned := (t.core e).pinned } ∧
          (∀ j, j ≠ e → t.core j = s.core j) ∧ (∀ x, (s.strm x).st = .pinned → (s.strm x).core = e → (t.strm x).st = .lost) ∧
          (∀ x, ¬ ((s.strm x).st = .pinned ∧ (s.strm x).core = e) → AMap.wf s.strs = true → t.strm x = s.strm x) ∧
          t.tst e = { s.tst e with tested := false, slices := 0, run := false, owed := false, energy := (t.tst e).energy }) ∧
      ((s.tst e).run = false → ∀ ok, exec (.sweepSliceEnd e ok) s = .next s))

/-! ### The Espresso loop -/

/-- Loop commands and what the loop does beside its cycle (R237, R253, R254, R256, R257, R353). Arm from Off with a valid
configuration measures the ring and enters Armed, Start and Stop set the program going and the fallback cycles running, Disarm
returns to Off; each is refused 0x03D0 in another state. A battery below its floor for the confirm time asks for Decaf, one
recovered leaves it. An SDO on the body segment moves its data through hub SRAM and leaves its status. Its readings that are the
model's are in log entries 5, 66, 90, 119. -/
def Obligations.LoopCommands : Prop :=
  ∀ (s : State) (path : Nat), Invariant s → path ≤ 1 →
    (∀ x : Seg, Accepted s path 0x2700 2 1 1 →
      (s.esp.st = 0 → s.loopLegal = true → s.tableOk x.ids = true → s.fieldsOk = true → s.templateOk = true → s.fsoeOk = true →
          (s.setOd 0x2700 0x12 (x.delay % 2 ^ 32)).periodOk = true →
        ∃ t, exec (.loopArm path x) s = .next t ∧ t = { s with dict := t.dict, md := t.md, isl := t.isl, esp := t.esp, wire := t.wire } ∧
          SameBytes s t ∧ Answered path 0 t ∧ t.md.bodyDown = (x.ring == 3) ∧
          ((∀ w, w ∈ s.subds → lf w 26 2 = 0) → t.wire = s.wire) ∧ t.od 0x2700 0x12 = x.delay % 2 ^ 32 ∧ t.od 0x2700 0x17 = 0 ∧
          t.esp = { Esp.zero with
            st := 1, ring := x.ring % 4, absent := (s.ctxC == 0xFFFF), tickAt := s.espTime - s.lo 3,
            sub := (List.range (s.lo 6)).map (fun d => (d, 3)), period := s.lo 3, soc := s.esp.soc, log := s.esp.log,
            sdo := s.esp.sdo, phase := 5 } ∧
          t.isl = { s.isl with period := s.lo 3, conns := s.connList, frameAt := s.safTime, own := false }) ∧
      (s.esp.st = 0 → s.loopLegal = true → s.tableOk x.ids = false →
        ∃ t, exec (.loopArm path x) s = .next t ∧ t = { s with dict := t.dict, md := t.md } ∧ SameBytes s t ∧ Answered path 0x0390 t) ∧
      (s.esp.st ≠ 0 →
        ∃ t, exec (.loopArm path x) s = .next t ∧ t = { s with dict := t.dict, md := t.md } ∧ SameBytes s t ∧ Answered path 0x03D0 t)) ∧
    (Accepted s path 0x2700 2 1 2 →
      (s.esp.st = 1 → s.loopLegal = true → s.esp.stopLeft = 0 → s.periodOk = true →
        ∃ t, exec (.loopStart path) s = .next t ∧ t = { s with dict := t.dict, md := t.md, esp := t.esp } ∧ SameBytes s t ∧
          Answered path 0 t ∧ t.esp = { s.esp with
            start := true, nextP := s.od 0x5000 0x0E s.primary, nextS := s.od 0x5000 0x0E s.standby }) ∧
      (s.esp.st ≠ 1 →
        ∃ t, exec (.loopStart path) s = .next t ∧ t = { s with dict := t.dict, md := t.md } ∧ SameBytes s t ∧ Answered path 0x03D0 t)) ∧
    (Accepted s path 0x2700 2 1 3 →
      (s.esp.st = 2 → s.esp.stopLeft = 0 →
        ∃ t, exec (.loopStop path) s = .next t ∧ t = { s with dict := t.dict, md := t.md, esp := { s.esp with stopLeft := 17 } } ∧
          SameBytes s t ∧ Answered path 0 t) ∧
      (s.esp.st ≠ 2 →
        ∃ t, exec (.loopStop path) s = .next t ∧ t = { s with dict := t.dict, md := t.md } ∧ SameBytes s t ∧ Answered path 0x03D0 t)) ∧
    (Accepted s path 0x2700 2 1 4 →
      (s.esp.st = 1 →
        ∃ t, exec (.loopDisarm path) s = .next t ∧
          t = { s with dict := t.dict, md := t.md, esp := { s.esp with
            st := 0, start := false, phase := 0, sub := (List.range (s.lo 6)).map (fun d => (d, 2)) } } ∧ SameBytes s t ∧
          Answered path 0 t ∧ t.md.bodyDown = false) ∧
      (s.esp.st ≠ 1 →
        ∃ t, exec (.loopDisarm path) s = .next t ∧ t = { s with dict := t.dict, md := t.md } ∧ SameBytes s t ∧ Answered path 0x03D0 t)) ∧
    (Accepted s path 0x2700 0x26 1 1 →
      (s.esp.absent = true → s.standby ≠ 0xFFFF →
        ∃ t, exec (.rejoinStandby path) s = .next t ∧ t = { s with dict := t.dict, md := t.md, esp := { s.esp with absent := false } } ∧
          SameBytes s t ∧ Answered path 0 t) ∧
      (s.esp.absent = false ∨ s.standby = 0xFFFF →
        ∃ t, exec (.rejoinStandby path) s = .next t ∧ t = { s with dict := t.dict, md := t.md } ∧ SameBytes s t ∧ Answered path 0x01D0 t)) ∧
    (∀ x : Seg, Accepted s path 0x2701 6 1 1 → x.ok = true → s.acyclicOk 0 = true → x.data.length = s.od 0x2701 5 → s.od 0x2701 4 + s.od 0x2701 5 ≤ hubSize →
      ∃ t, exec (.subdeviceSdoUpload path x) s = .next t ∧
        t = { s with free := t.free, mem := t.mem, dict := t.dict, md := t.md, wire := t.wire } ∧
        SameBytesBut (hub (s.od 0x2701 4)) (s.od 0x2701 5) s t ∧ t.od 0x2701 7 = 0 ∧ Answered path 0 t ∧
        ∀ k, k < s.od 0x2701 5 → t.byteAt (hub (s.od 0x2701 4) + k) = x.data.getD k 0) ∧
    (∀ x : Seg, Accepted s path 0x2701 6 1 2 → x.ok = true → s.acyclicOk (min 1486 (s.od 0x2701 5)) = true →
      ∃ t, exec (.subdeviceSdoDownload path x) s = .next t ∧
        t = { s with free := t.free, dict := t.dict, md := t.md, wire := t.wire } ∧ SameBytes s t ∧ t.od 0x2701 7 = 0 ∧ Answered path 0 t ∧
        (s.od 0x2701 5 ≤ 1486 → t.wire = (s.copiesOf 2 (s.rdBytes (hub (s.od 0x2701 4)) (s.od 0x2701 5)) ++ s.wire).take 64)) ∧
    (∀ x : Seg,
      (Accepted s path 0x2701 6 1 1 → s.acyclicOk 0 = false →
        ∃ t, exec (.subdeviceSdoUpload path x) s = .next t ∧ SameBytes s t ∧ Answered path 0 t ∧
          t = { s with dict := t.dict, md := t.md, esp := { s.esp with sdo := some (true, x.ok, x.data) } }) ∧
      (Accepted s path 0x2701 6 1 2 → s.acyclicOk (min 1486 (s.od 0x2701 5)) = false →
        ∃ t, exec (.subdeviceSdoDownload path x) s = .next t ∧ SameBytes s t ∧ Answered path 0 t ∧
          t = { s with dict := t.dict, md := t.md, esp := { s.esp with sdo := some (false, x.ok, x.data) } })) ∧
    (s.md.barista = 0 → 7 ≤ s.md.st → s.md.decaf = false →
        (s.esp.critical = true ∨ (s.esp.lowAt ≠ 0 ∧ s.esp.lowAt + s.lo 0x22 * 1000 ≤ s.espTime)) →
      ∃ t, exec .batteryDecafRequest s = .next t ∧
        t = { s with free := t.free, mem := t.mem, dict := t.dict, descs := t.descs, dies := t.dies, pages := t.pages, maps := t.maps,
                     b2h := t.b2h, md := t.md, brd := t.brd } ∧ t.md.decaf = true ∧
        ∀ d, t.die d = { s.die d with notes := (t.die d).notes }) ∧
    (s.md.barista ≠ 0 ∨ s.md.st < 7 → exec .batteryDecafRequest s = .next s) ∧
    (∀ station msg, exec (.subdeviceEmergency station msg) s =
      .next { s with esp := { s.esp with log := (station % 65536, msg % 2 ^ 64) :: s.esp.log } }) ∧
    (∀ l back,
      (s.esp.sdo = none → s.esp.st ≠ 0 → 4 ≤ s.esp.phase →
          s.espTime + 80 * (52 + max l.length 32) + 10000 ≤ s.esp.tickAt + s.lo 3 →
        ∃ t, exec (.acyclicFrame l back) s = .next t ∧
          t = { s with esp := t.esp, wire := (s.copiesOf 2 l ++ s.wire).take 64 } ∧ SameBytes s t ∧
          t.esp = { s.esp with sub := t.esp.sub, acyclic := s.esp.acyclic - 1 } ∧ ∀ d, d ∈ back → AMap.getD d 0 t.esp.sub = 3) ∧
      (∀ up ok dat, s.esp.sdo = some (up, ok, dat) → s.acyclicOk (s.sdoLen up) = true →
        ∃ t, exec (.acyclicFrame l back) s = .next t ∧
          t = { s with free := t.free, mem := t.mem, dict := t.dict, wire := t.wire, esp := { s.esp with sdo := none } } ∧
          SameOd [odKey 0x2701 7 0] s t ∧ (ok = true → t.od 0x2701 7 = 0) ∧ (up = false ∨ ok = false → SameBytes s t)) ∧
      (∀ up ok dat, s.esp.sdo = some (up, ok, dat) → s.acyclicOk (s.sdoLen up) = false → exec (.acyclicFrame l back) s = .next s) ∧
      (s.esp.sdo = none →
          s.esp.st = 0 ∨ s.esp.phase < 4 ∨ s.esp.tickAt + s.lo 3 < s.espTime + 80 * (52 + max l.length 32) + 10000 →
        exec (.acyclicFrame l back) s = .next s))

/-- The cycle (R239–R252, R258, R259). A tick a period after the last begins a cycle and counts it; input copies merge until every
frame is complete with its counter, which makes the image valid; the cutoff counts a miss and goes on with the last image; the
primary that finishes good within the budget is chosen, else the standby takes over; the limit check sends its vector or the
fallback; a budget without either sends the hold output; the last output frame back closes the cycle with its record; the mirror
copies once. Its readings that are the model's are in log entries 5, 57, 58, 59, 60, 77, 79, 120. -/
def Obligations.LoopCycle : Prop :=
  ∀ (s : State), Invariant s →
    (∀ ring, s.esp.st ≠ 0 → s.esp.tickAt + s.lo 3 ≤ s.espTime → s.esp.phase = 5 →
      ∃ t, exec (.cycleTick ring) s = .next t ∧ t.esp.tickAt = s.esp.tickAt + s.lo 3 ∧ t.esp.ring = ring % 4 ∧
        t.od 0x2700 0x17 = (s.od 0x2700 0x17 + 1) % 2 ^ 32 ∧ t.md = { s.md with bodyDown := (ring == 3) } ∧ t.isl.nextTab = none ∧
        (∀ tab, s.isl.nextTab = some tab → t.isl.table = tab) ∧
        t.esp.st = (if s.esp.st = 1 ∧ s.esp.start = true then 2 else if s.esp.st = 2 ∧ s.esp.stopLeft = 1 then 1 else s.esp.st) ∧
        t.esp.takeover = false ∧ t.esp.swapped = (s.esp.swapped != s.esp.takeover) ∧ t.esp.absent = (s.esp.absent || s.esp.takeover) ∧
        t.descs = s.descs ∧ t.objs = s.objs) ∧
    (∀ ring, s.esp.st = 0 ∨ s.espTime < s.esp.tickAt + s.lo 3 → exec (.cycleTick ring) s = .next s) ∧
    (∀ k port wkc data e reloc, s.esp.phase = 1 → k < (framesOf s.inLen).length → port < 2 → 2 * k + port ∉ s.esp.done →
        s.espTime ≤ s.esp.tickAt + s.cutoff →
      (((insNat (2 * k + port) s.esp.done).filter (fun d => d / 2 == k)).length < s.copiesDue →
        ∃ t, exec (.inputFrameReturn k port wkc true data e reloc) s = .next t ∧ t = { s with esp := t.esp } ∧ SameBytes s t ∧
          t.esp = { s.esp with
            done := insNat (2 * k + port) s.esp.done, merging := t.esp.merging, wkcs := t.esp.wkcs, wkcIn := s.esp.wkcIn + wkc } ∧
          AMap.getD k 0 t.esp.wkcs = AMap.getD k 0 s.esp.wkcs + wkc) ∧
      (k = 0 → (framesOf s.inLen).length = 1 → s.esp.ring = 0 → s.esp.done = [] → s.esp.wkcs = [] →
          wkc = expectWkc (s.subds.map subIn) ((framesOf s.inLen).getD 0 (0, 0)) →
        ∃ t, exec (.inputFrameReturn k port wkc true data e reloc) s = .next t ∧ t.esp.age = 0 ∧
          t.esp.inNs = s.espTime - s.esp.tickAt ∧ t.esp.phase = (if s.esp.runs then 2 else 4) ∧ t.esp.inAt = s.espTime ∧
          t.reg (baseESP + 0x10) = s.reg (baseESP + 0x10))) ∧
    (∀ e reloc left, s.esp.phase = 1 → s.esp.tickAt + s.cutoff ≤ s.espTime →
      ∃ t, exec (.inputCutoff e reloc left) s = .next t ∧
        t = { s with mem := t.mem, dict := t.dict, regs := t.regs, ctxs := t.ctxs, dies := t.dies, esp := t.esp } ∧
        (∀ d, t.die d = { s.die d with doors := (t.die d).doors }) ∧
        t.od 0x2700 0x18 = (s.od 0x2700 0x18 + 1) % 2 ^ 32 ∧ SameRegs [baseESP + 0x10] s t ∧
        t.reg (baseESP + 0x10) = (s.reg (baseESP + 0x10) + 1) % 2 ^ 64 ∧ t.esp.age = s.esp.age + 1 ∧ t.esp.flags.testBit 0 = true ∧
        t.esp.image = s.esp.image ∧ t.esp.phase = (if s.esp.runs then 2 else 4)) ∧
    (∀ e reloc left, s.esp.phase ≠ 1 ∨ s.espTime < s.esp.tickAt + s.cutoff → exec (.inputCutoff e reloc left) s = .next s) ∧
    (s.esp.phase = 2 → s.espTime < s.esp.inAt + s.lo 4 →
      (s.sideGood s.primary s.esp.seqP = true →
        exec (.sideCycleSuccess 0) s = .next { s with esp := { s.esp with phase := 3, side := some 0 } }) ∧
      (s.sideGood s.primary s.esp.seqP = false → exec (.sideCycleSuccess 0) s = .next s) ∧
      (s.sideGood s.standby s.esp.seqS = true → s.esp.absent = false →
        (s.sideBad s.primary s.esp.seqP = true → ∃ t, exec (.sideCycleSuccess 1) s = .next t ∧ TookOver s t) ∧
        (s.sideBad s.primary s.esp.seqP = false →
          exec (.sideCycleSuccess 1) s = .next { s with esp := { s.esp with side := some 1 } }))) ∧
    (∀ c vec, s.esp.phase = 3 → c = (if s.esp.side = some 1 then s.standby else s.primary) →
        vec = (fun i => s.rd (s.vecAt c (s.lo 0x0E) + 4 * i) 4) →
      (s.limitsPass vec = true → (∀ w, w ∈ s.fields → fOut w = true → isNan (outValue w (vec (fIdx w))) = false) →
        ∃ t, exec .limitCheckDone s = .next t ∧
          t = { s with free := t.free, regs := t.regs, isl := t.isl, esp := t.esp, wire := t.wire } ∧ SameBytes s t ∧
          t.esp.phase = 4 ∧ t.esp.src = s.home c ∧ t.isl.frameAt = s.safTime ∧ t.isl.own = false ∧
          (∀ w, w ∈ s.isl.table → AMap.get? (limIdx w) t.isl.sent = some (vec (limIdx w)))) ∧
      (s.limitsPass vec = false ∨ (∃ w, w ∈ s.fields ∧ fOut w = true ∧ isNan (outValue w (vec (fIdx w))) = true) →
        ∃ t, exec .limitCheckDone s = .next t ∧ t.esp.phase = 4 ∧ t.esp.src = 0xFF ∧ t.isl.causes.testBit 12 = true ∧
          t.esp.flags.testBit 6 = true ∧ t.reg (baseSAF + 0x30) = (s.reg (baseSAF + 0x30) + 1) % 2 ^ 64 ∧ t.isl.sent = s.isl.sent)) ∧
    (s.esp.phase ≠ 3 → exec .limitCheckDone s = .next s) ∧
    (s.esp.phase = 2 → s.esp.inAt + s.lo 4 ≤ s.espTime → s.esp.side = some 1 →
      ∃ t, exec .budgetEnd s = .next t ∧ TookOver s t) ∧
    (s.esp.phase = 2 → s.esp.inAt + s.lo 4 ≤ s.espTime → s.esp.side ≠ some 1 →
      ∃ t, exec .budgetEnd s = .next t ∧
        t = { s with free := t.free, dict := t.dict, regs := t.regs, isl := t.isl, esp := t.esp, wire := t.wire } ∧ SameBytes s t ∧
        t.esp.phase = 4 ∧ t.esp.src = 0xFF ∧ t.esp.flags.testBit 5 = true ∧ SameOd [odKey 0x2700 0x19 0] s t ∧
        t.od 0x2700 0x19 = (s.od 0x2700 0x19 + 1) % 2 ^ 32) ∧
    (s.esp.phase ≠ 2 ∨ s.espTime < s.esp.inAt + s.lo 4 → exec .budgetEnd s = .next s) ∧
    (∀ c k wkc, k = c / 2 → s.esp.phase ≠ 0 → s.esp.outLeft ≠ 0 → k < (framesOf s.outLen).length → c ∉ s.esp.outDone →
      (((insNat c s.esp.outDone).filter (fun d => d / 2 == k)).length < s.copiesDue →
        exec (.outputFrameReturn c wkc) s = .next { s with
          esp := { s.esp with outDone := insNat c s.esp.outDone,
                              outSums := AMap.put 0 k (AMap.getD k 0 s.esp.outSums + wkc) s.esp.outSums } }) ∧
      (s.copiesDue ≤ ((insNat c s.esp.outDone).filter (fun d => d / 2 == k)).length →
          AMap.getD k 0 s.esp.outSums + wkc = expectWkc (s.subds.map subOut) ((framesOf s.outLen).getD k (0, 0)) →
        (2 ≤ s.esp.outLeft →
          exec (.outputFrameReturn c wkc) s = .next { s with
            esp := { s.esp with outDone := insNat c s.esp.outDone,
                                outSums := AMap.put 0 k (AMap.getD k 0 s.esp.outSums + wkc) s.esp.outSums,
                                outLeft := s.esp.outLeft - 1, wkcOut := s.esp.wkcOut + (AMap.getD k 0 s.esp.outSums + wkc) } }) ∧
        (∀ a, s.esp.outLeft = 1 → s.esp.phase = 4 → s.esp.st = 2 → 0x0190 ∉ s.esp.stats → 0x0192 ∉ s.esp.stats →
            a = s.lo 0x15 + 64 * (s.esp.cycle % max 1 (s.lo 0x16)) → a + 64 ≤ hubSize →
          ∃ t, exec (.outputFrameReturn c wkc) s = .next t ∧ t = { s with mem := t.mem, esp := t.esp } ∧ SameBytesBut (hub a) 64 s t ∧
            t.esp.phase = 5 ∧ t.esp.outLeft = 0 ∧ t.esp.run = 0 ∧ t.rd (hub a) 4 = s.esp.cycle % 2 ^ 32)) ∧
      (s.copiesDue ≤ ((insNat c s.esp.outDone).filter (fun d => d / 2 == k)).length → 2 ≤ s.esp.outLeft →
          AMap.getD k 0 s.esp.outSums + wkc ≠ expectWkc (s.subds.map subOut) ((framesOf s.outLen).getD k (0, 0)) →
        ∃ t, exec (.outputFrameReturn c wkc) s = .next t ∧ t = { s with regs := t.regs, esp := t.esp } ∧ SameBytes s t ∧
          t.esp.flags.testBit 2 = true ∧ t.esp.outLeft = s.esp.outLeft - 1 ∧ SameRegs [baseESP + 0x28] s t ∧
          t.reg (baseESP + 0x28) = (s.reg (baseESP + 0x28) + 1) % 2 ^ 64)) ∧
    (∀ c wkc, s.esp.phase = 0 ∨ s.esp.outLeft = 0 ∨ (framesOf s.outLen).length ≤ c / 2 ∨ c ∈ s.esp.outDone →
      exec (.outputFrameReturn c wkc) s = .next s) ∧
    (∀ a b n x y, s.esp.st = 2 → 4 ≤ s.esp.phase → s.esp.mirrored = false → s.esp.absent = false → s.esp.takeover = false →
        x = (if s.esp.swapped then b else a) → y = (if s.esp.swapped then a else b) →
      (n ≤ 8192 → inClusSram x n = true → inClusSram y n = true →
        ∃ t, exec (.stateMirror [(1, a, b, n)]) s = .next t ∧ t = { s with mem := t.mem, esp := { s.esp with mirrored := true } } ∧
          SameBytesBut y n s t ∧ ∀ k, k < n → t.byteAt (y + k) = s.byteAt (x + k)) ∧
      (8192 < n ∨ inClusSram x n = false ∨ inClusSram y n = false →
        exec (.stateMirror [(1, a, b, n)]) s = .next { s with esp := { s.esp with mirrored := true } }) ∧
      ((s.strm x).st = .pinned → (s.strm y).st = .pinned →
        ∃ t, exec (.stateMirror [(0, a, b, n)]) s = .next t ∧ t = { s with strs := t.strs, esp := { s.esp with mirrored := true } } ∧
          SameBytes s t ∧ t.strm y = { s.strm y with data := (s.strm x).data, reset := (s.strm x).reset } ∧
          ∀ z, z ≠ y → t.strm z = s.strm z)) ∧
    (∀ l, s.esp.st ≠ 2 ∨ s.esp.phase < 4 ∨ s.esp.mirrored = true ∨ s.esp.absent = true ∨ s.esp.takeover = true →
      exec (.stateMirror l) s = .next s)

/-! ### Fusion -/

/-- Enabling and disabling what the fusion engine runs (R209, R214, R217, R227, R231, R233–R235). A source, a group and a set that
are enabled start anew: a source's samples are numbered from 1 and its counters cleared, while a frozen declaration and held slots
stay; a group has no outvoted member, and one of IMU or odometry sources enables its output source; a set's instants are numbered
from 1. One already enabled is left as it is. Disabling a set drops its cuts, disabling a group clears its members' health. A
write of an inertial source other than 0xFF starts it from the reset pose with a new record; the reset of the pose waits for the
next sample. Its readings that are the model's are in log entries 53, 55, 56, 118. -/
def Obligations.FusionControl : Prop :=
  ∀ (s : State) (path : Nat), Invariant s → path ≤ 1 →
    (∀ n, n < 64 → Accepted s path (0x2610 + n) 1 1 1 →
      (s.srcOn n = false →
        ∃ t, exec (.sourceEnable path n) s = .next t ∧ t = { s with dict := t.dict, fse := t.fse, md := t.md } ∧ SameBytes s t ∧
          Answered path 0 t ∧ t.srcOn n = true ∧ t.src n = { Src.zero with frozen := (s.src n).frozen, held := (s.src n).held } ∧
          (∀ i, i < 7 → t.so n (0x11 + i) = 0) ∧ ∀ m, m ≠ n → t.src m = s.src m) ∧
      (s.srcOn n = true →
        ∃ t, exec (.sourceEnable path n) s = .next t ∧ t = { s with dict := t.dict, md := t.md } ∧ SameBytes s t ∧
          Answered path 0 t ∧ t.srcOn n = true)) ∧
    (∀ n, n < 64 → Accepted s path (0x2610 + n) 1 1 0 →
      ∃ t, exec (.sourceDisable path n) s = .next t ∧ t = { s with dict := t.dict, md := t.md } ∧ SameBytes s t ∧ Answered path 0 t ∧
        t.srcOn n = false ∧ SameOd [odKey (0x2610 + n) 1 0, odKey 0x2002 3 0] s t) ∧
    (∀ g, g < 16 → Accepted s path (0x2660 + g) 1 1 1 → s.grpOn g = false →
      ∃ t, exec (.votingGroupEnable path g) s = .next t ∧
        t = { s with free := t.free, mem := t.mem, dict := t.dict, regs := t.regs, descs := t.descs, pages := t.pages, maps := t.maps,
                     b2h := t.b2h, md := t.md, isl := t.isl, fse := t.fse, brd := t.brd } ∧ t.flash = s.flash ∧
        Answered path 0 t ∧ t.grpOn g = true ∧ t.grp g = Grp.zero ∧ t.od (0x2660 + g) 9 = 0 ∧ (∀ h, h ≠ g → t.grp h = s.grp h) ∧
        t.fse.sets = s.fse.sets ∧ t.fse.ego = s.fse.ego ∧
        (s.so ((s.members g).headD 0) 2 = 3 ∨ s.so ((s.members g).headD 0) 2 = 5 →
          t.srcOn (48 + g) = true ∧ t.so (48 + g) 2 = 6 ∧ (t.src (48 + g)).seq = 0)) ∧
    (∀ g, g < 16 → Accepted s path (0x2660 + g) 1 1 0 → s.grpOn g = true →
      ∃ t, exec (.votingGroupDisable path g) s = .next t ∧
        t = { s with free := t.free, mem := t.mem, dict := t.dict, regs := t.regs, descs := t.descs, pages := t.pages, maps := t.maps,
                     b2h := t.b2h, md := t.md, isl := t.isl, fse := t.fse, brd := t.brd } ∧ t.flash = s.flash ∧
        Answered path 0 t ∧ t.grpOn g = false ∧ t.grp g = Grp.zero ∧ t.fse.srcs = s.fse.srcs ∧ (∀ h, h ≠ g → t.grp h = s.grp h) ∧
        (∀ n, n ∈ s.members g → t.so n 0x10 = 0) ∧ (s.claimsOut g = true → t.srcOn (48 + g) = false)) ∧
    (∀ i, i < 8 → Accepted s path (0x2670 + i) 1 1 1 → s.setOn i = false →
      ∃ t, exec (.fusionSetEnable path i) s = .next t ∧ t = { s with dict := t.dict, fse := t.fse, md := t.md } ∧ SameBytes s t ∧
        Answered path 0 t ∧ t.setOn i = true ∧ (t.fset i).num = 0 ∧ (t.fset i).insts = (s.fset i).insts ∧
        ((s.od (0x2670 + i) 3).testBit 7 = false → (t.fset i).cuts = []) ∧
        ((s.od (0x2670 + i) 3).testBit 7 = true → (t.fset i).cuts = [s.fseTime + s.od (0x2670 + i) 4]) ∧
        ∀ n, n < 64 → AMap.getD i 0 (t.src n).used = 0) ∧
    (∀ i, i < 8 → Accepted s path (0x2670 + i) 1 1 0 →
      ∃ t, exec (.fusionSetDisable path i) s = .next t ∧ t = { s with dict := t.dict, fse := t.fse, md := t.md } ∧ SameBytes s t ∧
        Answered path 0 t ∧ t.setOn i = false ∧ t.fset i = { s.fset i with cuts := [] } ∧ t.fse.srcs = s.fse.srcs ∧
        (∀ j, j ≠ i → t.fset j = s.fset j) ∧ SameOd [odKey (0x2670 + i) 1 0, odKey 0x2002 3 0] s t) ∧
    (∀ v, Accepted s path 0x2680 1 1 v →
      (v = 0xFF →
        ∃ t, exec (.inertialSourceWrite path v) s = .next t ∧ t = { s with dict := t.dict, md := t.md } ∧ SameBytes s t ∧
          Answered path 0 t ∧ t.od 0x2680 1 = 0xFF) ∧
      (v ≠ 0xFF → s.od 0x2680 2 + 128 ≤ hubSize →
        ∃ t, exec (.inertialSourceWrite path v) s = .next t ∧
          t = { s with mem := t.mem, dict := t.dict, md := t.md, fse := { s.fse with
            ego := { s.fse.ego with
              q := [0x3F800000, 0, 0, 0], v := [0, 0, 0], p := [0, 0, 0], steps := 0, valid := false, reset := true,
              skipped := false, gen := (s.fse.ego.gen + 2) % 2 ^ 32 } } } ∧
          SameBytesBut (hub (s.od 0x2680 2)) 128 s t ∧ Answered path 0 t ∧ t.od 0x2680 1 = v ∧
          t.rd (hub (s.od 0x2680 2)) 4 = (s.fse.ego.gen + 2) % 2 ^ 32)) ∧
    (Accepted s path 0x2680 9 1 1 →
      ∃ t, exec (.resetPose path) s = .next t ∧
        t = { s with dict := t.dict, md := t.md, fse := { s.fse with ego := { s.fse.ego with reset := true } } } ∧ SameBytes s t ∧
        Answered path 0 t ∧ SameOd [odKey 0x2002 3 0] s t)

/-- Samples and instants (R208–R213, R216–R221). What an interface delivers to the one source that takes it, alone, is stored as
its next sample in the first free slot; without a free slot it is dropped and counted; a CSI-2 frame gives the selected packets'
payloads, an Ethernet frame ends with its last datagram, an IMU read gives 128 bytes; with no source nothing happens. A cut whose
time has come fires its instant unless its position is still held, which is counted; a release or the hold limit ends the holds of
the slots it names. Its readings that are the model's are in log entries 5, 51, 52, 55, 75, 76. -/
def Obligations.SamplesAndInstants : Prop :=
  ∀ (s : State), Invariant s →
    (∀ n ago k l, n < 64 → s.srcOn n = true → s.so n 2 = 4 → Alone s n → Storable s n k l →
      ∃ t, exec (.tdmBlockEnd n ago l) s = .next t ∧ Stored s t n k 0 (s.fseTime - ago) false l) ∧
    (∀ n ago l, n < 64 → s.srcOn n = true → s.so n 2 = 4 → (∀ i, i < 8 → s.setOn i = false) →
        s.slotFor n ((s.src n).seq + 1) = none →
      ∃ t, exec (.tdmBlockEnd n ago l) s = .next t ∧ t = { s with dict := t.dict, regs := t.regs, fse := t.fse } ∧ SameBytes s t ∧
        t.src n = { s.src n with dropped := true, broken := true } ∧ (∀ m, m ≠ n → t.src m = s.src m) ∧
        SameOd [odKey (0x2610 + n) 0x14 0] s t ∧ t.so n 0x14 = (s.so n 0x14 + 1) % 2 ^ 32 ∧
        SameRegs [baseFSE + 0x30] s t ∧ t.reg (baseFSE + 0x30) = (s.reg (baseFSE + 0x30) + 1) % 2 ^ 64) ∧
    (∀ n ago l, s.srcOn n = false ∨ s.so n 2 ≠ 4 → exec (.tdmBlockEnd n ago l) s = .next s) ∧
    (∀ port vc frame ago bad pkts,
      (∀ n k p, (s.sourcesOn 1 port).filter (fun n => s.so n 4 % 16 == vc) = [n] → p = packPackets (s.csiTakes n) pkts [] [] →
          Alone s n → Storable s n k p.1 →
        ∃ t, exec (.csi2FrameEnd port vc frame ago bad pkts) s = .next t ∧
          Stored s t n k (frame % 65536) (s.fseTime - ago) bad p.1) ∧
      ((s.sourcesOn 1 port).filter (fun n => s.so n 4 % 16 == vc) = [] →
        exec (.csi2FrameEnd port vc frame ago bad pkts) s = .next s)) ∧
    (∀ port kind key vlan bad l,
      (∀ n, (s.sourcesOn 2 port).filter (fun n => s.matches_ (s.so n 4) kind key vlan) = [n] →
        (bad = true →
          ∃ t, exec (.ethernetDatagram port kind key vlan bad l) s = .next t ∧ t = { s with fse := t.fse } ∧ SameBytes s t ∧
            t.src n = { s.src n with bad := true } ∧ ∀ m, m ≠ n → t.src m = s.src m) ∧
        (bad = false → frameEnds (s.od (0x2650 + s.so n 4) 5) ((s.src n).parts + 1) l = false →
          ∃ t, exec (.ethernetDatagram port kind key vlan bad l) s = .next t ∧ t = { s with fse := t.fse } ∧ SameBytes s t ∧
            (t.src n).parts = (s.src n).parts + 1 ∧ (t.src n).fill = (s.src n).fill ++ l ∧ (t.src n).seq = (s.src n).seq ∧
            ∀ m, m ≠ n → t.src m = s.src m) ∧
        (∀ k, bad = false → frameEnds (s.od (0x2650 + s.so n 4) 5) ((s.src n).parts + 1) l = true → Alone s n →
            Storable s n k ((s.src n).fill ++ l) →
          ∃ t f, exec (.ethernetDatagram port kind key vlan bad l) s = .next t ∧
            Stored s t n k f (if (s.src n).parts = 0 then s.fseTime else (s.src n).began) (s.src n).bad ((s.src n).fill ++ l) ∧
            (t.src n).parts = 0 ∧ (t.src n).fill = [])) ∧
      ((s.sourcesOn 2 port).filter (fun n => s.matches_ (s.so n 4) kind key vlan) = [] →
        exec (.ethernetDatagram port kind key vlan bad l) s = .next s)) ∧
    (∀ port,
      (∀ n, s.sourcesOn 3 port = [n] →
        ((s.src n).busy = false →
          ∃ t, exec (.imuDataReady port) s = .next t ∧ t = { s with fse := t.fse } ∧ SameBytes s t ∧
            t.src n = { s.src n with busy := true, began := s.fseTime } ∧ ∀ m, m ≠ n → t.src m = s.src m) ∧
        ((s.src n).busy = true →
          ∃ t, exec (.imuDataReady port) s = .next t ∧ t = { s with dict := t.dict, regs := t.regs, fse := t.fse } ∧ SameBytes s t ∧
            t.src n = { s.src n with dropped := true, parts := 1 } ∧ t.so n 0x14 = (s.so n 0x14 + 1) % 2 ^ 32)) ∧
      (s.sourcesOn 3 port = [] → exec (.imuDataReady port) s = .next s) ∧
      (∀ n k l d, (s.sourcesOn 3 port).filter (fun n => (s.src n).busy) = [n] → Alone s n → s.so n 0x19 ≤ 64 →
          d.length = 128 → Storable s n k d →
        ∃ t d, exec (.imuReadEnd port l) s = .next t ∧ Stored s t n k 0 (s.src n).began false d ∧ d.length = 128 ∧
          (t.src n).busy = false ∧ ∀ i, i < (l.take (s.so n 0x19)).length → d.getD (32 + i) 0 = l.getD i 0) ∧
      (∀ l, (s.sourcesOn 3 port).filter (fun n => (s.src n).busy) = [] → exec (.imuReadEnd port l) s = .next s)) ∧
    (∀ i tk rest pos, (s.fset i).cuts = tk :: rest → tk < s.fseTime → s.setOn i = true → s.od (0x2670 + i) 6 ≠ 0 →
        pos = ((s.fset i).num + 1) % s.od (0x2670 + i) 6 →
      ((s.fset i).insts.any (fun x => x.pos == pos) = true →
        ∃ t, exec (.instantCut i) s = .next t ∧ t = { s with dict := t.dict, fse := t.fse } ∧ SameBytes s t ∧
          (t.fset i).num = (s.fset i).num ∧ (t.fset i).insts = (s.fset i).insts ∧ t.fse.srcs = s.fse.srcs ∧
          SameOd [odKey (0x2670 + i) 0x0A 0] s t ∧ t.od (0x2670 + i) 0x0A = (s.od (0x2670 + i) 0x0A + 1) % 2 ^ 32) ∧
      ((s.fset i).insts.any (fun x => x.pos == pos) = false → s.od (0x2670 + i) 8 = 0xFFFF →
          s.od (0x2670 + i) 5 + s.od (0x2670 + i) 6 * s.instBytes i ≤ hubSize →
          (∀ n, n ∈ maskList (s.od (0x2670 + i) 2) → (s.src n).slot < 256 ∧
            (s.so n 8 + 64 * 256 ≤ s.od (0x2670 + i) 5 ∨
             (s.od (0x2670 + i) 5 + s.od (0x2670 + i) 6 * s.instBytes i ≤ s.so n 8 ∧ s.so n 8 + 64 * 256 ≤ hubSize))) →
        ∃ t, exec (.instantCut i) s = .next t ∧ t = { s with mem := t.mem, dict := t.dict, regs := t.regs, fse := t.fse } ∧
          t.flash = s.flash ∧ (t.fset i).num = (s.fset i).num + 1 ∧ SameRegs [baseFSE + 0x40] s t ∧
          t.reg (baseFSE + 0x40) = (s.reg (baseFSE + 0x40) + 1) % 2 ^ 64 ∧
          t.rd (hub (s.od (0x2670 + i) 5 + pos * s.instBytes i)) 4 = ((s.fset i).num + 1) % 2 ^ 32 ∧
          (∃ x, (t.fset i).insts = (s.fset i).insts ++ [x] ∧ x.pos = pos ∧ x.num = (s.fset i).num + 1 ∧ x.at_ = s.fseTime) ∧
          ∀ n, n ∈ maskList (s.od (0x2670 + i) 2) → (s.src n).seq ≠ 0 →
            AMap.getD (s.src n).slot 0 (t.src n).held = AMap.getD (s.src n).slot 0 (s.src n).held + 1)) ∧
    (∀ i, (s.fset i).cuts = [] ∨ s.fseTime ≤ (s.fset i).cuts.headD 0 ∨ s.setOn i = false → exec (.instantCut i) s = .next s) ∧
    (∀ i pos, (i < 8 → pos < s.od (0x2670 + i) 6 →
        s.od (0x2670 + i) 5 + s.od (0x2670 + i) 6 * s.instBytes i ≤ hubSize →
        ((s.fset i).insts.find? (fun x => x.pos == pos) = none →
          ∃ t, exec (.instantRelease i pos) s = .next t ∧ t = { s with mem := t.mem } ∧
            SameBytesBut (hub (s.od (0x2670 + i) 5 + pos * s.instBytes i + 19)) 1 s t ∧
            t.byteAt (hub (s.od (0x2670 + i) 5 + pos * s.instBytes i + 19)) = 1) ∧
        (∀ x, (s.fset i).insts.find? (fun x => x.pos == pos) = some x →
          ∃ t, exec (.instantRelease i pos) s = .next t ∧ t = { s with mem := t.mem, fse := t.fse } ∧ t.flash = s.flash ∧
            t.fset i = { s.fset i with insts := (s.fset i).insts.filter (fun x => x.pos != pos) } ∧
            (x.names.Nodup → ∀ p, p ∈ x.names →
              AMap.getD p.2 0 (t.src p.1).held = AMap.getD p.2 0 (s.src p.1).held - 1) ∧
            ∀ p : Nat × Nat, p ∉ x.names → AMap.getD p.2 0 (t.src p.1).held = AMap.getD p.2 0 (s.src p.1).held)) ∧
      (8 ≤ i ∨ s.od (0x2670 + i) 6 ≤ pos → exec (.instantRelease i pos) s = .next s) ∧
      (∀ x, (s.fset i).insts.find? (fun x => x.pos == pos) = some x →
        (x.at_ + s.od (0x2670 + i) 7 < s.fseTime →
          ∃ t, exec (.instantHoldLimit i pos) s = .next t ∧ t = { s with mem := t.mem, dict := t.dict, fse := t.fse } ∧
            t.flash = s.flash ∧ (t.fset i).insts = (s.fset i).insts.filter (fun x => x.pos != pos) ∧
            SameOd [odKey (0x2670 + i) 9 0] s t ∧ t.od (0x2670 + i) 9 = (s.od (0x2670 + i) 9 + 1) % 2 ^ 32) ∧
        (s.fseTime ≤ x.at_ + s.od (0x2670 + i) 7 → exec (.instantHoldLimit i pos) s = .next s)))

/-! ### Power -/

/-- The Governor (R429–R431, R434, R436, R438, R439, R441, R443–R445, R464). A control period ends 100 µs after the last one: the
effective cap is the smallest limit in force, the frequency lies between the floor and the ceiling, 400 MHz in a thermal
emergency; shedding that the cap has covered for 10 ms is lifted; a droop counts at its core, die and module; a learning step
moves a phase's frequency by one grid step towards the lowest one that keeps the tolerance; an idle cluster gates when its time is
up; a regulator silent for 1 ms starts its die's recovery; the clear commands clear. Its readings that are the model's are in log
entries 5, 62, 63, 64, 65. -/
def Obligations.GovernorCommands : Prop :=
  ∀ (s : State), Invariant s →
    (∀ m : Meas,
      (s.gov.at_ + 100000 ≤ s.govTime →
        ∃ t, exec (.controlPeriod m) s = .next t ∧
          t = { s with free := t.free, dict := t.dict, regs := t.regs, descs := t.descs, b2h := t.b2h, md := t.md, gov := t.gov } ∧
          SameBytes s t ∧ t.gov.at_ = s.govTime ∧ t.gov.phases = [] ∧ t.gov.mw = m.total / 1000 ∧ t.gov.cap = s.effCap.1 / 1000 ∧
          t.gov.capWhy = s.effCap.2 ∧
          (m.temps.any (fun x => decide (1050 ≤ x)) = true → t.od 0x2100 5 = 400 ∧ t.gov.emerg = true) ∧
          (m.temps.all (fun x => decide (x < 1000)) = true →
            t.gov.emerg = false ∧ s.fMin ≤ t.od 0x2100 5 ∧ t.od 0x2100 5 ≤ max s.ceiling s.fMin)) ∧
      (s.govTime < s.gov.at_ + 100000 → exec (.controlPeriod m) s = .next s)) ∧
    (s.shedding = true → s.gov.coverAt ≠ 0 → s.gov.coverAt + 10000000 ≤ s.govTime →
      ∃ t, exec .sheddingLift s = .next t ∧ t.od 0x2100 0x10 = 0 ∧ t.ctxs = s.ctxs ∧ t.cores = s.cores ∧ t.links = s.links ∧
        t.fse = s.fse ∧ t.esp = s.esp ∧ t.rcv = s.rcv) ∧
    (s.shedding = false ∨ s.gov.coverAt = 0 ∨ s.govTime < s.gov.coverAt + 10000000 → exec .sheddingLift s = .next s) ∧
    (∀ d x, (x < 1050 → exec (.thermalEmergency d x) s = .next s) ∧
      (1050 ≤ x → s.gov.emerg = false →
        ∃ t, exec (.thermalEmergency d x) s = .next t ∧
          t = { s with free := t.free, dict := t.dict, b2h := t.b2h, md := t.md, gov := t.gov } ∧ SameBytes s t ∧
          t.od 0x2100 5 = 400 ∧ t.od 0x2100 0x18 = (s.od 0x2100 0x18 + 1) % 2 ^ 32 ∧ t.gov.emerg = true ∧
          t.gov.hottest = int16 x ∧ t.gov.hotDie = min 4 d)) ∧
    (∀ i n, (i < 256 →
        ∃ t, exec (.droopDetect i n) s = .next t ∧ t = { s with dict := t.dict, regs := t.regs, gov := t.gov } ∧ SameBytes s t ∧
          t.od (0x4000 + i) 0x30 = (s.od (0x4000 + i) 0x30 + 1) % 2 ^ 32 ∧
          t.od (0x4000 + i) 0x31 = (s.od (0x4000 + i) 0x31 + min n 64) % 2 ^ 64 ∧
          t.od (0x4200 + i / 64) 0x92 = (s.od (0x4200 + i / 64) 0x92 + 1) % 2 ^ 32 ∧
          SameOd [odKey (0x4000 + i) 0x30 0, odKey (0x4000 + i) 0x31 0, odKey (0x4200 + i / 64) 0x92 0] s t ∧
          SameRegs [baseGOV + 0x140] s t ∧ t.reg (baseGOV + 0x140) = (s.reg (baseGOV + 0x140) + 1) % 2 ^ 64 ∧
          AMap.getD i 0 t.gov.droops = AMap.getD i 0 s.gov.droops + 1) ∧
      (256 ≤ i → i < 260 →
        ∃ t, exec (.droopDetect i n) s = .next t ∧ t = { s with dict := t.dict, regs := t.regs, gov := t.gov } ∧ SameBytes s t ∧
          SameOd [odKey (0x4200 + (i - 256)) 0x92 0] s t ∧
          t.od (0x4200 + (i - 256)) 0x92 = (s.od (0x4200 + (i - 256)) 0x92 + 1) % 2 ^ 32) ∧
      (260 ≤ i → exec (.droopDetect i n) s = .next s)) ∧
    (s.gov.droopEnd ≠ 0 → s.gov.droopEnd ≤ s.govTime →
      exec .droopStepExpiry s = .next { s with gov := { s.gov with droopEnd := 0 } }) ∧
    (s.gov.droopEnd = 0 ∨ s.govTime < s.gov.droopEnd → exec .droopStepExpiry s = .next s) ∧
    (∀ p num den goal from_, s.twihus = true → s.md.barista = 0 → p < 64 → den ≠ 0 → num ≤ den →
        (AMap.getD p 0 s.gov.learnAt = 0 ∨ AMap.getD p 0 s.gov.learnAt + 10000000 ≤ s.govTime) →
        goal = (((List.range 17).map (fun i => 400 + 100 * i)).find? (fun f =>
          decide (f ≤ s.ceiling) && decide (100 * (den - num) * (s.ceiling - f) ≤ s.od 0x2100 0x19 * den * f))).getD s.ceiling →
        from_ = (if s.od (0x2140 + p) 2 = 0 then s.ceiling else s.od (0x2140 + p) 2) →
      ∃ t, exec (.twihusLearnStep p num den) s = .next t ∧ t = { s with dict := t.dict, gov := t.gov } ∧ SameBytes s t ∧
        SameOd [odKey (0x2140 + p) 2 0] s t ∧ t.gov = { s.gov with learnAt := t.gov.learnAt } ∧
        t.od (0x2140 + p) 2 = (if from_ < goal then min goal (from_ + 100) else max goal (from_ - 100)) ∧
        AMap.getD p 0 t.gov.learnAt = max 1 s.govTime) ∧
    (∀ p num den, s.twihus = false ∨ s.md.barista ≠ 0 ∨ 64 ≤ p ∨ den = 0 ∨ den < num →
      exec (.twihusLearnStep p num den) s = .next s) ∧
    (∀ g, (g < 32 → (s.clu g).gated = false → (s.clu g).rst = 0 → s.coresBusy.any (fun n => coreClus n == g) = false →
        s.enginesBusy.contains g = false → (clusCores g).any (fun n => (s.reserver n).isSome) = false →
        (s.md.st = 10 ∨ (s.od 0x2100 0x1A ≠ 0 ∧ (s.clu g).idleAt + s.od 0x2100 0x1A * 1000 ≤ s.govTime)) →
        ∃ t, exec (.clusterGate g) s = .next t ∧ t = { s with clus := t.clus } ∧ SameBytes s t ∧
          t.clu g = { s.clu g with gated := true, gateAt := s.govTime } ∧ ∀ h, h ≠ g → t.clu h = s.clu h) ∧
      (32 ≤ g ∨ (s.clu g).gated = true ∨ (s.clu g).rst ≠ 0 ∨ s.enginesBusy.contains g = true →
        exec (.clusterGate g) s = .next s)) ∧
    (∀ d, (d < 4 → (s.die d).st = 0 → AMap.getD d 0 s.gov.avs + 1000000 ≤ s.govTime →
        ∃ t, exec (.avsbusTimeout d) s = .next t ∧ (t.die d).st = 1 ∧ (t.die d).recAt = s.recTime ∧ (t.die d).running = false ∧
          t.fse = s.fse ∧ t.esp = s.esp ∧ t.gov = s.gov ∧ ∀ j, j ≠ d → (t.die j).st = (s.die j).st) ∧
      (4 ≤ d ∨ (s.die d).st ≠ 0 ∨ s.govTime < AMap.getD d 0 s.gov.avs + 1000000 → exec (.avsbusTimeout d) s = .next s)) ∧
    (∀ path, path ≤ 1 →
      (Accepted s path 0x2100 0x0A 1 1 →
        ∃ t, exec (.clearBatteryLimit path) s = .next t ∧
          t = { s with dict := t.dict, md := t.md, gov := { s.gov with batt := none } } ∧ SameBytes s t ∧ Answered path 0 t ∧
          SameOd [odKey 0x2002 3 0] s t) ∧
      (Accepted s path 0x2100 0x0F 1 1 → s.od 0x2100 0x0E + 32768 ≤ hubSize →
        ∃ t, exec (.clearLedger path) s = .next t ∧ t = { s with mem := t.mem, dict := t.dict, md := t.md } ∧
          SameBytesBut (hub (s.od 0x2100 0x0E)) 32768 s t ∧ Answered path 0 t ∧
          ∀ k, k < 32768 → t.byteAt (hub (s.od 0x2100 0x0E) + k) = 0) ∧
      ∀ p, p < 64 → Accepted s path (0x2140 + p) 3 1 1 →
        ∃ t, exec (.clearLearned path p) s = .next t ∧ t = { s with dict := t.dict, md := t.md } ∧ SameBytes s t ∧ Answered path 0 t ∧
          t.od (0x2140 + p) 2 = 0 ∧ SameOd [odKey (0x2140 + p) 2 0, odKey 0x2002 3 0] s t)

/-! ### The unit -/

/-- Bring-up (R448–R454, R457). With the standby rail up and the clock running, the steps of Table 18-1 end in Awaiting-Image with
the unit record that governs, or Barista halts with the status and step of the check that failed. The header of a first block that
has drained is judged once, and an invalid one fails aperture 0 with 0x05E9. Each command of the second table advances one step:
the image is verified, rails and clocks start, dies and links come up, and Cores complete puts the module in service; a step that
fails halts Barista, or fails the image. Its readings that are the model's are in log entries 4, 5, 89, 97. -/
def Obligations.BringUp : Prop :=
  ∀ (s : State), Invariant s →
    (∀ seed hubBad custBad,
      (s.md.st ≤ 1 → s.md.barista ≠ 4 → s.brd.held = false → s.brd.xtal = true → (s.brd.pgWait = false ∨ s.brd.mainPg = true) →
        (∀ u, hubBad = false → custBad = false → s.unitRead = some u →
            Config.publicKey (if s.md.st = 0 then seed % 2 ^ 256 else s.brd.seed) = u.key →
          ∃ t, exec (.standbyPowerOn seed hubBad custBad) s = .next t ∧
            t = { s with dict := t.dict, apers := t.apers, md := t.md, isl := t.isl, brd := t.brd } ∧ SameBytes s t ∧
            t.md = { (if s.md.st = 0 then Mod.boot else s.md) with st := 2, at_ := s.barTime } ∧ t.brd.unit = u ∧ t.brd.step = 6 ∧
            t.brd.resetN = true ∧ t.isl = (if s.md.st = 0 then Isl.boot else s.isl) ∧ t.od 0x2010 8 = (if u.copy then 1 else 0) ∧
            (s.md.st = 0 → t.apers = [(0, Aper.preset)])) ∧
        (∀ u st step,
            ((hubBad = true ∧ st = 0x05EB ∧ step = 2) ∨
             (hubBad = false ∧ s.unitRead = none ∧ st = 0x05E8 ∧ step = 3) ∨
             (hubBad = false ∧ s.unitRead = some u ∧
              Config.publicKey (if s.md.st = 0 then seed % 2 ^ 256 else s.brd.seed) ≠ u.key ∧ st = 0x05EA ∧ step = 4) ∨
             (hubBad = false ∧ custBad = true ∧ s.unitRead = some u ∧
              Config.publicKey (if s.md.st = 0 then seed % 2 ^ 256 else s.brd.seed) = u.key ∧ st = 0x05EC ∧ step = 5)) →
          ∃ t, exec (.standbyPowerOn seed hubBad custBad) s = .next t ∧
            t = { s with dict := t.dict, apers := t.apers, md := t.md, isl := t.isl, brd := t.brd } ∧ SameBytes s t ∧
            t.md.st = 1 ∧ t.md.barista = 4 ∧ t.od 0x2010 1 = st ∧ t.od 0x2010 2 = step)) ∧
      (1 < s.md.st ∨ s.md.barista = 4 ∨ s.brd.held = true ∨ s.brd.xtal = false →
        exec (.standbyPowerOn seed hubBad custBad) s = .next s)) ∧
    (s.md.st = 2 → s.md.barista ≠ 4 → (s.aper 0).boot = true → s.brd.judged = false →
      (s.headerOk = true → (s.aper 0).st = 5 →
        exec .imageHeaderJudge s = .next { s with brd := { s.brd with judged := true } }) ∧
      (s.headerOk = true → (s.aper 0).st ≠ 5 → (s.aper 0).drained.contains 0 = true →
          (s.aper 0).drained.length ≠ ceilDiv (s.img 8 4) 65536 →
        ∃ t, exec .imageHeaderJudge s = .next t ∧ t = { s with apers := t.apers, brd := { s.brd with judged := true } } ∧
          SameBytes s t ∧ (t.aper 0).len = s.img 8 4 ∧ (t.aper 0).limit = min (s.img 8 4) (s.aper 0).limit ∧
          ∀ a, a ≠ 0 → t.aper a = s.aper a) ∧
      (s.headerOk = false → ((s.aper 0).drained.contains 0 = true ∨ (s.aper 0).st = 5) →
        ∃ t, exec .imageHeaderJudge s = .next t ∧ t = { s with dict := t.dict, apers := t.apers, stageQ := t.stageQ } ∧
          SameBytes s t ∧ (t.aper 0).st = 6 ∧ (t.aper 0).status = 0x05E9 ∧ t.od 0x2010 1 = 0x05E9 ∧ t.od 0x2010 2 = 6 ∧
          t.md.st = 2)) ∧
    (s.md.st ≠ 2 ∨ s.brd.judged = true → exec .imageHeaderJudge s = .next s) ∧
    (∀ bad, s.alive = true → s.md.barista ≠ 4 →
      (s.md.st = 2 → (s.aper 0).st = 5 → (s.aper 0).boot = true → s.brd.judged = true →
        (s.imgCheck = none →
          ∃ t, exec (.imageVerify bad) s = .next t ∧ t = { s with md := { s.md with st := 3, at_ := s.barTime }, brd := t.brd } ∧
            SameBytes s t ∧ t.brd.step = 7 ∧ t.brd.imgVer = s.img 16 4 ∧ t.brd.digest = s.imgDigest ∧ t.brd.unit = s.brd.unit) ∧
        (∀ st, s.imgCheck = some st →
          ∃ t, exec (.imageVerify bad) s = .next t ∧ t = { s with dict := t.dict, apers := t.apers, stageQ := t.stageQ } ∧
            SameBytes s t ∧ (t.aper 0).st = 6 ∧ (t.aper 0).status = st ∧ t.od 0x2010 1 = st ∧ t.od 0x2010 2 = 7)) ∧
      (s.md.st = 3 → s.brd.step = 7 →
        (bad ≠ [] ∨ (s.brd.mainPg = false ∧ s.brd.waitAt + 100000000 ≤ s.barTime) →
          ∃ t, exec (.imageVerify bad) s = .next t ∧ t = { s with dict := t.dict, apers := t.apers, md := t.md } ∧ SameBytes s t ∧
            t.md.barista = 4 ∧ t.md.st = 3 ∧ t.od 0x2010 1 = 0x05EE ∧ t.od 0x2010 2 = 8) ∧
        (bad = [] → s.brd.mainPg = true →
          ∃ t, exec (.imageVerify bad) s = .next t ∧
            t = { s with dict := t.dict, apers := t.apers, b2h := t.b2h, md := t.md, rcv := t.rcv, brd := { s.brd with step := 8 } } ∧
            SameBytes s t ∧ t.md.barista = 0 ∧ t.md.bootMode = false ∧ t.md.st = 3 ∧ t.md.owed = []) ∧
        (bad = [] → s.brd.mainPg = false → s.barTime < s.brd.waitAt + 100000000 → exec (.imageVerify bad) s = .next s)) ∧
      (s.md.st = 3 → s.brd.step ≠ 7 →
        exec (.imageVerify bad) s = .next { s with md := { s.md with st := 4, at_ := s.barTime }, brd := { s.brd with step := 8 } }) ∧
      (s.md.st = 4 → bad = [] → (∃ d, d < 4 ∧ (s.die d).st ≠ 2) →
        ∃ t, exec (.imageVerify bad) s = .next t ∧
          t = { s with dict := t.dict, links := t.links, b2h := t.b2h, md := t.md, brd := { s.brd with step := 9 } } ∧ SameBytes s t ∧
          t.md.st = 5) ∧
      (s.md.st = 4 → (∀ d, d < 4 → (s.die d).st = 2 ∨ d ∈ bad) →
        ∃ t, exec (.imageVerify bad) s = .next t ∧ t = { s with dict := t.dict, dies := t.dies, apers := t.apers, md := t.md } ∧
          SameBytes s t ∧ t.md.barista = 4 ∧ t.md.st = 4 ∧ t.od 0x2010 1 = 0x05EF ∧ t.od 0x2010 2 = 9) ∧
      (s.md.st = 5 → (∀ l, l < 4 → laneState l (bad.getD l 0) ≠ 0) → (∃ d, d < 4 ∧ (s.die d).st ≠ 2) →
        ∃ t, exec (.imageVerify bad) s = .next t ∧
          t = { s with mem := t.mem, dict := t.dict, ctxs := t.ctxs, dies := t.dies, links := t.links, b2h := t.b2h, md := t.md,
                       brd := { s.brd with step := 10 }, apers := t.apers } ∧
          ((∀ d, (s.die d).notes = []) → SameBytes s t) ∧ ((∀ d, (s.die d).doors = []) → t.ctxs = s.ctxs) ∧ t.md.st = 6 ∧
          ∀ d, d < 4 → (t.die d).st = (s.die d).st ∧
            ((s.die d).st = 0 → (t.die d).running = true ∧ (t.die d).windowAt = s.dspTime d)) ∧
      (s.md.st = 6 → bad = [] → s.isl.safe ≠ 0 → (∃ d, d < 4 ∧ (s.die d).st ≠ 2) →
        ∃ t, exec (.imageVerify bad) s = .next t ∧ t.md.st = 11 ∧ t.brd.step = 11 ∧ t.od 0x2000 6 = 6 ∧
          t.isl.causes.testBit 0 = false ∧ t.isl.causes.testBit 1 = false ∧ t.objs = s.objs ∧ t.fse = s.fse ∧ t.esp = s.esp) ∧
      (7 ≤ s.md.st ∨ s.md.st ≤ 1 → exec (.imageVerify bad) s = .next s)) ∧
    (∀ bad, s.alive = false ∨ s.md.barista = 4 → exec (.imageVerify bad) s = .next s)

/-- Identity, attestation, the customer record and flash (R285, R458–R460). A report is written, signed and answered 0, or refused
0x03EB; a valid binding request takes effect in a new record in the other sector, an invalid one is refused 0x03EC; the customer
floor rises to a value between the floor in force and the image's version; a flash write erases its sectors and stores the bytes
from hub SRAM. Its readings that are the model's are in log entries 4, 95, 96. -/
def Obligations.IdentityCommands : Prop :=
  ∀ (s : State) (path : Nat), Invariant s → path ≤ 1 →
    (Accepted s path 0x2020 2 1 1 →
      (s.attestBase = true →
        ∃ t, exec (.attestationReport path) s = .next t ∧ t = { s with mem := t.mem, dict := t.dict, md := t.md } ∧
          SameBytesBut (hub (s.od 0x2020 3)) 512 s t ∧ Answered path 0 t ∧ t.od 0x2020 4 = 0 ∧
          t.rd (hub (s.od 0x2020 3)) 4 = 0x54414C42 ∧ t.rdBytes (hub (s.od 0x2020 3)) 380 = s.attestBody ∧
          SameOd [odKey 0x2020 4 0, odKey 0x2002 3 0] s t) ∧
      (s.attestBase = false →
        ∃ t, exec (.attestationReport path) s = .next t ∧ t = { s with dict := t.dict, md := t.md } ∧ SameBytes s t ∧
          Answered path 0x03EB t ∧ t.od 0x2020 4 = 0x03EB)) ∧
    (Accepted s path 0x2030 6 1 1 →
      (s.bindOk 1 = true → ∃ t c, exec (.customerBind path) s = .next t ∧ Recorded path c s t ∧ c.bound = true ∧
        c.floor = (s.custNow).floor ∧ c.cid = s.rdHub (s.od 0x2030 5 + 16) 16 ∧ c.key = s.rdHub (s.od 0x2030 5 + 32) 133) ∧
      (s.bindOk 1 = false → ∃ t, exec (.customerBind path) s = .next t ∧ BindRefused path s t)) ∧
    (Accepted s path 0x2030 6 1 2 →
      (s.bindOk 2 = true → ∃ t c, exec (.customerRebind path) s = .next t ∧ Recorded path c s t ∧ c.bound = true ∧
        c.floor = (s.custNow).floor ∧ c.cid = s.rdHub (s.od 0x2030 5 + 16) 16 ∧ c.key = s.rdHub (s.od 0x2030 5 + 32) 133) ∧
      (s.bindOk 2 = false → ∃ t, exec (.customerRebind path) s = .next t ∧ BindRefused path s t)) ∧
    (Accepted s path 0x2030 6 1 3 →
      (s.bindOk 3 = true → ∃ t c, exec (.customerUnbind path) s = .next t ∧ Recorded path c s t ∧ c.bound = false ∧ c.key = 0 ∧
        c.floor = (s.custNow).floor) ∧
      (s.bindOk 3 = false → ∃ t, exec (.customerUnbind path) s = .next t ∧ BindRefused path s t)) ∧
    (Accepted s path 0x2030 6 1 4 →
      (s.floorNow ≤ s.od 0x2030 7 → s.od 0x2030 7 ≤ s.brd.imgVer →
        ∃ t c, exec (.raiseFloor path) s = .next t ∧ Recorded path c s t ∧
          c = { s.custNow with
            floor := s.od 0x2030 7, seq := (s.custNow).seq + 1, sector := 1 - (s.custNow).sector % 2 }) ∧
      (s.od 0x2030 7 < s.floorNow ∨ s.brd.imgVer < s.od 0x2030 7 →
        ∃ t, exec (.raiseFloor path) s = .next t ∧ t = { s with dict := t.dict, md := t.md } ∧ SameBytes s t ∧
          Answered path 0x030B t ∧ t.od 0x2030 8 = 0x030B)) ∧
    (∀ x : Seg, Accepted s path 0x2402 4 1 1 → 0x80000 ≤ s.od 0x2402 1 →
      ∃ t, exec (.customerFlashWrite path x) s = .next t ∧
        t = { s with free := t.free, flash := t.flash, dict := t.dict, md := t.md } ∧
        (∀ a, isRegSpace a = false → t.byteAt a = s.byteAt a) ∧ Answered path 0 t ∧
        (∀ a, a < s.od 0x2402 1 ∨ s.od 0x2402 1 + s.od 0x2402 3 ≤ a → t.flashAt a = s.flashAt a) ∧
        (x.ok = true → t.od 0x2402 5 = 0 ∧ ∀ k, k < s.od 0x2402 3 → t.flashAt (s.od 0x2402 1 + k) = s.byteAt (hub (s.od 0x2402 2) + k)) ∧
        (x.ok = false → ∀ k, k < s.od 0x2402 3 → t.flashAt (s.od 0x2402 1 + k) = 0xFF))

/-- Rails, pins, clock and read-clear counters (R320, R465–R470). MAIN_PG low for over 2 µs in a state after step 8, RESET_N or a
brown-out of the hub for 1 µs and more, and the clock absent for over 2 µs bring the module back to Boot-ROM, where it waits for
what was lost; shorter ones do nothing. The loss of standby power keeps nothing but the unit's flash. A read-clear counter returns
its value and reads 0. Its readings that are the model's are in log entries 5, 86, 97. -/
def Obligations.PowerAndPins : Prop :=
  ∀ (s : State), Invariant s →
    (exec .mainPgAssert s = .next { s with brd := { s.brd with mainPg := true } }) ∧
    (∀ ns, (ns ≤ 2000 → exec (.mainPgLoss ns) s = .next s) ∧
      (2000 < ns → s.alive = true → 8 ≤ s.brd.step →
        ∃ t, exec (.mainPgLoss ns) s = .next t ∧ t.md.st = 1 ∧ t.md.bootMode = true ∧ t.brd.mainPg = false ∧ t.brd.pgWait = true ∧
          t.brd.step = 1 ∧ t.flash = s.flash ∧ t.mem = [] ∧ t.objs = [] ∧ t.isl.causes.testBit 1 = true) ∧
      (2000 < ns → s.alive = false ∨ s.brd.step < 8 →
        exec (.mainPgLoss ns) s = .next { s with brd := { s.brd with mainPg := false } })) ∧
    (∀ ns, (s.md.st = 0 ∨ ns < 900 → exec (.resetNAssert ns) s = .next s) ∧
      (s.md.st ≠ 0 → 1000 ≤ ns →
        ∃ t, exec (.resetNAssert ns) s = .next t ∧ t.md.st = 1 ∧ t.md.bootMode = true ∧ t.brd.resetN = false ∧ t.brd.step = 1 ∧
          t.flash = s.flash ∧ t.mem = [] ∧ t.isl.causes.testBit 1 = true) ∧
      (s.md.st ≠ 0 → 900 ≤ ns → ns < 1000 →
        ∃ t, exec (.resetNAssert ns) s = .next t ∧
          (t = { s with free := t.free } ∨ (t.md.st = 1 ∧ t.brd.resetN = false ∧ t.mem = [])))) ∧
    (∀ ns, (ns < 1000 → exec (.hubBrownOut ns) s = .next s ∧ exec (.computeBrownOut ns) s = .next s) ∧
      (1000 ≤ ns → s.md.st ≠ 0 →
        ∃ t, exec (.hubBrownOut ns) s = .next t ∧ t.md.st = 1 ∧ t.brd.resetN = false ∧ t.mem = []) ∧
      (1000 ≤ ns → s.alive = true → 8 ≤ s.brd.step →
        ∃ t, exec (.computeBrownOut ns) s = .next t ∧ t.md.st = 1 ∧ t.brd.mainPg = false ∧ t.brd.pgWait = true ∧ t.mem = [])) ∧
    (s.md.st ≠ 0 →
      ∃ t, exec .standbyLoss s = .next t ∧
        t = { State.reset with
          pending := s.pending, free := s.free, flash := s.flash, nextId := s.nextId, copies := t.copies, wire := s.wire,
          rcv := t.rcv, md := { Mod.boot with st := 0 }, apers := [], isl := t.isl, brd := t.brd } ∧
        t.isl = { Isl.boot with causes := 0 } ∧ t.brd.stbyPg = false ∧ t.brd.resetN = false ∧ t.brd.mainPg = false ∧
        t.rcv.record = s.rcv.record) ∧
    (s.md.st = 0 → exec .standbyLoss s = .next s) ∧
    (∀ ns, (ns ≤ 2000 ∨ s.md.st = 0 → exec (.xtalClockLoss ns) s = .next s) ∧
      (2000 < ns → s.md.st ≠ 0 →
        ∃ t, exec (.xtalClockLoss ns) s = .next t ∧ t.md.st = 1 ∧ t.brd.xtal = false ∧ t.brd.held = true ∧ t.mem = [] ∧
          t.flash = s.flash) ∧
      (1000000 ≤ ns → s.brd.held = true →
        exec (.xtalClockRestored ns) s = .next { s with brd := { s.brd with xtal := true, held := false } }) ∧
      (ns < 1000000 ∨ s.brd.held = false → exec (.xtalClockRestored ns) s = .next s)) ∧
    (∀ a ch, s.alive = true → isRC a = true →
      (a / 0x10000 * 0x10000 = baseHP → ch < 4 →
        ∃ t, exec (.rcCounterRead a ch) s = .next t ∧ t = { s with regs := t.regs, chans := t.chans } ∧ SameBytes s t ∧
          (t.chan ch).out = s.reg (hpc ch (a % 0x10000)) ∧ (t.chan ch).outLen = 8 ∧ t.reg (hpc ch (a % 0x10000)) = 0 ∧
          SameRegs [hpc ch (a % 0x10000)] s t) ∧
      (a / 0x10000 * 0x10000 ≠ baseHP →
        ∃ t, exec (.rcCounterRead a ch) s = .next t ∧ t = { s with regs := t.regs } ∧ SameBytes s t ∧ t.reg keyRead = s.regVal a ∧
          t.reg a = 0 ∧ SameRegs [a, keyRead, keyCold, keyRaw, keyPacked] s t)) ∧
    (∀ a ch, s.alive = false ∨ isRC a = false → exec (.rcCounterRead a ch) s = .next s)

/-! ### Two rules of the memory map and the mailboxes -/

/-- The hub SRAM window and the hub SRAM are one memory under two addresses (R16): a write through either address is the same
transition, and is read through both. The DRAM map (R17): with die interleave off the byte at address A lies on die A >> 34 at
offset A & 0x3_FFFF_FFFF of its stack, with interleave at 4 KiB on die (A >> 12) & 3 at offset ((A >> 14) << 12) | (A & 0xFFF); so
a byte written at one address is read at that address and at no other address of DRAM. -/
def Obligations.MemoryMap : Prop :=
  ∀ (s : State), Invariant s →
    (∀ (o : Nat) (l : List Byte), o + l.length ≤ hubSize →
      s.wr (0x020080000000 + o) l = s.wr (0x030000000000 + o) l ∧
      ∀ i, i < l.length →
        (s.wr (0x030000000000 + o) l).byteAt (0x020080000000 + o + i) = l.getD i 0 ∧
        (s.wr (0x030000000000 + o) l).byteAt (0x030000000000 + o + i) = l.getD i 0) ∧
    ∀ a, a < 2 ^ 36 →
      (s.interleaved = false → s.dieOf a = some (a >>> 34) ∧ s.loc a = (a >>> 34) * 2 ^ 34 + (a &&& 0x3FFFFFFFF)) ∧
      (s.interleaved = true →
        s.dieOf a = some ((a >>> 12) &&& 3) ∧ s.loc a = ((a >>> 12) &&& 3) * 2 ^ 34 + (((a >>> 14) <<< 12) ||| (a &&& 0xFFF))) ∧
      ∀ (b : Nat) (v : Byte), b < 2 ^ 36 → (s.wr a [v]).byteAt b = if b = a then v else s.byteAt b

/-- A message written while a mailbox is full (R333) replaces the waiting one, adds 1 to the collisions, and has flags[1] set on
the acknowledgement with which it is taken, in the core mailboxes, in the host's mailboxes to Barista and in Barista's to the
host. -/
def Obligations.MailboxReplacement : Prop :=
  ∀ (s : State) (code : Nat), Invariant s → code < 2 ^ 16 →
    (∀ n w, n < 256 → (s.coreBox n).full = true →
      ∃ t, exec (.coreMailboxWrite n w) s = .next t ∧ (t.coreBox n).msg = w % 2 ^ 512 ∧ (t.coreBox n).full = true ∧
        (t.coreBox n).coll = ((s.coreBox n).coll + 1) % 65536 ∧ ((t.coreBox n).take_ code).ack.testBit 65 = true) ∧
    (∀ (b : Burst) (k m : Nat), s.alive = true → b.ch < 4 → b.n = 64 → b.ecc = false → b.fixed = false → b.mask % 2 ^ 64 = 0 →
        s.md.bootMode = false → k < 16 → s.burstOff b = 0x100000 + 64 * k → m = 4 * k + b.ch → (s.h2bBox m).full = true →
      ∃ t, exec (.hostMailboxMessageWrite b) s = .next t ∧ (t.h2bBox m).msg = b.data % 2 ^ 512 ∧ (t.h2bBox m).full = true ∧
        (t.h2bBox m).coll = ((s.h2bBox m).coll + 1) % 65536 ∧ ((t.h2bBox m).take_ code).ack.testBit 65 = true) ∧
    (∀ m w, (s.b2hBox m).full = true →
      ((s.toHost m w).b2hBox m).msg = w ∧ ((s.toHost m w).b2hBox m).full = true ∧
      ((s.toHost m w).b2hBox m).coll = ((s.b2hBox m).coll + 1) % 65536 ∧
      (((s.toHost m w).b2hBox m).take_ code).ack.testBit 65 = true)
end

