-- ==== Sys2Proof/Laws/Map.lean ====
section
/-! SUPPORT. What the operations of a sparse table do to what it reads, and that they keep its canonical form. -/

namespace Sys2Proof.AMap

variable {α : Type}

theorem get?_ins (k j : Nat) (v : α) (t : AMap α) : get? k (ins j v t) = if j = k then some v else get? k t := by
  induction t with
  | nil => simp [ins, get?]
  | cons p t ih =>
    obtain ⟨i, w⟩ := p
    simp only [ins]
    split
    · simp [get?]
    · split
      · simp only [get?]; grind
      · simp only [get?, ih]; grind

theorem get?_del (k j : Nat) (t : AMap α) : get? k (del j t) = if j = k then none else get? k t := by
  induction t with
  | nil => simp [del, get?]
  | cons p t ih =>
    obtain ⟨i, w⟩ := p
    simp only [del]
    split
    · simp only [get?, ih]; grind
    · simp only [get?, ih]; grind

theorem get?_upd (k j : Nat) (f : α → α) (t : AMap α) :
    get? k (upd j f t) = if j = k then (get? k t).map f else get? k t := by
  induction t with
  | nil => simp [upd, get?]
  | cons p t ih =>
    obtain ⟨i, w⟩ := p
    simp only [upd]
    split
    · simp only [get?]; grind
    · simp only [get?, ih]; grind

theorem get?_mapV (k : Nat) (f : Nat → α → α) (t : AMap α) : get? k (mapV f t) = (get? k t).map (f k) := by
  induction t with
  | nil => simp [mapV, get?]
  | cons p t ih =>
    obtain ⟨i, w⟩ := p
    simp only [mapV, get?, ih]; grind

/-- A key-only filter. -/
theorem get?_keep (k : Nat) (p : Nat → Bool) (t : AMap α) :
    get? k (keep (fun i _ => p i) t) = if p k then get? k t else none := by
  induction t with
  | nil => simp [keep, get?]
  | cons q t ih =>
    obtain ⟨i, w⟩ := q
    simp only [keep]
    split
    · simp only [get?, ih]; grind
    · simp only [get?, ih]; grind

variable [DecidableEq α]

theorem getD_put (k j : Nat) (d d' v : α) (t : AMap α) :
    getD k d' (put d j v t) = if j = k then (if v = d then d' else v) else getD k d' t := by
  simp only [getD, put]
  split
  · rw [get?_del]; grind
  · rw [get?_ins]; grind

@[simp] theorem getD_put_self (k : Nat) (d v : α) (t : AMap α) : getD k d (put d k v t) = v := by
  rw [getD_put]; grind

theorem getD_put_ne {k j : Nat} (h : j ≠ k) (d d' v : α) (t : AMap α) : getD k d' (put d j v t) = getD k d' t := by
  rw [getD_put, if_neg h]

/-! ### Canonical form -/

omit [DecidableEq α] in
theorem risesFrom_weaken {i j : Nat} (h : i ≤ j) (t : AMap α) : risesFrom (some j) t = true → risesFrom (some i) t = true := by
  cases t with
  | nil => simp [risesFrom]
  | cons p t => simp only [risesFrom, Bool.and_eq_true, decide_eq_true_eq]; grind

omit [DecidableEq α] in
theorem risesFrom_none (i : Nat) (t : AMap α) : risesFrom (some i) t = true → risesFrom none t = true := by
  cases t with
  | nil => simp [risesFrom]
  | cons p t => simp only [risesFrom, Bool.and_eq_true]; grind

omit [DecidableEq α] in
theorem risesFrom_ins (i k : Nat) (v : α) (t : AMap α) :
    i < k → risesFrom (some i) t = true → risesFrom (some i) (ins k v t) = true := by
  induction t generalizing i with
  | nil => simp [ins, risesFrom]
  | cons p t ih =>
    obtain ⟨j, w⟩ := p
    simp only [ins, risesFrom, Bool.and_eq_true, decide_eq_true_eq]
    intro hk h
    split
    · simp only [risesFrom, Bool.and_eq_true, decide_eq_true_eq]; grind
    · split
      · simp only [risesFrom, Bool.and_eq_true, decide_eq_true_eq]; grind
      · simp only [risesFrom, Bool.and_eq_true, decide_eq_true_eq]
        exact ⟨h.1, ih j (by omega) h.2⟩

omit [DecidableEq α] in
theorem wf_ins (k : Nat) (v : α) (t : AMap α) : wf t = true → wf (ins k v t) = true := by
  cases t with
  | nil => simp [ins, wf, risesFrom]
  | cons p t =>
    obtain ⟨j, w⟩ := p
    simp only [ins, wf, risesFrom]
    intro h
    split
    · simp only [risesFrom, Bool.and_eq_true, decide_eq_true_eq]; grind
    · split
      · simp only [risesFrom]; grind
      · simp only [risesFrom]; exact risesFrom_ins j k v t (by omega) h

omit [DecidableEq α] in
theorem risesFrom_keep (i : Nat) (p : Nat → α → Bool) (t : AMap α) :
    risesFrom (some i) t = true → risesFrom (some i) (keep p t) = true := by
  induction t generalizing i with
  | nil => simp [keep, risesFrom]
  | cons q t ih =>
    obtain ⟨j, w⟩ := q
    simp only [keep, risesFrom, Bool.and_eq_true, decide_eq_true_eq]
    intro h
    split
    · simp only [risesFrom, Bool.and_eq_true, decide_eq_true_eq]; exact ⟨h.1, ih j h.2⟩
    · exact risesFrom_weaken (by omega) _ (ih j h.2)

omit [DecidableEq α] in
theorem wf_keep (p : Nat → α → Bool) (t : AMap α) : wf t = true → wf (keep p t) = true := by
  induction t with
  | nil => simp [keep, wf, risesFrom]
  | cons q t ih =>
    obtain ⟨j, w⟩ := q
    simp only [keep, wf, risesFrom]
    intro h
    split
    · simp only [risesFrom]; exact risesFrom_keep j p t h
    · exact ih (risesFrom_none j t h)

omit [DecidableEq α] in
theorem del_eq_keep (k : Nat) (t : AMap α) : del k t = keep (fun i _ => decide (i ≠ k)) t := by
  induction t with
  | nil => simp [del, keep]
  | cons q t ih =>
    obtain ⟨j, w⟩ := q
    simp only [del, keep, ih]; grind

omit [DecidableEq α] in
theorem all_keep (p : Nat → α → Bool) (f : Nat × α → Bool) (t : AMap α) : t.all f = true → (keep p t).all f = true := by
  induction t with
  | nil => simp [keep]
  | cons q t ih =>
    obtain ⟨j, w⟩ := q
    simp only [keep, List.all_cons, Bool.and_eq_true]
    intro h
    split
    · simp only [List.all_cons, Bool.and_eq_true]; exact ⟨h.1, ih h.2⟩
    · exact ih h.2

omit [DecidableEq α] in
theorem all_ins (k : Nat) (v : α) (f : Nat × α → Bool) (t : AMap α) :
    f (k, v) = true → t.all f = true → (ins k v t).all f = true := by
  induction t with
  | nil => simp [ins]
  | cons q t ih =>
    obtain ⟨j, w⟩ := q
    simp only [ins, List.all_cons, Bool.and_eq_true]
    intro hv h
    split
    · simp only [List.all_cons, Bool.and_eq_true]; exact ⟨hv, h⟩
    · split
      · simp only [List.all_cons, Bool.and_eq_true]; exact ⟨hv, h.2⟩
      · simp only [List.all_cons, Bool.and_eq_true]; exact ⟨h.1, ih hv h.2⟩

theorem wfD_keep (d : α) (p : Nat → α → Bool) (t : AMap α) : wfD d t = true → wfD d (keep p t) = true := by
  simp only [wfD, Bool.and_eq_true]
  exact fun h => ⟨wf_keep p t h.1, all_keep p _ t h.2⟩

/-- Storing a value keeps the canonical form. -/
theorem wfD_put (d : α) (k : Nat) (v : α) (t : AMap α) : wfD d t = true → wfD d (put d k v t) = true := by
  intro h
  simp only [put]
  split
  · rw [del_eq_keep]; exact wfD_keep d _ t h
  · simp only [wfD, Bool.and_eq_true] at h ⊢
    exact ⟨wf_ins k v t h.1, all_ins k v _ t (by simpa using ‹¬v = d›) h.2⟩

end Sys2Proof.AMap
end

