-- ==== Sys2Proof/Laws/State.lean ====
section
/-! SUPPORT. What each update of the state leaves alone, field by field, and what each reader sees of it. -/

namespace Sys2Proof.Machine.State

variable (s : State)

/-! ### `setOd` -/

@[simp] theorem setOd_pending (i j v k : Nat) : (s.setOd i j v k).pending = s.pending := rfl
@[simp] theorem setOd_free (i j v k : Nat) : (s.setOd i j v k).free = s.free := rfl
@[simp] theorem setOd_mem (i j v k : Nat) : (s.setOd i j v k).mem = s.mem := rfl
@[simp] theorem setOd_flash (i j v k : Nat) : (s.setOd i j v k).flash = s.flash := rfl
@[simp] theorem setOd_regs (i j v k : Nat) : (s.setOd i j v k).regs = s.regs := rfl
@[simp] theorem setOd_descs (i j v k : Nat) : (s.setOd i j v k).descs = s.descs := rfl
@[simp] theorem setOd_nextId (i j v k : Nat) : (s.setOd i j v k).nextId = s.nextId := rfl
@[simp] theorem setOd_ctxs (i j v k : Nat) : (s.setOd i j v k).ctxs = s.ctxs := rfl
@[simp] theorem setOd_cores (i j v k : Nat) : (s.setOd i j v k).cores = s.cores := rfl
@[simp] theorem setOd_clus (i j v k : Nat) : (s.setOd i j v k).clus = s.clus := rfl
@[simp] theorem setOd_dies (i j v k : Nat) : (s.setOd i j v k).dies = s.dies := rfl
@[simp] theorem setOd_links (i j v k : Nat) : (s.setOd i j v k).links = s.links := rfl
@[simp] theorem setOd_aborts (i j v k : Nat) : (s.setOd i j v k).aborts = s.aborts := rfl
@[simp] theorem setOd_pages (i j v k : Nat) : (s.setOd i j v k).pages = s.pages := rfl
@[simp] theorem setOd_strs (i j v k : Nat) : (s.setOd i j v k).strs = s.strs := rfl
@[simp] theorem setOd_maps (i j v k : Nat) : (s.setOd i j v k).maps = s.maps := rfl
@[simp] theorem setOd_objs (i j v k : Nat) : (s.setOd i j v k).objs = s.objs := rfl
@[simp] theorem setOd_copies (i j v k : Nat) : (s.setOd i j v k).copies = s.copies := rfl
@[simp] theorem setOd_spills (i j v k : Nat) : (s.setOd i j v k).spills = s.spills := rfl
@[simp] theorem setOd_chans (i j v k : Nat) : (s.setOd i j v k).chans = s.chans := rfl
@[simp] theorem setOd_apers (i j v k : Nat) : (s.setOd i j v k).apers = s.apers := rfl
@[simp] theorem setOd_stageQ (i j v k : Nat) : (s.setOd i j v k).stageQ = s.stageQ := rfl
@[simp] theorem setOd_h2b (i j v k : Nat) : (s.setOd i j v k).h2b = s.h2b := rfl
@[simp] theorem setOd_b2h (i j v k : Nat) : (s.setOd i j v k).b2h = s.b2h := rfl
@[simp] theorem setOd_md (i j v k : Nat) : (s.setOd i j v k).md = s.md := rfl
@[simp] theorem setOd_isl (i j v k : Nat) : (s.setOd i j v k).isl = s.isl := rfl
@[simp] theorem setOd_rcv (i j v k : Nat) : (s.setOd i j v k).rcv = s.rcv := rfl
@[simp] theorem setOd_fse (i j v k : Nat) : (s.setOd i j v k).fse = s.fse := rfl
@[simp] theorem setOd_esp (i j v k : Nat) : (s.setOd i j v k).esp = s.esp := rfl
@[simp] theorem setOd_gov (i j v k : Nat) : (s.setOd i j v k).gov = s.gov := rfl
@[simp] theorem setOd_brd (i j v k : Nat) : (s.setOd i j v k).brd = s.brd := rfl
@[simp] theorem setOd_wire (i j v k : Nat) : (s.setOd i j v k).wire = s.wire := rfl
@[simp] theorem setOd_reg_of (i j v k : Nat) (p : Nat) : (s.setOd i j v k).reg p = s.reg p := rfl
@[simp] theorem setOd_ctx_of (i j v k : Nat) (p : Nat) : (s.setOd i j v k).ctx p = s.ctx p := rfl
@[simp] theorem setOd_desc_of (i j v k : Nat) (p : Nat) : (s.setOd i j v k).desc? p = s.desc? p := rfl
@[simp] theorem setOd_obj_of (i j v k : Nat) (p : Nat) : (s.setOd i j v k).obj p = s.obj p := rfl
@[simp] theorem setOd_core_of (i j v k : Nat) (p : Nat) : (s.setOd i j v k).core p = s.core p := rfl
@[simp] theorem setOd_clu_of (i j v k : Nat) (p : Nat) : (s.setOd i j v k).clu p = s.clu p := rfl
@[simp] theorem setOd_die_of (i j v k : Nat) (p : Nat) : (s.setOd i j v k).die p = s.die p := rfl
@[simp] theorem setOd_chan_of (i j v k : Nat) (p : Nat) : (s.setOd i j v k).chan p = s.chan p := rfl
@[simp] theorem setOd_aper_of (i j v k : Nat) (p : Nat) : (s.setOd i j v k).aper p = s.aper p := rfl
@[simp] theorem setOd_page_of (i j v k : Nat) (p : Nat) : (s.setOd i j v k).page p = s.page p := rfl
@[simp] theorem setOd_strm_of (i j v k : Nat) (p : Nat) : (s.setOd i j v k).strm p = s.strm p := rfl
@[simp] theorem setOd_sdMap_of (i j v k : Nat) (p : Nat) : (s.setOd i j v k).sdMap p = s.sdMap p := rfl
@[simp] theorem setOd_link_of (i j v k : Nat) (p : Nat) : (s.setOd i j v k).link p = s.link p := rfl

/-! ### `bumpOd` -/

@[simp] theorem bumpOd_pending (i j n w k : Nat) : (s.bumpOd i j n w k).pending = s.pending := rfl
@[simp] theorem bumpOd_free (i j n w k : Nat) : (s.bumpOd i j n w k).free = s.free := rfl
@[simp] theorem bumpOd_mem (i j n w k : Nat) : (s.bumpOd i j n w k).mem = s.mem := rfl
@[simp] theorem bumpOd_flash (i j n w k : Nat) : (s.bumpOd i j n w k).flash = s.flash := rfl
@[simp] theorem bumpOd_regs (i j n w k : Nat) : (s.bumpOd i j n w k).regs = s.regs := rfl
@[simp] theorem bumpOd_descs (i j n w k : Nat) : (s.bumpOd i j n w k).descs = s.descs := rfl
@[simp] theorem bumpOd_nextId (i j n w k : Nat) : (s.bumpOd i j n w k).nextId = s.nextId := rfl
@[simp] theorem bumpOd_ctxs (i j n w k : Nat) : (s.bumpOd i j n w k).ctxs = s.ctxs := rfl
@[simp] theorem bumpOd_cores (i j n w k : Nat) : (s.bumpOd i j n w k).cores = s.cores := rfl
@[simp] theorem bumpOd_clus (i j n w k : Nat) : (s.bumpOd i j n w k).clus = s.clus := rfl
@[simp] theorem bumpOd_dies (i j n w k : Nat) : (s.bumpOd i j n w k).dies = s.dies := rfl
@[simp] theorem bumpOd_links (i j n w k : Nat) : (s.bumpOd i j n w k).links = s.links := rfl
@[simp] theorem bumpOd_aborts (i j n w k : Nat) : (s.bumpOd i j n w k).aborts = s.aborts := rfl
@[simp] theorem bumpOd_pages (i j n w k : Nat) : (s.bumpOd i j n w k).pages = s.pages := rfl
@[simp] theorem bumpOd_strs (i j n w k : Nat) : (s.bumpOd i j n w k).strs = s.strs := rfl
@[simp] theorem bumpOd_maps (i j n w k : Nat) : (s.bumpOd i j n w k).maps = s.maps := rfl
@[simp] theorem bumpOd_objs (i j n w k : Nat) : (s.bumpOd i j n w k).objs = s.objs := rfl
@[simp] theorem bumpOd_copies (i j n w k : Nat) : (s.bumpOd i j n w k).copies = s.copies := rfl
@[simp] theorem bumpOd_spills (i j n w k : Nat) : (s.bumpOd i j n w k).spills = s.spills := rfl
@[simp] theorem bumpOd_chans (i j n w k : Nat) : (s.bumpOd i j n w k).chans = s.chans := rfl
@[simp] theorem bumpOd_apers (i j n w k : Nat) : (s.bumpOd i j n w k).apers = s.apers := rfl
@[simp] theorem bumpOd_stageQ (i j n w k : Nat) : (s.bumpOd i j n w k).stageQ = s.stageQ := rfl
@[simp] theorem bumpOd_h2b (i j n w k : Nat) : (s.bumpOd i j n w k).h2b = s.h2b := rfl
@[simp] theorem bumpOd_b2h (i j n w k : Nat) : (s.bumpOd i j n w k).b2h = s.b2h := rfl
@[simp] theorem bumpOd_md (i j n w k : Nat) : (s.bumpOd i j n w k).md = s.md := rfl
@[simp] theorem bumpOd_isl (i j n w k : Nat) : (s.bumpOd i j n w k).isl = s.isl := rfl
@[simp] theorem bumpOd_rcv (i j n w k : Nat) : (s.bumpOd i j n w k).rcv = s.rcv := rfl
@[simp] theorem bumpOd_fse (i j n w k : Nat) : (s.bumpOd i j n w k).fse = s.fse := rfl
@[simp] theorem bumpOd_esp (i j n w k : Nat) : (s.bumpOd i j n w k).esp = s.esp := rfl
@[simp] theorem bumpOd_gov (i j n w k : Nat) : (s.bumpOd i j n w k).gov = s.gov := rfl
@[simp] theorem bumpOd_brd (i j n w k : Nat) : (s.bumpOd i j n w k).brd = s.brd := rfl
@[simp] theorem bumpOd_wire (i j n w k : Nat) : (s.bumpOd i j n w k).wire = s.wire := rfl
@[simp] theorem bumpOd_reg_of (i j n w k : Nat) (p : Nat) : (s.bumpOd i j n w k).reg p = s.reg p := rfl
@[simp] theorem bumpOd_ctx_of (i j n w k : Nat) (p : Nat) : (s.bumpOd i j n w k).ctx p = s.ctx p := rfl
@[simp] theorem bumpOd_desc_of (i j n w k : Nat) (p : Nat) : (s.bumpOd i j n w k).desc? p = s.desc? p := rfl
@[simp] theorem bumpOd_obj_of (i j n w k : Nat) (p : Nat) : (s.bumpOd i j n w k).obj p = s.obj p := rfl
@[simp] theorem bumpOd_core_of (i j n w k : Nat) (p : Nat) : (s.bumpOd i j n w k).core p = s.core p := rfl
@[simp] theorem bumpOd_clu_of (i j n w k : Nat) (p : Nat) : (s.bumpOd i j n w k).clu p = s.clu p := rfl
@[simp] theorem bumpOd_die_of (i j n w k : Nat) (p : Nat) : (s.bumpOd i j n w k).die p = s.die p := rfl
@[simp] theorem bumpOd_chan_of (i j n w k : Nat) (p : Nat) : (s.bumpOd i j n w k).chan p = s.chan p := rfl
@[simp] theorem bumpOd_aper_of (i j n w k : Nat) (p : Nat) : (s.bumpOd i j n w k).aper p = s.aper p := rfl
@[simp] theorem bumpOd_page_of (i j n w k : Nat) (p : Nat) : (s.bumpOd i j n w k).page p = s.page p := rfl
@[simp] theorem bumpOd_strm_of (i j n w k : Nat) (p : Nat) : (s.bumpOd i j n w k).strm p = s.strm p := rfl
@[simp] theorem bumpOd_sdMap_of (i j n w k : Nat) (p : Nat) : (s.bumpOd i j n w k).sdMap p = s.sdMap p := rfl
@[simp] theorem bumpOd_link_of (i j n w k : Nat) (p : Nat) : (s.bumpOd i j n w k).link p = s.link p := rfl

/-! ### `setReg` -/

@[simp] theorem setReg_pending (a v : Nat) : (s.setReg a v).pending = s.pending := rfl
@[simp] theorem setReg_free (a v : Nat) : (s.setReg a v).free = s.free := rfl
@[simp] theorem setReg_mem (a v : Nat) : (s.setReg a v).mem = s.mem := rfl
@[simp] theorem setReg_flash (a v : Nat) : (s.setReg a v).flash = s.flash := rfl
@[simp] theorem setReg_dict (a v : Nat) : (s.setReg a v).dict = s.dict := rfl
@[simp] theorem setReg_descs (a v : Nat) : (s.setReg a v).descs = s.descs := rfl
@[simp] theorem setReg_nextId (a v : Nat) : (s.setReg a v).nextId = s.nextId := rfl
@[simp] theorem setReg_ctxs (a v : Nat) : (s.setReg a v).ctxs = s.ctxs := rfl
@[simp] theorem setReg_cores (a v : Nat) : (s.setReg a v).cores = s.cores := rfl
@[simp] theorem setReg_clus (a v : Nat) : (s.setReg a v).clus = s.clus := rfl
@[simp] theorem setReg_dies (a v : Nat) : (s.setReg a v).dies = s.dies := rfl
@[simp] theorem setReg_links (a v : Nat) : (s.setReg a v).links = s.links := rfl
@[simp] theorem setReg_aborts (a v : Nat) : (s.setReg a v).aborts = s.aborts := rfl
@[simp] theorem setReg_pages (a v : Nat) : (s.setReg a v).pages = s.pages := rfl
@[simp] theorem setReg_strs (a v : Nat) : (s.setReg a v).strs = s.strs := rfl
@[simp] theorem setReg_maps (a v : Nat) : (s.setReg a v).maps = s.maps := rfl
@[simp] theorem setReg_objs (a v : Nat) : (s.setReg a v).objs = s.objs := rfl
@[simp] theorem setReg_copies (a v : Nat) : (s.setReg a v).copies = s.copies := rfl
@[simp] theorem setReg_spills (a v : Nat) : (s.setReg a v).spills = s.spills := rfl
@[simp] theorem setReg_chans (a v : Nat) : (s.setReg a v).chans = s.chans := rfl
@[simp] theorem setReg_apers (a v : Nat) : (s.setReg a v).apers = s.apers := rfl
@[simp] theorem setReg_stageQ (a v : Nat) : (s.setReg a v).stageQ = s.stageQ := rfl
@[simp] theorem setReg_h2b (a v : Nat) : (s.setReg a v).h2b = s.h2b := rfl
@[simp] theorem setReg_b2h (a v : Nat) : (s.setReg a v).b2h = s.b2h := rfl
@[simp] theorem setReg_md (a v : Nat) : (s.setReg a v).md = s.md := rfl
@[simp] theorem setReg_isl (a v : Nat) : (s.setReg a v).isl = s.isl := rfl
@[simp] theorem setReg_rcv (a v : Nat) : (s.setReg a v).rcv = s.rcv := rfl
@[simp] theorem setReg_fse (a v : Nat) : (s.setReg a v).fse = s.fse := rfl
@[simp] theorem setReg_esp (a v : Nat) : (s.setReg a v).esp = s.esp := rfl
@[simp] theorem setReg_gov (a v : Nat) : (s.setReg a v).gov = s.gov := rfl
@[simp] theorem setReg_brd (a v : Nat) : (s.setReg a v).brd = s.brd := rfl
@[simp] theorem setReg_wire (a v : Nat) : (s.setReg a v).wire = s.wire := rfl
@[simp] theorem setReg_od_of (a v : Nat) (p q r : Nat) : (s.setReg a v).od p q r = s.od p q r := rfl
@[simp] theorem setReg_ctx_of (a v : Nat) (p : Nat) : (s.setReg a v).ctx p = s.ctx p := rfl
@[simp] theorem setReg_desc_of (a v : Nat) (p : Nat) : (s.setReg a v).desc? p = s.desc? p := rfl
@[simp] theorem setReg_obj_of (a v : Nat) (p : Nat) : (s.setReg a v).obj p = s.obj p := rfl
@[simp] theorem setReg_core_of (a v : Nat) (p : Nat) : (s.setReg a v).core p = s.core p := rfl
@[simp] theorem setReg_clu_of (a v : Nat) (p : Nat) : (s.setReg a v).clu p = s.clu p := rfl
@[simp] theorem setReg_die_of (a v : Nat) (p : Nat) : (s.setReg a v).die p = s.die p := rfl
@[simp] theorem setReg_chan_of (a v : Nat) (p : Nat) : (s.setReg a v).chan p = s.chan p := rfl
@[simp] theorem setReg_aper_of (a v : Nat) (p : Nat) : (s.setReg a v).aper p = s.aper p := rfl
@[simp] theorem setReg_page_of (a v : Nat) (p : Nat) : (s.setReg a v).page p = s.page p := rfl
@[simp] theorem setReg_strm_of (a v : Nat) (p : Nat) : (s.setReg a v).strm p = s.strm p := rfl
@[simp] theorem setReg_sdMap_of (a v : Nat) (p : Nat) : (s.setReg a v).sdMap p = s.sdMap p := rfl
@[simp] theorem setReg_link_of (a v : Nat) (p : Nat) : (s.setReg a v).link p = s.link p := rfl

/-! ### `bumpReg` -/

@[simp] theorem bumpReg_pending (a n : Nat) : (s.bumpReg a n).pending = s.pending := rfl
@[simp] theorem bumpReg_free (a n : Nat) : (s.bumpReg a n).free = s.free := rfl
@[simp] theorem bumpReg_mem (a n : Nat) : (s.bumpReg a n).mem = s.mem := rfl
@[simp] theorem bumpReg_flash (a n : Nat) : (s.bumpReg a n).flash = s.flash := rfl
@[simp] theorem bumpReg_dict (a n : Nat) : (s.bumpReg a n).dict = s.dict := rfl
@[simp] theorem bumpReg_descs (a n : Nat) : (s.bumpReg a n).descs = s.descs := rfl
@[simp] theorem bumpReg_nextId (a n : Nat) : (s.bumpReg a n).nextId = s.nextId := rfl
@[simp] theorem bumpReg_ctxs (a n : Nat) : (s.bumpReg a n).ctxs = s.ctxs := rfl
@[simp] theorem bumpReg_cores (a n : Nat) : (s.bumpReg a n).cores = s.cores := rfl
@[simp] theorem bumpReg_clus (a n : Nat) : (s.bumpReg a n).clus = s.clus := rfl
@[simp] theorem bumpReg_dies (a n : Nat) : (s.bumpReg a n).dies = s.dies := rfl
@[simp] theorem bumpReg_links (a n : Nat) : (s.bumpReg a n).links = s.links := rfl
@[simp] theorem bumpReg_aborts (a n : Nat) : (s.bumpReg a n).aborts = s.aborts := rfl
@[simp] theorem bumpReg_pages (a n : Nat) : (s.bumpReg a n).pages = s.pages := rfl
@[simp] theorem bumpReg_strs (a n : Nat) : (s.bumpReg a n).strs = s.strs := rfl
@[simp] theorem bumpReg_maps (a n : Nat) : (s.bumpReg a n).maps = s.maps := rfl
@[simp] theorem bumpReg_objs (a n : Nat) : (s.bumpReg a n).objs = s.objs := rfl
@[simp] theorem bumpReg_copies (a n : Nat) : (s.bumpReg a n).copies = s.copies := rfl
@[simp] theorem bumpReg_spills (a n : Nat) : (s.bumpReg a n).spills = s.spills := rfl
@[simp] theorem bumpReg_chans (a n : Nat) : (s.bumpReg a n).chans = s.chans := rfl
@[simp] theorem bumpReg_apers (a n : Nat) : (s.bumpReg a n).apers = s.apers := rfl
@[simp] theorem bumpReg_stageQ (a n : Nat) : (s.bumpReg a n).stageQ = s.stageQ := rfl
@[simp] theorem bumpReg_h2b (a n : Nat) : (s.bumpReg a n).h2b = s.h2b := rfl
@[simp] theorem bumpReg_b2h (a n : Nat) : (s.bumpReg a n).b2h = s.b2h := rfl
@[simp] theorem bumpReg_md (a n : Nat) : (s.bumpReg a n).md = s.md := rfl
@[simp] theorem bumpReg_isl (a n : Nat) : (s.bumpReg a n).isl = s.isl := rfl
@[simp] theorem bumpReg_rcv (a n : Nat) : (s.bumpReg a n).rcv = s.rcv := rfl
@[simp] theorem bumpReg_fse (a n : Nat) : (s.bumpReg a n).fse = s.fse := rfl
@[simp] theorem bumpReg_esp (a n : Nat) : (s.bumpReg a n).esp = s.esp := rfl
@[simp] theorem bumpReg_gov (a n : Nat) : (s.bumpReg a n).gov = s.gov := rfl
@[simp] theorem bumpReg_brd (a n : Nat) : (s.bumpReg a n).brd = s.brd := rfl
@[simp] theorem bumpReg_wire (a n : Nat) : (s.bumpReg a n).wire = s.wire := rfl
@[simp] theorem bumpReg_od_of (a n : Nat) (p q r : Nat) : (s.bumpReg a n).od p q r = s.od p q r := rfl
@[simp] theorem bumpReg_ctx_of (a n : Nat) (p : Nat) : (s.bumpReg a n).ctx p = s.ctx p := rfl
@[simp] theorem bumpReg_desc_of (a n : Nat) (p : Nat) : (s.bumpReg a n).desc? p = s.desc? p := rfl
@[simp] theorem bumpReg_obj_of (a n : Nat) (p : Nat) : (s.bumpReg a n).obj p = s.obj p := rfl
@[simp] theorem bumpReg_core_of (a n : Nat) (p : Nat) : (s.bumpReg a n).core p = s.core p := rfl
@[simp] theorem bumpReg_clu_of (a n : Nat) (p : Nat) : (s.bumpReg a n).clu p = s.clu p := rfl
@[simp] theorem bumpReg_die_of (a n : Nat) (p : Nat) : (s.bumpReg a n).die p = s.die p := rfl
@[simp] theorem bumpReg_chan_of (a n : Nat) (p : Nat) : (s.bumpReg a n).chan p = s.chan p := rfl
@[simp] theorem bumpReg_aper_of (a n : Nat) (p : Nat) : (s.bumpReg a n).aper p = s.aper p := rfl
@[simp] theorem bumpReg_page_of (a n : Nat) (p : Nat) : (s.bumpReg a n).page p = s.page p := rfl
@[simp] theorem bumpReg_strm_of (a n : Nat) (p : Nat) : (s.bumpReg a n).strm p = s.strm p := rfl
@[simp] theorem bumpReg_sdMap_of (a n : Nat) (p : Nat) : (s.bumpReg a n).sdMap p = s.sdMap p := rfl
@[simp] theorem bumpReg_link_of (a n : Nat) (p : Nat) : (s.bumpReg a n).link p = s.link p := rfl

/-! ### `setCtx` -/

@[simp] theorem setCtx_pending (n : Nat) (x : Ctx) : (s.setCtx n x).pending = s.pending := rfl
@[simp] theorem setCtx_free (n : Nat) (x : Ctx) : (s.setCtx n x).free = s.free := rfl
@[simp] theorem setCtx_mem (n : Nat) (x : Ctx) : (s.setCtx n x).mem = s.mem := rfl
@[simp] theorem setCtx_flash (n : Nat) (x : Ctx) : (s.setCtx n x).flash = s.flash := rfl
@[simp] theorem setCtx_dict (n : Nat) (x : Ctx) : (s.setCtx n x).dict = s.dict := rfl
@[simp] theorem setCtx_regs (n : Nat) (x : Ctx) : (s.setCtx n x).regs = s.regs := rfl
@[simp] theorem setCtx_descs (n : Nat) (x : Ctx) : (s.setCtx n x).descs = s.descs := rfl
@[simp] theorem setCtx_nextId (n : Nat) (x : Ctx) : (s.setCtx n x).nextId = s.nextId := rfl
@[simp] theorem setCtx_cores (n : Nat) (x : Ctx) : (s.setCtx n x).cores = s.cores := rfl
@[simp] theorem setCtx_clus (n : Nat) (x : Ctx) : (s.setCtx n x).clus = s.clus := rfl
@[simp] theorem setCtx_dies (n : Nat) (x : Ctx) : (s.setCtx n x).dies = s.dies := rfl
@[simp] theorem setCtx_links (n : Nat) (x : Ctx) : (s.setCtx n x).links = s.links := rfl
@[simp] theorem setCtx_aborts (n : Nat) (x : Ctx) : (s.setCtx n x).aborts = s.aborts := rfl
@[simp] theorem setCtx_pages (n : Nat) (x : Ctx) : (s.setCtx n x).pages = s.pages := rfl
@[simp] theorem setCtx_strs (n : Nat) (x : Ctx) : (s.setCtx n x).strs = s.strs := rfl
@[simp] theorem setCtx_maps (n : Nat) (x : Ctx) : (s.setCtx n x).maps = s.maps := rfl
@[simp] theorem setCtx_objs (n : Nat) (x : Ctx) : (s.setCtx n x).objs = s.objs := rfl
@[simp] theorem setCtx_copies (n : Nat) (x : Ctx) : (s.setCtx n x).copies = s.copies := rfl
@[simp] theorem setCtx_spills (n : Nat) (x : Ctx) : (s.setCtx n x).spills = s.spills := rfl
@[simp] theorem setCtx_chans (n : Nat) (x : Ctx) : (s.setCtx n x).chans = s.chans := rfl
@[simp] theorem setCtx_apers (n : Nat) (x : Ctx) : (s.setCtx n x).apers = s.apers := rfl
@[simp] theorem setCtx_stageQ (n : Nat) (x : Ctx) : (s.setCtx n x).stageQ = s.stageQ := rfl
@[simp] theorem setCtx_h2b (n : Nat) (x : Ctx) : (s.setCtx n x).h2b = s.h2b := rfl
@[simp] theorem setCtx_b2h (n : Nat) (x : Ctx) : (s.setCtx n x).b2h = s.b2h := rfl
@[simp] theorem setCtx_md (n : Nat) (x : Ctx) : (s.setCtx n x).md = s.md := rfl
@[simp] theorem setCtx_isl (n : Nat) (x : Ctx) : (s.setCtx n x).isl = s.isl := rfl
@[simp] theorem setCtx_rcv (n : Nat) (x : Ctx) : (s.setCtx n x).rcv = s.rcv := rfl
@[simp] theorem setCtx_fse (n : Nat) (x : Ctx) : (s.setCtx n x).fse = s.fse := rfl
@[simp] theorem setCtx_esp (n : Nat) (x : Ctx) : (s.setCtx n x).esp = s.esp := rfl
@[simp] theorem setCtx_gov (n : Nat) (x : Ctx) : (s.setCtx n x).gov = s.gov := rfl
@[simp] theorem setCtx_brd (n : Nat) (x : Ctx) : (s.setCtx n x).brd = s.brd := rfl
@[simp] theorem setCtx_wire (n : Nat) (x : Ctx) : (s.setCtx n x).wire = s.wire := rfl
@[simp] theorem setCtx_od_of (n : Nat) (x : Ctx) (p q r : Nat) : (s.setCtx n x).od p q r = s.od p q r := rfl
@[simp] theorem setCtx_reg_of (n : Nat) (x : Ctx) (p : Nat) : (s.setCtx n x).reg p = s.reg p := rfl
@[simp] theorem setCtx_desc_of (n : Nat) (x : Ctx) (p : Nat) : (s.setCtx n x).desc? p = s.desc? p := rfl
@[simp] theorem setCtx_obj_of (n : Nat) (x : Ctx) (p : Nat) : (s.setCtx n x).obj p = s.obj p := rfl
@[simp] theorem setCtx_core_of (n : Nat) (x : Ctx) (p : Nat) : (s.setCtx n x).core p = s.core p := rfl
@[simp] theorem setCtx_clu_of (n : Nat) (x : Ctx) (p : Nat) : (s.setCtx n x).clu p = s.clu p := rfl
@[simp] theorem setCtx_die_of (n : Nat) (x : Ctx) (p : Nat) : (s.setCtx n x).die p = s.die p := rfl
@[simp] theorem setCtx_chan_of (n : Nat) (x : Ctx) (p : Nat) : (s.setCtx n x).chan p = s.chan p := rfl
@[simp] theorem setCtx_aper_of (n : Nat) (x : Ctx) (p : Nat) : (s.setCtx n x).aper p = s.aper p := rfl
@[simp] theorem setCtx_page_of (n : Nat) (x : Ctx) (p : Nat) : (s.setCtx n x).page p = s.page p := rfl
@[simp] theorem setCtx_strm_of (n : Nat) (x : Ctx) (p : Nat) : (s.setCtx n x).strm p = s.strm p := rfl
@[simp] theorem setCtx_sdMap_of (n : Nat) (x : Ctx) (p : Nat) : (s.setCtx n x).sdMap p = s.sdMap p := rfl
@[simp] theorem setCtx_link_of (n : Nat) (x : Ctx) (p : Nat) : (s.setCtx n x).link p = s.link p := rfl

/-! ### `setPage` -/

@[simp] theorem setPage_pending (n : Nat) (x : Page) : (s.setPage n x).pending = s.pending := rfl
@[simp] theorem setPage_free (n : Nat) (x : Page) : (s.setPage n x).free = s.free := rfl
@[simp] theorem setPage_mem (n : Nat) (x : Page) : (s.setPage n x).mem = s.mem := rfl
@[simp] theorem setPage_flash (n : Nat) (x : Page) : (s.setPage n x).flash = s.flash := rfl
@[simp] theorem setPage_dict (n : Nat) (x : Page) : (s.setPage n x).dict = s.dict := rfl
@[simp] theorem setPage_regs (n : Nat) (x : Page) : (s.setPage n x).regs = s.regs := rfl
@[simp] theorem setPage_descs (n : Nat) (x : Page) : (s.setPage n x).descs = s.descs := rfl
@[simp] theorem setPage_nextId (n : Nat) (x : Page) : (s.setPage n x).nextId = s.nextId := rfl
@[simp] theorem setPage_ctxs (n : Nat) (x : Page) : (s.setPage n x).ctxs = s.ctxs := rfl
@[simp] theorem setPage_cores (n : Nat) (x : Page) : (s.setPage n x).cores = s.cores := rfl
@[simp] theorem setPage_clus (n : Nat) (x : Page) : (s.setPage n x).clus = s.clus := rfl
@[simp] theorem setPage_dies (n : Nat) (x : Page) : (s.setPage n x).dies = s.dies := rfl
@[simp] theorem setPage_links (n : Nat) (x : Page) : (s.setPage n x).links = s.links := rfl
@[simp] theorem setPage_aborts (n : Nat) (x : Page) : (s.setPage n x).aborts = s.aborts := rfl
@[simp] theorem setPage_strs (n : Nat) (x : Page) : (s.setPage n x).strs = s.strs := rfl
@[simp] theorem setPage_maps (n : Nat) (x : Page) : (s.setPage n x).maps = s.maps := rfl
@[simp] theorem setPage_objs (n : Nat) (x : Page) : (s.setPage n x).objs = s.objs := rfl
@[simp] theorem setPage_copies (n : Nat) (x : Page) : (s.setPage n x).copies = s.copies := rfl
@[simp] theorem setPage_spills (n : Nat) (x : Page) : (s.setPage n x).spills = s.spills := rfl
@[simp] theorem setPage_chans (n : Nat) (x : Page) : (s.setPage n x).chans = s.chans := rfl
@[simp] theorem setPage_apers (n : Nat) (x : Page) : (s.setPage n x).apers = s.apers := rfl
@[simp] theorem setPage_stageQ (n : Nat) (x : Page) : (s.setPage n x).stageQ = s.stageQ := rfl
@[simp] theorem setPage_h2b (n : Nat) (x : Page) : (s.setPage n x).h2b = s.h2b := rfl
@[simp] theorem setPage_b2h (n : Nat) (x : Page) : (s.setPage n x).b2h = s.b2h := rfl
@[simp] theorem setPage_md (n : Nat) (x : Page) : (s.setPage n x).md = s.md := rfl
@[simp] theorem setPage_isl (n : Nat) (x : Page) : (s.setPage n x).isl = s.isl := rfl
@[simp] theorem setPage_rcv (n : Nat) (x : Page) : (s.setPage n x).rcv = s.rcv := rfl
@[simp] theorem setPage_fse (n : Nat) (x : Page) : (s.setPage n x).fse = s.fse := rfl
@[simp] theorem setPage_esp (n : Nat) (x : Page) : (s.setPage n x).esp = s.esp := rfl
@[simp] theorem setPage_gov (n : Nat) (x : Page) : (s.setPage n x).gov = s.gov := rfl
@[simp] theorem setPage_brd (n : Nat) (x : Page) : (s.setPage n x).brd = s.brd := rfl
@[simp] theorem setPage_wire (n : Nat) (x : Page) : (s.setPage n x).wire = s.wire := rfl
@[simp] theorem setPage_od_of (n : Nat) (x : Page) (p q r : Nat) : (s.setPage n x).od p q r = s.od p q r := rfl
@[simp] theorem setPage_reg_of (n : Nat) (x : Page) (p : Nat) : (s.setPage n x).reg p = s.reg p := rfl
@[simp] theorem setPage_ctx_of (n : Nat) (x : Page) (p : Nat) : (s.setPage n x).ctx p = s.ctx p := rfl
@[simp] theorem setPage_desc_of (n : Nat) (x : Page) (p : Nat) : (s.setPage n x).desc? p = s.desc? p := rfl
@[simp] theorem setPage_obj_of (n : Nat) (x : Page) (p : Nat) : (s.setPage n x).obj p = s.obj p := rfl
@[simp] theorem setPage_core_of (n : Nat) (x : Page) (p : Nat) : (s.setPage n x).core p = s.core p := rfl
@[simp] theorem setPage_clu_of (n : Nat) (x : Page) (p : Nat) : (s.setPage n x).clu p = s.clu p := rfl
@[simp] theorem setPage_die_of (n : Nat) (x : Page) (p : Nat) : (s.setPage n x).die p = s.die p := rfl
@[simp] theorem setPage_chan_of (n : Nat) (x : Page) (p : Nat) : (s.setPage n x).chan p = s.chan p := rfl
@[simp] theorem setPage_aper_of (n : Nat) (x : Page) (p : Nat) : (s.setPage n x).aper p = s.aper p := rfl
@[simp] theorem setPage_strm_of (n : Nat) (x : Page) (p : Nat) : (s.setPage n x).strm p = s.strm p := rfl
@[simp] theorem setPage_sdMap_of (n : Nat) (x : Page) (p : Nat) : (s.setPage n x).sdMap p = s.sdMap p := rfl
@[simp] theorem setPage_link_of (n : Nat) (x : Page) (p : Nat) : (s.setPage n x).link p = s.link p := rfl

/-! ### `setStrm` -/

@[simp] theorem setStrm_pending (n : Nat) (x : Strm) : (s.setStrm n x).pending = s.pending := rfl
@[simp] theorem setStrm_free (n : Nat) (x : Strm) : (s.setStrm n x).free = s.free := rfl
@[simp] theorem setStrm_mem (n : Nat) (x : Strm) : (s.setStrm n x).mem = s.mem := rfl
@[simp] theorem setStrm_flash (n : Nat) (x : Strm) : (s.setStrm n x).flash = s.flash := rfl
@[simp] theorem setStrm_dict (n : Nat) (x : Strm) : (s.setStrm n x).dict = s.dict := rfl
@[simp] theorem setStrm_regs (n : Nat) (x : Strm) : (s.setStrm n x).regs = s.regs := rfl
@[simp] theorem setStrm_descs (n : Nat) (x : Strm) : (s.setStrm n x).descs = s.descs := rfl
@[simp] theorem setStrm_nextId (n : Nat) (x : Strm) : (s.setStrm n x).nextId = s.nextId := rfl
@[simp] theorem setStrm_ctxs (n : Nat) (x : Strm) : (s.setStrm n x).ctxs = s.ctxs := rfl
@[simp] theorem setStrm_cores (n : Nat) (x : Strm) : (s.setStrm n x).cores = s.cores := rfl
@[simp] theorem setStrm_clus (n : Nat) (x : Strm) : (s.setStrm n x).clus = s.clus := rfl
@[simp] theorem setStrm_dies (n : Nat) (x : Strm) : (s.setStrm n x).dies = s.dies := rfl
@[simp] theorem setStrm_links (n : Nat) (x : Strm) : (s.setStrm n x).links = s.links := rfl
@[simp] theorem setStrm_aborts (n : Nat) (x : Strm) : (s.setStrm n x).aborts = s.aborts := rfl
@[simp] theorem setStrm_pages (n : Nat) (x : Strm) : (s.setStrm n x).pages = s.pages := rfl
@[simp] theorem setStrm_maps (n : Nat) (x : Strm) : (s.setStrm n x).maps = s.maps := rfl
@[simp] theorem setStrm_objs (n : Nat) (x : Strm) : (s.setStrm n x).objs = s.objs := rfl
@[simp] theorem setStrm_copies (n : Nat) (x : Strm) : (s.setStrm n x).copies = s.copies := rfl
@[simp] theorem setStrm_spills (n : Nat) (x : Strm) : (s.setStrm n x).spills = s.spills := rfl
@[simp] theorem setStrm_chans (n : Nat) (x : Strm) : (s.setStrm n x).chans = s.chans := rfl
@[simp] theorem setStrm_apers (n : Nat) (x : Strm) : (s.setStrm n x).apers = s.apers := rfl
@[simp] theorem setStrm_stageQ (n : Nat) (x : Strm) : (s.setStrm n x).stageQ = s.stageQ := rfl
@[simp] theorem setStrm_h2b (n : Nat) (x : Strm) : (s.setStrm n x).h2b = s.h2b := rfl
@[simp] theorem setStrm_b2h (n : Nat) (x : Strm) : (s.setStrm n x).b2h = s.b2h := rfl
@[simp] theorem setStrm_md (n : Nat) (x : Strm) : (s.setStrm n x).md = s.md := rfl
@[simp] theorem setStrm_isl (n : Nat) (x : Strm) : (s.setStrm n x).isl = s.isl := rfl
@[simp] theorem setStrm_rcv (n : Nat) (x : Strm) : (s.setStrm n x).rcv = s.rcv := rfl
@[simp] theorem setStrm_fse (n : Nat) (x : Strm) : (s.setStrm n x).fse = s.fse := rfl
@[simp] theorem setStrm_esp (n : Nat) (x : Strm) : (s.setStrm n x).esp = s.esp := rfl
@[simp] theorem setStrm_gov (n : Nat) (x : Strm) : (s.setStrm n x).gov = s.gov := rfl
@[simp] theorem setStrm_brd (n : Nat) (x : Strm) : (s.setStrm n x).brd = s.brd := rfl
@[simp] theorem setStrm_wire (n : Nat) (x : Strm) : (s.setStrm n x).wire = s.wire := rfl
@[simp] theorem setStrm_od_of (n : Nat) (x : Strm) (p q r : Nat) : (s.setStrm n x).od p q r = s.od p q r := rfl
@[simp] theorem setStrm_reg_of (n : Nat) (x : Strm) (p : Nat) : (s.setStrm n x).reg p = s.reg p := rfl
@[simp] theorem setStrm_ctx_of (n : Nat) (x : Strm) (p : Nat) : (s.setStrm n x).ctx p = s.ctx p := rfl
@[simp] theorem setStrm_desc_of (n : Nat) (x : Strm) (p : Nat) : (s.setStrm n x).desc? p = s.desc? p := rfl
@[simp] theorem setStrm_obj_of (n : Nat) (x : Strm) (p : Nat) : (s.setStrm n x).obj p = s.obj p := rfl
@[simp] theorem setStrm_core_of (n : Nat) (x : Strm) (p : Nat) : (s.setStrm n x).core p = s.core p := rfl
@[simp] theorem setStrm_clu_of (n : Nat) (x : Strm) (p : Nat) : (s.setStrm n x).clu p = s.clu p := rfl
@[simp] theorem setStrm_die_of (n : Nat) (x : Strm) (p : Nat) : (s.setStrm n x).die p = s.die p := rfl
@[simp] theorem setStrm_chan_of (n : Nat) (x : Strm) (p : Nat) : (s.setStrm n x).chan p = s.chan p := rfl
@[simp] theorem setStrm_aper_of (n : Nat) (x : Strm) (p : Nat) : (s.setStrm n x).aper p = s.aper p := rfl
@[simp] theorem setStrm_page_of (n : Nat) (x : Strm) (p : Nat) : (s.setStrm n x).page p = s.page p := rfl
@[simp] theorem setStrm_sdMap_of (n : Nat) (x : Strm) (p : Nat) : (s.setStrm n x).sdMap p = s.sdMap p := rfl
@[simp] theorem setStrm_link_of (n : Nat) (x : Strm) (p : Nat) : (s.setStrm n x).link p = s.link p := rfl

/-! ### `setMap` -/

@[simp] theorem setMap_pending (n : Nat) (x : SdMap) : (s.setMap n x).pending = s.pending := rfl
@[simp] theorem setMap_free (n : Nat) (x : SdMap) : (s.setMap n x).free = s.free := rfl
@[simp] theorem setMap_mem (n : Nat) (x : SdMap) : (s.setMap n x).mem = s.mem := rfl
@[simp] theorem setMap_flash (n : Nat) (x : SdMap) : (s.setMap n x).flash = s.flash := rfl
@[simp] theorem setMap_dict (n : Nat) (x : SdMap) : (s.setMap n x).dict = s.dict := rfl
@[simp] theorem setMap_regs (n : Nat) (x : SdMap) : (s.setMap n x).regs = s.regs := rfl
@[simp] theorem setMap_descs (n : Nat) (x : SdMap) : (s.setMap n x).descs = s.descs := rfl
@[simp] theorem setMap_nextId (n : Nat) (x : SdMap) : (s.setMap n x).nextId = s.nextId := rfl
@[simp] theorem setMap_ctxs (n : Nat) (x : SdMap) : (s.setMap n x).ctxs = s.ctxs := rfl
@[simp] theorem setMap_cores (n : Nat) (x : SdMap) : (s.setMap n x).cores = s.cores := rfl
@[simp] theorem setMap_clus (n : Nat) (x : SdMap) : (s.setMap n x).clus = s.clus := rfl
@[simp] theorem setMap_dies (n : Nat) (x : SdMap) : (s.setMap n x).dies = s.dies := rfl
@[simp] theorem setMap_links (n : Nat) (x : SdMap) : (s.setMap n x).links = s.links := rfl
@[simp] theorem setMap_aborts (n : Nat) (x : SdMap) : (s.setMap n x).aborts = s.aborts := rfl
@[simp] theorem setMap_pages (n : Nat) (x : SdMap) : (s.setMap n x).pages = s.pages := rfl
@[simp] theorem setMap_strs (n : Nat) (x : SdMap) : (s.setMap n x).strs = s.strs := rfl
@[simp] theorem setMap_objs (n : Nat) (x : SdMap) : (s.setMap n x).objs = s.objs := rfl
@[simp] theorem setMap_copies (n : Nat) (x : SdMap) : (s.setMap n x).copies = s.copies := rfl
@[simp] theorem setMap_spills (n : Nat) (x : SdMap) : (s.setMap n x).spills = s.spills := rfl
@[simp] theorem setMap_chans (n : Nat) (x : SdMap) : (s.setMap n x).chans = s.chans := rfl
@[simp] theorem setMap_apers (n : Nat) (x : SdMap) : (s.setMap n x).apers = s.apers := rfl
@[simp] theorem setMap_stageQ (n : Nat) (x : SdMap) : (s.setMap n x).stageQ = s.stageQ := rfl
@[simp] theorem setMap_h2b (n : Nat) (x : SdMap) : (s.setMap n x).h2b = s.h2b := rfl
@[simp] theorem setMap_b2h (n : Nat) (x : SdMap) : (s.setMap n x).b2h = s.b2h := rfl
@[simp] theorem setMap_md (n : Nat) (x : SdMap) : (s.setMap n x).md = s.md := rfl
@[simp] theorem setMap_isl (n : Nat) (x : SdMap) : (s.setMap n x).isl = s.isl := rfl
@[simp] theorem setMap_rcv (n : Nat) (x : SdMap) : (s.setMap n x).rcv = s.rcv := rfl
@[simp] theorem setMap_fse (n : Nat) (x : SdMap) : (s.setMap n x).fse = s.fse := rfl
@[simp] theorem setMap_esp (n : Nat) (x : SdMap) : (s.setMap n x).esp = s.esp := rfl
@[simp] theorem setMap_gov (n : Nat) (x : SdMap) : (s.setMap n x).gov = s.gov := rfl
@[simp] theorem setMap_brd (n : Nat) (x : SdMap) : (s.setMap n x).brd = s.brd := rfl
@[simp] theorem setMap_wire (n : Nat) (x : SdMap) : (s.setMap n x).wire = s.wire := rfl
@[simp] theorem setMap_od_of (n : Nat) (x : SdMap) (p q r : Nat) : (s.setMap n x).od p q r = s.od p q r := rfl
@[simp] theorem setMap_reg_of (n : Nat) (x : SdMap) (p : Nat) : (s.setMap n x).reg p = s.reg p := rfl
@[simp] theorem setMap_ctx_of (n : Nat) (x : SdMap) (p : Nat) : (s.setMap n x).ctx p = s.ctx p := rfl
@[simp] theorem setMap_desc_of (n : Nat) (x : SdMap) (p : Nat) : (s.setMap n x).desc? p = s.desc? p := rfl
@[simp] theorem setMap_obj_of (n : Nat) (x : SdMap) (p : Nat) : (s.setMap n x).obj p = s.obj p := rfl
@[simp] theorem setMap_core_of (n : Nat) (x : SdMap) (p : Nat) : (s.setMap n x).core p = s.core p := rfl
@[simp] theorem setMap_clu_of (n : Nat) (x : SdMap) (p : Nat) : (s.setMap n x).clu p = s.clu p := rfl
@[simp] theorem setMap_die_of (n : Nat) (x : SdMap) (p : Nat) : (s.setMap n x).die p = s.die p := rfl
@[simp] theorem setMap_chan_of (n : Nat) (x : SdMap) (p : Nat) : (s.setMap n x).chan p = s.chan p := rfl
@[simp] theorem setMap_aper_of (n : Nat) (x : SdMap) (p : Nat) : (s.setMap n x).aper p = s.aper p := rfl
@[simp] theorem setMap_page_of (n : Nat) (x : SdMap) (p : Nat) : (s.setMap n x).page p = s.page p := rfl
@[simp] theorem setMap_strm_of (n : Nat) (x : SdMap) (p : Nat) : (s.setMap n x).strm p = s.strm p := rfl
@[simp] theorem setMap_link_of (n : Nat) (x : SdMap) (p : Nat) : (s.setMap n x).link p = s.link p := rfl

/-! ### `setObj` -/

@[simp] theorem setObj_pending (n : Nat) (x : Obj) : (s.setObj n x).pending = s.pending := rfl
@[simp] theorem setObj_free (n : Nat) (x : Obj) : (s.setObj n x).free = s.free := rfl
@[simp] theorem setObj_mem (n : Nat) (x : Obj) : (s.setObj n x).mem = s.mem := rfl
@[simp] theorem setObj_flash (n : Nat) (x : Obj) : (s.setObj n x).flash = s.flash := rfl
@[simp] theorem setObj_dict (n : Nat) (x : Obj) : (s.setObj n x).dict = s.dict := rfl
@[simp] theorem setObj_regs (n : Nat) (x : Obj) : (s.setObj n x).regs = s.regs := rfl
@[simp] theorem setObj_descs (n : Nat) (x : Obj) : (s.setObj n x).descs = s.descs := rfl
@[simp] theorem setObj_nextId (n : Nat) (x : Obj) : (s.setObj n x).nextId = s.nextId := rfl
@[simp] theorem setObj_ctxs (n : Nat) (x : Obj) : (s.setObj n x).ctxs = s.ctxs := rfl
@[simp] theorem setObj_cores (n : Nat) (x : Obj) : (s.setObj n x).cores = s.cores := rfl
@[simp] theorem setObj_clus (n : Nat) (x : Obj) : (s.setObj n x).clus = s.clus := rfl
@[simp] theorem setObj_dies (n : Nat) (x : Obj) : (s.setObj n x).dies = s.dies := rfl
@[simp] theorem setObj_links (n : Nat) (x : Obj) : (s.setObj n x).links = s.links := rfl
@[simp] theorem setObj_aborts (n : Nat) (x : Obj) : (s.setObj n x).aborts = s.aborts := rfl
@[simp] theorem setObj_pages (n : Nat) (x : Obj) : (s.setObj n x).pages = s.pages := rfl
@[simp] theorem setObj_strs (n : Nat) (x : Obj) : (s.setObj n x).strs = s.strs := rfl
@[simp] theorem setObj_maps (n : Nat) (x : Obj) : (s.setObj n x).maps = s.maps := rfl
@[simp] theorem setObj_copies (n : Nat) (x : Obj) : (s.setObj n x).copies = s.copies := rfl
@[simp] theorem setObj_spills (n : Nat) (x : Obj) : (s.setObj n x).spills = s.spills := rfl
@[simp] theorem setObj_chans (n : Nat) (x : Obj) : (s.setObj n x).chans = s.chans := rfl
@[simp] theorem setObj_apers (n : Nat) (x : Obj) : (s.setObj n x).apers = s.apers := rfl
@[simp] theorem setObj_stageQ (n : Nat) (x : Obj) : (s.setObj n x).stageQ = s.stageQ := rfl
@[simp] theorem setObj_h2b (n : Nat) (x : Obj) : (s.setObj n x).h2b = s.h2b := rfl
@[simp] theorem setObj_b2h (n : Nat) (x : Obj) : (s.setObj n x).b2h = s.b2h := rfl
@[simp] theorem setObj_md (n : Nat) (x : Obj) : (s.setObj n x).md = s.md := rfl
@[simp] theorem setObj_isl (n : Nat) (x : Obj) : (s.setObj n x).isl = s.isl := rfl
@[simp] theorem setObj_rcv (n : Nat) (x : Obj) : (s.setObj n x).rcv = s.rcv := rfl
@[simp] theorem setObj_fse (n : Nat) (x : Obj) : (s.setObj n x).fse = s.fse := rfl
@[simp] theorem setObj_esp (n : Nat) (x : Obj) : (s.setObj n x).esp = s.esp := rfl
@[simp] theorem setObj_gov (n : Nat) (x : Obj) : (s.setObj n x).gov = s.gov := rfl
@[simp] theorem setObj_brd (n : Nat) (x : Obj) : (s.setObj n x).brd = s.brd := rfl
@[simp] theorem setObj_wire (n : Nat) (x : Obj) : (s.setObj n x).wire = s.wire := rfl
@[simp] theorem setObj_od_of (n : Nat) (x : Obj) (p q r : Nat) : (s.setObj n x).od p q r = s.od p q r := rfl
@[simp] theorem setObj_reg_of (n : Nat) (x : Obj) (p : Nat) : (s.setObj n x).reg p = s.reg p := rfl
@[simp] theorem setObj_ctx_of (n : Nat) (x : Obj) (p : Nat) : (s.setObj n x).ctx p = s.ctx p := rfl
@[simp] theorem setObj_desc_of (n : Nat) (x : Obj) (p : Nat) : (s.setObj n x).desc? p = s.desc? p := rfl
@[simp] theorem setObj_core_of (n : Nat) (x : Obj) (p : Nat) : (s.setObj n x).core p = s.core p := rfl
@[simp] theorem setObj_clu_of (n : Nat) (x : Obj) (p : Nat) : (s.setObj n x).clu p = s.clu p := rfl
@[simp] theorem setObj_die_of (n : Nat) (x : Obj) (p : Nat) : (s.setObj n x).die p = s.die p := rfl
@[simp] theorem setObj_chan_of (n : Nat) (x : Obj) (p : Nat) : (s.setObj n x).chan p = s.chan p := rfl
@[simp] theorem setObj_aper_of (n : Nat) (x : Obj) (p : Nat) : (s.setObj n x).aper p = s.aper p := rfl
@[simp] theorem setObj_page_of (n : Nat) (x : Obj) (p : Nat) : (s.setObj n x).page p = s.page p := rfl
@[simp] theorem setObj_strm_of (n : Nat) (x : Obj) (p : Nat) : (s.setObj n x).strm p = s.strm p := rfl
@[simp] theorem setObj_sdMap_of (n : Nat) (x : Obj) (p : Nat) : (s.setObj n x).sdMap p = s.sdMap p := rfl
@[simp] theorem setObj_link_of (n : Nat) (x : Obj) (p : Nat) : (s.setObj n x).link p = s.link p := rfl

/-! ### `setCore` -/

@[simp] theorem setCore_pending (n : Nat) (x : Core) : (s.setCore n x).pending = s.pending := rfl
@[simp] theorem setCore_free (n : Nat) (x : Core) : (s.setCore n x).free = s.free := rfl
@[simp] theorem setCore_mem (n : Nat) (x : Core) : (s.setCore n x).mem = s.mem := rfl
@[simp] theorem setCore_flash (n : Nat) (x : Core) : (s.setCore n x).flash = s.flash := rfl
@[simp] theorem setCore_dict (n : Nat) (x : Core) : (s.setCore n x).dict = s.dict := rfl
@[simp] theorem setCore_regs (n : Nat) (x : Core) : (s.setCore n x).regs = s.regs := rfl
@[simp] theorem setCore_descs (n : Nat) (x : Core) : (s.setCore n x).descs = s.descs := rfl
@[simp] theorem setCore_nextId (n : Nat) (x : Core) : (s.setCore n x).nextId = s.nextId := rfl
@[simp] theorem setCore_ctxs (n : Nat) (x : Core) : (s.setCore n x).ctxs = s.ctxs := rfl
@[simp] theorem setCore_clus (n : Nat) (x : Core) : (s.setCore n x).clus = s.clus := rfl
@[simp] theorem setCore_dies (n : Nat) (x : Core) : (s.setCore n x).dies = s.dies := rfl
@[simp] theorem setCore_links (n : Nat) (x : Core) : (s.setCore n x).links = s.links := rfl
@[simp] theorem setCore_aborts (n : Nat) (x : Core) : (s.setCore n x).aborts = s.aborts := rfl
@[simp] theorem setCore_pages (n : Nat) (x : Core) : (s.setCore n x).pages = s.pages := rfl
@[simp] theorem setCore_strs (n : Nat) (x : Core) : (s.setCore n x).strs = s.strs := rfl
@[simp] theorem setCore_maps (n : Nat) (x : Core) : (s.setCore n x).maps = s.maps := rfl
@[simp] theorem setCore_objs (n : Nat) (x : Core) : (s.setCore n x).objs = s.objs := rfl
@[simp] theorem setCore_copies (n : Nat) (x : Core) : (s.setCore n x).copies = s.copies := rfl
@[simp] theorem setCore_spills (n : Nat) (x : Core) : (s.setCore n x).spills = s.spills := rfl
@[simp] theorem setCore_chans (n : Nat) (x : Core) : (s.setCore n x).chans = s.chans := rfl
@[simp] theorem setCore_apers (n : Nat) (x : Core) : (s.setCore n x).apers = s.apers := rfl
@[simp] theorem setCore_stageQ (n : Nat) (x : Core) : (s.setCore n x).stageQ = s.stageQ := rfl
@[simp] theorem setCore_h2b (n : Nat) (x : Core) : (s.setCore n x).h2b = s.h2b := rfl
@[simp] theorem setCore_b2h (n : Nat) (x : Core) : (s.setCore n x).b2h = s.b2h := rfl
@[simp] theorem setCore_md (n : Nat) (x : Core) : (s.setCore n x).md = s.md := rfl
@[simp] theorem setCore_isl (n : Nat) (x : Core) : (s.setCore n x).isl = s.isl := rfl
@[simp] theorem setCore_rcv (n : Nat) (x : Core) : (s.setCore n x).rcv = s.rcv := rfl
@[simp] theorem setCore_fse (n : Nat) (x : Core) : (s.setCore n x).fse = s.fse := rfl
@[simp] theorem setCore_esp (n : Nat) (x : Core) : (s.setCore n x).esp = s.esp := rfl
@[simp] theorem setCore_gov (n : Nat) (x : Core) : (s.setCore n x).gov = s.gov := rfl
@[simp] theorem setCore_brd (n : Nat) (x : Core) : (s.setCore n x).brd = s.brd := rfl
@[simp] theorem setCore_wire (n : Nat) (x : Core) : (s.setCore n x).wire = s.wire := rfl
@[simp] theorem setCore_od_of (n : Nat) (x : Core) (p q r : Nat) : (s.setCore n x).od p q r = s.od p q r := rfl
@[simp] theorem setCore_reg_of (n : Nat) (x : Core) (p : Nat) : (s.setCore n x).reg p = s.reg p := rfl
@[simp] theorem setCore_ctx_of (n : Nat) (x : Core) (p : Nat) : (s.setCore n x).ctx p = s.ctx p := rfl
@[simp] theorem setCore_desc_of (n : Nat) (x : Core) (p : Nat) : (s.setCore n x).desc? p = s.desc? p := rfl
@[simp] theorem setCore_obj_of (n : Nat) (x : Core) (p : Nat) : (s.setCore n x).obj p = s.obj p := rfl
@[simp] theorem setCore_clu_of (n : Nat) (x : Core) (p : Nat) : (s.setCore n x).clu p = s.clu p := rfl
@[simp] theorem setCore_die_of (n : Nat) (x : Core) (p : Nat) : (s.setCore n x).die p = s.die p := rfl
@[simp] theorem setCore_chan_of (n : Nat) (x : Core) (p : Nat) : (s.setCore n x).chan p = s.chan p := rfl
@[simp] theorem setCore_aper_of (n : Nat) (x : Core) (p : Nat) : (s.setCore n x).aper p = s.aper p := rfl
@[simp] theorem setCore_page_of (n : Nat) (x : Core) (p : Nat) : (s.setCore n x).page p = s.page p := rfl
@[simp] theorem setCore_strm_of (n : Nat) (x : Core) (p : Nat) : (s.setCore n x).strm p = s.strm p := rfl
@[simp] theorem setCore_sdMap_of (n : Nat) (x : Core) (p : Nat) : (s.setCore n x).sdMap p = s.sdMap p := rfl
@[simp] theorem setCore_link_of (n : Nat) (x : Core) (p : Nat) : (s.setCore n x).link p = s.link p := rfl

/-! ### `setClu` -/

@[simp] theorem setClu_pending (n : Nat) (x : Clus) : (s.setClu n x).pending = s.pending := rfl
@[simp] theorem setClu_free (n : Nat) (x : Clus) : (s.setClu n x).free = s.free := rfl
@[simp] theorem setClu_mem (n : Nat) (x : Clus) : (s.setClu n x).mem = s.mem := rfl
@[simp] theorem setClu_flash (n : Nat) (x : Clus) : (s.setClu n x).flash = s.flash := rfl
@[simp] theorem setClu_dict (n : Nat) (x : Clus) : (s.setClu n x).dict = s.dict := rfl
@[simp] theorem setClu_regs (n : Nat) (x : Clus) : (s.setClu n x).regs = s.regs := rfl
@[simp] theorem setClu_descs (n : Nat) (x : Clus) : (s.setClu n x).descs = s.descs := rfl
@[simp] theorem setClu_nextId (n : Nat) (x : Clus) : (s.setClu n x).nextId = s.nextId := rfl
@[simp] theorem setClu_ctxs (n : Nat) (x : Clus) : (s.setClu n x).ctxs = s.ctxs := rfl
@[simp] theorem setClu_cores (n : Nat) (x : Clus) : (s.setClu n x).cores = s.cores := rfl
@[simp] theorem setClu_dies (n : Nat) (x : Clus) : (s.setClu n x).dies = s.dies := rfl
@[simp] theorem setClu_links (n : Nat) (x : Clus) : (s.setClu n x).links = s.links := rfl
@[simp] theorem setClu_aborts (n : Nat) (x : Clus) : (s.setClu n x).aborts = s.aborts := rfl
@[simp] theorem setClu_pages (n : Nat) (x : Clus) : (s.setClu n x).pages = s.pages := rfl
@[simp] theorem setClu_strs (n : Nat) (x : Clus) : (s.setClu n x).strs = s.strs := rfl
@[simp] theorem setClu_maps (n : Nat) (x : Clus) : (s.setClu n x).maps = s.maps := rfl
@[simp] theorem setClu_objs (n : Nat) (x : Clus) : (s.setClu n x).objs = s.objs := rfl
@[simp] theorem setClu_copies (n : Nat) (x : Clus) : (s.setClu n x).copies = s.copies := rfl
@[simp] theorem setClu_spills (n : Nat) (x : Clus) : (s.setClu n x).spills = s.spills := rfl
@[simp] theorem setClu_chans (n : Nat) (x : Clus) : (s.setClu n x).chans = s.chans := rfl
@[simp] theorem setClu_apers (n : Nat) (x : Clus) : (s.setClu n x).apers = s.apers := rfl
@[simp] theorem setClu_stageQ (n : Nat) (x : Clus) : (s.setClu n x).stageQ = s.stageQ := rfl
@[simp] theorem setClu_h2b (n : Nat) (x : Clus) : (s.setClu n x).h2b = s.h2b := rfl
@[simp] theorem setClu_b2h (n : Nat) (x : Clus) : (s.setClu n x).b2h = s.b2h := rfl
@[simp] theorem setClu_md (n : Nat) (x : Clus) : (s.setClu n x).md = s.md := rfl
@[simp] theorem setClu_isl (n : Nat) (x : Clus) : (s.setClu n x).isl = s.isl := rfl
@[simp] theorem setClu_rcv (n : Nat) (x : Clus) : (s.setClu n x).rcv = s.rcv := rfl
@[simp] theorem setClu_fse (n : Nat) (x : Clus) : (s.setClu n x).fse = s.fse := rfl
@[simp] theorem setClu_esp (n : Nat) (x : Clus) : (s.setClu n x).esp = s.esp := rfl
@[simp] theorem setClu_gov (n : Nat) (x : Clus) : (s.setClu n x).gov = s.gov := rfl
@[simp] theorem setClu_brd (n : Nat) (x : Clus) : (s.setClu n x).brd = s.brd := rfl
@[simp] theorem setClu_wire (n : Nat) (x : Clus) : (s.setClu n x).wire = s.wire := rfl
@[simp] theorem setClu_od_of (n : Nat) (x : Clus) (p q r : Nat) : (s.setClu n x).od p q r = s.od p q r := rfl
@[simp] theorem setClu_reg_of (n : Nat) (x : Clus) (p : Nat) : (s.setClu n x).reg p = s.reg p := rfl
@[simp] theorem setClu_ctx_of (n : Nat) (x : Clus) (p : Nat) : (s.setClu n x).ctx p = s.ctx p := rfl
@[simp] theorem setClu_desc_of (n : Nat) (x : Clus) (p : Nat) : (s.setClu n x).desc? p = s.desc? p := rfl
@[simp] theorem setClu_obj_of (n : Nat) (x : Clus) (p : Nat) : (s.setClu n x).obj p = s.obj p := rfl
@[simp] theorem setClu_core_of (n : Nat) (x : Clus) (p : Nat) : (s.setClu n x).core p = s.core p := rfl
@[simp] theorem setClu_die_of (n : Nat) (x : Clus) (p : Nat) : (s.setClu n x).die p = s.die p := rfl
@[simp] theorem setClu_chan_of (n : Nat) (x : Clus) (p : Nat) : (s.setClu n x).chan p = s.chan p := rfl
@[simp] theorem setClu_aper_of (n : Nat) (x : Clus) (p : Nat) : (s.setClu n x).aper p = s.aper p := rfl
@[simp] theorem setClu_page_of (n : Nat) (x : Clus) (p : Nat) : (s.setClu n x).page p = s.page p := rfl
@[simp] theorem setClu_strm_of (n : Nat) (x : Clus) (p : Nat) : (s.setClu n x).strm p = s.strm p := rfl
@[simp] theorem setClu_sdMap_of (n : Nat) (x : Clus) (p : Nat) : (s.setClu n x).sdMap p = s.sdMap p := rfl
@[simp] theorem setClu_link_of (n : Nat) (x : Clus) (p : Nat) : (s.setClu n x).link p = s.link p := rfl

/-! ### `setDie` -/

@[simp] theorem setDie_pending (n : Nat) (x : Die) : (s.setDie n x).pending = s.pending := rfl
@[simp] theorem setDie_free (n : Nat) (x : Die) : (s.setDie n x).free = s.free := rfl
@[simp] theorem setDie_mem (n : Nat) (x : Die) : (s.setDie n x).mem = s.mem := rfl
@[simp] theorem setDie_flash (n : Nat) (x : Die) : (s.setDie n x).flash = s.flash := rfl
@[simp] theorem setDie_dict (n : Nat) (x : Die) : (s.setDie n x).dict = s.dict := rfl
@[simp] theorem setDie_regs (n : Nat) (x : Die) : (s.setDie n x).regs = s.regs := rfl
@[simp] theorem setDie_descs (n : Nat) (x : Die) : (s.setDie n x).descs = s.descs := rfl
@[simp] theorem setDie_nextId (n : Nat) (x : Die) : (s.setDie n x).nextId = s.nextId := rfl
@[simp] theorem setDie_ctxs (n : Nat) (x : Die) : (s.setDie n x).ctxs = s.ctxs := rfl
@[simp] theorem setDie_cores (n : Nat) (x : Die) : (s.setDie n x).cores = s.cores := rfl
@[simp] theorem setDie_clus (n : Nat) (x : Die) : (s.setDie n x).clus = s.clus := rfl
@[simp] theorem setDie_links (n : Nat) (x : Die) : (s.setDie n x).links = s.links := rfl
@[simp] theorem setDie_aborts (n : Nat) (x : Die) : (s.setDie n x).aborts = s.aborts := rfl
@[simp] theorem setDie_pages (n : Nat) (x : Die) : (s.setDie n x).pages = s.pages := rfl
@[simp] theorem setDie_strs (n : Nat) (x : Die) : (s.setDie n x).strs = s.strs := rfl
@[simp] theorem setDie_maps (n : Nat) (x : Die) : (s.setDie n x).maps = s.maps := rfl
@[simp] theorem setDie_objs (n : Nat) (x : Die) : (s.setDie n x).objs = s.objs := rfl
@[simp] theorem setDie_copies (n : Nat) (x : Die) : (s.setDie n x).copies = s.copies := rfl
@[simp] theorem setDie_spills (n : Nat) (x : Die) : (s.setDie n x).spills = s.spills := rfl
@[simp] theorem setDie_chans (n : Nat) (x : Die) : (s.setDie n x).chans = s.chans := rfl
@[simp] theorem setDie_apers (n : Nat) (x : Die) : (s.setDie n x).apers = s.apers := rfl
@[simp] theorem setDie_stageQ (n : Nat) (x : Die) : (s.setDie n x).stageQ = s.stageQ := rfl
@[simp] theorem setDie_h2b (n : Nat) (x : Die) : (s.setDie n x).h2b = s.h2b := rfl
@[simp] theorem setDie_b2h (n : Nat) (x : Die) : (s.setDie n x).b2h = s.b2h := rfl
@[simp] theorem setDie_md (n : Nat) (x : Die) : (s.setDie n x).md = s.md := rfl
@[simp] theorem setDie_isl (n : Nat) (x : Die) : (s.setDie n x).isl = s.isl := rfl
@[simp] theorem setDie_rcv (n : Nat) (x : Die) : (s.setDie n x).rcv = s.rcv := rfl
@[simp] theorem setDie_fse (n : Nat) (x : Die) : (s.setDie n x).fse = s.fse := rfl
@[simp] theorem setDie_esp (n : Nat) (x : Die) : (s.setDie n x).esp = s.esp := rfl
@[simp] theorem setDie_gov (n : Nat) (x : Die) : (s.setDie n x).gov = s.gov := rfl
@[simp] theorem setDie_brd (n : Nat) (x : Die) : (s.setDie n x).brd = s.brd := rfl
@[simp] theorem setDie_wire (n : Nat) (x : Die) : (s.setDie n x).wire = s.wire := rfl
@[simp] theorem setDie_od_of (n : Nat) (x : Die) (p q r : Nat) : (s.setDie n x).od p q r = s.od p q r := rfl
@[simp] theorem setDie_reg_of (n : Nat) (x : Die) (p : Nat) : (s.setDie n x).reg p = s.reg p := rfl
@[simp] theorem setDie_ctx_of (n : Nat) (x : Die) (p : Nat) : (s.setDie n x).ctx p = s.ctx p := rfl
@[simp] theorem setDie_desc_of (n : Nat) (x : Die) (p : Nat) : (s.setDie n x).desc? p = s.desc? p := rfl
@[simp] theorem setDie_obj_of (n : Nat) (x : Die) (p : Nat) : (s.setDie n x).obj p = s.obj p := rfl
@[simp] theorem setDie_core_of (n : Nat) (x : Die) (p : Nat) : (s.setDie n x).core p = s.core p := rfl
@[simp] theorem setDie_clu_of (n : Nat) (x : Die) (p : Nat) : (s.setDie n x).clu p = s.clu p := rfl
@[simp] theorem setDie_chan_of (n : Nat) (x : Die) (p : Nat) : (s.setDie n x).chan p = s.chan p := rfl
@[simp] theorem setDie_aper_of (n : Nat) (x : Die) (p : Nat) : (s.setDie n x).aper p = s.aper p := rfl
@[simp] theorem setDie_page_of (n : Nat) (x : Die) (p : Nat) : (s.setDie n x).page p = s.page p := rfl
@[simp] theorem setDie_strm_of (n : Nat) (x : Die) (p : Nat) : (s.setDie n x).strm p = s.strm p := rfl
@[simp] theorem setDie_sdMap_of (n : Nat) (x : Die) (p : Nat) : (s.setDie n x).sdMap p = s.sdMap p := rfl
@[simp] theorem setDie_link_of (n : Nat) (x : Die) (p : Nat) : (s.setDie n x).link p = s.link p := rfl

/-! ### `setLink` -/

@[simp] theorem setLink_pending (n : Nat) (x : Link) : (s.setLink n x).pending = s.pending := rfl
@[simp] theorem setLink_free (n : Nat) (x : Link) : (s.setLink n x).free = s.free := rfl
@[simp] theorem setLink_mem (n : Nat) (x : Link) : (s.setLink n x).mem = s.mem := rfl
@[simp] theorem setLink_flash (n : Nat) (x : Link) : (s.setLink n x).flash = s.flash := rfl
@[simp] theorem setLink_dict (n : Nat) (x : Link) : (s.setLink n x).dict = s.dict := rfl
@[simp] theorem setLink_regs (n : Nat) (x : Link) : (s.setLink n x).regs = s.regs := rfl
@[simp] theorem setLink_descs (n : Nat) (x : Link) : (s.setLink n x).descs = s.descs := rfl
@[simp] theorem setLink_nextId (n : Nat) (x : Link) : (s.setLink n x).nextId = s.nextId := rfl
@[simp] theorem setLink_ctxs (n : Nat) (x : Link) : (s.setLink n x).ctxs = s.ctxs := rfl
@[simp] theorem setLink_cores (n : Nat) (x : Link) : (s.setLink n x).cores = s.cores := rfl
@[simp] theorem setLink_clus (n : Nat) (x : Link) : (s.setLink n x).clus = s.clus := rfl
@[simp] theorem setLink_dies (n : Nat) (x : Link) : (s.setLink n x).dies = s.dies := rfl
@[simp] theorem setLink_aborts (n : Nat) (x : Link) : (s.setLink n x).aborts = s.aborts := rfl
@[simp] theorem setLink_pages (n : Nat) (x : Link) : (s.setLink n x).pages = s.pages := rfl
@[simp] theorem setLink_strs (n : Nat) (x : Link) : (s.setLink n x).strs = s.strs := rfl
@[simp] theorem setLink_maps (n : Nat) (x : Link) : (s.setLink n x).maps = s.maps := rfl
@[simp] theorem setLink_objs (n : Nat) (x : Link) : (s.setLink n x).objs = s.objs := rfl
@[simp] theorem setLink_copies (n : Nat) (x : Link) : (s.setLink n x).copies = s.copies := rfl
@[simp] theorem setLink_spills (n : Nat) (x : Link) : (s.setLink n x).spills = s.spills := rfl
@[simp] theorem setLink_chans (n : Nat) (x : Link) : (s.setLink n x).chans = s.chans := rfl
@[simp] theorem setLink_apers (n : Nat) (x : Link) : (s.setLink n x).apers = s.apers := rfl
@[simp] theorem setLink_stageQ (n : Nat) (x : Link) : (s.setLink n x).stageQ = s.stageQ := rfl
@[simp] theorem setLink_h2b (n : Nat) (x : Link) : (s.setLink n x).h2b = s.h2b := rfl
@[simp] theorem setLink_b2h (n : Nat) (x : Link) : (s.setLink n x).b2h = s.b2h := rfl
@[simp] theorem setLink_md (n : Nat) (x : Link) : (s.setLink n x).md = s.md := rfl
@[simp] theorem setLink_isl (n : Nat) (x : Link) : (s.setLink n x).isl = s.isl := rfl
@[simp] theorem setLink_rcv (n : Nat) (x : Link) : (s.setLink n x).rcv = s.rcv := rfl
@[simp] theorem setLink_fse (n : Nat) (x : Link) : (s.setLink n x).fse = s.fse := rfl
@[simp] theorem setLink_esp (n : Nat) (x : Link) : (s.setLink n x).esp = s.esp := rfl
@[simp] theorem setLink_gov (n : Nat) (x : Link) : (s.setLink n x).gov = s.gov := rfl
@[simp] theorem setLink_brd (n : Nat) (x : Link) : (s.setLink n x).brd = s.brd := rfl
@[simp] theorem setLink_wire (n : Nat) (x : Link) : (s.setLink n x).wire = s.wire := rfl
@[simp] theorem setLink_od_of (n : Nat) (x : Link) (p q r : Nat) : (s.setLink n x).od p q r = s.od p q r := rfl
@[simp] theorem setLink_reg_of (n : Nat) (x : Link) (p : Nat) : (s.setLink n x).reg p = s.reg p := rfl
@[simp] theorem setLink_ctx_of (n : Nat) (x : Link) (p : Nat) : (s.setLink n x).ctx p = s.ctx p := rfl
@[simp] theorem setLink_desc_of (n : Nat) (x : Link) (p : Nat) : (s.setLink n x).desc? p = s.desc? p := rfl
@[simp] theorem setLink_obj_of (n : Nat) (x : Link) (p : Nat) : (s.setLink n x).obj p = s.obj p := rfl
@[simp] theorem setLink_core_of (n : Nat) (x : Link) (p : Nat) : (s.setLink n x).core p = s.core p := rfl
@[simp] theorem setLink_clu_of (n : Nat) (x : Link) (p : Nat) : (s.setLink n x).clu p = s.clu p := rfl
@[simp] theorem setLink_die_of (n : Nat) (x : Link) (p : Nat) : (s.setLink n x).die p = s.die p := rfl
@[simp] theorem setLink_chan_of (n : Nat) (x : Link) (p : Nat) : (s.setLink n x).chan p = s.chan p := rfl
@[simp] theorem setLink_aper_of (n : Nat) (x : Link) (p : Nat) : (s.setLink n x).aper p = s.aper p := rfl
@[simp] theorem setLink_page_of (n : Nat) (x : Link) (p : Nat) : (s.setLink n x).page p = s.page p := rfl
@[simp] theorem setLink_strm_of (n : Nat) (x : Link) (p : Nat) : (s.setLink n x).strm p = s.strm p := rfl
@[simp] theorem setLink_sdMap_of (n : Nat) (x : Link) (p : Nat) : (s.setLink n x).sdMap p = s.sdMap p := rfl

/-! ### `setDesc` -/

@[simp] theorem setDesc_pending (n : Nat) (x : Desc) : (s.setDesc n x).pending = s.pending := rfl
@[simp] theorem setDesc_free (n : Nat) (x : Desc) : (s.setDesc n x).free = s.free := rfl
@[simp] theorem setDesc_mem (n : Nat) (x : Desc) : (s.setDesc n x).mem = s.mem := rfl
@[simp] theorem setDesc_flash (n : Nat) (x : Desc) : (s.setDesc n x).flash = s.flash := rfl
@[simp] theorem setDesc_dict (n : Nat) (x : Desc) : (s.setDesc n x).dict = s.dict := rfl
@[simp] theorem setDesc_regs (n : Nat) (x : Desc) : (s.setDesc n x).regs = s.regs := rfl
@[simp] theorem setDesc_nextId (n : Nat) (x : Desc) : (s.setDesc n x).nextId = s.nextId := rfl
@[simp] theorem setDesc_ctxs (n : Nat) (x : Desc) : (s.setDesc n x).ctxs = s.ctxs := rfl
@[simp] theorem setDesc_cores (n : Nat) (x : Desc) : (s.setDesc n x).cores = s.cores := rfl
@[simp] theorem setDesc_clus (n : Nat) (x : Desc) : (s.setDesc n x).clus = s.clus := rfl
@[simp] theorem setDesc_dies (n : Nat) (x : Desc) : (s.setDesc n x).dies = s.dies := rfl
@[simp] theorem setDesc_links (n : Nat) (x : Desc) : (s.setDesc n x).links = s.links := rfl
@[simp] theorem setDesc_aborts (n : Nat) (x : Desc) : (s.setDesc n x).aborts = s.aborts := rfl
@[simp] theorem setDesc_pages (n : Nat) (x : Desc) : (s.setDesc n x).pages = s.pages := rfl
@[simp] theorem setDesc_strs (n : Nat) (x : Desc) : (s.setDesc n x).strs = s.strs := rfl
@[simp] theorem setDesc_maps (n : Nat) (x : Desc) : (s.setDesc n x).maps = s.maps := rfl
@[simp] theorem setDesc_objs (n : Nat) (x : Desc) : (s.setDesc n x).objs = s.objs := rfl
@[simp] theorem setDesc_copies (n : Nat) (x : Desc) : (s.setDesc n x).copies = s.copies := rfl
@[simp] theorem setDesc_spills (n : Nat) (x : Desc) : (s.setDesc n x).spills = s.spills := rfl
@[simp] theorem setDesc_chans (n : Nat) (x : Desc) : (s.setDesc n x).chans = s.chans := rfl
@[simp] theorem setDesc_apers (n : Nat) (x : Desc) : (s.setDesc n x).apers = s.apers := rfl
@[simp] theorem setDesc_stageQ (n : Nat) (x : Desc) : (s.setDesc n x).stageQ = s.stageQ := rfl
@[simp] theorem setDesc_h2b (n : Nat) (x : Desc) : (s.setDesc n x).h2b = s.h2b := rfl
@[simp] theorem setDesc_b2h (n : Nat) (x : Desc) : (s.setDesc n x).b2h = s.b2h := rfl
@[simp] theorem setDesc_md (n : Nat) (x : Desc) : (s.setDesc n x).md = s.md := rfl
@[simp] theorem setDesc_isl (n : Nat) (x : Desc) : (s.setDesc n x).isl = s.isl := rfl
@[simp] theorem setDesc_rcv (n : Nat) (x : Desc) : (s.setDesc n x).rcv = s.rcv := rfl
@[simp] theorem setDesc_fse (n : Nat) (x : Desc) : (s.setDesc n x).fse = s.fse := rfl
@[simp] theorem setDesc_esp (n : Nat) (x : Desc) : (s.setDesc n x).esp = s.esp := rfl
@[simp] theorem setDesc_gov (n : Nat) (x : Desc) : (s.setDesc n x).gov = s.gov := rfl
@[simp] theorem setDesc_brd (n : Nat) (x : Desc) : (s.setDesc n x).brd = s.brd := rfl
@[simp] theorem setDesc_wire (n : Nat) (x : Desc) : (s.setDesc n x).wire = s.wire := rfl
@[simp] theorem setDesc_od_of (n : Nat) (x : Desc) (p q r : Nat) : (s.setDesc n x).od p q r = s.od p q r := rfl
@[simp] theorem setDesc_reg_of (n : Nat) (x : Desc) (p : Nat) : (s.setDesc n x).reg p = s.reg p := rfl
@[simp] theorem setDesc_ctx_of (n : Nat) (x : Desc) (p : Nat) : (s.setDesc n x).ctx p = s.ctx p := rfl
@[simp] theorem setDesc_obj_of (n : Nat) (x : Desc) (p : Nat) : (s.setDesc n x).obj p = s.obj p := rfl
@[simp] theorem setDesc_core_of (n : Nat) (x : Desc) (p : Nat) : (s.setDesc n x).core p = s.core p := rfl
@[simp] theorem setDesc_clu_of (n : Nat) (x : Desc) (p : Nat) : (s.setDesc n x).clu p = s.clu p := rfl
@[simp] theorem setDesc_die_of (n : Nat) (x : Desc) (p : Nat) : (s.setDesc n x).die p = s.die p := rfl
@[simp] theorem setDesc_chan_of (n : Nat) (x : Desc) (p : Nat) : (s.setDesc n x).chan p = s.chan p := rfl
@[simp] theorem setDesc_aper_of (n : Nat) (x : Desc) (p : Nat) : (s.setDesc n x).aper p = s.aper p := rfl
@[simp] theorem setDesc_page_of (n : Nat) (x : Desc) (p : Nat) : (s.setDesc n x).page p = s.page p := rfl
@[simp] theorem setDesc_strm_of (n : Nat) (x : Desc) (p : Nat) : (s.setDesc n x).strm p = s.strm p := rfl
@[simp] theorem setDesc_sdMap_of (n : Nat) (x : Desc) (p : Nat) : (s.setDesc n x).sdMap p = s.sdMap p := rfl
@[simp] theorem setDesc_link_of (n : Nat) (x : Desc) (p : Nat) : (s.setDesc n x).link p = s.link p := rfl

/-! ### `delDesc` -/

@[simp] theorem delDesc_pending (n : Nat) : (s.delDesc n).pending = s.pending := rfl
@[simp] theorem delDesc_free (n : Nat) : (s.delDesc n).free = s.free := rfl
@[simp] theorem delDesc_mem (n : Nat) : (s.delDesc n).mem = s.mem := rfl
@[simp] theorem delDesc_flash (n : Nat) : (s.delDesc n).flash = s.flash := rfl
@[simp] theorem delDesc_dict (n : Nat) : (s.delDesc n).dict = s.dict := rfl
@[simp] theorem delDesc_regs (n : Nat) : (s.delDesc n).regs = s.regs := rfl
@[simp] theorem delDesc_nextId (n : Nat) : (s.delDesc n).nextId = s.nextId := rfl
@[simp] theorem delDesc_ctxs (n : Nat) : (s.delDesc n).ctxs = s.ctxs := rfl
@[simp] theorem delDesc_cores (n : Nat) : (s.delDesc n).cores = s.cores := rfl
@[simp] theorem delDesc_clus (n : Nat) : (s.delDesc n).clus = s.clus := rfl
@[simp] theorem delDesc_dies (n : Nat) : (s.delDesc n).dies = s.dies := rfl
@[simp] theorem delDesc_links (n : Nat) : (s.delDesc n).links = s.links := rfl
@[simp] theorem delDesc_aborts (n : Nat) : (s.delDesc n).aborts = s.aborts := rfl
@[simp] theorem delDesc_pages (n : Nat) : (s.delDesc n).pages = s.pages := rfl
@[simp] theorem delDesc_strs (n : Nat) : (s.delDesc n).strs = s.strs := rfl
@[simp] theorem delDesc_maps (n : Nat) : (s.delDesc n).maps = s.maps := rfl
@[simp] theorem delDesc_objs (n : Nat) : (s.delDesc n).objs = s.objs := rfl
@[simp] theorem delDesc_copies (n : Nat) : (s.delDesc n).copies = s.copies := rfl
@[simp] theorem delDesc_spills (n : Nat) : (s.delDesc n).spills = s.spills := rfl
@[simp] theorem delDesc_chans (n : Nat) : (s.delDesc n).chans = s.chans := rfl
@[simp] theorem delDesc_apers (n : Nat) : (s.delDesc n).apers = s.apers := rfl
@[simp] theorem delDesc_stageQ (n : Nat) : (s.delDesc n).stageQ = s.stageQ := rfl
@[simp] theorem delDesc_h2b (n : Nat) : (s.delDesc n).h2b = s.h2b := rfl
@[simp] theorem delDesc_b2h (n : Nat) : (s.delDesc n).b2h = s.b2h := rfl
@[simp] theorem delDesc_md (n : Nat) : (s.delDesc n).md = s.md := rfl
@[simp] theorem delDesc_isl (n : Nat) : (s.delDesc n).isl = s.isl := rfl
@[simp] theorem delDesc_rcv (n : Nat) : (s.delDesc n).rcv = s.rcv := rfl
@[simp] theorem delDesc_fse (n : Nat) : (s.delDesc n).fse = s.fse := rfl
@[simp] theorem delDesc_esp (n : Nat) : (s.delDesc n).esp = s.esp := rfl
@[simp] theorem delDesc_gov (n : Nat) : (s.delDesc n).gov = s.gov := rfl
@[simp] theorem delDesc_brd (n : Nat) : (s.delDesc n).brd = s.brd := rfl
@[simp] theorem delDesc_wire (n : Nat) : (s.delDesc n).wire = s.wire := rfl
@[simp] theorem delDesc_od_of (n : Nat) (p q r : Nat) : (s.delDesc n).od p q r = s.od p q r := rfl
@[simp] theorem delDesc_reg_of (n : Nat) (p : Nat) : (s.delDesc n).reg p = s.reg p := rfl
@[simp] theorem delDesc_ctx_of (n : Nat) (p : Nat) : (s.delDesc n).ctx p = s.ctx p := rfl
@[simp] theorem delDesc_obj_of (n : Nat) (p : Nat) : (s.delDesc n).obj p = s.obj p := rfl
@[simp] theorem delDesc_core_of (n : Nat) (p : Nat) : (s.delDesc n).core p = s.core p := rfl
@[simp] theorem delDesc_clu_of (n : Nat) (p : Nat) : (s.delDesc n).clu p = s.clu p := rfl
@[simp] theorem delDesc_die_of (n : Nat) (p : Nat) : (s.delDesc n).die p = s.die p := rfl
@[simp] theorem delDesc_chan_of (n : Nat) (p : Nat) : (s.delDesc n).chan p = s.chan p := rfl
@[simp] theorem delDesc_aper_of (n : Nat) (p : Nat) : (s.delDesc n).aper p = s.aper p := rfl
@[simp] theorem delDesc_page_of (n : Nat) (p : Nat) : (s.delDesc n).page p = s.page p := rfl
@[simp] theorem delDesc_strm_of (n : Nat) (p : Nat) : (s.delDesc n).strm p = s.strm p := rfl
@[simp] theorem delDesc_sdMap_of (n : Nat) (p : Nat) : (s.delDesc n).sdMap p = s.sdMap p := rfl
@[simp] theorem delDesc_link_of (n : Nat) (p : Nat) : (s.delDesc n).link p = s.link p := rfl

/-! ### `updDesc` -/

@[simp] theorem updDesc_pending (n : Nat) (f : Desc → Desc) : (s.updDesc n f).pending = s.pending := rfl
@[simp] theorem updDesc_free (n : Nat) (f : Desc → Desc) : (s.updDesc n f).free = s.free := rfl
@[simp] theorem updDesc_mem (n : Nat) (f : Desc → Desc) : (s.updDesc n f).mem = s.mem := rfl
@[simp] theorem updDesc_flash (n : Nat) (f : Desc → Desc) : (s.updDesc n f).flash = s.flash := rfl
@[simp] theorem updDesc_dict (n : Nat) (f : Desc → Desc) : (s.updDesc n f).dict = s.dict := rfl
@[simp] theorem updDesc_regs (n : Nat) (f : Desc → Desc) : (s.updDesc n f).regs = s.regs := rfl
@[simp] theorem updDesc_nextId (n : Nat) (f : Desc → Desc) : (s.updDesc n f).nextId = s.nextId := rfl
@[simp] theorem updDesc_ctxs (n : Nat) (f : Desc → Desc) : (s.updDesc n f).ctxs = s.ctxs := rfl
@[simp] theorem updDesc_cores (n : Nat) (f : Desc → Desc) : (s.updDesc n f).cores = s.cores := rfl
@[simp] theorem updDesc_clus (n : Nat) (f : Desc → Desc) : (s.updDesc n f).clus = s.clus := rfl
@[simp] theorem updDesc_dies (n : Nat) (f : Desc → Desc) : (s.updDesc n f).dies = s.dies := rfl
@[simp] theorem updDesc_links (n : Nat) (f : Desc → Desc) : (s.updDesc n f).links = s.links := rfl
@[simp] theorem updDesc_aborts (n : Nat) (f : Desc → Desc) : (s.updDesc n f).aborts = s.aborts := rfl
@[simp] theorem updDesc_pages (n : Nat) (f : Desc → Desc) : (s.updDesc n f).pages = s.pages := rfl
@[simp] theorem updDesc_strs (n : Nat) (f : Desc → Desc) : (s.updDesc n f).strs = s.strs := rfl
@[simp] theorem updDesc_maps (n : Nat) (f : Desc → Desc) : (s.updDesc n f).maps = s.maps := rfl
@[simp] theorem updDesc_objs (n : Nat) (f : Desc → Desc) : (s.updDesc n f).objs = s.objs := rfl
@[simp] theorem updDesc_copies (n : Nat) (f : Desc → Desc) : (s.updDesc n f).copies = s.copies := rfl
@[simp] theorem updDesc_spills (n : Nat) (f : Desc → Desc) : (s.updDesc n f).spills = s.spills := rfl
@[simp] theorem updDesc_chans (n : Nat) (f : Desc → Desc) : (s.updDesc n f).chans = s.chans := rfl
@[simp] theorem updDesc_apers (n : Nat) (f : Desc → Desc) : (s.updDesc n f).apers = s.apers := rfl
@[simp] theorem updDesc_stageQ (n : Nat) (f : Desc → Desc) : (s.updDesc n f).stageQ = s.stageQ := rfl
@[simp] theorem updDesc_h2b (n : Nat) (f : Desc → Desc) : (s.updDesc n f).h2b = s.h2b := rfl
@[simp] theorem updDesc_b2h (n : Nat) (f : Desc → Desc) : (s.updDesc n f).b2h = s.b2h := rfl
@[simp] theorem updDesc_md (n : Nat) (f : Desc → Desc) : (s.updDesc n f).md = s.md := rfl
@[simp] theorem updDesc_isl (n : Nat) (f : Desc → Desc) : (s.updDesc n f).isl = s.isl := rfl
@[simp] theorem updDesc_rcv (n : Nat) (f : Desc → Desc) : (s.updDesc n f).rcv = s.rcv := rfl
@[simp] theorem updDesc_fse (n : Nat) (f : Desc → Desc) : (s.updDesc n f).fse = s.fse := rfl
@[simp] theorem updDesc_esp (n : Nat) (f : Desc → Desc) : (s.updDesc n f).esp = s.esp := rfl
@[simp] theorem updDesc_gov (n : Nat) (f : Desc → Desc) : (s.updDesc n f).gov = s.gov := rfl
@[simp] theorem updDesc_brd (n : Nat) (f : Desc → Desc) : (s.updDesc n f).brd = s.brd := rfl
@[simp] theorem updDesc_wire (n : Nat) (f : Desc → Desc) : (s.updDesc n f).wire = s.wire := rfl
@[simp] theorem updDesc_od_of (n : Nat) (f : Desc → Desc) (p q r : Nat) : (s.updDesc n f).od p q r = s.od p q r := rfl
@[simp] theorem updDesc_reg_of (n : Nat) (f : Desc → Desc) (p : Nat) : (s.updDesc n f).reg p = s.reg p := rfl
@[simp] theorem updDesc_ctx_of (n : Nat) (f : Desc → Desc) (p : Nat) : (s.updDesc n f).ctx p = s.ctx p := rfl
@[simp] theorem updDesc_obj_of (n : Nat) (f : Desc → Desc) (p : Nat) : (s.updDesc n f).obj p = s.obj p := rfl
@[simp] theorem updDesc_core_of (n : Nat) (f : Desc → Desc) (p : Nat) : (s.updDesc n f).core p = s.core p := rfl
@[simp] theorem updDesc_clu_of (n : Nat) (f : Desc → Desc) (p : Nat) : (s.updDesc n f).clu p = s.clu p := rfl
@[simp] theorem updDesc_die_of (n : Nat) (f : Desc → Desc) (p : Nat) : (s.updDesc n f).die p = s.die p := rfl
@[simp] theorem updDesc_chan_of (n : Nat) (f : Desc → Desc) (p : Nat) : (s.updDesc n f).chan p = s.chan p := rfl
@[simp] theorem updDesc_aper_of (n : Nat) (f : Desc → Desc) (p : Nat) : (s.updDesc n f).aper p = s.aper p := rfl
@[simp] theorem updDesc_page_of (n : Nat) (f : Desc → Desc) (p : Nat) : (s.updDesc n f).page p = s.page p := rfl
@[simp] theorem updDesc_strm_of (n : Nat) (f : Desc → Desc) (p : Nat) : (s.updDesc n f).strm p = s.strm p := rfl
@[simp] theorem updDesc_sdMap_of (n : Nat) (f : Desc → Desc) (p : Nat) : (s.updDesc n f).sdMap p = s.sdMap p := rfl
@[simp] theorem updDesc_link_of (n : Nat) (f : Desc → Desc) (p : Nat) : (s.updDesc n f).link p = s.link p := rfl

/-! ### `setChan` -/

@[simp] theorem setChan_pending (n : Nat) (x : Chan) : (s.setChan n x).pending = s.pending := rfl
@[simp] theorem setChan_free (n : Nat) (x : Chan) : (s.setChan n x).free = s.free := rfl
@[simp] theorem setChan_mem (n : Nat) (x : Chan) : (s.setChan n x).mem = s.mem := rfl
@[simp] theorem setChan_flash (n : Nat) (x : Chan) : (s.setChan n x).flash = s.flash := rfl
@[simp] theorem setChan_dict (n : Nat) (x : Chan) : (s.setChan n x).dict = s.dict := rfl
@[simp] theorem setChan_regs (n : Nat) (x : Chan) : (s.setChan n x).regs = s.regs := rfl
@[simp] theorem setChan_descs (n : Nat) (x : Chan) : (s.setChan n x).descs = s.descs := rfl
@[simp] theorem setChan_nextId (n : Nat) (x : Chan) : (s.setChan n x).nextId = s.nextId := rfl
@[simp] theorem setChan_ctxs (n : Nat) (x : Chan) : (s.setChan n x).ctxs = s.ctxs := rfl
@[simp] theorem setChan_cores (n : Nat) (x : Chan) : (s.setChan n x).cores = s.cores := rfl
@[simp] theorem setChan_clus (n : Nat) (x : Chan) : (s.setChan n x).clus = s.clus := rfl
@[simp] theorem setChan_dies (n : Nat) (x : Chan) : (s.setChan n x).dies = s.dies := rfl
@[simp] theorem setChan_links (n : Nat) (x : Chan) : (s.setChan n x).links = s.links := rfl
@[simp] theorem setChan_aborts (n : Nat) (x : Chan) : (s.setChan n x).aborts = s.aborts := rfl
@[simp] theorem setChan_pages (n : Nat) (x : Chan) : (s.setChan n x).pages = s.pages := rfl
@[simp] theorem setChan_strs (n : Nat) (x : Chan) : (s.setChan n x).strs = s.strs := rfl
@[simp] theorem setChan_maps (n : Nat) (x : Chan) : (s.setChan n x).maps = s.maps := rfl
@[simp] theorem setChan_objs (n : Nat) (x : Chan) : (s.setChan n x).objs = s.objs := rfl
@[simp] theorem setChan_copies (n : Nat) (x : Chan) : (s.setChan n x).copies = s.copies := rfl
@[simp] theorem setChan_spills (n : Nat) (x : Chan) : (s.setChan n x).spills = s.spills := rfl
@[simp] theorem setChan_apers (n : Nat) (x : Chan) : (s.setChan n x).apers = s.apers := rfl
@[simp] theorem setChan_stageQ (n : Nat) (x : Chan) : (s.setChan n x).stageQ = s.stageQ := rfl
@[simp] theorem setChan_h2b (n : Nat) (x : Chan) : (s.setChan n x).h2b = s.h2b := rfl
@[simp] theorem setChan_b2h (n : Nat) (x : Chan) : (s.setChan n x).b2h = s.b2h := rfl
@[simp] theorem setChan_md (n : Nat) (x : Chan) : (s.setChan n x).md = s.md := rfl
@[simp] theorem setChan_isl (n : Nat) (x : Chan) : (s.setChan n x).isl = s.isl := rfl
@[simp] theorem setChan_rcv (n : Nat) (x : Chan) : (s.setChan n x).rcv = s.rcv := rfl
@[simp] theorem setChan_fse (n : Nat) (x : Chan) : (s.setChan n x).fse = s.fse := rfl
@[simp] theorem setChan_esp (n : Nat) (x : Chan) : (s.setChan n x).esp = s.esp := rfl
@[simp] theorem setChan_gov (n : Nat) (x : Chan) : (s.setChan n x).gov = s.gov := rfl
@[simp] theorem setChan_brd (n : Nat) (x : Chan) : (s.setChan n x).brd = s.brd := rfl
@[simp] theorem setChan_wire (n : Nat) (x : Chan) : (s.setChan n x).wire = s.wire := rfl
@[simp] theorem setChan_od_of (n : Nat) (x : Chan) (p q r : Nat) : (s.setChan n x).od p q r = s.od p q r := rfl
@[simp] theorem setChan_reg_of (n : Nat) (x : Chan) (p : Nat) : (s.setChan n x).reg p = s.reg p := rfl
@[simp] theorem setChan_ctx_of (n : Nat) (x : Chan) (p : Nat) : (s.setChan n x).ctx p = s.ctx p := rfl
@[simp] theorem setChan_desc_of (n : Nat) (x : Chan) (p : Nat) : (s.setChan n x).desc? p = s.desc? p := rfl
@[simp] theorem setChan_obj_of (n : Nat) (x : Chan) (p : Nat) : (s.setChan n x).obj p = s.obj p := rfl
@[simp] theorem setChan_core_of (n : Nat) (x : Chan) (p : Nat) : (s.setChan n x).core p = s.core p := rfl
@[simp] theorem setChan_clu_of (n : Nat) (x : Chan) (p : Nat) : (s.setChan n x).clu p = s.clu p := rfl
@[simp] theorem setChan_die_of (n : Nat) (x : Chan) (p : Nat) : (s.setChan n x).die p = s.die p := rfl
@[simp] theorem setChan_aper_of (n : Nat) (x : Chan) (p : Nat) : (s.setChan n x).aper p = s.aper p := rfl
@[simp] theorem setChan_page_of (n : Nat) (x : Chan) (p : Nat) : (s.setChan n x).page p = s.page p := rfl
@[simp] theorem setChan_strm_of (n : Nat) (x : Chan) (p : Nat) : (s.setChan n x).strm p = s.strm p := rfl
@[simp] theorem setChan_sdMap_of (n : Nat) (x : Chan) (p : Nat) : (s.setChan n x).sdMap p = s.sdMap p := rfl
@[simp] theorem setChan_link_of (n : Nat) (x : Chan) (p : Nat) : (s.setChan n x).link p = s.link p := rfl

/-! ### `setAper` -/

@[simp] theorem setAper_pending (n : Nat) (x : Aper) : (s.setAper n x).pending = s.pending := rfl
@[simp] theorem setAper_free (n : Nat) (x : Aper) : (s.setAper n x).free = s.free := rfl
@[simp] theorem setAper_mem (n : Nat) (x : Aper) : (s.setAper n x).mem = s.mem := rfl
@[simp] theorem setAper_flash (n : Nat) (x : Aper) : (s.setAper n x).flash = s.flash := rfl
@[simp] theorem setAper_dict (n : Nat) (x : Aper) : (s.setAper n x).dict = s.dict := rfl
@[simp] theorem setAper_regs (n : Nat) (x : Aper) : (s.setAper n x).regs = s.regs := rfl
@[simp] theorem setAper_descs (n : Nat) (x : Aper) : (s.setAper n x).descs = s.descs := rfl
@[simp] theorem setAper_nextId (n : Nat) (x : Aper) : (s.setAper n x).nextId = s.nextId := rfl
@[simp] theorem setAper_ctxs (n : Nat) (x : Aper) : (s.setAper n x).ctxs = s.ctxs := rfl
@[simp] theorem setAper_cores (n : Nat) (x : Aper) : (s.setAper n x).cores = s.cores := rfl
@[simp] theorem setAper_clus (n : Nat) (x : Aper) : (s.setAper n x).clus = s.clus := rfl
@[simp] theorem setAper_dies (n : Nat) (x : Aper) : (s.setAper n x).dies = s.dies := rfl
@[simp] theorem setAper_links (n : Nat) (x : Aper) : (s.setAper n x).links = s.links := rfl
@[simp] theorem setAper_aborts (n : Nat) (x : Aper) : (s.setAper n x).aborts = s.aborts := rfl
@[simp] theorem setAper_pages (n : Nat) (x : Aper) : (s.setAper n x).pages = s.pages := rfl
@[simp] theorem setAper_strs (n : Nat) (x : Aper) : (s.setAper n x).strs = s.strs := rfl
@[simp] theorem setAper_maps (n : Nat) (x : Aper) : (s.setAper n x).maps = s.maps := rfl
@[simp] theorem setAper_objs (n : Nat) (x : Aper) : (s.setAper n x).objs = s.objs := rfl
@[simp] theorem setAper_copies (n : Nat) (x : Aper) : (s.setAper n x).copies = s.copies := rfl
@[simp] theorem setAper_spills (n : Nat) (x : Aper) : (s.setAper n x).spills = s.spills := rfl
@[simp] theorem setAper_chans (n : Nat) (x : Aper) : (s.setAper n x).chans = s.chans := rfl
@[simp] theorem setAper_stageQ (n : Nat) (x : Aper) : (s.setAper n x).stageQ = s.stageQ := rfl
@[simp] theorem setAper_h2b (n : Nat) (x : Aper) : (s.setAper n x).h2b = s.h2b := rfl
@[simp] theorem setAper_b2h (n : Nat) (x : Aper) : (s.setAper n x).b2h = s.b2h := rfl
@[simp] theorem setAper_md (n : Nat) (x : Aper) : (s.setAper n x).md = s.md := rfl
@[simp] theorem setAper_isl (n : Nat) (x : Aper) : (s.setAper n x).isl = s.isl := rfl
@[simp] theorem setAper_rcv (n : Nat) (x : Aper) : (s.setAper n x).rcv = s.rcv := rfl
@[simp] theorem setAper_fse (n : Nat) (x : Aper) : (s.setAper n x).fse = s.fse := rfl
@[simp] theorem setAper_esp (n : Nat) (x : Aper) : (s.setAper n x).esp = s.esp := rfl
@[simp] theorem setAper_gov (n : Nat) (x : Aper) : (s.setAper n x).gov = s.gov := rfl
@[simp] theorem setAper_brd (n : Nat) (x : Aper) : (s.setAper n x).brd = s.brd := rfl
@[simp] theorem setAper_wire (n : Nat) (x : Aper) : (s.setAper n x).wire = s.wire := rfl
@[simp] theorem setAper_od_of (n : Nat) (x : Aper) (p q r : Nat) : (s.setAper n x).od p q r = s.od p q r := rfl
@[simp] theorem setAper_reg_of (n : Nat) (x : Aper) (p : Nat) : (s.setAper n x).reg p = s.reg p := rfl
@[simp] theorem setAper_ctx_of (n : Nat) (x : Aper) (p : Nat) : (s.setAper n x).ctx p = s.ctx p := rfl
@[simp] theorem setAper_desc_of (n : Nat) (x : Aper) (p : Nat) : (s.setAper n x).desc? p = s.desc? p := rfl
@[simp] theorem setAper_obj_of (n : Nat) (x : Aper) (p : Nat) : (s.setAper n x).obj p = s.obj p := rfl
@[simp] theorem setAper_core_of (n : Nat) (x : Aper) (p : Nat) : (s.setAper n x).core p = s.core p := rfl
@[simp] theorem setAper_clu_of (n : Nat) (x : Aper) (p : Nat) : (s.setAper n x).clu p = s.clu p := rfl
@[simp] theorem setAper_die_of (n : Nat) (x : Aper) (p : Nat) : (s.setAper n x).die p = s.die p := rfl
@[simp] theorem setAper_chan_of (n : Nat) (x : Aper) (p : Nat) : (s.setAper n x).chan p = s.chan p := rfl
@[simp] theorem setAper_page_of (n : Nat) (x : Aper) (p : Nat) : (s.setAper n x).page p = s.page p := rfl
@[simp] theorem setAper_strm_of (n : Nat) (x : Aper) (p : Nat) : (s.setAper n x).strm p = s.strm p := rfl
@[simp] theorem setAper_sdMap_of (n : Nat) (x : Aper) (p : Nat) : (s.setAper n x).sdMap p = s.sdMap p := rfl
@[simp] theorem setAper_link_of (n : Nat) (x : Aper) (p : Nat) : (s.setAper n x).link p = s.link p := rfl

/-! ### `setSrc` -/

@[simp] theorem setSrc_pending (n : Nat) (x : Src) : (s.setSrc n x).pending = s.pending := rfl
@[simp] theorem setSrc_free (n : Nat) (x : Src) : (s.setSrc n x).free = s.free := rfl
@[simp] theorem setSrc_mem (n : Nat) (x : Src) : (s.setSrc n x).mem = s.mem := rfl
@[simp] theorem setSrc_flash (n : Nat) (x : Src) : (s.setSrc n x).flash = s.flash := rfl
@[simp] theorem setSrc_dict (n : Nat) (x : Src) : (s.setSrc n x).dict = s.dict := rfl
@[simp] theorem setSrc_regs (n : Nat) (x : Src) : (s.setSrc n x).regs = s.regs := rfl
@[simp] theorem setSrc_descs (n : Nat) (x : Src) : (s.setSrc n x).descs = s.descs := rfl
@[simp] theorem setSrc_nextId (n : Nat) (x : Src) : (s.setSrc n x).nextId = s.nextId := rfl
@[simp] theorem setSrc_ctxs (n : Nat) (x : Src) : (s.setSrc n x).ctxs = s.ctxs := rfl
@[simp] theorem setSrc_cores (n : Nat) (x : Src) : (s.setSrc n x).cores = s.cores := rfl
@[simp] theorem setSrc_clus (n : Nat) (x : Src) : (s.setSrc n x).clus = s.clus := rfl
@[simp] theorem setSrc_dies (n : Nat) (x : Src) : (s.setSrc n x).dies = s.dies := rfl
@[simp] theorem setSrc_links (n : Nat) (x : Src) : (s.setSrc n x).links = s.links := rfl
@[simp] theorem setSrc_aborts (n : Nat) (x : Src) : (s.setSrc n x).aborts = s.aborts := rfl
@[simp] theorem setSrc_pages (n : Nat) (x : Src) : (s.setSrc n x).pages = s.pages := rfl
@[simp] theorem setSrc_strs (n : Nat) (x : Src) : (s.setSrc n x).strs = s.strs := rfl
@[simp] theorem setSrc_maps (n : Nat) (x : Src) : (s.setSrc n x).maps = s.maps := rfl
@[simp] theorem setSrc_objs (n : Nat) (x : Src) : (s.setSrc n x).objs = s.objs := rfl
@[simp] theorem setSrc_copies (n : Nat) (x : Src) : (s.setSrc n x).copies = s.copies := rfl
@[simp] theorem setSrc_spills (n : Nat) (x : Src) : (s.setSrc n x).spills = s.spills := rfl
@[simp] theorem setSrc_chans (n : Nat) (x : Src) : (s.setSrc n x).chans = s.chans := rfl
@[simp] theorem setSrc_apers (n : Nat) (x : Src) : (s.setSrc n x).apers = s.apers := rfl
@[simp] theorem setSrc_stageQ (n : Nat) (x : Src) : (s.setSrc n x).stageQ = s.stageQ := rfl
@[simp] theorem setSrc_h2b (n : Nat) (x : Src) : (s.setSrc n x).h2b = s.h2b := rfl
@[simp] theorem setSrc_b2h (n : Nat) (x : Src) : (s.setSrc n x).b2h = s.b2h := rfl
@[simp] theorem setSrc_md (n : Nat) (x : Src) : (s.setSrc n x).md = s.md := rfl
@[simp] theorem setSrc_isl (n : Nat) (x : Src) : (s.setSrc n x).isl = s.isl := rfl
@[simp] theorem setSrc_rcv (n : Nat) (x : Src) : (s.setSrc n x).rcv = s.rcv := rfl
@[simp] theorem setSrc_esp (n : Nat) (x : Src) : (s.setSrc n x).esp = s.esp := rfl
@[simp] theorem setSrc_gov (n : Nat) (x : Src) : (s.setSrc n x).gov = s.gov := rfl
@[simp] theorem setSrc_brd (n : Nat) (x : Src) : (s.setSrc n x).brd = s.brd := rfl
@[simp] theorem setSrc_wire (n : Nat) (x : Src) : (s.setSrc n x).wire = s.wire := rfl
@[simp] theorem setSrc_od_of (n : Nat) (x : Src) (p q r : Nat) : (s.setSrc n x).od p q r = s.od p q r := rfl
@[simp] theorem setSrc_reg_of (n : Nat) (x : Src) (p : Nat) : (s.setSrc n x).reg p = s.reg p := rfl
@[simp] theorem setSrc_ctx_of (n : Nat) (x : Src) (p : Nat) : (s.setSrc n x).ctx p = s.ctx p := rfl
@[simp] theorem setSrc_desc_of (n : Nat) (x : Src) (p : Nat) : (s.setSrc n x).desc? p = s.desc? p := rfl
@[simp] theorem setSrc_obj_of (n : Nat) (x : Src) (p : Nat) : (s.setSrc n x).obj p = s.obj p := rfl
@[simp] theorem setSrc_core_of (n : Nat) (x : Src) (p : Nat) : (s.setSrc n x).core p = s.core p := rfl
@[simp] theorem setSrc_clu_of (n : Nat) (x : Src) (p : Nat) : (s.setSrc n x).clu p = s.clu p := rfl
@[simp] theorem setSrc_die_of (n : Nat) (x : Src) (p : Nat) : (s.setSrc n x).die p = s.die p := rfl
@[simp] theorem setSrc_chan_of (n : Nat) (x : Src) (p : Nat) : (s.setSrc n x).chan p = s.chan p := rfl
@[simp] theorem setSrc_aper_of (n : Nat) (x : Src) (p : Nat) : (s.setSrc n x).aper p = s.aper p := rfl
@[simp] theorem setSrc_page_of (n : Nat) (x : Src) (p : Nat) : (s.setSrc n x).page p = s.page p := rfl
@[simp] theorem setSrc_strm_of (n : Nat) (x : Src) (p : Nat) : (s.setSrc n x).strm p = s.strm p := rfl
@[simp] theorem setSrc_sdMap_of (n : Nat) (x : Src) (p : Nat) : (s.setSrc n x).sdMap p = s.sdMap p := rfl
@[simp] theorem setSrc_link_of (n : Nat) (x : Src) (p : Nat) : (s.setSrc n x).link p = s.link p := rfl

/-! ### `setGrp` -/

@[simp] theorem setGrp_pending (n : Nat) (x : Grp) : (s.setGrp n x).pending = s.pending := rfl
@[simp] theorem setGrp_free (n : Nat) (x : Grp) : (s.setGrp n x).free = s.free := rfl
@[simp] theorem setGrp_mem (n : Nat) (x : Grp) : (s.setGrp n x).mem = s.mem := rfl
@[simp] theorem setGrp_flash (n : Nat) (x : Grp) : (s.setGrp n x).flash = s.flash := rfl
@[simp] theorem setGrp_dict (n : Nat) (x : Grp) : (s.setGrp n x).dict = s.dict := rfl
@[simp] theorem setGrp_regs (n : Nat) (x : Grp) : (s.setGrp n x).regs = s.regs := rfl
@[simp] theorem setGrp_descs (n : Nat) (x : Grp) : (s.setGrp n x).descs = s.descs := rfl
@[simp] theorem setGrp_nextId (n : Nat) (x : Grp) : (s.setGrp n x).nextId = s.nextId := rfl
@[simp] theorem setGrp_ctxs (n : Nat) (x : Grp) : (s.setGrp n x).ctxs = s.ctxs := rfl
@[simp] theorem setGrp_cores (n : Nat) (x : Grp) : (s.setGrp n x).cores = s.cores := rfl
@[simp] theorem setGrp_clus (n : Nat) (x : Grp) : (s.setGrp n x).clus = s.clus := rfl
@[simp] theorem setGrp_dies (n : Nat) (x : Grp) : (s.setGrp n x).dies = s.dies := rfl
@[simp] theorem setGrp_links (n : Nat) (x : Grp) : (s.setGrp n x).links = s.links := rfl
@[simp] theorem setGrp_aborts (n : Nat) (x : Grp) : (s.setGrp n x).aborts = s.aborts := rfl
@[simp] theorem setGrp_pages (n : Nat) (x : Grp) : (s.setGrp n x).pages = s.pages := rfl
@[simp] theorem setGrp_strs (n : Nat) (x : Grp) : (s.setGrp n x).strs = s.strs := rfl
@[simp] theorem setGrp_maps (n : Nat) (x : Grp) : (s.setGrp n x).maps = s.maps := rfl
@[simp] theorem setGrp_objs (n : Nat) (x : Grp) : (s.setGrp n x).objs = s.objs := rfl
@[simp] theorem setGrp_copies (n : Nat) (x : Grp) : (s.setGrp n x).copies = s.copies := rfl
@[simp] theorem setGrp_spills (n : Nat) (x : Grp) : (s.setGrp n x).spills = s.spills := rfl
@[simp] theorem setGrp_chans (n : Nat) (x : Grp) : (s.setGrp n x).chans = s.chans := rfl
@[simp] theorem setGrp_apers (n : Nat) (x : Grp) : (s.setGrp n x).apers = s.apers := rfl
@[simp] theorem setGrp_stageQ (n : Nat) (x : Grp) : (s.setGrp n x).stageQ = s.stageQ := rfl
@[simp] theorem setGrp_h2b (n : Nat) (x : Grp) : (s.setGrp n x).h2b = s.h2b := rfl
@[simp] theorem setGrp_b2h (n : Nat) (x : Grp) : (s.setGrp n x).b2h = s.b2h := rfl
@[simp] theorem setGrp_md (n : Nat) (x : Grp) : (s.setGrp n x).md = s.md := rfl
@[simp] theorem setGrp_isl (n : Nat) (x : Grp) : (s.setGrp n x).isl = s.isl := rfl
@[simp] theorem setGrp_rcv (n : Nat) (x : Grp) : (s.setGrp n x).rcv = s.rcv := rfl
@[simp] theorem setGrp_esp (n : Nat) (x : Grp) : (s.setGrp n x).esp = s.esp := rfl
@[simp] theorem setGrp_gov (n : Nat) (x : Grp) : (s.setGrp n x).gov = s.gov := rfl
@[simp] theorem setGrp_brd (n : Nat) (x : Grp) : (s.setGrp n x).brd = s.brd := rfl
@[simp] theorem setGrp_wire (n : Nat) (x : Grp) : (s.setGrp n x).wire = s.wire := rfl
@[simp] theorem setGrp_od_of (n : Nat) (x : Grp) (p q r : Nat) : (s.setGrp n x).od p q r = s.od p q r := rfl
@[simp] theorem setGrp_reg_of (n : Nat) (x : Grp) (p : Nat) : (s.setGrp n x).reg p = s.reg p := rfl
@[simp] theorem setGrp_ctx_of (n : Nat) (x : Grp) (p : Nat) : (s.setGrp n x).ctx p = s.ctx p := rfl
@[simp] theorem setGrp_desc_of (n : Nat) (x : Grp) (p : Nat) : (s.setGrp n x).desc? p = s.desc? p := rfl
@[simp] theorem setGrp_obj_of (n : Nat) (x : Grp) (p : Nat) : (s.setGrp n x).obj p = s.obj p := rfl
@[simp] theorem setGrp_core_of (n : Nat) (x : Grp) (p : Nat) : (s.setGrp n x).core p = s.core p := rfl
@[simp] theorem setGrp_clu_of (n : Nat) (x : Grp) (p : Nat) : (s.setGrp n x).clu p = s.clu p := rfl
@[simp] theorem setGrp_die_of (n : Nat) (x : Grp) (p : Nat) : (s.setGrp n x).die p = s.die p := rfl
@[simp] theorem setGrp_chan_of (n : Nat) (x : Grp) (p : Nat) : (s.setGrp n x).chan p = s.chan p := rfl
@[simp] theorem setGrp_aper_of (n : Nat) (x : Grp) (p : Nat) : (s.setGrp n x).aper p = s.aper p := rfl
@[simp] theorem setGrp_page_of (n : Nat) (x : Grp) (p : Nat) : (s.setGrp n x).page p = s.page p := rfl
@[simp] theorem setGrp_strm_of (n : Nat) (x : Grp) (p : Nat) : (s.setGrp n x).strm p = s.strm p := rfl
@[simp] theorem setGrp_sdMap_of (n : Nat) (x : Grp) (p : Nat) : (s.setGrp n x).sdMap p = s.sdMap p := rfl
@[simp] theorem setGrp_link_of (n : Nat) (x : Grp) (p : Nat) : (s.setGrp n x).link p = s.link p := rfl

/-! ### `setFset` -/

@[simp] theorem setFset_pending (n : Nat) (x : FSet) : (s.setFset n x).pending = s.pending := rfl
@[simp] theorem setFset_free (n : Nat) (x : FSet) : (s.setFset n x).free = s.free := rfl
@[simp] theorem setFset_mem (n : Nat) (x : FSet) : (s.setFset n x).mem = s.mem := rfl
@[simp] theorem setFset_flash (n : Nat) (x : FSet) : (s.setFset n x).flash = s.flash := rfl
@[simp] theorem setFset_dict (n : Nat) (x : FSet) : (s.setFset n x).dict = s.dict := rfl
@[simp] theorem setFset_regs (n : Nat) (x : FSet) : (s.setFset n x).regs = s.regs := rfl
@[simp] theorem setFset_descs (n : Nat) (x : FSet) : (s.setFset n x).descs = s.descs := rfl
@[simp] theorem setFset_nextId (n : Nat) (x : FSet) : (s.setFset n x).nextId = s.nextId := rfl
@[simp] theorem setFset_ctxs (n : Nat) (x : FSet) : (s.setFset n x).ctxs = s.ctxs := rfl
@[simp] theorem setFset_cores (n : Nat) (x : FSet) : (s.setFset n x).cores = s.cores := rfl
@[simp] theorem setFset_clus (n : Nat) (x : FSet) : (s.setFset n x).clus = s.clus := rfl
@[simp] theorem setFset_dies (n : Nat) (x : FSet) : (s.setFset n x).dies = s.dies := rfl
@[simp] theorem setFset_links (n : Nat) (x : FSet) : (s.setFset n x).links = s.links := rfl
@[simp] theorem setFset_aborts (n : Nat) (x : FSet) : (s.setFset n x).aborts = s.aborts := rfl
@[simp] theorem setFset_pages (n : Nat) (x : FSet) : (s.setFset n x).pages = s.pages := rfl
@[simp] theorem setFset_strs (n : Nat) (x : FSet) : (s.setFset n x).strs = s.strs := rfl
@[simp] theorem setFset_maps (n : Nat) (x : FSet) : (s.setFset n x).maps = s.maps := rfl
@[simp] theorem setFset_objs (n : Nat) (x : FSet) : (s.setFset n x).objs = s.objs := rfl
@[simp] theorem setFset_copies (n : Nat) (x : FSet) : (s.setFset n x).copies = s.copies := rfl
@[simp] theorem setFset_spills (n : Nat) (x : FSet) : (s.setFset n x).spills = s.spills := rfl
@[simp] theorem setFset_chans (n : Nat) (x : FSet) : (s.setFset n x).chans = s.chans := rfl
@[simp] theorem setFset_apers (n : Nat) (x : FSet) : (s.setFset n x).apers = s.apers := rfl
@[simp] theorem setFset_stageQ (n : Nat) (x : FSet) : (s.setFset n x).stageQ = s.stageQ := rfl
@[simp] theorem setFset_h2b (n : Nat) (x : FSet) : (s.setFset n x).h2b = s.h2b := rfl
@[simp] theorem setFset_b2h (n : Nat) (x : FSet) : (s.setFset n x).b2h = s.b2h := rfl
@[simp] theorem setFset_md (n : Nat) (x : FSet) : (s.setFset n x).md = s.md := rfl
@[simp] theorem setFset_isl (n : Nat) (x : FSet) : (s.setFset n x).isl = s.isl := rfl
@[simp] theorem setFset_rcv (n : Nat) (x : FSet) : (s.setFset n x).rcv = s.rcv := rfl
@[simp] theorem setFset_esp (n : Nat) (x : FSet) : (s.setFset n x).esp = s.esp := rfl
@[simp] theorem setFset_gov (n : Nat) (x : FSet) : (s.setFset n x).gov = s.gov := rfl
@[simp] theorem setFset_brd (n : Nat) (x : FSet) : (s.setFset n x).brd = s.brd := rfl
@[simp] theorem setFset_wire (n : Nat) (x : FSet) : (s.setFset n x).wire = s.wire := rfl
@[simp] theorem setFset_od_of (n : Nat) (x : FSet) (p q r : Nat) : (s.setFset n x).od p q r = s.od p q r := rfl
@[simp] theorem setFset_reg_of (n : Nat) (x : FSet) (p : Nat) : (s.setFset n x).reg p = s.reg p := rfl
@[simp] theorem setFset_ctx_of (n : Nat) (x : FSet) (p : Nat) : (s.setFset n x).ctx p = s.ctx p := rfl
@[simp] theorem setFset_desc_of (n : Nat) (x : FSet) (p : Nat) : (s.setFset n x).desc? p = s.desc? p := rfl
@[simp] theorem setFset_obj_of (n : Nat) (x : FSet) (p : Nat) : (s.setFset n x).obj p = s.obj p := rfl
@[simp] theorem setFset_core_of (n : Nat) (x : FSet) (p : Nat) : (s.setFset n x).core p = s.core p := rfl
@[simp] theorem setFset_clu_of (n : Nat) (x : FSet) (p : Nat) : (s.setFset n x).clu p = s.clu p := rfl
@[simp] theorem setFset_die_of (n : Nat) (x : FSet) (p : Nat) : (s.setFset n x).die p = s.die p := rfl
@[simp] theorem setFset_chan_of (n : Nat) (x : FSet) (p : Nat) : (s.setFset n x).chan p = s.chan p := rfl
@[simp] theorem setFset_aper_of (n : Nat) (x : FSet) (p : Nat) : (s.setFset n x).aper p = s.aper p := rfl
@[simp] theorem setFset_page_of (n : Nat) (x : FSet) (p : Nat) : (s.setFset n x).page p = s.page p := rfl
@[simp] theorem setFset_strm_of (n : Nat) (x : FSet) (p : Nat) : (s.setFset n x).strm p = s.strm p := rfl
@[simp] theorem setFset_sdMap_of (n : Nat) (x : FSet) (p : Nat) : (s.setFset n x).sdMap p = s.sdMap p := rfl
@[simp] theorem setFset_link_of (n : Nat) (x : FSet) (p : Nat) : (s.setFset n x).link p = s.link p := rfl

/-! ### `setEsp` -/

@[simp] theorem setEsp_pending (x : Esp) : (s.setEsp x).pending = s.pending := rfl
@[simp] theorem setEsp_free (x : Esp) : (s.setEsp x).free = s.free := rfl
@[simp] theorem setEsp_mem (x : Esp) : (s.setEsp x).mem = s.mem := rfl
@[simp] theorem setEsp_flash (x : Esp) : (s.setEsp x).flash = s.flash := rfl
@[simp] theorem setEsp_dict (x : Esp) : (s.setEsp x).dict = s.dict := rfl
@[simp] theorem setEsp_regs (x : Esp) : (s.setEsp x).regs = s.regs := rfl
@[simp] theorem setEsp_descs (x : Esp) : (s.setEsp x).descs = s.descs := rfl
@[simp] theorem setEsp_nextId (x : Esp) : (s.setEsp x).nextId = s.nextId := rfl
@[simp] theorem setEsp_ctxs (x : Esp) : (s.setEsp x).ctxs = s.ctxs := rfl
@[simp] theorem setEsp_cores (x : Esp) : (s.setEsp x).cores = s.cores := rfl
@[simp] theorem setEsp_clus (x : Esp) : (s.setEsp x).clus = s.clus := rfl
@[simp] theorem setEsp_dies (x : Esp) : (s.setEsp x).dies = s.dies := rfl
@[simp] theorem setEsp_links (x : Esp) : (s.setEsp x).links = s.links := rfl
@[simp] theorem setEsp_aborts (x : Esp) : (s.setEsp x).aborts = s.aborts := rfl
@[simp] theorem setEsp_pages (x : Esp) : (s.setEsp x).pages = s.pages := rfl
@[simp] theorem setEsp_strs (x : Esp) : (s.setEsp x).strs = s.strs := rfl
@[simp] theorem setEsp_maps (x : Esp) : (s.setEsp x).maps = s.maps := rfl
@[simp] theorem setEsp_objs (x : Esp) : (s.setEsp x).objs = s.objs := rfl
@[simp] theorem setEsp_copies (x : Esp) : (s.setEsp x).copies = s.copies := rfl
@[simp] theorem setEsp_spills (x : Esp) : (s.setEsp x).spills = s.spills := rfl
@[simp] theorem setEsp_chans (x : Esp) : (s.setEsp x).chans = s.chans := rfl
@[simp] theorem setEsp_apers (x : Esp) : (s.setEsp x).apers = s.apers := rfl
@[simp] theorem setEsp_stageQ (x : Esp) : (s.setEsp x).stageQ = s.stageQ := rfl
@[simp] theorem setEsp_h2b (x : Esp) : (s.setEsp x).h2b = s.h2b := rfl
@[simp] theorem setEsp_b2h (x : Esp) : (s.setEsp x).b2h = s.b2h := rfl
@[simp] theorem setEsp_md (x : Esp) : (s.setEsp x).md = s.md := rfl
@[simp] theorem setEsp_isl (x : Esp) : (s.setEsp x).isl = s.isl := rfl
@[simp] theorem setEsp_rcv (x : Esp) : (s.setEsp x).rcv = s.rcv := rfl
@[simp] theorem setEsp_fse (x : Esp) : (s.setEsp x).fse = s.fse := rfl
@[simp] theorem setEsp_gov (x : Esp) : (s.setEsp x).gov = s.gov := rfl
@[simp] theorem setEsp_brd (x : Esp) : (s.setEsp x).brd = s.brd := rfl
@[simp] theorem setEsp_wire (x : Esp) : (s.setEsp x).wire = s.wire := rfl
@[simp] theorem setEsp_od_of (x : Esp) (p q r : Nat) : (s.setEsp x).od p q r = s.od p q r := rfl
@[simp] theorem setEsp_reg_of (x : Esp) (p : Nat) : (s.setEsp x).reg p = s.reg p := rfl
@[simp] theorem setEsp_ctx_of (x : Esp) (p : Nat) : (s.setEsp x).ctx p = s.ctx p := rfl
@[simp] theorem setEsp_desc_of (x : Esp) (p : Nat) : (s.setEsp x).desc? p = s.desc? p := rfl
@[simp] theorem setEsp_obj_of (x : Esp) (p : Nat) : (s.setEsp x).obj p = s.obj p := rfl
@[simp] theorem setEsp_core_of (x : Esp) (p : Nat) : (s.setEsp x).core p = s.core p := rfl
@[simp] theorem setEsp_clu_of (x : Esp) (p : Nat) : (s.setEsp x).clu p = s.clu p := rfl
@[simp] theorem setEsp_die_of (x : Esp) (p : Nat) : (s.setEsp x).die p = s.die p := rfl
@[simp] theorem setEsp_chan_of (x : Esp) (p : Nat) : (s.setEsp x).chan p = s.chan p := rfl
@[simp] theorem setEsp_aper_of (x : Esp) (p : Nat) : (s.setEsp x).aper p = s.aper p := rfl
@[simp] theorem setEsp_page_of (x : Esp) (p : Nat) : (s.setEsp x).page p = s.page p := rfl
@[simp] theorem setEsp_strm_of (x : Esp) (p : Nat) : (s.setEsp x).strm p = s.strm p := rfl
@[simp] theorem setEsp_sdMap_of (x : Esp) (p : Nat) : (s.setEsp x).sdMap p = s.sdMap p := rfl
@[simp] theorem setEsp_link_of (x : Esp) (p : Nat) : (s.setEsp x).link p = s.link p := rfl

/-! ### `setGov` -/

@[simp] theorem setGov_pending (x : Gov) : (s.setGov x).pending = s.pending := rfl
@[simp] theorem setGov_free (x : Gov) : (s.setGov x).free = s.free := rfl
@[simp] theorem setGov_mem (x : Gov) : (s.setGov x).mem = s.mem := rfl
@[simp] theorem setGov_flash (x : Gov) : (s.setGov x).flash = s.flash := rfl
@[simp] theorem setGov_dict (x : Gov) : (s.setGov x).dict = s.dict := rfl
@[simp] theorem setGov_regs (x : Gov) : (s.setGov x).regs = s.regs := rfl
@[simp] theorem setGov_descs (x : Gov) : (s.setGov x).descs = s.descs := rfl
@[simp] theorem setGov_nextId (x : Gov) : (s.setGov x).nextId = s.nextId := rfl
@[simp] theorem setGov_ctxs (x : Gov) : (s.setGov x).ctxs = s.ctxs := rfl
@[simp] theorem setGov_cores (x : Gov) : (s.setGov x).cores = s.cores := rfl
@[simp] theorem setGov_clus (x : Gov) : (s.setGov x).clus = s.clus := rfl
@[simp] theorem setGov_dies (x : Gov) : (s.setGov x).dies = s.dies := rfl
@[simp] theorem setGov_links (x : Gov) : (s.setGov x).links = s.links := rfl
@[simp] theorem setGov_aborts (x : Gov) : (s.setGov x).aborts = s.aborts := rfl
@[simp] theorem setGov_pages (x : Gov) : (s.setGov x).pages = s.pages := rfl
@[simp] theorem setGov_strs (x : Gov) : (s.setGov x).strs = s.strs := rfl
@[simp] theorem setGov_maps (x : Gov) : (s.setGov x).maps = s.maps := rfl
@[simp] theorem setGov_objs (x : Gov) : (s.setGov x).objs = s.objs := rfl
@[simp] theorem setGov_copies (x : Gov) : (s.setGov x).copies = s.copies := rfl
@[simp] theorem setGov_spills (x : Gov) : (s.setGov x).spills = s.spills := rfl
@[simp] theorem setGov_chans (x : Gov) : (s.setGov x).chans = s.chans := rfl
@[simp] theorem setGov_apers (x : Gov) : (s.setGov x).apers = s.apers := rfl
@[simp] theorem setGov_stageQ (x : Gov) : (s.setGov x).stageQ = s.stageQ := rfl
@[simp] theorem setGov_h2b (x : Gov) : (s.setGov x).h2b = s.h2b := rfl
@[simp] theorem setGov_b2h (x : Gov) : (s.setGov x).b2h = s.b2h := rfl
@[simp] theorem setGov_md (x : Gov) : (s.setGov x).md = s.md := rfl
@[simp] theorem setGov_isl (x : Gov) : (s.setGov x).isl = s.isl := rfl
@[simp] theorem setGov_rcv (x : Gov) : (s.setGov x).rcv = s.rcv := rfl
@[simp] theorem setGov_fse (x : Gov) : (s.setGov x).fse = s.fse := rfl
@[simp] theorem setGov_esp (x : Gov) : (s.setGov x).esp = s.esp := rfl
@[simp] theorem setGov_brd (x : Gov) : (s.setGov x).brd = s.brd := rfl
@[simp] theorem setGov_wire (x : Gov) : (s.setGov x).wire = s.wire := rfl
@[simp] theorem setGov_od_of (x : Gov) (p q r : Nat) : (s.setGov x).od p q r = s.od p q r := rfl
@[simp] theorem setGov_reg_of (x : Gov) (p : Nat) : (s.setGov x).reg p = s.reg p := rfl
@[simp] theorem setGov_ctx_of (x : Gov) (p : Nat) : (s.setGov x).ctx p = s.ctx p := rfl
@[simp] theorem setGov_desc_of (x : Gov) (p : Nat) : (s.setGov x).desc? p = s.desc? p := rfl
@[simp] theorem setGov_obj_of (x : Gov) (p : Nat) : (s.setGov x).obj p = s.obj p := rfl
@[simp] theorem setGov_core_of (x : Gov) (p : Nat) : (s.setGov x).core p = s.core p := rfl
@[simp] theorem setGov_clu_of (x : Gov) (p : Nat) : (s.setGov x).clu p = s.clu p := rfl
@[simp] theorem setGov_die_of (x : Gov) (p : Nat) : (s.setGov x).die p = s.die p := rfl
@[simp] theorem setGov_chan_of (x : Gov) (p : Nat) : (s.setGov x).chan p = s.chan p := rfl
@[simp] theorem setGov_aper_of (x : Gov) (p : Nat) : (s.setGov x).aper p = s.aper p := rfl
@[simp] theorem setGov_page_of (x : Gov) (p : Nat) : (s.setGov x).page p = s.page p := rfl
@[simp] theorem setGov_strm_of (x : Gov) (p : Nat) : (s.setGov x).strm p = s.strm p := rfl
@[simp] theorem setGov_sdMap_of (x : Gov) (p : Nat) : (s.setGov x).sdMap p = s.sdMap p := rfl
@[simp] theorem setGov_link_of (x : Gov) (p : Nat) : (s.setGov x).link p = s.link p := rfl

/-! ### `setBrd` -/

@[simp] theorem setBrd_pending (x : Brd) : (s.setBrd x).pending = s.pending := rfl
@[simp] theorem setBrd_free (x : Brd) : (s.setBrd x).free = s.free := rfl
@[simp] theorem setBrd_mem (x : Brd) : (s.setBrd x).mem = s.mem := rfl
@[simp] theorem setBrd_flash (x : Brd) : (s.setBrd x).flash = s.flash := rfl
@[simp] theorem setBrd_dict (x : Brd) : (s.setBrd x).dict = s.dict := rfl
@[simp] theorem setBrd_regs (x : Brd) : (s.setBrd x).regs = s.regs := rfl
@[simp] theorem setBrd_descs (x : Brd) : (s.setBrd x).descs = s.descs := rfl
@[simp] theorem setBrd_nextId (x : Brd) : (s.setBrd x).nextId = s.nextId := rfl
@[simp] theorem setBrd_ctxs (x : Brd) : (s.setBrd x).ctxs = s.ctxs := rfl
@[simp] theorem setBrd_cores (x : Brd) : (s.setBrd x).cores = s.cores := rfl
@[simp] theorem setBrd_clus (x : Brd) : (s.setBrd x).clus = s.clus := rfl
@[simp] theorem setBrd_dies (x : Brd) : (s.setBrd x).dies = s.dies := rfl
@[simp] theorem setBrd_links (x : Brd) : (s.setBrd x).links = s.links := rfl
@[simp] theorem setBrd_aborts (x : Brd) : (s.setBrd x).aborts = s.aborts := rfl
@[simp] theorem setBrd_pages (x : Brd) : (s.setBrd x).pages = s.pages := rfl
@[simp] theorem setBrd_strs (x : Brd) : (s.setBrd x).strs = s.strs := rfl
@[simp] theorem setBrd_maps (x : Brd) : (s.setBrd x).maps = s.maps := rfl
@[simp] theorem setBrd_objs (x : Brd) : (s.setBrd x).objs = s.objs := rfl
@[simp] theorem setBrd_copies (x : Brd) : (s.setBrd x).copies = s.copies := rfl
@[simp] theorem setBrd_spills (x : Brd) : (s.setBrd x).spills = s.spills := rfl
@[simp] theorem setBrd_chans (x : Brd) : (s.setBrd x).chans = s.chans := rfl
@[simp] theorem setBrd_apers (x : Brd) : (s.setBrd x).apers = s.apers := rfl
@[simp] theorem setBrd_stageQ (x : Brd) : (s.setBrd x).stageQ = s.stageQ := rfl
@[simp] theorem setBrd_h2b (x : Brd) : (s.setBrd x).h2b = s.h2b := rfl
@[simp] theorem setBrd_b2h (x : Brd) : (s.setBrd x).b2h = s.b2h := rfl
@[simp] theorem setBrd_md (x : Brd) : (s.setBrd x).md = s.md := rfl
@[simp] theorem setBrd_isl (x : Brd) : (s.setBrd x).isl = s.isl := rfl
@[simp] theorem setBrd_rcv (x : Brd) : (s.setBrd x).rcv = s.rcv := rfl
@[simp] theorem setBrd_fse (x : Brd) : (s.setBrd x).fse = s.fse := rfl
@[simp] theorem setBrd_esp (x : Brd) : (s.setBrd x).esp = s.esp := rfl
@[simp] theorem setBrd_gov (x : Brd) : (s.setBrd x).gov = s.gov := rfl
@[simp] theorem setBrd_wire (x : Brd) : (s.setBrd x).wire = s.wire := rfl
@[simp] theorem setBrd_od_of (x : Brd) (p q r : Nat) : (s.setBrd x).od p q r = s.od p q r := rfl
@[simp] theorem setBrd_reg_of (x : Brd) (p : Nat) : (s.setBrd x).reg p = s.reg p := rfl
@[simp] theorem setBrd_ctx_of (x : Brd) (p : Nat) : (s.setBrd x).ctx p = s.ctx p := rfl
@[simp] theorem setBrd_desc_of (x : Brd) (p : Nat) : (s.setBrd x).desc? p = s.desc? p := rfl
@[simp] theorem setBrd_obj_of (x : Brd) (p : Nat) : (s.setBrd x).obj p = s.obj p := rfl
@[simp] theorem setBrd_core_of (x : Brd) (p : Nat) : (s.setBrd x).core p = s.core p := rfl
@[simp] theorem setBrd_clu_of (x : Brd) (p : Nat) : (s.setBrd x).clu p = s.clu p := rfl
@[simp] theorem setBrd_die_of (x : Brd) (p : Nat) : (s.setBrd x).die p = s.die p := rfl
@[simp] theorem setBrd_chan_of (x : Brd) (p : Nat) : (s.setBrd x).chan p = s.chan p := rfl
@[simp] theorem setBrd_aper_of (x : Brd) (p : Nat) : (s.setBrd x).aper p = s.aper p := rfl
@[simp] theorem setBrd_page_of (x : Brd) (p : Nat) : (s.setBrd x).page p = s.page p := rfl
@[simp] theorem setBrd_strm_of (x : Brd) (p : Nat) : (s.setBrd x).strm p = s.strm p := rfl
@[simp] theorem setBrd_sdMap_of (x : Brd) (p : Nat) : (s.setBrd x).sdMap p = s.sdMap p := rfl
@[simp] theorem setBrd_link_of (x : Brd) (p : Nat) : (s.setBrd x).link p = s.link p := rfl

/-! ### `setMon` -/

@[simp] theorem setMon_pending (n : Nat) (x : Mon) : (s.setMon n x).pending = s.pending := rfl
@[simp] theorem setMon_free (n : Nat) (x : Mon) : (s.setMon n x).free = s.free := rfl
@[simp] theorem setMon_mem (n : Nat) (x : Mon) : (s.setMon n x).mem = s.mem := rfl
@[simp] theorem setMon_flash (n : Nat) (x : Mon) : (s.setMon n x).flash = s.flash := rfl
@[simp] theorem setMon_dict (n : Nat) (x : Mon) : (s.setMon n x).dict = s.dict := rfl
@[simp] theorem setMon_regs (n : Nat) (x : Mon) : (s.setMon n x).regs = s.regs := rfl
@[simp] theorem setMon_descs (n : Nat) (x : Mon) : (s.setMon n x).descs = s.descs := rfl
@[simp] theorem setMon_nextId (n : Nat) (x : Mon) : (s.setMon n x).nextId = s.nextId := rfl
@[simp] theorem setMon_ctxs (n : Nat) (x : Mon) : (s.setMon n x).ctxs = s.ctxs := rfl
@[simp] theorem setMon_cores (n : Nat) (x : Mon) : (s.setMon n x).cores = s.cores := rfl
@[simp] theorem setMon_clus (n : Nat) (x : Mon) : (s.setMon n x).clus = s.clus := rfl
@[simp] theorem setMon_dies (n : Nat) (x : Mon) : (s.setMon n x).dies = s.dies := rfl
@[simp] theorem setMon_links (n : Nat) (x : Mon) : (s.setMon n x).links = s.links := rfl
@[simp] theorem setMon_aborts (n : Nat) (x : Mon) : (s.setMon n x).aborts = s.aborts := rfl
@[simp] theorem setMon_pages (n : Nat) (x : Mon) : (s.setMon n x).pages = s.pages := rfl
@[simp] theorem setMon_strs (n : Nat) (x : Mon) : (s.setMon n x).strs = s.strs := rfl
@[simp] theorem setMon_maps (n : Nat) (x : Mon) : (s.setMon n x).maps = s.maps := rfl
@[simp] theorem setMon_objs (n : Nat) (x : Mon) : (s.setMon n x).objs = s.objs := rfl
@[simp] theorem setMon_copies (n : Nat) (x : Mon) : (s.setMon n x).copies = s.copies := rfl
@[simp] theorem setMon_spills (n : Nat) (x : Mon) : (s.setMon n x).spills = s.spills := rfl
@[simp] theorem setMon_chans (n : Nat) (x : Mon) : (s.setMon n x).chans = s.chans := rfl
@[simp] theorem setMon_apers (n : Nat) (x : Mon) : (s.setMon n x).apers = s.apers := rfl
@[simp] theorem setMon_stageQ (n : Nat) (x : Mon) : (s.setMon n x).stageQ = s.stageQ := rfl
@[simp] theorem setMon_h2b (n : Nat) (x : Mon) : (s.setMon n x).h2b = s.h2b := rfl
@[simp] theorem setMon_b2h (n : Nat) (x : Mon) : (s.setMon n x).b2h = s.b2h := rfl
@[simp] theorem setMon_md (n : Nat) (x : Mon) : (s.setMon n x).md = s.md := rfl
@[simp] theorem setMon_rcv (n : Nat) (x : Mon) : (s.setMon n x).rcv = s.rcv := rfl
@[simp] theorem setMon_fse (n : Nat) (x : Mon) : (s.setMon n x).fse = s.fse := rfl
@[simp] theorem setMon_esp (n : Nat) (x : Mon) : (s.setMon n x).esp = s.esp := rfl
@[simp] theorem setMon_gov (n : Nat) (x : Mon) : (s.setMon n x).gov = s.gov := rfl
@[simp] theorem setMon_brd (n : Nat) (x : Mon) : (s.setMon n x).brd = s.brd := rfl
@[simp] theorem setMon_wire (n : Nat) (x : Mon) : (s.setMon n x).wire = s.wire := rfl
@[simp] theorem setMon_od_of (n : Nat) (x : Mon) (p q r : Nat) : (s.setMon n x).od p q r = s.od p q r := rfl
@[simp] theorem setMon_reg_of (n : Nat) (x : Mon) (p : Nat) : (s.setMon n x).reg p = s.reg p := rfl
@[simp] theorem setMon_ctx_of (n : Nat) (x : Mon) (p : Nat) : (s.setMon n x).ctx p = s.ctx p := rfl
@[simp] theorem setMon_desc_of (n : Nat) (x : Mon) (p : Nat) : (s.setMon n x).desc? p = s.desc? p := rfl
@[simp] theorem setMon_obj_of (n : Nat) (x : Mon) (p : Nat) : (s.setMon n x).obj p = s.obj p := rfl
@[simp] theorem setMon_core_of (n : Nat) (x : Mon) (p : Nat) : (s.setMon n x).core p = s.core p := rfl
@[simp] theorem setMon_clu_of (n : Nat) (x : Mon) (p : Nat) : (s.setMon n x).clu p = s.clu p := rfl
@[simp] theorem setMon_die_of (n : Nat) (x : Mon) (p : Nat) : (s.setMon n x).die p = s.die p := rfl
@[simp] theorem setMon_chan_of (n : Nat) (x : Mon) (p : Nat) : (s.setMon n x).chan p = s.chan p := rfl
@[simp] theorem setMon_aper_of (n : Nat) (x : Mon) (p : Nat) : (s.setMon n x).aper p = s.aper p := rfl
@[simp] theorem setMon_page_of (n : Nat) (x : Mon) (p : Nat) : (s.setMon n x).page p = s.page p := rfl
@[simp] theorem setMon_strm_of (n : Nat) (x : Mon) (p : Nat) : (s.setMon n x).strm p = s.strm p := rfl
@[simp] theorem setMon_sdMap_of (n : Nat) (x : Mon) (p : Nat) : (s.setMon n x).sdMap p = s.sdMap p := rfl
@[simp] theorem setMon_link_of (n : Nat) (x : Mon) (p : Nat) : (s.setMon n x).link p = s.link p := rfl

/-! ### `setTst` -/

@[simp] theorem setTst_pending (n : Nat) (x : Tst) : (s.setTst n x).pending = s.pending := rfl
@[simp] theorem setTst_free (n : Nat) (x : Tst) : (s.setTst n x).free = s.free := rfl
@[simp] theorem setTst_mem (n : Nat) (x : Tst) : (s.setTst n x).mem = s.mem := rfl
@[simp] theorem setTst_flash (n : Nat) (x : Tst) : (s.setTst n x).flash = s.flash := rfl
@[simp] theorem setTst_dict (n : Nat) (x : Tst) : (s.setTst n x).dict = s.dict := rfl
@[simp] theorem setTst_regs (n : Nat) (x : Tst) : (s.setTst n x).regs = s.regs := rfl
@[simp] theorem setTst_descs (n : Nat) (x : Tst) : (s.setTst n x).descs = s.descs := rfl
@[simp] theorem setTst_nextId (n : Nat) (x : Tst) : (s.setTst n x).nextId = s.nextId := rfl
@[simp] theorem setTst_ctxs (n : Nat) (x : Tst) : (s.setTst n x).ctxs = s.ctxs := rfl
@[simp] theorem setTst_cores (n : Nat) (x : Tst) : (s.setTst n x).cores = s.cores := rfl
@[simp] theorem setTst_clus (n : Nat) (x : Tst) : (s.setTst n x).clus = s.clus := rfl
@[simp] theorem setTst_dies (n : Nat) (x : Tst) : (s.setTst n x).dies = s.dies := rfl
@[simp] theorem setTst_links (n : Nat) (x : Tst) : (s.setTst n x).links = s.links := rfl
@[simp] theorem setTst_aborts (n : Nat) (x : Tst) : (s.setTst n x).aborts = s.aborts := rfl
@[simp] theorem setTst_pages (n : Nat) (x : Tst) : (s.setTst n x).pages = s.pages := rfl
@[simp] theorem setTst_strs (n : Nat) (x : Tst) : (s.setTst n x).strs = s.strs := rfl
@[simp] theorem setTst_maps (n : Nat) (x : Tst) : (s.setTst n x).maps = s.maps := rfl
@[simp] theorem setTst_objs (n : Nat) (x : Tst) : (s.setTst n x).objs = s.objs := rfl
@[simp] theorem setTst_copies (n : Nat) (x : Tst) : (s.setTst n x).copies = s.copies := rfl
@[simp] theorem setTst_spills (n : Nat) (x : Tst) : (s.setTst n x).spills = s.spills := rfl
@[simp] theorem setTst_chans (n : Nat) (x : Tst) : (s.setTst n x).chans = s.chans := rfl
@[simp] theorem setTst_apers (n : Nat) (x : Tst) : (s.setTst n x).apers = s.apers := rfl
@[simp] theorem setTst_stageQ (n : Nat) (x : Tst) : (s.setTst n x).stageQ = s.stageQ := rfl
@[simp] theorem setTst_h2b (n : Nat) (x : Tst) : (s.setTst n x).h2b = s.h2b := rfl
@[simp] theorem setTst_b2h (n : Nat) (x : Tst) : (s.setTst n x).b2h = s.b2h := rfl
@[simp] theorem setTst_md (n : Nat) (x : Tst) : (s.setTst n x).md = s.md := rfl
@[simp] theorem setTst_rcv (n : Nat) (x : Tst) : (s.setTst n x).rcv = s.rcv := rfl
@[simp] theorem setTst_fse (n : Nat) (x : Tst) : (s.setTst n x).fse = s.fse := rfl
@[simp] theorem setTst_esp (n : Nat) (x : Tst) : (s.setTst n x).esp = s.esp := rfl
@[simp] theorem setTst_gov (n : Nat) (x : Tst) : (s.setTst n x).gov = s.gov := rfl
@[simp] theorem setTst_brd (n : Nat) (x : Tst) : (s.setTst n x).brd = s.brd := rfl
@[simp] theorem setTst_wire (n : Nat) (x : Tst) : (s.setTst n x).wire = s.wire := rfl
@[simp] theorem setTst_od_of (n : Nat) (x : Tst) (p q r : Nat) : (s.setTst n x).od p q r = s.od p q r := rfl
@[simp] theorem setTst_reg_of (n : Nat) (x : Tst) (p : Nat) : (s.setTst n x).reg p = s.reg p := rfl
@[simp] theorem setTst_ctx_of (n : Nat) (x : Tst) (p : Nat) : (s.setTst n x).ctx p = s.ctx p := rfl
@[simp] theorem setTst_desc_of (n : Nat) (x : Tst) (p : Nat) : (s.setTst n x).desc? p = s.desc? p := rfl
@[simp] theorem setTst_obj_of (n : Nat) (x : Tst) (p : Nat) : (s.setTst n x).obj p = s.obj p := rfl
@[simp] theorem setTst_core_of (n : Nat) (x : Tst) (p : Nat) : (s.setTst n x).core p = s.core p := rfl
@[simp] theorem setTst_clu_of (n : Nat) (x : Tst) (p : Nat) : (s.setTst n x).clu p = s.clu p := rfl
@[simp] theorem setTst_die_of (n : Nat) (x : Tst) (p : Nat) : (s.setTst n x).die p = s.die p := rfl
@[simp] theorem setTst_chan_of (n : Nat) (x : Tst) (p : Nat) : (s.setTst n x).chan p = s.chan p := rfl
@[simp] theorem setTst_aper_of (n : Nat) (x : Tst) (p : Nat) : (s.setTst n x).aper p = s.aper p := rfl
@[simp] theorem setTst_page_of (n : Nat) (x : Tst) (p : Nat) : (s.setTst n x).page p = s.page p := rfl
@[simp] theorem setTst_strm_of (n : Nat) (x : Tst) (p : Nat) : (s.setTst n x).strm p = s.strm p := rfl
@[simp] theorem setTst_sdMap_of (n : Nat) (x : Tst) (p : Nat) : (s.setTst n x).sdMap p = s.sdMap p := rfl
@[simp] theorem setTst_link_of (n : Nat) (x : Tst) (p : Nat) : (s.setTst n x).link p = s.link p := rfl

/-! ### `setVer` -/

@[simp] theorem setVer_pending (n : Nat) (x : Ver) : (s.setVer n x).pending = s.pending := rfl
@[simp] theorem setVer_free (n : Nat) (x : Ver) : (s.setVer n x).free = s.free := rfl
@[simp] theorem setVer_mem (n : Nat) (x : Ver) : (s.setVer n x).mem = s.mem := rfl
@[simp] theorem setVer_flash (n : Nat) (x : Ver) : (s.setVer n x).flash = s.flash := rfl
@[simp] theorem setVer_dict (n : Nat) (x : Ver) : (s.setVer n x).dict = s.dict := rfl
@[simp] theorem setVer_regs (n : Nat) (x : Ver) : (s.setVer n x).regs = s.regs := rfl
@[simp] theorem setVer_descs (n : Nat) (x : Ver) : (s.setVer n x).descs = s.descs := rfl
@[simp] theorem setVer_nextId (n : Nat) (x : Ver) : (s.setVer n x).nextId = s.nextId := rfl
@[simp] theorem setVer_ctxs (n : Nat) (x : Ver) : (s.setVer n x).ctxs = s.ctxs := rfl
@[simp] theorem setVer_cores (n : Nat) (x : Ver) : (s.setVer n x).cores = s.cores := rfl
@[simp] theorem setVer_clus (n : Nat) (x : Ver) : (s.setVer n x).clus = s.clus := rfl
@[simp] theorem setVer_dies (n : Nat) (x : Ver) : (s.setVer n x).dies = s.dies := rfl
@[simp] theorem setVer_links (n : Nat) (x : Ver) : (s.setVer n x).links = s.links := rfl
@[simp] theorem setVer_aborts (n : Nat) (x : Ver) : (s.setVer n x).aborts = s.aborts := rfl
@[simp] theorem setVer_pages (n : Nat) (x : Ver) : (s.setVer n x).pages = s.pages := rfl
@[simp] theorem setVer_strs (n : Nat) (x : Ver) : (s.setVer n x).strs = s.strs := rfl
@[simp] theorem setVer_maps (n : Nat) (x : Ver) : (s.setVer n x).maps = s.maps := rfl
@[simp] theorem setVer_objs (n : Nat) (x : Ver) : (s.setVer n x).objs = s.objs := rfl
@[simp] theorem setVer_copies (n : Nat) (x : Ver) : (s.setVer n x).copies = s.copies := rfl
@[simp] theorem setVer_spills (n : Nat) (x : Ver) : (s.setVer n x).spills = s.spills := rfl
@[simp] theorem setVer_chans (n : Nat) (x : Ver) : (s.setVer n x).chans = s.chans := rfl
@[simp] theorem setVer_apers (n : Nat) (x : Ver) : (s.setVer n x).apers = s.apers := rfl
@[simp] theorem setVer_stageQ (n : Nat) (x : Ver) : (s.setVer n x).stageQ = s.stageQ := rfl
@[simp] theorem setVer_h2b (n : Nat) (x : Ver) : (s.setVer n x).h2b = s.h2b := rfl
@[simp] theorem setVer_b2h (n : Nat) (x : Ver) : (s.setVer n x).b2h = s.b2h := rfl
@[simp] theorem setVer_md (n : Nat) (x : Ver) : (s.setVer n x).md = s.md := rfl
@[simp] theorem setVer_rcv (n : Nat) (x : Ver) : (s.setVer n x).rcv = s.rcv := rfl
@[simp] theorem setVer_fse (n : Nat) (x : Ver) : (s.setVer n x).fse = s.fse := rfl
@[simp] theorem setVer_esp (n : Nat) (x : Ver) : (s.setVer n x).esp = s.esp := rfl
@[simp] theorem setVer_gov (n : Nat) (x : Ver) : (s.setVer n x).gov = s.gov := rfl
@[simp] theorem setVer_brd (n : Nat) (x : Ver) : (s.setVer n x).brd = s.brd := rfl
@[simp] theorem setVer_wire (n : Nat) (x : Ver) : (s.setVer n x).wire = s.wire := rfl
@[simp] theorem setVer_od_of (n : Nat) (x : Ver) (p q r : Nat) : (s.setVer n x).od p q r = s.od p q r := rfl
@[simp] theorem setVer_reg_of (n : Nat) (x : Ver) (p : Nat) : (s.setVer n x).reg p = s.reg p := rfl
@[simp] theorem setVer_ctx_of (n : Nat) (x : Ver) (p : Nat) : (s.setVer n x).ctx p = s.ctx p := rfl
@[simp] theorem setVer_desc_of (n : Nat) (x : Ver) (p : Nat) : (s.setVer n x).desc? p = s.desc? p := rfl
@[simp] theorem setVer_obj_of (n : Nat) (x : Ver) (p : Nat) : (s.setVer n x).obj p = s.obj p := rfl
@[simp] theorem setVer_core_of (n : Nat) (x : Ver) (p : Nat) : (s.setVer n x).core p = s.core p := rfl
@[simp] theorem setVer_clu_of (n : Nat) (x : Ver) (p : Nat) : (s.setVer n x).clu p = s.clu p := rfl
@[simp] theorem setVer_die_of (n : Nat) (x : Ver) (p : Nat) : (s.setVer n x).die p = s.die p := rfl
@[simp] theorem setVer_chan_of (n : Nat) (x : Ver) (p : Nat) : (s.setVer n x).chan p = s.chan p := rfl
@[simp] theorem setVer_aper_of (n : Nat) (x : Ver) (p : Nat) : (s.setVer n x).aper p = s.aper p := rfl
@[simp] theorem setVer_page_of (n : Nat) (x : Ver) (p : Nat) : (s.setVer n x).page p = s.page p := rfl
@[simp] theorem setVer_strm_of (n : Nat) (x : Ver) (p : Nat) : (s.setVer n x).strm p = s.strm p := rfl
@[simp] theorem setVer_sdMap_of (n : Nat) (x : Ver) (p : Nat) : (s.setVer n x).sdMap p = s.sdMap p := rfl
@[simp] theorem setVer_link_of (n : Nat) (x : Ver) (p : Nat) : (s.setVer n x).link p = s.link p := rfl

end Sys2Proof.Machine.State
end

