-- ==== Sys2Proof/Laws/Memory.lean ====
section
/-! SUPPORT. Memory and flash: what a write changes, that every memory operation keeps the canonical form, and what the end
of a command does. -/

namespace Sys2Proof.Machine

theorem Memory.wf_cellSet (a : Nat) (b : Byte) (m : List Host.Cell) : Memory.wf m = true → Memory.wf (cellSet 0 a b m) = true :=
  AMap.wfD_put 0 a b m

theorem Flash.wf_cellSet (a : Nat) (b : Byte) (m : List Host.Cell) : Flash.wf m = true → Flash.wf (cellSet 0xFF a b m) = true :=
  AMap.wfD_put 0xFF a b m

theorem Memory.wf_cellClear (lo n : Nat) (m : List Host.Cell) : Memory.wf m = true → Memory.wf (cellClear lo n m) = true :=
  AMap.wfD_keep 0 _ m

theorem Memory.wf_cellPaste (lo : Nat) (cs m : List Host.Cell) :
    Memory.wf m = true → Memory.wf (cellPaste 0 lo cs m) = true := by
  induction cs generalizing m with
  | nil => exact id
  | cons c cs ih => exact fun h => ih _ (Memory.wf_cellSet _ _ m h)

theorem Memory.wf_wrByte (s : State) (a : Nat) (b : Byte) : Memory.wf s.mem = true → Memory.wf (s.wrByte a b).mem = true := by
  unfold State.wrByte
  split
  · exact id
  · exact Memory.wf_cellSet _ _ _

theorem Memory.wf_wr (s : State) (a : Nat) (l : List Byte) : Memory.wf s.mem = true → Memory.wf (s.wr a l).mem = true := by
  induction l generalizing s a with
  | nil => exact id
  | cons b l ih => exact fun h => ih _ _ (Memory.wf_wrByte s a b h)

theorem Memory.wf_foldl_wrByte {α : Type} (f : α → Nat) (g : α → Byte) (l : List α) (s : State) :
    Memory.wf s.mem = true → Memory.wf (l.foldl (fun s x => s.wrByte (f x) (g x)) s).mem = true := by
  induction l generalizing s with
  | nil => exact id
  | cons x l ih => exact fun h => ih _ (Memory.wf_wrByte s _ _ h)

theorem Memory.wf_paste (s : State) (a n : Nat) (cs : List Host.Cell) :
    Memory.wf s.mem = true → Memory.wf (s.paste a n cs).mem = true := by
  unfold State.paste
  intro h
  split
  · exact Memory.wf_foldl_wrByte (fun c => a + c.1) (fun c => c.2) cs _ (Memory.wf_foldl_wrByte (fun i => a + i) (fun _ => 0) _ s h)
  · exact Memory.wf_cellPaste _ _ _ (Memory.wf_cellClear _ _ _ h)

theorem Memory.wf_copyMem (s : State) (src dst n : Nat) :
    Memory.wf s.mem = true → Memory.wf (s.copyMem src dst n).mem = true :=
  Memory.wf_paste s dst n _

theorem Memory.wf_scribble (s : State) (a n : Nat) :
    Memory.wf s.mem = true → Memory.wf (s.scribble a n).mem = true :=
  fun h => Memory.wf_wr { s with free := s.free + 1 } a _ h

/-! ### The end of a command -/

theorem cellGet_cellSet (d e : Byte) (k a : Nat) (b : Byte) (m : List Host.Cell) :
    cellGet d k (cellSet e a b m) = if a = k then (if b = e then d else b) else cellGet d k m :=
  AMap.getD_put k a e d b m

theorem foldr_cellSet_wf (d : Byte) (m : List Host.Cell) :
    AMap.wfD d (m.foldr (fun c t => cellSet d c.1 c.2 t) []) = true := by
  induction m with
  | nil => rfl
  | cons c m ih => exact AMap.wfD_put d c.1 c.2 _ ih

theorem foldr_cellSet_get (d : Byte) (k : Nat) (m : List Host.Cell) :
    cellGet d k (m.foldr (fun c t => cellSet d c.1 c.2 t) []) = cellGet d k m := by
  induction m with
  | nil => rfl
  | cons c m ih =>
    obtain ⟨i, b⟩ := c
    rw [List.foldr_cons, cellGet_cellSet, ih]
    simp only [cellGet, AMap.getD, AMap.get?]
    grind

theorem cellCanon_wf (d : Byte) (m : List Host.Cell) : AMap.wfD d (cellCanon d m) = true := by
  unfold cellCanon
  split
  · assumption
  · exact foldr_cellSet_wf d m

@[simp] theorem cellGet_cellCanon (d : Byte) (k : Nat) (m : List Host.Cell) : cellGet d k (cellCanon d m) = cellGet d k m := by
  unfold cellCanon
  split
  · rfl
  · exact foldr_cellSet_get d k m

theorem cellCanon_of_wf (d : Byte) (m : List Host.Cell) (h : AMap.wfD d m = true) : cellCanon d m = m := by
  simp [cellCanon, h]

/-- What the end of a command answers, field by field. -/
theorem State.done_next (s t : State) :
    ∃ u, s.done t = .next u ∧ u = { t with pending := s.pending, mem := cellCanon 0 t.mem, flash := cellCanon 0xFF t.flash } ∧
      Invariant u ∧ u.pending = s.pending :=
  ⟨_, rfl, rfl, ⟨cellCanon_wf 0 t.mem, cellCanon_wf 0xFF t.flash⟩, rfl⟩

/-- A command that touches neither queue nor memory nor flash, in a state that keeps the invariant, answers just its effect. -/
theorem State.done_of_same {s t : State} (h : Invariant s) (hp : t.pending = s.pending) (hm : t.mem = s.mem)
    (hf : t.flash = s.flash) : s.done t = .next t := by
  have h1 : cellCanon 0 t.mem = t.mem := cellCanon_of_wf 0 _ (by rw [hm]; exact h.1)
  have h2 : cellCanon 0xFF t.flash = t.flash := cellCanon_of_wf 0xFF _ (by rw [hf]; exact h.2)
  simp only [State.done, h1, h2, ← hp]

/-- The same where memory changes too, to another canonical memory. -/
theorem State.done_of_wf {s t : State} (hp : t.pending = s.pending) (h : Invariant t) : s.done t = .next t := by
  simp only [State.done, cellCanon_of_wf 0 _ h.1, cellCanon_of_wf 0xFF _ h.2, ← hp]

/-! ### The readers after their own updates -/

theorem odKey_inj {i j k p q r : Nat} (hj : j < 256) (hq : q < 256) (hk : k < 65536) (hr : r < 65536) :
    odKey i j k = odKey p q r ↔ i = p ∧ j = q ∧ k = r := by
  unfold odKey; omega

@[simp] theorem State.setOd_od_self (s : State) (i j v k : Nat) : (s.setOd i j v k).od i j k = v :=
  AMap.getD_put_self _ _ _ _

theorem State.setOd_od_ne (s : State) {i j k p q r : Nat} (v : Nat) (h : odKey i j k ≠ odKey p q r) :
    (s.setOd i j v k).od p q r = s.od p q r :=
  AMap.getD_put_ne h _ _ _ _

@[simp] theorem State.bumpOd_od_self (s : State) (i j n w k : Nat) :
    (s.bumpOd i j n w k).od i j k = (s.od i j k + n) % 2 ^ w :=
  AMap.getD_put_self _ _ _ _

theorem State.bumpOd_od_ne (s : State) {i j k p q r : Nat} (n w : Nat) (h : odKey i j k ≠ odKey p q r) :
    (s.bumpOd i j n w k).od p q r = s.od p q r :=
  AMap.getD_put_ne h _ _ _ _

@[simp] theorem State.setReg_reg (s : State) (a v b : Nat) : (s.setReg a v).reg b = if a = b then v else s.reg b := by
  simp only [State.reg, State.setReg, AMap.getD_put]; grind

@[simp] theorem State.bumpReg_reg (s : State) (a n b : Nat) :
    (s.bumpReg a n).reg b = if a = b then (s.reg a + n) % 2 ^ 64 else s.reg b := State.setReg_reg _ _ _ _

@[simp] theorem State.setCtx_ctx (s : State) (c d : Nat) (x : Ctx) : (s.setCtx c x).ctx d = if c = d then x else s.ctx d := by
  simp only [State.ctx, State.setCtx, AMap.getD_put]; grind

@[simp] theorem State.setPage_page (s : State) (c d : Nat) (x : Page) : (s.setPage c x).page d = if c = d then x else s.page d := by
  simp only [State.page, State.setPage, AMap.getD_put]; grind

@[simp] theorem State.setStrm_strm (s : State) (c d : Nat) (x : Strm) : (s.setStrm c x).strm d = if c = d then x else s.strm d := by
  simp only [State.strm, State.setStrm, AMap.getD_put]; grind

@[simp] theorem State.setMap_sdMap (s : State) (c d : Nat) (x : SdMap) : (s.setMap c x).sdMap d = if c = d then x else s.sdMap d := by
  simp only [State.sdMap, State.setMap, AMap.getD_put]; grind

@[simp] theorem State.setObj_obj (s : State) (c d : Nat) (x : Obj) : (s.setObj c x).obj d = if c = d then x else s.obj d := by
  simp only [State.obj, State.setObj, AMap.getD_put]; grind

@[simp] theorem State.setClu_clu (s : State) (c d : Nat) (x : Clus) : (s.setClu c x).clu d = if c = d then x else s.clu d := by
  simp only [State.clu, State.setClu, AMap.getD_put]; grind

@[simp] theorem State.setDie_die (s : State) (c d : Nat) (x : Die) : (s.setDie c x).die d = if c = d then x else s.die d := by
  simp only [State.die, State.setDie, AMap.getD_put]; grind

@[simp] theorem State.setLink_link (s : State) (c d : Nat) (x : Link) : (s.setLink c x).link d = if c = d then x else s.link d := by
  simp only [State.link, State.setLink, AMap.getD_put]; grind

@[simp] theorem State.setCore_core (s : State) (c d : Nat) (x : Core) : (s.setCore c x).core d = if c = d then x else s.core d := by
  simp only [State.core, State.setCore, AMap.getD_put]; grind

@[simp] theorem State.setChan_chan (s : State) (c d : Nat) (x : Chan) : (s.setChan c x).chan d = if c = d then x else s.chan d := by
  simp only [State.chan, State.setChan, AMap.getD_put]; grind

@[simp] theorem State.setAper_aper (s : State) (c d : Nat) (x : Aper) : (s.setAper c x).aper d = if c = d then x else s.aper d := by
  simp only [State.aper, State.setAper, AMap.getD_put]; grind

@[simp] theorem State.setMon_mon (s : State) (c d : Nat) (x : Mon) : (s.setMon c x).mon d = if c = d then x else s.mon d := by
  simp only [State.mon, State.setMon, AMap.getD_put]; grind

@[simp] theorem State.setTst_tst (s : State) (c d : Nat) (x : Tst) : (s.setTst c x).tst d = if c = d then x else s.tst d := by
  simp only [State.tst, State.setTst, AMap.getD_put]; grind

@[simp] theorem State.setSrc_src (s : State) (c d : Nat) (x : Src) : (s.setSrc c x).src d = if c = d then x else s.src d := by
  simp only [State.src, State.setSrc, AMap.getD_put]; grind

@[simp] theorem State.setGrp_grp (s : State) (c d : Nat) (x : Grp) : (s.setGrp c x).grp d = if c = d then x else s.grp d := by
  simp only [State.grp, State.setGrp, AMap.getD_put]; grind

@[simp] theorem State.setFset_fset (s : State) (c d : Nat) (x : FSet) : (s.setFset c x).fset d = if c = d then x else s.fset d := by
  simp only [State.fset, State.setFset, AMap.getD_put]; grind

@[simp] theorem State.setDesc_desc (s : State) (c d : Nat) (x : Desc) :
    (s.setDesc c x).desc? d = if c = d then some x else s.desc? d := AMap.get?_ins _ _ _ _

@[simp] theorem State.delDesc_desc (s : State) (c d : Nat) :
    (s.delDesc c).desc? d = if c = d then none else s.desc? d := AMap.get?_del _ _ _

@[simp] theorem State.updDesc_desc (s : State) (c d : Nat) (f : Desc → Desc) :
    (s.updDesc c f).desc? d = if c = d then (s.desc? d).map f else s.desc? d := AMap.get?_upd _ _ _ _

end Sys2Proof.Machine
end

