-- ==== Sys2Proof/Laws/Frame.lean ====
section
/-! SUPPORT. The end of every command, and what a command leaves alone. -/

namespace Sys2Proof.Machine

/-- Every command ends the same way: its effect, with the queue as it found it and memory in canonical form. -/
theorem exec_done (c : Instr) (s : State) : ∃ x, exec c s = s.done x := by
  cases c <;> exact ⟨_, rfl⟩

/-- A run of a step more. -/
theorem run_next (M : Host.Core) (n : Nat) (s u : M.State) (h : M.step s = .next u) : M.run (n + 1) s = M.run n u := by
  rw [Host.Core.run, h]

end Sys2Proof.Machine

namespace Sys2Proof

open Sys2Proof.Machine

/-! ### Frames of bytes, entries and registers -/

theorem SameBytes.of_mem {s t : State} (hm : t.mem = s.mem) (hi : t.interleaved = s.interleaved) (hf : t.flash = s.flash) :
    SameBytes s t := by
  refine ⟨fun a ha => ?_, hf⟩
  simp only [State.byteAt, ha, State.loc, hi, hm]
  simp

theorem SameBytes.of_dict {s t : State} (hm : t.mem = s.mem) (hd : t.dict = s.dict) (hf : t.flash = s.flash) : SameBytes s t := by
  refine SameBytes.of_mem hm ?_ hf
  simp only [State.interleaved, State.od, hd]

theorem SameBytes.refl (s : State) : SameBytes s s := ⟨fun _ _ => rfl, rfl⟩

theorem SameBytes.trans {s t u : State} (h : SameBytes s t) (k : SameBytes t u) : SameBytes s u :=
  ⟨fun a ha => (k.1 a ha).trans (h.1 a ha), k.2.trans h.2⟩

theorem SameOd.of_dict {s t : State} (ks : List Nat) (h : t.dict = s.dict) : SameOd ks s t := by
  intro i j k _; simp only [State.od, h]

theorem SameOd.trans {ks : List Nat} {s t u : State} (h : SameOd ks s t) (k : SameOd ks t u) : SameOd ks s u :=
  fun i j l hk => (k i j l hk).trans (h i j l hk)

theorem SameOd.setOd {ks : List Nat} {s t : State} (h : SameOd ks s t) (i j v k : Nat) (hk : odKey i j k ∈ ks) :
    SameOd ks s (t.setOd i j v k) := by
  intro p q r hn
  rw [← h p q r hn]
  exact State.setOd_od_ne t v (fun e => hn (e ▸ hk))

theorem SameOd.bumpOd {ks : List Nat} {s t : State} (h : SameOd ks s t) (i j n w k : Nat) (hk : odKey i j k ∈ ks) :
    SameOd ks s (t.bumpOd i j n w k) := h.setOd i j _ k hk

theorem SameOd.interleaved {ks : List Nat} {s t : State} (h : SameOd ks s t) (hk : odKey 0x2000 0x10 0 ∉ ks) :
    t.interleaved = s.interleaved := by
  simp only [State.interleaved, h _ _ _ hk]

theorem SameRegs.of_regs {s t : State} (as : List Nat) (h : t.regs = s.regs) : SameRegs as s t := by
  intro a _; simp only [State.reg, h]

theorem SameRegs.trans {as : List Nat} {s t u : State} (h : SameRegs as s t) (k : SameRegs as t u) : SameRegs as s u :=
  fun a ha => (k a ha).trans (h a ha)

theorem SameRegs.setReg {as : List Nat} {s t : State} (h : SameRegs as s t) (a v : Nat) (ha : a ∈ as) :
    SameRegs as s (t.setReg a v) := by
  intro b hb
  have hne : a ≠ b := fun e => hb (e ▸ ha)
  rw [State.setReg_reg, if_neg hne, h b hb]

theorem SameRegs.bumpReg {as : List Nat} {s t : State} (h : SameRegs as s t) (a n : Nat) (ha : a ∈ as) :
    SameRegs as s (t.bumpReg a n) := h.setReg a _ ha

end Sys2Proof
end

