-- ==== Sys2Proof/Laws/Bytes.lean ====
section
/-! SUPPORT. What the writes of memory do to every byte, by location. -/

namespace Sys2Proof.Machine

theorem wrByte_eq (s : State) (a : Nat) (b : Byte) : s.wrByte a b = { s with mem := (s.wrByte a b).mem } := by
  unfold State.wrByte; split <;> rfl

@[simp] theorem wrByte_loc (s : State) (a x : Nat) (b : Byte) : (s.wrByte a b).loc x = s.loc x := by
  unfold State.wrByte; split <;> rfl

/-- A byte after a write of one byte: the write shows at every address of the same location. -/
theorem wrByte_byteAt (s : State) (a c : Nat) (b : Byte) (ha : isRegSpace a = false) (hc : isRegSpace c = false) :
    (s.wrByte a b).byteAt c = if s.loc a = s.loc c then b else s.byteAt c := by
  have e : (s.wrByte a b).mem = cellSet 0 (s.loc a) b s.mem := by
    unfold State.wrByte; rw [if_neg (by simp [ha])]
  simp only [State.byteAt, hc, wrByte_loc, e, Bool.false_eq_true, if_false, cellGet_cellSet]
  split
  · split <;> simp_all
  · rfl

/-- A write to the register space writes no memory. -/
theorem wrByte_regSpace (s : State) (a : Nat) (b : Byte) (ha : isRegSpace a = true) : s.wrByte a b = s := by
  unfold State.wrByte; rw [if_pos ha]

theorem wr_eq (s : State) (a : Nat) (l : List Byte) : s.wr a l = { s with mem := (s.wr a l).mem } := by
  induction l generalizing s a with
  | nil => rfl
  | cons b l ih => rw [State.wr, ih, wrByte_eq]

@[simp] theorem wr_loc (s : State) (a x : Nat) (l : List Byte) : (s.wr a l).loc x = s.loc x := by
  rw [wr_eq]; rfl

/-- Bytes outside the locations written keep their value. -/
theorem wr_byteAt_out (s : State) (a c : Nat) (l : List Byte) (hc : isRegSpace c = false)
    (h : ∀ i, i < l.length → s.loc (a + i) ≠ s.loc c) : (s.wr a l).byteAt c = s.byteAt c := by
  induction l generalizing s a with
  | nil => rfl
  | cons b l ih =>
    rw [State.wr, ih]
    · by_cases ha : isRegSpace a = true
      · rw [wrByte_regSpace _ _ _ ha]
      · have h0 := h 0 (by simp)
        rw [wrByte_byteAt _ _ _ _ (by simpa using ha) hc, if_neg (by simpa using h0)]
    · intro i hi
      have h1 := h (i + 1) (by simp only [List.length_cons]; omega)
      simp only [wrByte_loc]
      rwa [show a + 1 + i = a + (i + 1) by omega]

/-- The bytes written read back, where the addresses name different locations. -/
theorem wr_byteAt_in (s : State) (a : Nat) (l : List Byte) (hr : ∀ i, i < l.length → isRegSpace (a + i) = false)
    (hd : ∀ i j, i < l.length → j < l.length → s.loc (a + i) = s.loc (a + j) → i = j) (k : Nat) (hk : k < l.length) :
    (s.wr a l).byteAt (a + k) = l[k] := by
  induction l generalizing s a k with
  | nil => simp at hk
  | cons b l ih =>
    rw [State.wr]
    cases k with
    | zero =>
      rw [wr_byteAt_out]
      · have h0 := hr 0 (by simp)
        rw [Nat.add_zero] at h0 ⊢
        rw [wrByte_byteAt _ _ _ _ h0 h0, if_pos rfl]; rfl
      · exact hr 0 (by simp)
      · intro i hi h
        simp only [wrByte_loc] at h
        have := hd (i + 1) 0 (by simp only [List.length_cons]; omega) (by simp) (by rwa [show a + (i + 1) = a + 1 + i by omega])
        omega
    | succ k =>
      have hk' : k < l.length := by simpa using hk
      have := ih (s.wrByte a b) (a + 1)
        (fun i hi => by have := hr (i + 1) (by simp only [List.length_cons]; omega); rwa [show a + 1 + i = a + (i + 1) by omega])
        (fun i j hi hj h => by
          simp only [wrByte_loc] at h
          have := hd (i + 1) (j + 1) (by simp only [List.length_cons]; omega) (by simp only [List.length_cons]; omega)
            (by rwa [show a + (i + 1) = a + 1 + i by omega, show a + (j + 1) = a + 1 + j by omega])
          omega) k hk'
      rw [show a + (k + 1) = a + 1 + k by omega, this]; rfl

/-! ### Hub SRAM -/

theorem hub_reg (o : Nat) (h : o < 0x2000000) : isRegSpace (hub o) = false := by
  unfold isRegSpace hub; simp; omega

theorem hub_loc (s : State) (o : Nat) (h : o < 0x2000000) : s.loc (hub o) = hub o := by
  unfold State.loc unalias hub; rw [if_neg (by omega), if_neg (by omega)]

/-- Byte writes to a range of hub SRAM, those of `p` only. -/
theorem foldl_wrByte_hub (w : Nat) (p : Nat → Bool) (f : Nat → Byte) (n : Nat) (s : State) (hw : w + n ≤ 0x2000000) :
    ∃ t, (List.range n).foldl (fun s i => if p i then s.wrByte (hub (w + i)) (f i) else s) s = t ∧
      t = { s with mem := t.mem } ∧ (∀ x, t.loc x = s.loc x) ∧ (Memory.wf s.mem = true → Memory.wf t.mem = true) ∧
      (∀ c, isRegSpace c = false → (∀ i, i < n → hub (w + i) ≠ s.loc c) → t.byteAt c = s.byteAt c) ∧
      (∀ i, i < n → t.byteAt (hub (w + i)) = if p i then f i else s.byteAt (hub (w + i))) := by
  induction n with
  | zero => exact ⟨s, rfl, rfl, fun _ => rfl, id, fun _ _ _ => rfl, fun i hi => absurd hi (by omega)⟩
  | succ n ih =>
    obtain ⟨t, h0, h1, h2, h3, h4, h5⟩ := ih (by omega)
    have r1 := hub_reg (w + n) (by omega)
    have l1 := hub_loc s (w + n) (by omega)
    rw [List.range_succ, List.foldl_append, h0, List.foldl_cons, List.foldl_nil]
    cases hp : p n with
    | true =>
      refine ⟨_, rfl, ?_, ?_, ?_, ?_, ?_⟩ <;> simp only [if_true]
      · rw [wrByte_eq, h1]
      · intro x; rw [wrByte_loc, h2]
      · intro hm; exact Memory.wf_wrByte _ _ _ (h3 hm)
      · intro c hc hd
        rw [wrByte_byteAt _ _ _ _ r1 hc, h2, h2, l1, if_neg (hd n (by omega)), h4 c hc (fun i hi => hd i (by omega))]
      · intro i hi'
        rw [wrByte_byteAt _ _ _ _ r1 (hub_reg _ (by omega)), h2, h2, l1, hub_loc s _ (by omega)]
        by_cases e : i = n
        · subst e; simp [hp]
        · rw [if_neg (by unfold hub; omega), h5 i (by omega)]
    | false =>
      refine ⟨t, rfl, h1, h2, h3, fun c hc hd => h4 c hc (fun i hi => hd i (by omega)), ?_⟩
      intro i hi'
      by_cases e : i = n
      · subst e
        rw [hp]
        exact h4 _ (hub_reg _ (by omega)) (fun j hj => by rw [hub_loc s _ (by omega)]; unfold hub; omega)
      · exact h5 i (by omega)

end Sys2Proof.Machine
end

