-- ==== Sys2Proof/Laws/Access.lean ====
section
/-! SUPPORT. What an access of the object dictionary does, once for every command that is one: a refused write answers its
status, an accepted one has the entry's effect, is claimed and answered. -/

namespace Sys2Proof

open Sys2Proof.Machine

theorem answer_eq (s : State) (path st : Nat) (wr : Bool) (len v : Nat) :
    s.answer path st wr len v = { s with dict := (s.answer path st wr len v).dict, md := (s.answer path st wr len v).md } := by
  unfold State.answer; split <;> rfl

theorem answer_od (s : State) (path st : Nat) (wr : Bool) (len v : Nat) :
    SameOd [odKey 0x2002 3 0] s (s.answer path st wr len v) := by
  unfold State.answer; split
  · exact SameOd.of_dict _ rfl
  · exact (SameOd.of_dict [odKey 0x2002 3 0] (rfl : s.dict = s.dict)).setOd 0x2002 3 st 0 (by simp)

theorem answer_answered (s : State) (path st len v : Nat) : Answered path st (s.answer path st true len v) := by
  unfold State.answer Answered; split
  · rfl
  · exact ⟨State.setOd_od_self _ _ _ _ _, rfl, rfl⟩

theorem answer_md (s : State) (path st len v : Nat) :
    (s.answer path st true len v).md =
      { s.md with hostSt := (s.answer path st true len v).md.hostSt, sdo := (s.answer path st true len v).md.sdo } := by
  unfold State.answer; split <;> rfl

theorem claim_eq (s : State) (path idx sub inst st : Nat) :
    s.claim path idx sub inst st = { s with md := { s.md with claims := (s.claim path idx sub inst st).md.claims } } := by
  unfold State.claim; simp only; split <;> split <;> rfl

theorem claim_host (s : State) (idx sub inst st : Nat) : s.claim 0 idx sub inst st = s := by
  unfold State.claim; simp

/-- A write that fails a check answers its status and changes nothing else. -/
theorem access_refused {s : State} {path idx sub len v k st : Nat} (x : Seg) (hg : isGroup idx = false) (hp : s.pathUp path = true)
    (hc : s.checkWrite path false idx sub len v = some (k, st)) (hst : st ≠ 0) :
    s.access path idx sub len v x = s.answer path st true 0 0 := by
  unfold State.access State.write State.odWrite State.thenRestart
  simp [hp, hg, hc, hst]

/-- An accepted write: the effect, the claim, the answer, and the restart that module command 1 asks for. -/
theorem access_ok {s : State} {path idx sub len v : Nat} (x : Seg) (hg : isGroup idx = false) (h : Accepted s path idx sub len v) :
    s.access path idx sub len v x =
      ((((s.effect idx sub (s.instOf path idx sub) v x).1.claim path idx sub (s.instOf path idx sub)
        (s.effect idx sub (s.instOf path idx sub) v x).2).answer path (s.effect idx sub (s.instOf path idx sub) v x).2 true 0 0).thenRestart
        idx sub v (s.effect idx sub (s.instOf path idx sub) v x).2) := by
  unfold State.access State.write State.odWrite
  simp [h.1, hg, h.2]

/-- An accepted write other than module command 1, in terms of its effect: dictionary and module record alone differ from
what the effect left, and of those only the answer and the claims. -/
theorem access_spec {s r : State} {path idx sub len v st : Nat} (x : Seg) (hg : isGroup idx = false) (h : Accepted s path idx sub len v)
    (hn : ¬ (idx = 0x2000 ∧ sub = 5 ∧ v = 1)) (he : s.effect idx sub (s.instOf path idx sub) v x = (r, st)) :
    ∃ t, s.access path idx sub len v x = t ∧ t = { r with dict := t.dict, md := t.md } ∧ SameOd [odKey 0x2002 3 0] r t ∧
      Answered path st t ∧ (path = 0 → t.md.claims = r.md.claims) ∧ (path = 0 → t.dict = r.dict) ∧
      t.md = { r.md with hostSt := t.md.hostSt, sdo := t.md.sdo, claims := t.md.claims } := by
  have e := access_ok x hg h
  rw [he] at e
  have e2 : s.access path idx sub len v x = (r.claim path idx sub (s.instOf path idx sub) st).answer path st true 0 0 := by
    rw [e]; unfold State.thenRestart; rw [if_neg (fun c => hn ⟨c.1, c.2.1, c.2.2.1⟩)]
  refine ⟨_, e2, ?_, ?_, answer_answered _ _ _ _ _, ?_, ?_, ?_⟩
  · rw [answer_eq, claim_eq]
  · intro i j k hk
    rw [answer_od _ _ _ _ _ _ i j k hk, claim_eq]; rfl
  · intro hp; subst hp; rw [answer_md, claim_host]
  · intro hp; subst hp; unfold State.answer; rw [if_pos rfl, claim_host]
  · rw [answer_md, claim_eq]

end Sys2Proof
end

