-- ==== Sys2Proof/Laws/Descs.lean ====
section
/-! SUPPORT. What ending descriptors early does: of a waiting one that holds no pages, only its result. -/

namespace Sys2Proof.Machine

/-- The end that `endDesc` writes, where the descriptor has none yet. -/
def Desc.ended (d : Desc) (status outcome : Nat) : Desc :=
  if d.result.isSome then d else { d with result := some { status := status, outcome := outcome, flags := 0 } }

theorem ended_result (d : Desc) (status outcome : Nat) : (d.ended status outcome).result.isSome = true := by
  unfold Desc.ended; split
  · assumption
  · rfl

theorem ended_ended (d : Desc) (status outcome : Nat) : (d.ended status outcome).ended status outcome = d.ended status outcome := by
  exact if_pos (ended_result d status outcome)

/-- Ending an ended descriptor, or a waiting one that holds no pages, touches the descriptor table alone, and there its own result. -/
theorem endDesc_waiting (s : State) (i status outcome : Nat) (h : ∀ d, s.desc? i = some d → (d.st = .waiting ∧ d.pages.isEmpty) ∨ d.result.isSome) :
    s.endDesc i status outcome = { s with descs := (s.endDesc i status outcome).descs } ∧
    ∀ j, (s.endDesc i status outcome).desc? j = if i = j then (s.desc? j).map (·.ended status outcome) else s.desc? j := by
  unfold State.endDesc
  cases hd : s.desc? i with
  | none => refine ⟨rfl, fun j => ?_⟩; dsimp only; split
            · subst_vars; rw [hd]; rfl
            · rfl
  | some d =>
    dsimp only
    by_cases hr : d.result.isSome = true
    · rw [if_pos hr]
      refine ⟨rfl, fun j => ?_⟩
      split
      · subst_vars; rw [hd]; simp [Desc.ended, hr]
      · rfl
    · have hw : d.st = .waiting ∧ d.pages.isEmpty := (h d hd).resolve_right hr
      rw [if_neg hr, if_pos hw]
      refine ⟨rfl, fun j => ?_⟩
      rw [State.updDesc_desc]
      split
      · subst_vars; rw [hd]; simp [Desc.ended, hr]
      · rfl

/-- Ending every descriptor that meets `p`, none of which has begun: each gets the result, the rest of the state stays. -/
theorem endWhere_waiting (s : State) (p : Desc → Bool) (status outcome : Nat)
    (h : ∀ i d, s.desc? i = some d → p d = true → (d.st = .waiting ∧ d.pages.isEmpty) ∨ d.result.isSome) :
    s.endWhere p status outcome = { s with descs := (s.endWhere p status outcome).descs } ∧
    ∀ j, (s.endWhere p status outcome).desc? j = (s.desc? j).map (fun d => if p d then d.ended status outcome else d) := by
  -- a fold over numbers, each of which is listed; whatever the numbers, what is done is done once
  have key : ∀ (l : List (Nat × Desc)) (u : State), (u = { s with descs := u.descs }) →
      (∀ j, u.desc? j = s.desc? j ∨ u.desc? j = (s.desc? j).map (fun d => if p d then d.ended status outcome else d)) →
      (l.foldl (fun s q => if (s.desc? q.1).any p then s.endDesc q.1 status outcome else s) u
        = { s with descs := (l.foldl (fun s q => if (s.desc? q.1).any p then s.endDesc q.1 status outcome else s) u).descs }) ∧
      ∀ j, (l.foldl (fun s q => if (s.desc? q.1).any p then s.endDesc q.1 status outcome else s) u).desc? j =
        if j ∈ l.map (·.1) then (s.desc? j).map (fun d => if p d then d.ended status outcome else d) else u.desc? j := by
    intro l
    induction l with
    | nil => intro u hu hj; exact ⟨hu, fun j => by simp⟩
    | cons q l ih =>
      intro u hu hj
      rw [List.foldl_cons]
      have step : ∃ v, (if (u.desc? q.1).any p then u.endDesc q.1 status outcome else u) = v ∧ v = { s with descs := v.descs } ∧
          (∀ j, v.desc? j = if q.1 = j then (s.desc? j).map (fun d => if p d then d.ended status outcome else d) else u.desc? j) := by
        by_cases ha : (u.desc? q.1).any p = true
        · rw [if_pos ha]
          have hw : ∀ d, u.desc? q.1 = some d → (d.st = .waiting ∧ d.pages.isEmpty) ∨ d.result.isSome := by
            intro e he
            rcases hj q.1 with k | k
            · rw [k] at he
              rw [k, he] at ha
              exact h _ _ he (by simpa using ha)
            · rw [he] at k
              cases hs : s.desc? q.1 with
              | none => rw [hs] at k; simp at k
              | some d0 =>
                rw [hs] at k
                simp only [Option.map_some, Option.some.injEq] at k
                subst k
                by_cases hp0 : p d0 = true
                · right; simp only [hp0, if_true]; exact ended_result _ _ _
                · simp only [hp0]
                  have : u.desc? q.1 = some d0 := by rw [he]; simp [hp0]
                  rw [this] at ha; simp at ha; exact absurd ha hp0
          have e := endDesc_waiting u q.1 status outcome hw
          refine ⟨_, rfl, ?_, fun j => ?_⟩
          · rw [e.1, hu]
          · rw [e.2 j]
            split
            · rename_i hq
              subst hq
              rcases hj q.1 with k | k
              · rw [k]
                cases hs : s.desc? q.1 with
                | none => rfl
                | some d0 =>
                  have : p d0 = true := by rw [k, hs] at ha; simpa using ha
                  simp [this]
              · rw [k]
                cases hs : s.desc? q.1 with
                | none => rfl
                | some d0 =>
                  simp only [Option.map_some]
                  split
                  · simp only [ended_ended]
                  · rename_i hn
                    rw [k, hs] at ha; simp [hn] at ha
            · rfl
        · rw [if_neg ha]
          refine ⟨u, rfl, hu, fun j => ?_⟩
          split
          · rename_i hq
            subst hq
            rcases hj q.1 with k | k
            · rw [k]
              cases hs : s.desc? q.1 with
              | none => rfl
              | some d0 => rw [k, hs] at ha; simp at ha; simp [ha]
            · exact k
          · rfl
      obtain ⟨v, hv, hv1, hv2⟩ := step
      rw [hv]
      obtain ⟨r1, r2⟩ := ih v hv1 (fun j => by
        rw [hv2 j]; split
        · exact Or.inr rfl
        · exact hj j)
      refine ⟨r1, fun j => ?_⟩
      rw [r2 j, hv2 j]
      by_cases hq : j ∈ l.map (·.1)
      · simp only [hq, if_true, List.map_cons, List.mem_cons, or_true]
      · by_cases hqj : q.1 = j
        · simp [hqj, hq]
        · have : ¬ j = q.1 := fun e => hqj e.symm
          simp only [hq, hqj, this, List.map_cons, List.mem_cons, or_self, if_false]
  have k := key s.descs s rfl (fun _ => Or.inl rfl)
  refine ⟨k.1, fun j => ?_⟩
  have := k.2 j
  rw [show s.endWhere p status outcome = _ from rfl, State.endWhere, this]
  split
  · rfl
  · rename_i hn
    have : s.desc? j = none := by
      unfold State.desc?
      clear this k key h
      generalize s.descs = l at hn ⊢
      induction l with
      | nil => rfl
      | cons x l ih =>
        simp only [List.map_cons, List.mem_cons, not_or] at hn
        obtain ⟨i, d⟩ := x
        simp only [AMap.get?]
        rw [if_neg (fun e => hn.1 e.symm)]
        exact ih hn.2
    rw [this]; rfl

end Sys2Proof.Machine
end

