-- ==== Sys2Proof/Tests/Slice0.lean ====
section
/-! SUPPORT. A witness for the hypotheses of every statement, one ill-formed command per check of `WellFormed`, and the
spec's own examples. -/

open Sys2Proof Sys2Proof.Machine

namespace Sys2Proof.Tests

-- Elaborated in order: many closed evaluations at once would each hold a thread.
set_option Elab.async false

/-! ### Small states -/

/-- The module in service: Mission, Barista running, no safe state held, every die running. -/
def up : State := { State.reset with
  md := { Mod.boot with st := 7, barista := 0, bootMode := false, al := 2 },
  isl := { Isl.boot with causes := 0, safe := 0 }, apers := [],
  dies := (List.range 4).map (fun d => (d, { Die.ship with running := true })),
  links := (List.range 10).map (fun l => (l, { Link.ship with st := 2 })) }

/-- The same with the supervisor segment and the module in a state in which a voting group or a source may be configured. -/
def low : State := { up with md := { up.md with st := 6 } }

/-- `s` with the row of channel `ch` open in which offset `o` lies. -/
def opened (s : State) (ch o : Nat) : State :=
  { s with chans := [(ch, { Chan.zero with rows := [(o / 2048 % 16, o / 32768)] })] }

/-- A burst of `n` bytes at offset `o` of channel `ch`. -/
def burst (ch o n data mask : Nat) : Burst :=
  { ch := ch, bank := o / 2048 % 16, col := o % 2048, n := n, data := data, mask := mask, ecc := false, fixed := false }

/-- An outstanding descriptor of context 5 on die 0 with the given bytes. -/
def job (op words : Nat) : Desc :=
  { ctx := 5, die := 0, seq := 1, cls := 2, job := 1, op := op, phase := 0, words := words, recOff := 0x1000, start := 0, due := 0,
    notice := false, limit := 0, ordered := true, ieee := false, solv := [], st := .running, since := 0, epAt := 0, reason := 0,
    delays := [], interim := false, waited := false, preempted := false, why := .none, save := none, cores := [0], placedAt := 0,
    late := false, objs := [], pages := [], strs := [], pins := [], stage := 0, aux := [], stopAt := 0, result := none,
    replays := 0, shadow := none, pageBits := 0, tbl := [], was := [] }

/-- `s` with descriptor 3 outstanding. -/
def having (s : State) (d : Desc) : State := { s with descs := [(3, d)], nextId := 4 }

def seg : Seg := { ids := [], delay := 0, ring := 0, ok := true, data := [] }

theorem inv_of {s : State} (h : s.mem = []) (g : s.flash = []) : Invariant s := by
  constructor <;> simp [h, g, Memory.wf, Flash.wf, AMap.wfD, AMap.wf, AMap.risesFrom]

/-! ### Well-formed commands: each check refuses an ill-formed one -/

theorem test_wf_path : WellFormed (.odEntryWrite 1 0x2500 1 1 1 seg) = true ∧ WellFormed (.odEntryWrite 2 0x2500 1 1 1 seg) = false := by decide
theorem test_wf_channel : WellFormed (.selfRefreshEntry 3) = true ∧ WellFormed (.selfRefreshEntry 4) = false := by decide
theorem test_wf_bank_row :
    WellFormed (.activate 0 15 131071) = true ∧ WellFormed (.activate 0 16 0) = false ∧ WellFormed (.activate 0 0 131072) = false := by
  decide
theorem test_wf_column_length : WellFormed (.hostReadBurst 0 0 2047 64) = true ∧ WellFormed (.hostReadBurst 0 0 2048 64) = false ∧
    WellFormed (.hostReadBurst 0 0 0 48) = false := by decide
theorem test_wf_burst : WellFormed (.hostWriteBurst (burst 0 0 32 0 0)) = true ∧
    WellFormed (.hostWriteBurst (burst 0 16 32 0 0)) = false ∧ WellFormed (.hostWriteBurst (burst 0 0 32 (2 ^ 256) 0)) = false ∧
    WellFormed (.hostWriteBurst (burst 0 0 32 0 (2 ^ 32))) = false := by decide
theorem test_wf_die_word : WellFormed (.dspDoorbellWrite 3 (2 ^ 64 - 1)) = true ∧ WellFormed (.dspDoorbellWrite 4 0) = false ∧
    WellFormed (.dspDoorbellWrite 0 (2 ^ 64)) = false := by decide
theorem test_wf_junction : WellFormed (.thermalEmergency 4 0) = true ∧ WellFormed (.thermalEmergency 5 0) = false := by decide
theorem test_wf_context : WellFormed (.descriptorSlotRead 16383 2) = true ∧ WellFormed (.descriptorSlotRead 16384 0) = false ∧
    WellFormed (.descriptorSlotRead 0 3) = false := by decide
theorem test_wf_job : WellFormed (.jobAbortRelay 4095) = true ∧ WellFormed (.jobAbortRelay 4096) = false := by decide
theorem test_wf_cluster : WellFormed (.clusterGate 31) = true ∧ WellFormed (.clusterGate 32) = false := by decide
theorem test_wf_element : WellFormed (.fenceDrainEnd 291) = true ∧ WellFormed (.fenceDrainEnd 292) = false := by decide
theorem test_wf_engine : WellFormed (.solverStopInstant 0 7 []) = true ∧ WellFormed (.solverStopInstant 0 8 []) = false := by decide
theorem test_wf_island : WellFormed (.droopDetect 259 0) = true ∧ WellFormed (.droopDetect 260 0) = false := by decide
theorem test_wf_link : WellFormed (.receiverLossOfLock 9) = true ∧ WellFormed (.receiverLossOfLock 10) = false := by decide
theorem test_wf_aperture : WellFormed (.readHoldTimeout 63) = true ∧ WellFormed (.readHoldTimeout 64) = false := by decide
theorem test_wf_mailbox : WellFormed (.reservedMailboxMessage 63) = true ∧ WellFormed (.reservedMailboxMessage 0) = false ∧
    WellFormed (.reservedMailboxMessage 64) = false := by decide
theorem test_wf_message : WellFormed (.coreMailboxWrite 255 (2 ^ 512 - 1)) = true ∧ WellFormed (.coreMailboxWrite 256 0) = false ∧
    WellFormed (.coreMailboxWrite 0 (2 ^ 512)) = false := by decide +kernel
theorem test_wf_word : WellFormed (.streamMoveComplete 65535 0) = true ∧ WellFormed (.streamMoveComplete 65536 0) = false := by decide
theorem test_wf_value : WellFormed (.odEntryWrite 0 0x2500 1 1 255 seg) = true ∧ WellFormed (.odEntryWrite 0 0x2500 1 1 256 seg) = false := by
  decide
theorem test_wf_address : WellFormed (.rcCounterRead (2 ^ 48 - 1) 0) = true ∧ WellFormed (.rcCounterRead (2 ^ 48) 0) = false := by decide
theorem test_wf_source : WellFormed (.tdmBlockEnd 63 0 []) = true ∧ WellFormed (.tdmBlockEnd 64 0 []) = false := by decide
theorem test_wf_group : WellFormed (.votingGroupEnable 0 15) = true ∧ WellFormed (.votingGroupEnable 0 16) = false := by decide
theorem test_wf_set : WellFormed (.instantCut 7) = true ∧ WellFormed (.instantCut 8) = false := by decide
theorem test_wf_monitor : WellFormed (.aliveWindowExpiry 63) = true ∧ WellFormed (.aliveWindowExpiry 64) = false := by decide
theorem test_wf_map : WellFormed (.mapRetireFree 7) = true ∧ WellFormed (.mapRetireFree 8) = false := by decide
theorem test_wf_ring : WellFormed (.cycleTick 3) = true ∧ WellFormed (.cycleTick 4) = false := by decide
theorem test_wf_al : WellFormed (.alStateRequest 8) = true ∧ WellFormed (.alStateRequest 3) = false := by decide
theorem test_wf_status : WellFormed (.dieOutOfService 0 0x6FF) = true ∧ WellFormed (.dieOutOfService 0 0x700) = false := by decide
theorem test_wf_port : WellFormed (.inputFrameReturn 0 1 1 true [] 0 []) = true ∧ WellFormed (.inputFrameReturn 0 2 1 true [] 0 []) = false := by decide

/-! ### Witnesses: the block as a whole and the host port -/

theorem wit_RunsKeepTheInvariant : Invariant State.reset := inv_of rfl rfl

theorem wit_StepKeepsInv : Invariant up ∧ ∃ t, step up = .next t := ⟨inv_of rfl rfl, _, rfl⟩

theorem wit_IdleNanosecond : Invariant up ∧ up.pending = [] ∧ up.alive = true ∧ 4 ≤ up.md.st := ⟨inv_of rfl rfl, by decide⟩

theorem wit_HostRowsAndIdle : Invariant up ∧ up.alive = true ∧ 3 < 4 ∧ 15 < 16 ∧ 131071 < 131072 := ⟨inv_of rfl rfl, by decide⟩

theorem wit_ModeRegistersAndTraining : Invariant up ∧ up.alive = true ∧ 3 < 4 ∧
    (mrFixed 1 = false ∧ 1 ≤ 46 ∧ ((1 = 1 ∨ 1 = 2) → 12000 ≤ 12000)) ∧ (mrFixed 46 = false ∧ 46 ≤ 46) ∧
    mrFixed 5 = true ∧ 46 < 47 ∧ ((2 = 1 ∨ 2 = 2) ∧ 11999 < 12000) ∧
    (1 < 2 ∧ 533 ≤ 533 ∧ 533 ≤ 8533) ∧ (0 < 2 ∧ 533 ≤ 8533 ∧ 8533 ≤ 8533) ∧ (up.chan 3).setPoint = 0 :=
  ⟨inv_of rfl rfl, by decide +kernel⟩

theorem wit_HostReadBursts :
    (let s := opened up 1 0x0FFFFFC0;
      Invariant s ∧ s.alive = true ∧ regionOf (s.offset 1 15 0x7C0 64) = 3 ∧ s.md.bootMode = false ∧
      s.cmdW 1 (s.offset 1 15 0x7C0 64) < 0x2000000) ∧
    (let s := opened up 1 0x01000000;
      Invariant s ∧ s.alive = true ∧ regionOf (s.offset 1 0 0 64) = 3 ∧ s.md.bootMode = false ∧
      s.cmdW 1 (s.offset 1 0 0 64) < 0x1800000) ∧
    (let s := opened up 1 0x10000000;
      Invariant s ∧ s.alive = true ∧ regionOf (s.offset 1 0 0 64) = 5) ∧
    (let s := opened State.reset 1 0x100000;
      Invariant s ∧ s.alive = true ∧ s.md.bootMode = true ∧ regionOf (s.offset 1 0 0 32) = 1) := by
  refine ⟨⟨inv_of rfl rfl, ?_⟩, ⟨inv_of rfl rfl, ?_⟩, ⟨inv_of rfl rfl, ?_⟩, ⟨inv_of rfl rfl, ?_⟩⟩ <;> decide +kernel

theorem wit_HostWriteBursts_ring :
    (let s := opened up 2 0x01000000;
     let b := burst 2 0x01000000 32 7 0xFFFFFFFE;
      Invariant s ∧ s.alive = true ∧ b.ch < 4 ∧ (b.n = 32 ∨ b.n = 64) ∧ b.ecc = false ∧ b.fixed = false ∧ s.md.bootMode = false ∧
      regionOf (s.burstOff b) = 3 ∧ s.cmdW b.ch (s.burstOff b) + b.n ≤ 0x1800000 ∧
      (s.cmdW b.ch (s.burstOff b) < 0x800000 ∨ 7 ≤ s.md.st)) := by
  refine ⟨inv_of rfl rfl, ?_⟩; decide +kernel

/-- Context 14 = 4 * 3 + 2 in state Open, its ring 256 slots deep. -/
def ringUp : State := ({ up with ctxs := [(14, { Ctx.zero with st := .opened })] }).setOd 0x5000 0x0A 256 14

theorem wit_HostWriteBursts_doorbell :
    (let s := opened ringUp 2 0x2000C0;
     let b := burst 2 0x2000C0 32 256 0xFFFFFFF0;
      Invariant s ∧ s.alive = true ∧ b.ch < 4 ∧ (b.n = 32 ∨ b.n = 64) ∧ b.ecc = false ∧ b.fixed = false ∧ s.md.bootMode = false ∧
      3 < 4096 ∧ s.burstOff b = 0x200000 + 64 * 3 ∧ b.mask % 16 = 0 ∧ 6 ≤ s.md.st ∧ s.esp.st = 0 ∧
      (s.die (s.home (4 * 3 + b.ch))).st = 0 ∧ ((s.ctx (4 * 3 + b.ch)).st = .opened ∨ (s.ctx (4 * 3 + b.ch)).st = .paused) ∧
      (b.data % 2 ^ 32 + 2 ^ 32 - (s.ctx (4 * 3 + b.ch)).cons) % 2 ^ 32 ≤ s.od 0x5000 0x0A (4 * 3 + b.ch)) := by
  refine ⟨inv_of rfl rfl, ?_⟩; decide +kernel

theorem wit_HostWriteBursts_mailbox :
    (let s := opened up 3 (0x100000 + 64 * 15);
     let b := burst 3 (0x100000 + 64 * 15) 64 (2 ^ 512 - 1) 0;
      Invariant s ∧ s.alive = true ∧ b.ch < 4 ∧ (b.n = 32 ∨ b.n = 64) ∧ b.ecc = false ∧ b.fixed = false ∧ s.md.bootMode = false ∧
      15 < 16 ∧ s.burstOff b = 0x100000 + 64 * 15 ∧ b.n = 64 ∧ b.mask % 2 ^ 64 = 0) ∧
    (let s := opened { up with b2h := [(0, { Mbox.zero with full := true })] } 0 0x103000;
     let b := burst 0 0x103000 32 0x1234 0x10000;
      Invariant s ∧ s.alive = true ∧ b.ch < 4 ∧ (b.n = 32 ∨ b.n = 64) ∧ b.ecc = false ∧ b.fixed = false ∧ s.md.bootMode = false ∧
      0 < 16 ∧ s.burstOff b = 0x103000 + 16 * 0 ∧ b.n = 32 ∧ b.mask % 4 = 0 ∧ b.mask.testBit 16 = true ∧
      (s.b2hBox (4 * 0 + b.ch)).full = true) := by
  refine ⟨⟨inv_of rfl rfl, ?_⟩, ⟨inv_of rfl rfl, ?_⟩⟩ <;> decide +kernel

theorem wit_HostWriteBursts_discarded :
    (let s := opened up 0 0x300000;
     let b := burst 0 0x300000 32 0 0;
      Invariant s ∧ s.alive = true ∧ regionOf (s.burstOff b) = 5 ∧ s.md.bootMode = false ∧ b.ecc = false ∧ b.fixed = false) ∧
    (let s := opened up 0 0x140;
     let b := burst 0 0x140 64 0 0;
      Invariant s ∧ s.alive = true ∧ regionOf (s.burstOff b) = 0 ∧ s.burstOff b ≠ 0x100 ∧ s.md.bootMode = false) := by
  refine ⟨⟨inv_of rfl rfl, ?_⟩, ⟨inv_of rfl rfl, ?_⟩⟩ <;> decide +kernel

/-- Context 5 Open with object 9 Present in DRAM, and aperture 3 in state `st`. -/
def stageUp (st : Nat) : State := { up with
  ctxs := [(5, { Ctx.zero with st := .opened })],
  objs := [(9, { Obj.zero with st := .present, owner := 5, size := 201326592, foot := 201326592, addr := 65536 })],
  apers := [(3, { Aper.zero with st := st, ctx := 5, handle := 9, len := 131072, limit := 131072 })] }

/-- A staging slot's bytes: request 1, operation `op`, context 5, object 9, `len` bytes from offset 64. -/
def slotOf (op off len : Nat) : Nat := 1 + op * 2 ^ 32 + 5 * 2 ^ 48 + 9 * 2 ^ 64 + off * 2 ^ 128 + len * 2 ^ 192

/-- What every clause of StagingRequests asks for. -/
def StageAsk (st op off len : Nat) : Prop :=
  let s := opened (stageUp st) 3 0x240000;
  let b := burst 3 0x240000 64 (slotOf op off len) 0;
  s.alive = true ∧ b.ch < 4 ∧ b.n = 64 ∧ b.ecc = false ∧ b.fixed = false ∧ b.mask = 0 ∧ s.md.bootMode = false ∧ 6 ≤ s.md.st ∧
  s.burstOff b = 0x240000 + 3 / 4 * 64 ∧ field (slotBytes (s.reg (slotKey 3)) 0 b) 0 32 = ((s.aper 3).request + 1) % 2 ^ 32 ∧
  s.judgeStage (s.aper 3) (slotBytes (s.reg (slotKey 3)) 0 b) = none ∧ field (slotBytes (s.reg (slotKey 3)) 0 b) 32 8 = op ∧
  s.stageQ = [] ∧ (if op = 1 then ceilDiv len 65536 ≤ s.blocksFree else min 16 (ceilDiv len 65536) ≤ s.blocksFree)

theorem wit_StagingRequests :
    Invariant (opened (stageUp 0) 3 0x240000) ∧ StageAsk 0 1 0 4194304 ∧ StageAsk 5 2 0 201326592 ∧ StageAsk 2 3 0 0 ∧ StageAsk 1 4 0 0 := by
  refine ⟨inv_of rfl rfl, ?_, ?_, ?_, ?_⟩ <;> (unfold StageAsk; decide +kernel)

theorem wit_StagingData_granted :
    (let s := { stageUp 1 with stageQ := [3, 4] };
      Invariant s ∧ s.stageQ = 3 :: [4] ∧ (s.aper 3).want ≤ s.blocksFree) := by
  refine ⟨inv_of rfl rfl, ?_⟩; decide +kernel

theorem wit_StagingData_copy :
    (let s := stageUp 1;
      Invariant s ∧ (s.aper 3).st = 1 ∧ (s.aper 3).want = 0 ∧ s.xferStatus (s.aper 3).handle 0 = 0) := by
  refine ⟨inv_of rfl rfl, ?_⟩; decide +kernel

theorem wit_StagingData_burst :
    (let o := 0x40000000 + 3 * 0x0C000000 + 131040;
     let s := opened (stageUp 3) 0 o;
     let b := burst 0 o 32 0 0;
      Invariant s ∧ s.alive = true ∧ b.ch < 4 ∧ b.n = 32 ∧ b.ecc = false ∧ b.fixed = false ∧ b.mask = 0 ∧
      regionOf (s.burstOff b) = 4 ∧ s.stageY b.ch (s.burstOff b) / apWindow = 3 ∧ (s.aper 3).st = 3 ∧
      s.stageY b.ch (s.burstOff b) % apWindow < (s.aper 3).limit ∧
      s.stageY b.ch (s.burstOff b) % apWindow / 65536 ∉ (s.aper 3).drained ∧
      s.stageY b.ch (s.burstOff b) % apWindow / 32 < (s.aper 3).sectors) := by
  refine ⟨inv_of rfl rfl, ?_⟩; decide +kernel

theorem wit_StagingData_drain :
    (let s := { stageUp 4 with apers := [(3, { Aper.zero with
        st := 4, ctx := 5, handle := 9, len := 65568, limit := 65568, covered := [2048] })] };
      Invariant s ∧ (s.aper 3).st = 4 ∧ (s.aper 3).boot = false ∧ (s.aper 3).want = 0 ∧ 65536 * 1 < (s.aper 3).len ∧
      1 ∉ (s.aper 3).drained ∧ (s.aper 3).blockCovered 1 = true ∧ s.xferStatus (s.aper 3).handle 0 = 0 ∧
      (insNat 1 (s.aper 3).drained).length < ceilDiv (s.aper 3).len 65536) := by
  refine ⟨inv_of rfl rfl, ?_⟩; decide +kernel

theorem wit_StagingData_timeouts :
    (let s := (stageUp 4).setReg (baseHP + 0x10) ((stageUp 4).od 0x2500 2 * 1000000);
      Invariant s ∧ ((s.aper 3).st = 3 ∨ (s.aper 3).st = 4) ∧ (s.aper 3).boot = false ∧
      (s.aper 3).at_ + s.od 0x2500 2 * 1000000 ≤ s.hpTime) ∧
    (let s := (stageUp 2).setReg (baseHP + 0x10) ((stageUp 2).od 0x2500 3 * 1000000 + 1);
      Invariant s ∧ (s.aper 3).st = 2 ∧ (s.aper 3).at_ + s.od 0x2500 3 * 1000000 < s.hpTime) := by
  refine ⟨⟨inv_of rfl rfl, ?_⟩, ⟨inv_of rfl rfl, ?_⟩⟩ <;> decide +kernel

/-! ### Witnesses: the object dictionary -/

/-- The supervisor segment in Op with an output frame due. -/
def inOp : State := { up with md := { up.md with al := 8, rxFull := false, rxLife := 1 } }

theorem plain_2400_5 : Plain 0x2400 5 := fun _ _ _ _ => rfl


theorem wit_DictionaryWrites_refused : Invariant up ∧ 1 ≤ 1 ∧ isGroup 0x2500 = false ∧ up.pathUp 1 = true ∧
    up.checkWrite 1 false 0x2500 1 2 0 = some (5, 0x03D5) ∧ up.checkWrite 0 false 0x2500 1 1 9 ≠ none := by
  refine ⟨inv_of rfl rfl, ?_⟩; decide +kernel

theorem wit_DictionaryWrites_held : Invariant up ∧ 1 ≤ 1 ∧ isGroup 0x2400 = false ∧ Plain 0x2400 5 ∧ Accepted up 1 0x2400 5 4 1024 ∧
    Accepted up 0 0x2400 5 4 1024 ∧
    odKey 0x2400 5 (up.instOf 1 0x2400 5) ≠ odKey 0x2002 3 0 ∧ odKey 0x2400 5 (up.instOf 1 0x2400 5) ≠ odKey 0x2000 0x10 0 ∧
    ¬ (0x2400 = 0x2000 ∧ 5 = 5) ∧ ∃ e, entry 0x2400 5 = some e ∧ e.auth = 1 ∧ ¬ (isWindow 0x2400 = true ∧ 5 = 1) := by
  refine ⟨inv_of rfl rfl, by decide, by decide, plain_2400_5, ?_, ?_, by decide, by decide, by decide, ?_⟩
  · unfold Accepted; decide +kernel
  · unfold Accepted; decide +kernel
  · exact ⟨_, rfl, by decide +kernel, by decide⟩

theorem wit_DictionaryWrites_named : Accepted up 1 0x2500 1 1 2 ∧ Accepted up 0 0x2500 1 1 0 ∧ Accepted low 1 0x2000 0x10 1 1 ∧
    252 < 253 ∧ Accepted up 1 (0x3100 + 252) 1 1 3 ∧ Invariant low := by
  refine ⟨?_, ?_, ?_, by decide, ?_, inv_of rfl rfl⟩ <;> (unfold Accepted; decide +kernel)

/-- A request in host-to-Barista mailbox 0: operation, entry, length, buffer offset, data. -/
def asking (op idx sub len off data : Nat) : State := { up with
  h2b := [(0, { Mbox.zero with
    full := true, msg := op + sub * 2 ^ 8 + idx * 2 ^ 16 + len * 2 ^ 64 + off * 2 ^ 96 + data * 2 ^ 128 })] }

theorem wit_ObjectChannel_read :
    (let s := asking 1 0x2000 4 0 0 0;
      Invariant s ∧ s.dictUp = true ∧ (s.h2bBox 0).full = true ∧ s.badRequest = false ∧ isGroup (s.reqField 2 2) = false ∧
      s.reqField 0 1 = 1 ∧ checkRead (s.reqField 2 2) (s.reqField 1 1) = none ∧ s.readLen (s.reqField 2 2) (s.reqField 1 1) ≤ 48) ∧
    (let s := asking 3 0x2010 5 32 64 0;
      Invariant s ∧ s.dictUp = true ∧ (s.h2bBox 0).full = true ∧ s.badRequest = false ∧ isGroup (s.reqField 2 2) = false ∧
      s.reqField 0 1 = 3 ∧ checkRead (s.reqField 2 2) (s.reqField 1 1) = none ∧
      s.readLen (s.reqField 2 2) (s.reqField 1 1) ≤ s.reqField 8 4) := by
  refine ⟨⟨inv_of rfl rfl, ?_⟩, ⟨inv_of rfl rfl, ?_⟩⟩ <;> decide +kernel

theorem wit_ObjectChannel_write :
    (let s := asking 2 0x2400 5 4 0 1024;
      Invariant s ∧ s.dictUp = true ∧ (s.h2bBox 0).full = true ∧ s.badRequest = false ∧ isGroup (s.reqField 2 2) = false ∧
      s.reqField 0 1 = 2 ∧ ¬ (s.reqField 2 2 = 0x2000 ∧ s.reqField 1 1 = 5) ∧ s.reqField 2 2 = 0x2400 ∧ s.reqField 1 1 = 5 ∧
      s.checkWrite 0 false 0x2400 5 (s.reqField 8 4) (s.reqField 16 48 % 2 ^ (8 * s.reqField 8 4)) = none) ∧
    (let s := asking 4 0x2003 1 2 0 0;
      Invariant s ∧ s.dictUp = true ∧ (s.h2bBox 0).full = true ∧ s.badRequest = false ∧ isGroup (s.reqField 2 2) = false ∧
      s.reqField 0 1 = 4 ∧ ¬ (s.reqField 2 2 = 0x2000 ∧ s.reqField 1 1 = 5) ∧ s.reqField 2 2 = 0x2003 ∧ s.reqField 1 1 = 1 ∧
      s.checkWrite 0 false 0x2003 1 (s.reqField 8 4) (s.rdHub (s.reqField 12 4) (s.reqField 8 4)) = none) ∧
    Plain 0x2400 5 ∧ Plain 0x2003 1 ∧
    (let s := asking 2 0x2400 5 3 0 1024;
      s.dictUp = true ∧ s.badRequest = false ∧ s.reqField 0 1 = 2 ∧
      s.checkWrite 0 false 0x2400 5 (s.reqField 8 4) (s.reqField 16 48 % 2 ^ (8 * s.reqField 8 4)) = some (5, 0x03D5)) := by
  refine ⟨⟨inv_of rfl rfl, ?_⟩, ⟨inv_of rfl rfl, ?_⟩, plain_2400_5, fun _ _ _ _ => rfl, ?_⟩ <;> decide +kernel

theorem wit_ObjectChannel_other :
    (let s := asking 3 0x2010 5 0 64 0;
      Invariant s ∧ s.dictUp = true ∧ (s.h2bBox 0).full = true ∧ s.badRequest = false ∧ s.reqField 0 1 = 3 ∧
      s.reqField 8 4 < (s.odRead 0 (s.reqField 2 2) (s.reqField 1 1)).2.1) ∧
    (let s := ((asking 2 0x3002 5 1 0 1).setOd 0x3102 1 1).setOd 0x3102 2 3;
      Invariant s ∧ s.dictUp = true ∧ (s.h2bBox 0).full = true ∧ s.badRequest = false ∧ s.reqField 0 1 = 2 ∧
      isGroup (s.reqField 2 2) = true ∧ s.checkGroup 0 (s.reqField 2 2 - 0x3000) (s.reqField 1 1) (s.reqField 8 4)
        (s.reqField 16 48 % 2 ^ (8 * s.reqField 8 4)) = none) := by
  refine ⟨⟨inv_of rfl rfl, ?_⟩, ⟨inv_of rfl rfl, ?_⟩⟩ <;> decide +kernel

theorem wit_SegmentSdos : Invariant up ∧ up.pathUp 1 = true ∧ isGroup 0x2000 = false ∧ checkRead 0x2000 4 = none ∧
    isGroup 0x2500 = false ∧ checkRead 0x2000 5 = some (3, 0x03D4) ∧ 65536 ≤ 65536 ∧
    (let s := { up with h2b := [(1, { Mbox.zero with full := true }), (63, { Mbox.zero with full := true })] };
      Invariant s ∧ 1 ≤ 63 ∧ 63 ≤ 63 ∧ s.alive = true ∧ s.md.barista = 0 ∧ s.md.bootMode = false ∧ (s.h2bBox 1).full = true ∧
      (s.h2bBox 63).full = true) := by
  refine ⟨inv_of rfl rfl, ?_, ?_, ?_, ?_, ?_, ?_, inv_of rfl rfl, ?_⟩ <;> decide +kernel

/-- Group 2 of cores 0 and 255. -/
def grouped : State := (up.setOd 0x3102 1 1).setOd 0x3102 2 (1 + 2 ^ 255)

theorem plain_cores (m : Nat) : Plain (0x4000 + m) 5 := by
  intro s i v x
  have h0 : ∀ k, k < 0x4000 → ¬ (0x4000 + m = k) := by omega
  have h1 : ∀ lo hi, hi < 0x4000 → within (0x4000 + m) lo hi = false := by
    intro lo hi h; simp [within]; omega
  have h2 : ∀ k, k < 0x4000 → ((0x4000 + m) == k) = false := by intro k h; simp; omega
  have e1 : s.effMod (0x4000 + m) 5 v x = none := by
    simp [State.effMod, h0, h1]
  have e2 : s.effFuse (0x4000 + m) 5 v = none := by
    simp [State.effFuse, h0, h1]
  have e3 : s.effUnit (0x4000 + m) 5 i v x = none := by
    simp [State.effUnit, h0, h1]
  simp [State.effect, e1, e2, e3, State.judgeCrc, inSafetySet, h0, h1, h2]

theorem wit_Groups_start : Invariant grouped ∧ 1 ≤ 1 ∧ 2 < 256 ∧ grouped.pathUp 1 = true ∧ grouped.checkGroup 1 2 5 1 1 = none := by
  refine ⟨inv_of rfl rfl, ?_⟩; decide +kernel

theorem wit_Groups_complete :
    (let s := { grouped with links := [],
                             md := { grouped.md with bcast := some { path := 1, tag := none, gg := 2, sub := 5, len := 1, value := 1 } } };
      Invariant s ∧ s.md.barista = 0 ∧ 2 < 253 ∧ 5 < 256 ∧ 1 ≤ s.groupKind 2 ∧ s.groupKind 2 ≤ 3 ∧
      (∀ m, Plain (kindBase (s.groupKind 2) + m) 5) ∧ s.groupMembers 2 = [0, 255] ∧ s.reached (s.groupKind 2) 0 = false) := by
  refine ⟨inv_of rfl rfl, by decide, by decide, by decide, by decide +kernel, by decide +kernel, ?_, by decide +kernel, by decide +kernel⟩
  have h : grouped.groupKind 2 = 1 := by decide +kernel
  exact fun m => plain_cores m

theorem wit_Groups_read : Invariant grouped ∧ grouped.pathUp 0 = true ∧ 5 ≠ 0 ∧ grouped.groupKind 2 ≠ 0 ∧ grouped.groupMembers 2 ≠ [] ∧
    (∀ m, m ∈ grouped.groupMembers 2 → checkRead (kindBase (grouped.groupKind 2) + m) 5 = none) ∧
    (∀ m, m ∈ grouped.groupMembers 2 → grouped.odView 0 (kindBase (grouped.groupKind 2) + m) 5 = 1) ∧
    (let s := grouped.setOd 0x4000 5 0;
      Invariant s ∧ s.pathUp 0 = true ∧ 0 ∈ s.groupMembers 2 ∧ 255 ∈ s.groupMembers 2 ∧
      s.odView 0 (kindBase (s.groupKind 2) + 0) 5 ≠ s.odView 0 (kindBase (s.groupKind 2) + 255) 5) := by
  refine ⟨inv_of rfl rfl, ?_, ?_, ?_, ?_, ?_, ?_, inv_of rfl rfl, ?_⟩ <;> decide +kernel

theorem wit_ClaimsAndErrors :
    (let s := { up with md := { up.md with claims := [odKey 0x2400 5 0, odKey 0x5000 0x10 9] } };
      Invariant s ∧ Accepted s 1 0x2001 1 4 0x24000500 ∧
      odKey 0x2400 5 0 = odKey (field 0x24000500 16 16) (field 0x24000500 8 8) 0 ∧ odKey 0x2400 5 0 ∈ s.md.claims) ∧
    (let s := ({ up with md := { up.md with claims := [odKey 0x5000 0x10 9] } }).setOd 0x5000 1 9 1;
      Invariant s ∧ Accepted s 1 0x2001 1 4 0x50001000 ∧
      odKey 0x5000 0x10 9 = odKey (field 0x50001000 16 16) (field 0x50001000 8 8) (s.sel 1 0x5000) ∧ odKey 0x5000 0x10 9 ∈ s.md.claims) ∧
    Accepted up 1 0x2001 2 1 1 ∧ Accepted up 1 0x1003 0 1 0 := by
  refine ⟨⟨inv_of rfl rfl, ?_, ?_⟩, ⟨inv_of rfl rfl, ?_, ?_⟩, ?_, ?_⟩ <;> (try unfold Accepted) <;> decide +kernel

theorem wit_SupervisorSegment : Invariant inOp ∧ inOp.alive = true ∧ 3 ≤ inOp.md.st ∧ inOp.md.bootMode = false ∧
    alLegal inOp.md.al 4 = true ∧ alLegal up.md.al 8 = false ∧ inOp.md.al = 8 ∧ inOp.dictUp = true ∧ inOp.md.rxFull = false ∧
    65535 < 65536 ∧ 65535 ≠ inOp.md.rxLife ∧ 0 = inOp.md.rxHold ∧ 0 < 256 ∧ inOp.checkWrite 1 true 0x2002 1 2 65535 = none := by
  refine ⟨inv_of rfl rfl, ?_⟩; decide +kernel

theorem wit_ModuleCommands :
    (Accepted up 1 0x2000 5 1 2 ∧ up.md.decaf = false ∧ up.isl.safe = 0 ∧ up.recovering = false ∧ up.md.st ≠ 10 ∧
      ∀ p, p ∈ up.descs → p.2.cls < 3) ∧
    (let s := { up with md := { up.md with st := 10, decaf := true } };
      Invariant s ∧ Accepted s 1 0x2000 5 1 3 ∧ s.md.decaf = true ∧ s.isl.safe = 0 ∧ s.recovering = false ∧ s.md.st = 10) ∧
    (let s := up.setOd 0x2202 2 2;
      Invariant s ∧ Accepted s 1 0x2000 5 1 4 ∧ s.isl.safe = 0 ∧ 7 ≤ s.md.st ∧ s.md.st ≠ 11 ∧ s.od 0x2202 2 = 2) ∧
    (let s := { up with md := { up.md with st := 11 }, isl := { Isl.boot with causes := 4, verified := true } };
      Invariant s ∧ Accepted s 1 0x2000 5 1 5 ∧ s.mayLift = true) ∧
    (let s := { up with md := { up.md with st := 11 }, isl := { Isl.boot with causes := 1, verified := true } };
      Invariant s ∧ Accepted s 1 0x2000 5 1 5 ∧ s.mayLift = false) := by
  refine ⟨?_, ⟨inv_of rfl rfl, ?_⟩, ⟨inv_of rfl rfl, ?_⟩, ⟨inv_of rfl rfl, ?_⟩, ⟨inv_of rfl rfl, ?_⟩⟩ <;>
    (try unfold Accepted) <;> decide +kernel

theorem wit_ModuleCommands_no_stopped (i : Nat) (d : Desc) : (up.setOd 0x2202 2 2).desc? i = some d →
    d.st ≠ .stopped ∧ (d.st = .waiting → d.pages = []) := by
  intro h; simp [State.desc?, up, State.setOd, State.reset, AMap.get?] at h

/-! ### Witnesses: contexts and dispatch -/

/-- A descriptor's bytes from (offset, value) pairs. -/
def wdsOf (l : List (Nat × Nat)) : Nat := (l.map (fun p => p.2 * 2 ^ (8 * p.1))).sum

/-- Context 5 of class P on die 0 in state `st`, with a ring of 256 slots at 0x4000 and records from 0x1000. -/
def ctx5 (st : CtxSt) (prod cons : Nat) : State :=
  [(4, 2), (5, 1), (9, 0x4000), (0x0A, 256), (0x0B, 0x1000), (0x0C, 0x1000), (0x0D, 0x1FE0), (0x10, 1000000)].foldl
    (fun s p => s.setOd 0x5000 p.1 p.2 5)
    { up with ctxs := if st = .closed then [] else [(5, { Ctx.zero with st := st, prod := prod, cons := cons })] }

/-- The same with both paths' selectors on it. -/
def sel5 (st : CtxSt) : State := ((ctx5 st 7 3).setOd 0x5000 1 5 0).setOd 0x5000 1 5 1

theorem wit_ContextCommands :
    (Invariant (sel5 .closed) ∧ 1 ≤ 1 ∧ (sel5 .closed).sel 1 0x5000 = 5 ∧ Accepted (sel5 .closed) 1 0x5000 3 1 1 ∧
      (sel5 .closed).openCheck 5 = none) ∧
    (Invariant (sel5 .opened) ∧ (sel5 .opened).sel 0 0x5000 = 5 ∧ Accepted (sel5 .opened) 0 0x5000 3 1 2 ∧
      ((sel5 .opened).ctx 5).st = .opened ∧ Accepted (sel5 .opened) 0 0x5000 3 1 4) ∧
    (Invariant (sel5 .paused) ∧ (sel5 .paused).sel 1 0x5000 = 5 ∧ Accepted (sel5 .paused) 1 0x5000 3 1 3 ∧
      ((sel5 .paused).ctx 5).st = .paused ∧ Accepted (sel5 .paused) 1 0x5000 3 1 5 ∧ (sel5 .paused).closable 5 = true) := by
  refine ⟨⟨inv_of rfl rfl, ?_⟩, ⟨inv_of rfl rfl, ?_⟩, ⟨inv_of rfl rfl, ?_⟩⟩ <;> unfold Accepted <;> decide +kernel

theorem wit_ContextCommands_flush :
    (let s := having (sel5 .opened) { job 0x0F00 0 with st := .waiting };
      Invariant s ∧ s.sel 0 0x5000 = 5 ∧ Accepted s 0 0x5000 3 1 4 ∧ (s.ctx 5).st = .opened ∧
      ∀ i d, s.desc? i = some d → d.st ≠ .stopped ∧ (d.st = .waiting → d.pages = [])) := by
  refine ⟨inv_of rfl rfl, ?_, ?_, ?_, ?_⟩
  · decide +kernel
  · unfold Accepted; decide +kernel
  · decide +kernel
  · intro i d h
    have e : (if 3 = i then some { job 0x0F00 0 with st := .waiting } else none) = some d := h
    split at e <;> cases e; simp [job]

theorem wit_ContextCommands_refused :
    (sel5 .closed).pathUp 1 = true ∧
    (Accepted (sel5 .closed) 1 0x5000 3 1 2 ∧ ((sel5 .closed).ctx 5).st ≠ .opened) ∧
    (Accepted (sel5 .opened) 1 0x5000 3 1 3 ∧ ((sel5 .opened).ctx 5).st ≠ .paused) ∧
    (Accepted (sel5 .fenced) 1 0x5000 3 1 4 ∧ ((sel5 .fenced).ctx 5).st ≠ .opened ∧ ((sel5 .fenced).ctx 5).st ≠ .paused) ∧
    (Accepted (sel5 .paused) 1 0x5000 3 1 1 ∧ ((sel5 .paused).ctx 5).st ≠ .closed) ∧
    (Accepted (sel5 .closed) 1 0x5000 3 1 5 ∧ (sel5 .closed).closable 5 = false) := by
  unfold Accepted; decide +kernel

theorem wit_Doorbells :
    (let s := ctx5 .opened 0 0;
      Invariant s ∧ 5 = (5 + 256 * 2 ^ 32) % 16384 ∧ s.home 5 = 0 ∧ 0 < 4 ∧ (s.die 0).st ≠ 2 ∧
      (s.esp.st = 0 ∨ (s.od 0x2700 0x0B ≠ 5 ∧ s.od 0x2700 0x0C ≠ 5)) ∧ s.hubLink 0 = true ∧ (s.ctx 5).st = .opened ∧
      ((5 + 256 * 2 ^ 32) / 2 ^ 32 % 2 ^ 32 + 2 ^ 32 - (s.ctx 5).cons) % 2 ^ 32 ≤ s.od 0x5000 0x0A 5) ∧
    (let s := ctx5 .opened 0 0;
      5 = (5 + 257 * 2 ^ 32) % 16384 ∧
      s.od 0x5000 0x0A 5 < ((5 + 257 * 2 ^ 32) / 2 ^ 32 % 2 ^ 32 + 2 ^ 32 - (s.ctx 5).cons) % 2 ^ 32) ∧
    (let s := { ctx5 .opened 0 0 with links := [] };
      s.home 5 = 0 ∧ s.hubLink 0 = false ∧ (s.die 0).running = true ∧ (s.die 0).st = 0) ∧
    (ctx5 .opened 0 0).home 5 ≠ 1 ∧ ((ctx5 .closed 0 0).ctx 5).st ≠ .opened ∧ ((ctx5 .closed 0 0).ctx 5).st ≠ .paused := by
  refine ⟨⟨inv_of rfl rfl, ?_⟩, ?_, ?_, ?_⟩ <;> decide +kernel

/-- A NOP of context 5, class P, job 1, sequence number 0, deadline 1 µs, record at 0x1000; and one of another job. -/
def nopWords : Nat := 0x0F00 + 5 * 2 ^ 32 + 2 * 2 ^ 48 + 1000 * 2 ^ 96 + 1 * 2 ^ 128 + 0x1000 * 2 ^ 144
def badWords : Nat := 0x0F00 + 5 * 2 ^ 32 + 2 * 2 ^ 48 + 1000 * 2 ^ 96 + 2 * 2 ^ 128 + 0x1000 * 2 ^ 144

/-- Context 5 with one slot submitted. -/
def slotUp (words : Nat) : State := (ctx5 .opened 1 0).wrN (hub 0x4000) 64 words
/-- The state in which that slot is checked. -/
def slotRun (words : Nat) : State :=
  (((slotUp words).setCtx 5 { (slotUp words).ctx 5 with cons := (0 + 1) % 2 ^ 32 }).setOd 0x5000 0x0E ((0 + 1) % 2 ^ 32) 5).bumpReg
    (baseDSP ((slotUp words).home 5) + 0x18)

theorem wit_SlotReadAndNop_slot :
    (let s := slotUp nopWords;
      Memory.wf s.mem = true ∧ Flash.wf s.flash = true ∧ (s.ctx 5).cons = 0 ∧
      ((s.ctx 5).prod + 2 ^ 32 - 0) % 2 ^ 32 = 1 ∧ s.od 0x5000 0x0E 5 = 0 ∧ (s.slotAt 5 0 >>> 32).testBit 14 = false ∧
      s.slotAt 5 0 = nopWords ∧ s.hubLink (s.home 5) = true ∧ (s.ctx 5).st = .opened ∧ (s.die (s.home 5)).running = true ∧ (s.die (s.home 5)).st = 0 ∧
      (slotRun nopWords).check ((slotRun nopWords).mkDesc 5 nopWords) 0 = none) ∧
    (let s := slotUp badWords;
      Memory.wf s.mem = true ∧ s.slotAt 5 0 = badWords ∧ s.verOf 5 = none ∧ s.watched 5 = false ∧
      (slotRun badWords).check ((slotRun badWords).mkDesc 5 badWords) 0 = some 0x0306 ∧
      (slotRun badWords).recOk 5 0x1000 = true ∧ 0x1000 + 32 ≤ hubSize ∧ s.od 0x5000 0x0D 5 + 32 ≤ hubSize) ∧
    ((ctx5 .opened 0 0).ctx 5).prod = ((ctx5 .opened 0 0).ctx 5).cons ∧
    (let s := (ctx5 .opened 2 0).wrN (hub 0x4000) 64 (nopWords + 2 ^ 46);
      Memory.wf s.mem = true ∧ (s.slotAt 5 0 >>> 32).testBit 14 = true ∧ ((s.ctx 5).prod + 2 ^ 32 - 0) % 2 ^ 32 = 2 ∧
      s.hubLink (s.home 5) = true ∧ s.verOf 5 = none ∧ s.watched 5 = false ∧ s.od 0x5000 0x0D 5 + 32 ≤ hubSize) ∧
    { ctx5 .opened 1 0 with links := [] }.hubLink 0 = false := by
  decide +kernel

theorem wit_SlotReadAndNop_nop :
    (let s := having up (job 0x0F00 0x0F00);
      Invariant s ∧ s.desc? 3 = some (job 0x0F00 0x0F00) ∧ (job 0x0F00 0x0F00).st = .running ∧ (job 0x0F00 0x0F00).result = none) :=
  ⟨inv_of rfl rfl, rfl, rfl, rfl⟩

/-- Die 0 with `n` shared cores and a NOP of context 5 waiting. -/
def waiting (n : Nat) (st : CtxSt) : State :=
  having ((List.range (64 - n)).foldl (fun s i => s.setOd (0x4000 + (63 - i)) 5 0) (ctx5 st 0 0)) { job 0x0F00 nopWords with st := .waiting, cores := [] }

theorem wit_Gangs_place :
    (let s := waiting 1 .opened
     let d := { job 0x0F00 nopWords with st := .waiting, cores := [] };
      Invariant s ∧ (s.die 0).running = true ∧ (s.die 0).st = 0 ∧ s.waitOrder 0 = [3] ∧ s.desc? 3 = some d ∧ d.die = 0 ∧
      d.st = .waiting ∧ d.save = none ∧ s.blocker 3 d = none ∧ s.unitOf d = .cores ∧ 2 ≤ d.cls ∧ pinCoreOf s d = none ∧
      d.op ≠ 0x0030 ∧ d.op ≠ 0x0100 ∧ d.op ≠ 0x0110 ∧ d.op ≠ 0x0120 ∧ d.op ≠ 0x0200 ∧ d.op ≠ 0x0210 ∧ d.op ≠ 0x0220 ∧ d.op ≠ 0x0300 ∧ d.op ≠ 0x0310 ∧ d.op ≠ 0x0410 ∧
      s.gangOf d ≤ (s.freeFor d.ctx d.cls 0).length) ∧
    (let s := waiting 0 .opened
     let d := { job 0x0F00 nopWords with st := .waiting, cores := [] };
      s.waitOrder 0 = [3] ∧ s.blocker 3 d = none ∧ s.unitOf d = .cores ∧ (s.freeFor d.ctx d.cls 0).length < s.gangOf d) ∧
    (let s := waiting 1 .paused
     let d := { job 0x0F00 nopWords with st := .waiting, cores := [] };
      s.waitOrder 0 = [3] ∧ s.blocker 3 d = some 0x05 ∧ d.pausedBy 0x05 = d.pausedBy d.reason ∧ d.recOff + 32 ≤ hubSize) := by
  refine ⟨⟨inv_of rfl rfl, ?_⟩, ?_, ?_⟩ <;> decide +kernel

/-- A stream operation of context 5 waits: what its placement answers, without and with a descriptor before it that names its stream. -/
def streamWait (before : Bool) : State × Desc :=
  let d := { job 0x0200 (wdsOf [(0, 0x0200), (38, 3), (36, 1)]) with st := .waiting, cores := [], ordered := false }
  ({ ctx5 .opened 1 1 with descs := (if before then [(2, { job 0x0200 0x0200 with strs := [0] })] else []) ++ [(3, d)], nextId := 4 }, d)

theorem wit_Gangs_hook :
    (let s := waiting 1 .opened
     let d := { job 0x0F00 nopWords with st := .waiting, cores := [] };
      (match s.placeHook 3 d with | .ok x => x.desc? 3 == some d | _ => false) = true ∧ d.op ≠ 0x0210) ∧
    (let p := streamWait false;
      Invariant p.1 ∧ p.1.waitOrder 0 = [3] ∧ p.1.desc? 3 = some p.2 ∧ p.1.blocker 3 p.2 = none ∧ p.1.unitOf p.2 = .cores ∧ 2 ≤ p.2.cls ∧
      pinCoreOf p.1 p.2 = none ∧ p.1.gangOf p.2 ≤ (p.1.freeFor 5 2 0).length ∧
      (match p.1.placeHook 3 p.2 with | .fault x st => st == 0x0550 && x.desc? 3 == some p.2 | _ => false) = true) ∧
    (let p := streamWait true;
      Invariant p.1 ∧ p.1.waitOrder 0 = [3] ∧ p.1.desc? 3 = some p.2 ∧ p.1.blocker 3 p.2 = none ∧
      (match p.1.placeHook 3 p.2 with | .wait x r => r == 0x04 && x.desc? 3 == some p.2 | _ => false) = true) := by
  refine ⟨?_, ⟨inv_of rfl rfl, ?_⟩, ⟨inv_of rfl rfl, ?_⟩⟩ <;> decide +kernel

theorem wit_Gangs_paused :
    (let d := { job 0x0F00 nopWords with st := .waiting, cores := [], cls := 4 }
     let s := having { ctx5 .opened 1 1 with md := { up.md with st := 10, decaf := true } } d;
      Invariant s ∧ s.waitOrder 0 = [3] ∧ s.blocker 3 d = some 0x06 ∧ d.pausedBy 0x06 = true ∧ d.pausedBy d.reason = false ∧
      s.hubLink 0 = true ∧ d.recOff + 32 ≤ hubSize) ∧
    (let d := { job 0x0F00 nopWords with st := .waiting, cores := [], cls := 4, reason := 0x06 }
     let s := having (ctx5 .paused 1 1) d;
      Invariant s ∧ s.waitOrder 0 = [3] ∧ s.blocker 3 d = some 0x05 ∧ d.pausedBy 0x05 = false ∧ d.pausedBy d.reason = true) := by
  refine ⟨⟨inv_of rfl rfl, ?_⟩, ⟨inv_of rfl rfl, ?_⟩⟩ <;> decide +kernel

theorem wit_FinalRecord :
    (let s := having (ctx5 .opened 1 1) { job 0x0F00 nopWords with result := some { status := 0, outcome := 0, flags := 0 } }
     let d := { job 0x0F00 nopWords with result := some { status := 0, outcome := 0, flags := 0 } };
      Invariant s ∧ s.desc? 3 = some d ∧ s.mayFinish d = true ∧ d.st = .running ∧ d.cls ≠ 0 ∧ s.verOf d.ctx = none ∧
      s.watched d.ctx = false ∧ (s.ctx d.ctx).st = .opened ∧ startsAbort (s.doneStatus d 0) (d.outcomeOf ⟨0, 0, 0⟩ (s.doneStatus d 0)) = false ∧
      d.outcomeOf ⟨0, 0, 0⟩ (s.doneStatus d 0) ≠ 3 ∧ d.outcomeOf ⟨0, 0, 0⟩ (s.doneStatus d 0) ≠ 5 ∧
      isTierFault (s.doneStatus d 0) = false ∧ d.recOff + 32 ≤ hubSize ∧ s.od 0x2100 0x0E + 8 * (d.job % 4096) + 8 ≤ hubSize ∧
      (s.od 0x2100 0x0E + 8 * (d.job % 4096) + 8 ≤ d.recOff ∨ d.recOff + 32 ≤ s.od 0x2100 0x0E + 8 * (d.job % 4096))) := by
  refine ⟨inv_of rfl rfl, ?_⟩; decide +kernel

theorem wit_TimeOnDescriptors_interim :
    (let s := ((having (ctx5 .opened 1 1) { job 0x0F00 nopWords with st := .waiting }).setOd 0x2A00 4 10).setReg (baseDSP 0) 11
     let d := { job 0x0F00 nopWords with st := .waiting };
      Invariant s ∧ s.desc? 3 = some d ∧ d.delayed = true ∧ d.interim = false ∧ d.result = none ∧ s.od 0x2A00 4 ≠ 0 ∧
      s.od 0x2A00 4 < s.dspTime d.die - d.epAt ∧ d.recOff + 32 ≤ hubSize ∧ s.hubLink d.die = true ∧
      { s with links := [] }.hubLink d.die = false) := by
  refine ⟨inv_of rfl rfl, ?_⟩; decide +kernel

theorem wit_TimeOnDescriptors_deadline :
    (let s := (having (ctx5 .opened 1 1) { job 0x0F00 nopWords with due := 11, cls := 3, notice := true }).setReg (baseDSP 0) 11
     let d := { job 0x0F00 nopWords with due := 11, cls := 3, notice := true };
      Invariant s ∧ s.desc? 3 = some d ∧ d.due ≠ 0 ∧ d.due ≤ s.dspTime d.die ∧ d.result = none ∧ 3 ≤ d.cls ∧ d.notice = true) ∧
    (let s := (having (ctx5 .opened 1 1) { job 0x0F00 nopWords with due := 11, st := .waiting }).setReg (baseDSP 0) 11
     let d := { job 0x0F00 nopWords with due := 11, st := .waiting };
      Invariant s ∧ s.desc? 3 = some d ∧ d.due ≠ 0 ∧ d.due ≤ s.dspTime d.die ∧ d.result = none ∧ d.st = .waiting ∧ d.pages = [] ∧
      (d.cls < 3 ∨ d.notice = false)) ∧
    (let s := (having (ctx5 .opened 1 1) { job 0x0F00 nopWords with due := 11 }).setReg (baseDSP 0) 11
     let d := { job 0x0F00 nopWords with due := 11 };
      Invariant s ∧ s.desc? 3 = some d ∧ d.due ≠ 0 ∧ d.due ≤ s.dspTime d.die ∧ d.result = none ∧ d.st ≠ .waiting ∧
      (d.cls < 3 ∨ d.notice = false)) := by
  refine ⟨⟨inv_of rfl rfl, ?_⟩, ⟨inv_of rfl rfl, ?_⟩, ⟨inv_of rfl rfl, ?_⟩⟩ <;> decide +kernel

theorem wit_TimeOnDescriptors_periods :
    (let s := (ctx5 .opened 0 0).setReg (baseDSP 0) 10000000;
      Invariant s ∧ (s.ctx 5).st ≠ .closed ∧ (s.ctx 5).periodAt + (s.ctx 5).period ≤ s.dspTime (s.home 5) ∧
      (∀ p, p ∈ s.descs → p.2.st ≠ .running) ∧ (s.die 0).running = true ∧
      (s.die 0).windowAt + (s.die 0).windowLen ≤ s.dspTime 0) := by
  refine ⟨inv_of rfl rfl, ?_⟩; decide +kernel

theorem made {s : State} {k c d size foot h : Nat} {ch : Bool} (hq : (ch && !(s.quotaOk c foot)) = false)
    (hr : s.roomFor c d foot = true) (hh : s.newHandle = some h)
    (ha : s.draw.2.addrOk h 0 d 0 (s.draw.2.tierBase 0 d 0).1 foot = true) :
    ∃ h x, s.makeObj k c d size foot ch = some (h, x) := by
  have he : evictUntil d 1 (fun s => s.roomFor c d foot) s.evictFuel s = s := by
    cases s.evictFuel with
    | zero => rfl
    | succ n => simp [evictUntil, hr]
  have hf : ∀ cand, ∃ a, s.draw.2.findAddr h 0 d 0 foot 0 cand = some a := by
    intro cand
    apply Option.isSome_iff_exists.mp
    simp only [State.findAddr]
    exact List.find?_isSome.mpr ⟨_, by simp, ha⟩
  obtain ⟨a, ea⟩ := hf (Config.free s.free 0 / kib64 * kib64)
  unfold State.makeObj
  rw [if_neg (by rw [hq]; decide)]
  dsimp only
  rw [he, if_neg (by rw [hr]; decide), hh]
  simp only [State.draw] at ea ⊢
  rw [ea]
  exact ⟨_, _, rfl⟩

/-- A running B gang of context 5 that is asked to stop, and one whose quota leaves no room for its save area. -/
def stopping (quota : Nat) (why : StopWhy) (cls : Nat) : State :=
  having ((ctx5 .opened 1 1).setOd 0x5000 0x17 quota 5) { job 0x0F00 nopWords with why := why, cls := cls }

theorem wit_Gangs_stop :
    (let s := stopping 0 .preempt 4
     let d := { job 0x0F00 nopWords with why := .preempt, cls := 4 };
      Invariant s ∧ s.desc? 3 = some d ∧ d.st = .running ∧ d.why ≠ .none ∧ d.result = none ∧
      ∃ h x, s.makeObj 8 d.ctx d.die (max 1 (0 + min 65536 ((d.cores.length + 1) * 1056768)))
        (roundUp (max 1 (0 + min 65536 ((d.cores.length + 1) * 1056768))) 65536) (decide (d.why ≠ .reset)) = some (h, x)) :=
  ⟨inv_of rfl rfl, by decide +kernel, rfl, by decide, rfl,
    made (h := 0) (by decide +kernel) (by decide +kernel) (by decide +kernel) (by decide +kernel)⟩

theorem wit_Gangs_evicted :
    (let s := stopping 1 .decaf 4
     let d := { job 0x0F00 nopWords with why := .decaf, cls := 4 };
      Invariant s ∧ s.desc? 3 = some d ∧ d.st = .running ∧ d.why ≠ .none ∧ d.result = none ∧ (d.cls = 4 ∨ d.why ≠ .preempt) ∧
      s.makeObj 8 d.ctx d.die (max 1 (0 + min 2113536 ((d.cores.length + 1) * 1056768)))
        (roundUp (max 1 (0 + min 2113536 ((d.cores.length + 1) * 1056768))) 65536) (decide (d.why ≠ .reset)) = none ∧
      (s.makeSpill d.ctx d.die (roundUp (max 1 (0 + min 2113536 ((d.cores.length + 1) * 1056768))) 65536)
        (decide (d.why ≠ .reset))).isNone = true) ∧
    (let s := stopping 1 .preempt 3
     let d := { job 0x0F00 nopWords with why := .preempt, cls := 3 };
      Invariant s ∧ s.desc? 3 = some d ∧ d.st = .running ∧ d.why ≠ .none ∧ d.result = none ∧ d.cls ≠ 4 ∧ d.why = .preempt ∧
      s.makeObj 8 d.ctx d.die (max 1 (0 + min 2113536 ((d.cores.length + 1) * 1056768)))
        (roundUp (max 1 (0 + min 2113536 ((d.cores.length + 1) * 1056768))) 65536) (decide (d.why ≠ .reset)) = none ∧
      (s.makeSpill d.ctx d.die (roundUp (max 1 (0 + min 2113536 ((d.cores.length + 1) * 1056768))) 65536)
        (decide (d.why ≠ .reset))).isNone = true) := by
  refine ⟨⟨inv_of rfl rfl, ?_⟩, ⟨inv_of rfl rfl, ?_⟩⟩ <;> decide +kernel

/-- The same gang on a die whose DRAM an object of context 6 fills, which a spill can move. -/
def stoppingFull : State := { stopping 0 .preempt 4 with
  objs := (List.range 4).map (fun d => (d, { Obj.zero with
    st := .present, flags := 2, die := d, owner := 6, size := 16911433728, foot := 16911433728, addr := d * 2 ^ 34, stamp := 1 })) }

theorem wit_Gangs_spilled :
    Invariant stoppingFull ∧
    (stoppingFull.makeObj 8 5 0 (max 1 (0 + min 65536 ((1 + 1) * 1056768))) (roundUp (max 1 (0 + min 65536 ((1 + 1) * 1056768))) 65536) true).isNone = true ∧
    (stoppingFull.makeSpill 5 0 (roundUp (max 1 (0 + min 65536 ((1 + 1) * 1056768))) 65536) true).isSome = true := by
  refine ⟨inv_of rfl rfl, ?_⟩; decide +kernel

/-! ### Witnesses: dense operations, attention and pages -/

/-- `s` with the running descriptor of these fields, changed by `f`. -/
def run (f : Desc → Desc) (op : Nat) (l : List (Nat × Nat)) : State × Desc :=
  (having (ctx5 .opened 1 1) (f (job op (wdsOf ((0, op) :: l)))), f (job op (wdsOf ((0, op) :: l))))

/-- What every statement about an operation asks of descriptor 3. -/
abbrev Runs (p : State × Desc) (op : Nat) : Prop :=
  p.1.desc? 3 = some p.2 ∧ p.2.st = .running ∧ p.2.result = none ∧ p.2.op = op ∧ p.1.stopOf p.2 = none

theorem inv_run (f : Desc → Desc) (op : Nat) (l : List (Nat × Nat)) : Invariant (run f op l).1 := inv_of rfl rfl

theorem wit_DenseOperations : ∀ op, op ∈ [0x0001, 0x0010, 0x0018, 0x0020, 0x0040, 0x0050, 0x0058, 0x0060, 0x0070] →
    Runs (run id op []) op ∧ (run id op []).1.regReads (run id op []).2 = [] := by decide +kernel

/-- The same with an object that it names on its way to destruction. -/
def cut (op : Nat) : State × Desc :=
  let p := run (fun d => { d with objs := [9] }) op []
  ({ p.1 with objs := [(9, { Obj.zero with st := .destroying })] }, p.2)

theorem wit_DenseOperations_stop :
    Invariant (cut 0x0001).1 ∧ (cut 0x0001).1.desc? 3 = some (cut 0x0001).2 ∧ (cut 0x0001).2.st = .running ∧
    (cut 0x0001).2.result = none ∧ (cut 0x0001).1.stopOf (cut 0x0001).2 = some 0x0540 :=
  ⟨inv_of rfl rfl, by decide +kernel⟩

theorem wit_DenseOperations_chain : Runs (run id 0x0030 [(53, 1)]) 0x0030 ∧ (run id 0x0030 [(53, 1)]).2.f 53 1 % 2 = 1 ∧
    (run id 0x0030 [(53, 1)]).1.regReads (run id 0x0030 [(53, 1)]).2 = [] ∧ 100000 < 100001 ∧ 100000 ≤ 100000 := by decide +kernel

theorem wit_IntegerResults_add :
    (let p := run id 0x0010 [(2, 13), (3, 13), (24, 0), (30, 4096), (42, 2 ^ 36 - 8192), (48, 32), (52, 33), (56, 1), (57, 13)]
     let d := p.2;
      Runs p 0x0010 ∧ d.f 56 1 = 1 ∧ d.inF = 13 ∧ d.outF = 13 ∧ d.f 57 1 = 13 ∧ d.f 59 1 = 0 ∧
      d.f 24 6 + matBytes 13 false (d.f 48 4) (d.f 52 4) ≤ 2 ^ 36 ∧ d.f 30 6 + matBytes 13 false (d.f 48 4) (d.f 52 4) ≤ 2 ^ 36 ∧
      d.f 42 6 + matBytes 13 false (d.f 48 4) (d.f 52 4) = 2 ^ 36 ∧ 31 < d.f 48 4 ∧ 32 < d.f 52 4) := by decide +kernel

theorem wit_IntegerResults_gemm :
    (let p := run id 0x0001 [(2, 11), (3, 13), (24, 0), (30, 2 ^ 30), (36, 2 ^ 36 - 8192), (48, 32), (52, 33), (56, 131071), (60, 11)]
     let d := p.2;
      Runs p 0x0001 ∧ d.inF = 11 ∧ d.f 60 1 = 11 ∧ d.outF = 13 ∧ d.f 61 1 = 0 ∧ d.f 56 4 ≤ 131071 ∧
      d.f 24 6 + matBytes 11 false (d.f 48 4) (d.f 56 4) ≤ 2 ^ 36 ∧ d.f 30 6 + matBytes 11 false (d.f 52 4) (d.f 56 4) ≤ 2 ^ 36 ∧
      d.f 36 6 + matBytes 13 false (d.f 48 4) (d.f 52 4) = 2 ^ 36 ∧ 31 < d.f 48 4 ∧ 32 < d.f 52 4) := by decide +kernel

theorem wit_AttentionAndMerge :
    (let p := run id 0x0100 [(54, 1), (56, 1), (58, 32), (60, 32), (62, 1), (64, 1), (88, 1), (92, 3)];
      Runs p 0x0100 ∧ (attnGeom p.2).hd % 32 = 0 ∧ p.1.regReads p.2 = []) ∧ Runs (run id 0x0108 []) 0x0108 := by decide +kernel

/-- An append of two positions after 63 to one head in pages of 32, one page a group claimed as handle 7. -/
def append (refill list : Nat) : State × Desc :=
  run (fun d => { d with aux := if refill = 0 then [0, 2, 1, 2, 5, 6, 7] else [0, 2, 1, 0, 7], tbl := [4], pages := [7] }) 0x0110
    [(3, 3), (36, list), (48, 63), (52, 2), (56, 1), (58, 32), (60, 32), (62, 1), (63, refill), (65, 1)]

/-- The entries that the append adds to its list. -/
abbrev addedGranted (p : State × Desc) : Bool :=
  (List.range (appGeom p.2).groups).all (fun q =>
    p.1.grantedFor p.2 ⟨plSlot (p.2.f 36 6) (p.2.tbl.headD 0) q (p.2.aux.getD 1 0),
      4 * (ceilDiv (p.2.f 48 4 + p.2.f 52 4) (appGeom p.2).pt - p.2.aux.getD 1 0), true, false⟩)

theorem wit_CacheAppend :
    (let d := (append 0 0x030000000000).2;
      Runs (append 0 0x030000000000) 0x0110 ∧ d.aux.getD 2 0 = 1 ∧ ([7] : List Nat).Nodup ∧
      [7].length = (appGeom d).groups * 1 ∧ appRefill d = false ∧ addedGranted (append 0 0x030000000000) = true ∧
      [7] = d.aux.drop (4 + d.aux.getD 3 0) ∧ 1 = min (d.f 48 4 / (appGeom d).pt) (d.aux.getD 1 0)) ∧
    (Runs (append 0 0x1000) 0x0110 ∧ appRefill (append 0 0x1000).2 = false ∧ addedGranted (append 0 0x1000) = false) ∧
    (append 0 0x1000).2.f 36 6 + 4 ≤ 2 ^ 36 := by decide +kernel

/-- `s` with page 7 of context 5 in state `st`. -/
def page7 (st : PageSt) (p : State × Desc) : State × Desc :=
  ({ p.1 with pages := [(7, { Page.zero with st := st, owner := 5, refs := 1, goal := 32 })] }, p.2)

/-- Every die's DRAM is full: with objects that may be spilled, or with held ones. -/
def full (holds : Nat) (s : State) : State :=
  { s with
    objs := (List.range 4).map (fun d => (d, { Obj.zero with
      st := .present, flags := 2, holds := holds, die := d, owner := 6, size := 16911433728, foot := 16911433728, addr := d * 2 ^ 34, stamp := 1 })) ++
      [(9, { Obj.zero with st := .present, kind := 3, owner := 5 })] }

theorem wit_CacheRefill :
    (let p := page7 .absent (append 1 0);
      Invariant p.1 ∧ Runs p 0x0110 ∧ p.2.aux.getD 2 0 = 1 ∧ [7].length = (appGeom p.2).groups * 1 ∧ appRefill p.2 = true ∧
      [7] = p.2.aux.drop 4 ∧ 1 = p.2.f 48 4 / (appGeom p.2).pt ∧ (refillBack p.2.pages p.1).1 = 0 ∧
      ((refillBack p.2.pages p.1).2.spillWaited 3).desc? 3 = some p.2 ∧
      ((refillBack p.2.pages p.1).2.spillWaited 3).stopOf p.2 = none) ∧
    (let p := page7 .present (append 1 0);
      Runs p 0x0110 ∧ ∀ h, h ∈ p.2.pages → (p.1.page h).st ≠ .absent) ∧
    (let p := page7 .absent (append 1 0); let s := full 0 p.1;
      s.stopOf p.2 = none ∧ (refillBack p.2.pages s).1 ≠ 0 ∧
      ((refillBack p.2.pages s).2.pageSpill 5 4 (refillBack p.2.pages s).1).isSome = true) ∧
    (let p := page7 .absent (append 1 0); let s := full 1 p.1;
      s.stopOf p.2 = none ∧ (refillBack p.2.pages s).1 ≠ 0 ∧
      (refillBack p.2.pages s).2.pageSpill 5 4 (refillBack p.2.pages s).1 = none) :=
  ⟨⟨inv_of rfl rfl, by decide +kernel⟩, by decide +kernel, by decide +kernel, by decide +kernel⟩

/-- Page operation `op` of `n` handles listed at 0x1000, with page 0 in the given state and context 5's cache. -/
def paging (op n : Nat) (cache : Bool) (pg : Page) : State × Desc :=
  let p := run (fun d => { d with tbl := [0] }) 0x0120 [(24, 0x1000), (30, 0x2000), (36, n), (40, op)]
  ({ p.1 with
      pages := if pg.st = .free then [] else [(0, pg)],
      objs := if cache then [(9, { Obj.zero with st := .present, kind := 3, owner := 5 })] else [] }, p.2)

theorem inv_paging (op n : Nat) (cache : Bool) (pg : Page) : Invariant (paging op n cache pg).1 := inv_of rfl rfl

theorem wit_PageOperations_allocate :
    (let p := paging 1 2 true Page.zero;
      Runs p 0x0120 ∧ p.2.f 36 4 = 2 ∧ p.2.f 40 1 = 1 ∧ p.1.hasCache p.2.ctx = true ∧
      (allocPages p.2.ctx (p.2.f 41 1) ((List.range 2).map (fun _ => 0)) p.1).1.isSome = true ∧ p.2.f 24 6 + 4 * 2 ≤ 2 ^ 36) ∧
    (paging 1 1 false Page.zero).1.hasCache 5 = false := by decide +kernel

theorem wit_PageOperations_spill :
    (let s := full 0 (paging 1 1 true Page.zero).1; let a := allocPages 5 0 ((List.range 1).map (fun _ => 0)) s;
      s.desc? 3 = some (paging 1 1 true Page.zero).2 ∧ s.stopOf (paging 1 1 true Page.zero).2 = none ∧ s.hasCache 5 = true ∧
      a.1 = none ∧ (a.2.pageSpill 5 0 1).isSome = true) ∧
    (let s := full 1 (paging 1 1 true Page.zero).1; let a := allocPages 5 0 ((List.range 1).map (fun _ => 0)) s;
      s.hasCache 5 = true ∧ a.1 = none ∧ a.2.pageSpill 5 0 1 = none) := by decide +kernel

/-- A page operation whose placement read handle 0. -/
abbrev HandleOf (p : State × Desc) (op : Nat) : Prop :=
  Runs p 0x0120 ∧ p.1.regReads p.2 = [] ∧ p.2.tbl = [0] ∧ p.2.tbl.Nodup ∧ p.2.f 40 1 = op

theorem wit_PageOperations_handles :
    (let p := paging 2 1 true { Page.zero with st := .present, refs := 65533 };
      HandleOf p 2 ∧ ∀ h, h ∈ p.2.tbl → h < 1048576 ∧ (p.1.page h).st ≠ .free ∧ (p.1.page h).refs < 65534) ∧
    (let p := paging 3 1 true { Page.zero with st := .present, refs := 1 };
      HandleOf p 3 ∧ p.1.pageHeld 0 = false ∧
      ∀ h, h ∈ p.2.tbl → h < 1048576 ∧ (p.1.page h).st ≠ .free ∧ 1 ≤ (p.1.page h).refs ∧ (p.1.page h).refs < 65535) := by decide +kernel

theorem wit_PageOperations_notices :
    (let p := paging 2 1 true { Page.zero with st := .present, refs := 65534 };
      HandleOf p 2 ∧ (p.1.page 0).st ≠ .free ∧ (p.1.page 0).refs = 65534) ∧
    (let p := paging 3 1 true { Page.zero with st := .present, refs := 65535 };
      HandleOf p 3 ∧ (p.1.page 0).st ≠ .free ∧ (p.1.page 0).refs = 65535) ∧
    (let p := paging 3 1 true Page.zero; HandleOf p 3 ∧ (p.1.page 0).st = .free) ∧
    (let p := paging 4 1 true Page.zero; HandleOf p 4 ∧ p.2.tbl.length = 1 ∧ p.2.f 30 6 + 16 * 1 ≤ 2 ^ 36) := by decide +kernel

/-! ### Witnesses: streams, solver and clearance -/

/-- Stream 2 of context 5: a vector of 64 values. -/
def strm2 (st : StrSt) : Strm :=
  { Strm.zero with st := st, owner := 5, kind := 2, size := 64, states := 1, obj := 9, data := List.replicate 64 1 }

/-- Stream operation `op` on stream 2, which is in state `st`; the descriptor changed by `f`. -/
def streaming (op : Nat) (st : StrSt) (f : Desc → Desc) : State × Desc :=
  let p := run (fun d => f { d with strs := [2] }) 0x0200 [(24, 0x1000), (30, 0x2000), (36, 1), (38, op)]
  ({ p.1 with strs := if st = .free then [] else [(2, strm2 st)] }, p.2)

theorem inv_streaming (op : Nat) (st : StrSt) (f : Desc → Desc) : Invariant (streaming op st f).1 := inv_of rfl rfl

theorem wit_StreamControl :
    (∀ op, op ∈ [2, 3, 4, 5, 6, 8, 9] → Runs (streaming op .resident id) 0x0200 ∧ (streaming op .resident id).2.strs.Nodup ∧
      (streaming op .resident id).2.f 38 1 = op ∧
      ∀ x, x ∈ (streaming op .resident id).2.strs → ((streaming op .resident id).1.strm x).st ≠ .moving) ∧
    (streaming 6 .resident id).2.strs = [2] ∧ ((streaming 6 .resident id).1.strm 2).st ≠ .pinned ∧
    ((streaming 6 .pinned id).1.strm 2).st = .pinned ∧ Runs (streaming 6 .pinned id) 0x0200 ∧
    (streaming 6 .pinned id).2.f 46 1 = 0 ∧ ((streaming 6 .pinned id).1.core 0).pinned = none ∧ ((streaming 6 .resident id).1.strm 2).st = .resident ∧
    (∀ op, op ∈ [2, 3, 4, 5, 6, 8, 9] → (streaming op .resident id).1.regReads (streaming op .resident id).2 = []) ∧
    (streaming 3 .resident id).2.stage = 0 ∧ (streaming 3 .swapped (fun d => { d with stage := 1 })).2.stage ≠ 0 ∧
    Runs (streaming 3 .swapped (fun d => { d with stage := 1 })) 0x0200 ∧ (streaming 4 .resident id).2.stage = 0 ∧
    (streaming 4 .resident id).2.strs = [2] ∧ (streaming 9 .resident id).2.f 30 6 + 4 * ((streaming 9 .resident id).1.strm 2).data.length ≤ 2 ^ 36 ∧
    (streaming 8 .resident id).2.f 30 6 + 32 * (streaming 8 .resident id).2.strs.length ≤ 2 ^ 36 := by decide +kernel

/-- Where some cluster has room whichever the search begins at, the stream gets slots. -/
theorem claimed {s : State} {d n : Nat} (h : ∀ r, r < 8 →
      ((s.slotClusters d).rotateLeft r |>.findSome? (fun g => (freeRun (s.slotUse g []) n).map (fun j => (g, j)))).isSome = true) :
    ∃ u g j, s.claimSlots d n = .at_ u g j := by
  have k := h (Config.free s.free 0 % 8) (Nat.mod_lt _ (by decide))
  obtain ⟨⟨g, j⟩, e⟩ := Option.isSome_iff_exists.mp k
  refine ⟨s.draw.2, g, j, ?_⟩
  simp only [State.claimSlots, State.draw]
  rw [e]

/-- Pin of stream 2 onto a core that holds stream 4. -/
def pinTaken : State × Desc :=
  let p := streaming 6 .resident id
  ({ p.1 with cores := [(0, { Core.ship 0 with pinned := some 4 })] }, p.2)

theorem wit_StreamControl_slots :
    (let p := streaming 6 .swapped id;
      Runs p 0x0200 ∧ p.1.regReads p.2 = [] ∧ p.2.f 38 1 = 6 ∧ p.2.strs = [2] ∧ (p.1.strm 2).st = .swapped ∧
      (p.1.core (p.2.f 46 1)).pinned = none ∧ ∃ u g j, p.1.claimSlots p.2.die (p.1.strm 2).slots = .at_ u g j) ∧
    (let p := streaming 7 .pinned id;
      Runs p 0x0200 ∧ p.1.regReads p.2 = [] ∧ p.2.f 38 1 = 7 ∧ p.2.strs = [2] ∧ p.2.stage = 0 ∧ (p.1.strm 2).st = .pinned ∧
      ∃ u g j, (p.1.updDesc 3 (fun y => { y with stage := 1, aux := [0] })).claimSlots p.2.die (p.1.strm 2).slots = .at_ u g j) ∧
    (let p := streaming 4 .swapped id;
      Runs p 0x0200 ∧ p.1.regReads p.2 = [] ∧ p.2.f 38 1 = 4 ∧ p.2.strs = [2] ∧ p.2.stage = 0 ∧ (p.1.strm 2).st = .swapped ∧
      ∃ u g j, (p.1.updDesc 3 (fun y => { y with stage := 1, aux := [] })).claimSlots p.2.die (p.1.strm 2).slots = .at_ u g j) := by
  refine ⟨⟨by decide +kernel, by decide +kernel, by decide +kernel, rfl, rfl, by decide +kernel, claimed (by decide +kernel)⟩,
    ⟨by decide +kernel, by decide +kernel, by decide +kernel, rfl, rfl, rfl, claimed (by decide +kernel)⟩,
    ⟨by decide +kernel, by decide +kernel, by decide +kernel, rfl, rfl, rfl, claimed (by decide +kernel)⟩⟩

theorem wit_StreamControl_taken :
    Runs pinTaken 0x0200 ∧ pinTaken.2.f 38 1 = 6 ∧ pinTaken.2.strs = [2] ∧ (pinTaken.1.core (pinTaken.2.f 46 1)).pinned = some 4 := by
  decide +kernel

/-- Stream open of stream 2: one of kind 2, and one over context 5's quota. -/
def opening (quota : Nat) : State × Desc :=
  let p := run (fun d => { d with strs := [2] }) 0x0200 [(24, 0x1000), (36, 1), (38, 1), (39, 2), (40, 64)]
  (p.1.setOd 0x5000 0x17 quota 5, p.2)

theorem wit_StreamOpens_open :
    (let p := opening 0;
      Invariant p.1 ∧ Runs p 0x0200 ∧ p.1.regReads p.2 = [] ∧ p.2.f 38 1 = 1 ∧ p.2.strs = [2] ∧ (p.1.strm 2).st = .free ∧ strBytes (p.2.f 39 1) (p.2.f 40 4) 1 ((p.2.f 45 1).testBit 0) = 256 ∧
      roundUp 256 8192 = 8192 ∧ p.1.quotaOk p.2.ctx 8192 = true ∧ p.1.makeRoom p.2.ctx p.2.die (roundUp 8192 65536) = .ok p.1 ∧
      ∃ h v, p.1.makeObj 4 p.2.ctx p.2.die 256 8192 true = some (h, v)) := by
  refine ⟨inv_of rfl rfl, by decide +kernel, by decide +kernel, by decide +kernel, rfl, rfl, by decide +kernel, by decide, by decide +kernel, ?_, ?_⟩
  · have h : (opening 0).1.roomFor 5 0 65536 = true := by decide +kernel
    have f : (opening 0).1.evictFuel = 0 := by decide +kernel
    show State.makeRoom (opening 0).1 5 0 65536 = _
    simp [State.makeRoom, f, evictUntil, h]
  · exact made (h := 0) (by decide +kernel) (by decide +kernel) (by decide +kernel) (by decide +kernel)

theorem wit_StreamOpens_refused :
    (let p := run (fun d => { d with strs := List.range 129 }) 0x0200 [(24, 0x1000), (36, 129), (38, 1), (39, 2), (40, 64)]
     let s := p.1.setOd 0x5000 0x17 1 5;
      s.desc? 3 = some p.2 ∧ s.stopOf p.2 = none ∧ s.regReads p.2 = [] ∧ (∀ y, y ∈ (p.2.strs : List Nat) → (s.strm y).st = .free) ∧
      s.quotaOk p.2.ctx (p.2.strs.length * 8192) = false) ∧
    (let p := opening 0
     let s := { p.1 with strs := [(2, strm2 .swapped)] };
      s.desc? 3 = some p.2 ∧ s.stopOf p.2 = none ∧ s.regReads p.2 = [] ∧ p.2.f 38 1 = 1 ∧
      p.2.strs.any (fun y : Nat => decide ((s.strm y).st ≠ StrSt.free)) = true) := by decide +kernel

/-- A chunk `op` of stream 2, Resident in slot 1 of cluster 3, of class `cls`. -/
def chunk (op cls : Nat) : State × Desc :=
  let p := run (fun d => { d with strs := [2], cls := cls }) op [(63, 1)]
  ({ p.1 with strs := [(2, { strm2 .resident with cluster := 3, slot := 1 })] }, p.2)

theorem wit_StreamChunks : ∀ op, op ∈ [0x0210, 0x0220] → ∀ cls, cls ∈ [0, 2] →
    Runs (chunk op cls) op ∧ (chunk op cls).2.strs = [2] ∧ (chunk op cls).2.strs.Nodup ∧ (chunk op cls).2.f 63 1 = 1 ∧
    (chunk op cls).2.cls = cls ∧ ((chunk op cls).1.strm 2).st = .resident ∧ ((chunk op cls).1.strm 2).cluster < 32 ∧
    ((chunk op cls).1.strm 2).slot * 8192 + 4 * 64 ≤ 0x100000 := by decide +kernel

theorem wit_StreamMoves :
    (let s := { up with strs := [(2, { strm2 .moving with movIn := true, cluster := 31, slot := 127 })] };
      Invariant s ∧ (s.strm 2).st = .moving ∧ (s.strm 2).movIn = true ∧ (s.strm 2).cluster < 32 ∧
      (s.strm 2).slot * 8192 + 4 * 64 ≤ 0x100000) ∧
    (let s := { up with
        strs := [(2, strm2 .moving)], objs := [(9, { Obj.zero with st := .present, kind := 4, owner := 5, addr := 0x10000 })] };
      Invariant s ∧ (s.strm 2).st = .moving ∧ (s.strm 2).movIn = false ∧ (s.obj (s.strm 2).obj).kind = 4 ∧
      (s.obj (s.strm 2).obj).addr + 4 * (s.strm 2).data.length ≤ 2 ^ 36) ∧
    (let p := streaming 4 .moving id;
      Invariant p.1 ∧ (p.1.strm 2).st = .moving ∧ p.1.desc? 3 = some p.2 ∧ p.2.result = none ∧ p.2.needsMove 2 = true) :=
  ⟨⟨inv_of rfl rfl, by decide +kernel⟩, ⟨inv_of rfl rfl, by decide +kernel⟩, inv_of rfl rfl, by decide +kernel⟩

theorem wit_SolverOperations :
    (∀ m, m ∈ [0, 1, 2] → Runs (run id 0x0300 [(70, 1), (79, m), (83, 1)]) 0x0300 ∧
      (run id 0x0300 [(70, 1), (79, m), (83, 1)]).2.f 79 1 = m ∧
      (run id 0x0300 [(70, 1), (79, m), (83, 1)]).2.aux.getD (slvGang (run id 0x0300 [(70, 1), (79, m), (83, 1)]).2) 0 = 0 ∧
      (run id 0x0300 [(70, 1), (79, m), (83, 1)]).1.regReads (run id 0x0300 [(70, 1), (79, m), (83, 1)]).2 = [] ∧
      slvGang (run id 0x0300 [(70, 1), (79, m), (83, 1)]).2 = 1 ∧
      solverInTime (run id 0x0300 [(70, 1), (79, m), (83, 1)]).1 (run id 0x0300 [(70, 1), (79, m), (83, 1)]).2 = true) ∧
    Runs (run id 0x0310 [(50, 1), (57, 1)]) 0x0310 ∧ slvGang (run id 0x0310 [(50, 1), (57, 1)]).2 = 1 ∧
    solverInTime (run id 0x0310 [(50, 1), (57, 1)]).1 (run id 0x0310 [(50, 1), (57, 1)]).2 = true := by decide +kernel

theorem wit_SolverOperations_stop :
    (let p := run (fun d => { d with aux := [11, 0, 0] }) 0x0300 [(70, 1), (83, 1)]
     let s := p.1.setReg (baseDSP 0) 11;
      Invariant s ∧ s.desc? 3 = some p.2 ∧ 0 < slvGang p.2 ∧ p.2.aux.getD 0 0 ≠ 0 ∧ p.2.aux.getD 0 0 ≤ s.dspTime p.2.die ∧
      solverInTime s p.2 = false ∧ p.2.stage.testBit 0 = false ∧ slvGang p.2 ≤ p.2.aux.length ∧ problemsOf p.2 0 ≠ [] ∧ slvGang p.2 ≤ 1) ∧
    (let p := run (fun d => { d with aux := [11, 0, 0] }) 0x0300 [(70, 1), (83, 1)]
     let s := p.1.setReg (baseDSP 0) 10;
      s.dspTime p.2.die < p.2.aux.getD 0 0) := by
  refine ⟨⟨inv_of rfl rfl, ?_⟩, ?_⟩ <;> decide +kernel

/-- Map operation `op` on map 7, of one brick, in state `m`, of context 5; generation `g`, one spare slot. -/
def mapping (op : Nat) (m : MapSt) (g owner : Nat) : State × Desc :=
  let p := run id 0x0400 [(24, op), (25, 7), (28, 8), (30, 8), (32, 8), (36, 1), (52, 0x100000), (58, 0x3000), (64, 1)]
  ({ p.1 with maps := if m = .undef then [] else
      [(7, { SdMap.zero with st := m, gen := g, nx := 8, ny := 8, nz := 8, um := 1, pool := 0x100000, spare := 1, owner := owner })] }, p.2)

theorem inv_mapping (op : Nat) (m : MapSt) (g owner : Nat) : Invariant (mapping op m g owner).1 := inv_of rfl rfl

theorem wit_MapControl :
    (let p := mapping 1 .undef 0 5; Runs p 0x0400 ∧ p.2.f 25 1 = 7 ∧ p.2.f 24 1 = 1 ∧ (p.1.sdMap 7).st = .undef ∧
      p.2.f 52 6 + poolBytes 1 0 ≤ 2 ^ 36 ∧ (p.2.f 26 1).testBit 0 = false) ∧
    (let p := mapping 1 .defined 0 5; Runs p 0x0400 ∧ p.2.f 24 1 = 1 ∧ (p.1.sdMap 7).st ≠ .undef) ∧
    (let p := mapping 2 .defined 0 5; Runs p 0x0400 ∧ p.2.f 24 1 = 2 ∧ p.2.stage = 0 ∧ (p.1.sdMap 7).live = true ∧ (p.1.sdMap 7).owner = p.2.ctx) ∧
    (let p := mapping 2 .defined 0 6; Runs p 0x0400 ∧ p.2.f 24 1 = 2 ∧ p.2.stage = 0 ∧ (p.1.sdMap 7).owner ≠ p.2.ctx) ∧
    (let p := mapping 3 .undef 0 5; Runs p 0x0400 ∧ p.2.f 24 1 = 3 ∧ p.2.f 58 6 + 64 ≤ 2 ^ 36) := by decide +kernel

theorem wit_MapControl_free :
    (let s := (mapping 2 .retiring 0 5).1; Invariant s ∧ (s.sdMap 7).st = .retiring ∧ s.updating 7 = false ∧ (s.sdMap 7).update = none ∧ s.pinned 7 = false) ∧
    ((mapping 2 .defined 0 5).1.sdMap 7).st ≠ .retiring := by
  refine ⟨⟨inv_of rfl rfl, ?_⟩, ?_⟩ <;> decide +kernel

/-- An update of map 7 by context 5, of class `cls`, in stage `stage`, whose list is `l`; the map is in generation `gen`. -/
def updating (stage cls gen epoch : Nat) (l : List Nat) : State × Desc :=
  let p := run (fun d => { d with stage := stage, tbl := l, cls := cls }) 0x0408 [(24, 0x1000), (36, 0x2000), (42, l.length), (46, epoch), (48, 7)]
  ({ p.1 with maps := (mapping 1 .defined gen 5).1.maps }, p.2)

theorem wit_MapUpdates_start :
    (∀ cls, cls ∈ [2, 3] → (let p := updating 0 cls 0 0 [0];
      Runs p 0x0408 ∧ p.1.regReads p.2 = [] ∧ p.2.f 48 1 = 7 ∧ p.2.stage = 0 ∧ p.2.cls = cls ∧ (p.1.sdMap 7).live = true ∧
      (p.1.sdMap 7).owner = p.2.ctx ∧ (p.1.sdMap 7).gen % 65536 = p.2.f 46 2 ∧ p.1.pinsPrev 7 = 0)) ∧
    (let p := updating 0 2 0 1 [0]; Runs p 0x0408 ∧ (p.1.sdMap 7).gen % 65536 ≠ p.2.f 46 2) ∧
    (let p := updating 0 2 0 0 [0]; ({ p.1 with maps := [] }.sdMap 7).live = false) := by decide +kernel

/-- The same with a check of class B that pins the previous epoch. -/
def yielding : State × Desc :=
  let p := updating 0 2 4 4 [0]
  ({ p.1 with descs := (4, { job 0x0410 0 with cls := 3, pins := [(7, 3)] }) :: p.1.descs }, p.2)

theorem wit_MapUpdates_yield :
    (∃ x, yielding.1.desc? 4 = some x ∧ x.op = 0x0410 ∧ 3 ≤ x.cls ∧ x.result = none ∧ x.stage = 0 ∧ 1 ≤ (yielding.1.sdMap 7).gen ∧
      (7, (yielding.1.sdMap 7).gen - 1) ∈ x.pins) ∧
    yielding.1.desc? 3 = some yielding.2 ∧ yielding.2.cls ≤ 2 ∧ (yielding.1.sdMap 7).gen % 65536 = yielding.2.f 46 2 := by
  exact ⟨⟨_, rfl, by decide +kernel⟩, by decide +kernel⟩

theorem wit_MapUpdates_copy :
    (let p := updating 1 2 0 0 [0, 0];
      Runs p 0x0408 ∧ p.2.stage = 1 ∧ p.1.pinsPrev 7 = 0 ∧ (p.1.sdMap 7).update = none ∧ distinct p.2.tbl = false) ∧
    (let p := updating 1 2 0 0 [0]
     let m := p.1.sdMap 7;
      Runs p 0x0408 ∧ p.2.stage = 1 ∧ p.1.pinsPrev 7 = 0 ∧ m.update = none ∧ distinct p.2.tbl = true ∧ (∀ b, b ∈ p.2.tbl → b < m.bricks) ∧
      (p.2.tbl.filter (fun b => !(entValid p.1 m b))).length ≤ (freeSlots p.1 m).length ∧
      (∀ b, b < m.bricks → entPrev p.1 m b < m.bricks + m.spare) ∧ m.pool + poolBytes m.bricks m.spare ≤ 2 ^ 36) ∧
    (let p := updating 2 2 0 0 [0]; Runs p 0x0408 ∧ p.2.stage = 2 ∧ ∀ q, q ∈ p.1.descs → q.2.op = 0x0408 → q.2.stage ≠ 1) := by
  decide +kernel

/-- The copy finds too few free slots: both bricks of a map without spare slots keep no previous slot. -/
def crowded : State × Desc :=
  let p := updating 1 2 0 0 [0]
  ({ p.1 with maps := [(7, { (p.1.sdMap 7) with spare := 0 })] }, p.2)

theorem wit_MapUpdates_full :
    (let m := crowded.1.sdMap 7;
      Runs crowded 0x0408 ∧ crowded.2.stage = 1 ∧ distinct crowded.2.tbl = true ∧ (∀ b, b ∈ crowded.2.tbl → b < m.bricks) ∧
      (freeSlots crowded.1 m).length < (crowded.2.tbl.filter (fun b => !(entValid crowded.1 m b))).length) := by decide +kernel

/-- A path check of context 5 that its engine runs, with a stop instant at `stop`. -/
def checking (stop : Nat) : State × Desc := run (fun d => { d with stopAt := stop, aux := [0] }) 0x0410 []

theorem wit_PathChecks :
    (let p := checking 0; Invariant p.1 ∧ Runs p 0x0410 ∧ p.1.regReads p.2 = [] ∧ p.1.runningCheck p.2.die = some 3 ∧
      p.1.stopDue p.2 = false ∧ p.2.aux.length = 2 * p.2.f 42 2 + 1) ∧
    (let p := checking 1
     let s := p.1.setReg (baseDSP 0) 1;
      s.desc? 3 = some p.2 ∧ s.stopOf p.2 = none ∧ s.stopDue p.2 = true ∧ p.2.st ≠ .waiting) ∧
    (checking 1).1.stopDue (checking 1).2 = false := by
  refine ⟨⟨inv_of rfl rfl, ?_⟩, ?_⟩ <;> decide +kernel

theorem wit_PathChecks_suspended :
    (let p := checking 1
     let s := { p.1.setReg (baseDSP 0) 1 with
        descs := [(2, { job 0x0410 0 with cls := 1 }), (3, { p.2 with aux := [2, 0] })] };
      s.runningCheck 0 = some 2 ∧ s.stopDue { p.2 with aux := [2, 0] } = true ∧ checkDone { p.2 with aux := [2, 0] } = 2) := by
  decide +kernel

/-! ### Witnesses: objects, resets, links, recovery -/

/-- Object operation `op` with one record `w` at 0x1000; the object table and the persistent copies. -/
def objing (op w : Nat) (objs : AMap Obj) (copies : AMap Copy) : State × Desc :=
  let p := run id 0x0500 [(24, 0x1000), (30, 1), (32, op)]
  (({ p.1 with objs := objs, copies := copies }).wrN 0x1000 64 w, p.2)

/-- Object 9 of context 5 in the given state. -/
def obj9 (st : ObjSt) : AMap Obj :=
  [(9, { Obj.zero with st := st, owner := 5, size := 4096, foot := 65536, addr := if st = .present then 65536 else 0 })]

/-- A persistent copy of 4096 bytes. -/
def copy7 : AMap Copy := [(7, { kind := 0, fmt := 0, flags := 0, size := 4096, maker := none, stored := 4096, ver := 1, data := [] })]

abbrev ObjAsk (p : State × Desc) (op w : Nat) : Prop :=
  Memory.wf p.1.mem = true ∧ Runs p 0x0500 ∧ p.1.regReads p.2 = [] ∧ p.2.f 32 1 = op ∧ objRecs p.1 p.2 = [w]

theorem wit_ObjectHandles :
    (let p := objing 2 9 (obj9 .present) []; ObjAsk p 2 9 ∧ ownHandle p.1 5 9 = true ∧ queryOnly p.1 9 = false ∧
      (p.1.obj (rHandle 9)).st ≠ .destroying ∧ AMap.wf p.1.objs = true) ∧
    (let p := objing 3 9 (obj9 .present) []; ObjAsk p 3 9 ∧ p.2.f 24 6 + 64 * 1 ≤ 2 ^ 36 ∧ rHandle 9 < 65536 ∧ (p.1.obj (rHandle 9)).owner = p.2.ctx) ∧
    (let p := objing 3 8 (obj9 .present) []; ObjAsk p 3 8 ∧ (p.1.obj (rHandle 8)).st = .free) := by decide +kernel

theorem wit_ObjectHandles_more :
    (let p := objing 4 (9 + 2 * 2 ^ 72) (obj9 .cold) []; ObjAsk p 4 (9 + 2 * 2 ^ 72) ∧ ([9].map rHandle).Nodup ∧
      ownHandle p.1 5 (9 + 2 * 2 ^ 72) = true ∧ queryOnly p.1 9 = false ∧ (p.1.obj 9).st = .cold) ∧
    (let p := objing 8 9 (obj9 .present) []; ObjAsk p 8 9 ∧ ownHandle p.1 5 9 = true ∧ queryOnly p.1 9 = false ∧ (p.1.obj 9).st = .present) ∧
    (let p := objing 9 (7 * 2 ^ 256) [] copy7; ObjAsk p 9 (7 * 2 ^ 256) ∧ rName (7 * 2 ^ 256) ≠ 0 ∧
      (AMap.get? (rName (7 * 2 ^ 256)) p.1.copies).isSome = true) := by decide +kernel

theorem wit_ObjectHandles_refused :
    (∀ op, op ∈ [2, 4, 8] → ObjAsk (objing op 8 (obj9 .present) []) op 8 ∧ ownHandle (objing op 8 (obj9 .present) []).1 5 8 = false) ∧
    (∀ op, op ∈ [7, 9] → ObjAsk (objing op (6 * 2 ^ 256) [] copy7) op (6 * 2 ^ 256) ∧
      AMap.get? (rName (6 * 2 ^ 256)) (objing op (6 * 2 ^ 256) [] copy7).1.copies = none) := by decide +kernel

/-- The record of a DRAM object of 65536 bytes on die 3. -/
def newRec : Nat := 3 * 2 ^ 56 + 65536 * 2 ^ 128

/-- Object operation `op` with one record `w` in hub SRAM. -/
def objHub (op w : Nat) (objs : AMap Obj) (copies : AMap Copy) : State × Desc :=
  let p := run id 0x0500 [(24, hub 0x1000), (30, 1), (32, op)]
  (({ p.1 with objs := objs, copies := copies }).wrN (hub 0x1000) 64 w, p.2)

theorem fits {s : State} {g n : Nat} (he : ∀ h, s.addrFree h (g * 2 ^ 34) n = true)
    (hb : (decide ((s.tierBase 0 g 0).1 ≤ g * 2 ^ 34 ∧ g * 2 ^ 34 + n ≤ (s.tierBase 0 g 0).1 + (s.tierBase 0 g 0).2) &&
      g * 2 ^ 34 % tierUnit 0 == 0) = true) (h : Nat) : s.addrOk h 0 g 0 (g * 2 ^ 34) n = true := by
  simp only [State.addrOk]
  rw [he h, hb]; rfl

theorem wit_ObjectSpace_create :
    (let p := objHub 1 newRec [] [];
      ObjAsk p 1 newRec ∧ createOk p.1 p.2.ctx newRec = true ∧ rKind newRec ≠ 3 ∧ rTier newRec = 0 ∧ p.1.interleaved = false ∧
      rDie newRec = 3 ∧ 3 < 4 ∧ footprint (rKind newRec) (rFmt newRec) (rFlags newRec) (rSize newRec) 0 = 65536 ∧
      p.1.quotaOk p.2.ctx 65536 = true ∧ p.1.objs.length < 65536 ∧ p.1.roomFor p.2.ctx 3 65536 = true ∧ 2 ^ 36 ≤ p.2.f 24 6) ∧
    (∀ h, (objHub 1 newRec [] []).1.addrOk h 0 3 0 (3 * 2 ^ 34) 65536 = true) ∧
    (let p := objHub 1 (3 * 2 ^ 56) [] []; ObjAsk p 1 (3 * 2 ^ 56) ∧ createOk p.1 p.2.ctx (3 * 2 ^ 56) = false) := by
  refine ⟨by decide +kernel, fits ?_ (by decide +kernel), by decide +kernel⟩
  intro h
  have e : (objHub 1 newRec [] []).1.objs = [] := by decide +kernel
  simp [State.addrFree, e]

theorem wit_ObjectSpace_place :
    (∀ st, st ∈ [ObjSt.cold, ObjSt.discarded] →
      (let p := objHub 5 9 (obj9 st) []
       let o := p.1.obj (rHandle 9);
        ObjAsk p 5 9 ∧ ownHandle p.1 p.2.ctx 9 = true ∧ queryOnly p.1 9 = false ∧ 1 ≤ 1 ∧ o.st = st ∧ o.tier = 0 ∧
        p.1.interleaved = false ∧ o.die = 0 ∧ footprint o.kind o.fmt o.flags o.size 0 = 65536 ∧ p.1.quotaOk p.2.ctx 65536 = true ∧
        p.1.roomFor p.2.ctx 0 65536 = true ∧ 2 ^ 36 ≤ p.2.f 24 6 ∧ o.size ≤ 65536 ∧ p.1.objs.all (fun q => !q.2.inMem) = true)) ∧
    (let p := objHub 5 9 (obj9 .cold) []; ((p.1.obj 9).st = .cold) ∧ (p.1.obj 9).tier ≤ 2) ∧
    (let p := objHub 6 (9 + 7 * 2 ^ 256) (obj9 .present) []
     let o := p.1.obj 9;
      ObjAsk p 6 (9 + 7 * 2 ^ 256) ∧ o.st = .present ∧ o.kind ≤ 1 ∧ rName (9 + 7 * 2 ^ 256) ≠ 0 ∧ nameOk p.1 9 7 = true ∧
      p.1.copies.length < 16384 ∧ p.1.coldUsed + roundUp o.size kib64 ≤ coldCap) ∧
    (let p := objHub 7 (7 * 2 ^ 256) [] copy7
     let w := 7 * 2 ^ 256;
      ObjAsk p 7 w ∧ rName w ≠ 0 ∧ (AMap.get? (rName w) p.1.copies).isSome = true ∧ rDie w ≤ 4 ∧ rClus w ≤ 7 ∧
      rTier w ≤ 2 ∧ 4096 ≤ 3 * mib ∧ p.1.objs.length < 65536) := by decide +kernel

theorem wit_ObjectSpace_place_fits (h : Nat) : (objHub 5 9 (obj9 .cold) []).1.addrOk h 0 0 0 (0 * 2 ^ 34) 65536 = true := by
  refine fits ?_ (by decide +kernel) h
  intro h
  have e : (objHub 5 9 (obj9 .cold) []).1.objs = obj9 .cold := by decide +kernel
  rw [State.addrFree, e]
  simp [obj9, Obj.inMem]

theorem wit_CarafeMoves_copy :
    (let p := run id 0x0510 [(24, 0x1000), (30, 0x1020), (64, 64), (72, 4)];
      Runs p 0x0510 ∧ p.1.regReads p.2 = [] ∧ p.2.f 72 1 % 4 = 0 ∧ tcBytes p.2 = 64 ∧ p.2.f 24 6 + tcBytes p.2 ≤ 2 ^ 36 ∧ p.2.f 30 6 + tcBytes p.2 ≤ 2 ^ 36) ∧
    (let q := run id 0x0510 [(30, 2 ^ 36 - 64), (36, 9), (44, 4032), (64, 64), (72, 5)]
     let p := ({ q.1 with objs := obj9 .cold }, q.2);
      Runs p 0x0510 ∧ p.1.regReads p.2 = [] ∧ p.2.f 72 1 % 4 = 1 ∧ coldSide p.1 p.2 (p.2.f 36 4) (p.2.f 44 8) ((p.2.f 72 1).testBit 2) = 0 ∧
      p.2.f 30 6 + tcBytes p.2 ≤ 2 ^ 36) ∧
    (let q := run id 0x0510 [(24, 0x1000), (40, 9), (52, 0), (64, 4096), (72, 6)]
     let p := ({ q.1 with objs := obj9 .cold }, q.2);
      Runs p 0x0510 ∧ p.1.regReads p.2 = [] ∧ p.2.f 72 1 % 4 = 2 ∧ coldSide p.1 p.2 (p.2.f 40 4) (p.2.f 52 8) ((p.2.f 72 1).testBit 2) = 0 ∧
      p.2.f 24 6 + tcBytes p.2 ≤ 2 ^ 36) ∧
    (let p := run id 0x0530 [(24, 0x80000), (28, 64), (32, 2 ^ 36 - 64)]; Runs p 0x0530 ∧ p.1.regReads p.2 = [] ∧ p.2.f 32 6 + p.2.f 28 4 ≤ 2 ^ 36) := by
  decide +kernel

theorem wit_CarafeMoves_spill :
    (let s := { up with objs := obj9 .present, spills := [{ obj := 9, trigger := 2 }] };
      Invariant s ∧ s.spills.find? (fun p => p.obj == 9) = some { obj := 9, trigger := 2 } ∧ 2 ≠ 1 ∧ s.spills.find? (fun p => p.obj == 8) = none) ∧
    (let s := { (full 0 up) with descs := [] };
      Invariant s ∧ s.alive = true ∧ 4 ≤ s.md.st ∧ s.poolFree < s.od 0x2400 5 * mib) ∧
    up.od 0x2400 5 * mib ≤ up.poolFree := by
  refine ⟨⟨inv_of rfl rfl, ?_⟩, ⟨inv_of rfl rfl, ?_⟩, ?_⟩ <;> decide +kernel

theorem wit_ResetsAndRestart :
    (let s := opened (stageUp 3) 0 0x100
     let b := burst 0 0x100 32 0x0000A5C1 0xFFFFFFF0;
      Invariant s ∧ s.alive = true ∧ b.ch < 4 ∧ b.ecc = false ∧ b.fixed = false ∧ b.mask % 16 = 0 ∧ s.burstOff b = 0x100 ∧
      b.data % 2 ^ 32 = 0x0000A5C1 ∧ s.md.bootMode = false ∧ AMap.wf s.apers = true) ∧
    (let s := opened up 0 0x100
     let b := burst 0 0x100 64 0x0000A5C3 0;
      Invariant s ∧ s.alive = true ∧ s.burstOff b = 0x100 ∧ b.mask % 16 = 0 ∧ b.data % 2 ^ 32 = 0x0000A5C3 ∧ s.hasCause 1 = false ∧
      s.isl.safe ≠ 2) ∧
    Accepted up 1 0x2000 5 1 1 := by
  refine ⟨⟨inv_of rfl rfl, ?_⟩, ⟨inv_of rfl rfl, ?_⟩, ?_⟩ <;> (try unfold Accepted) <;> decide +kernel

theorem wit_RequestsThatFail :
    (let p := run id 0x0F00 []
     let s := p.1.setCore 0 { p.1.core 0 with fenced := true };
      Invariant s ∧ s.desc? 3 = some p.2 ∧ p.2.st = .running ∧ p.2.result = none ∧ s.fencedAt 0x020000000000 = true ∧
      s.fencedAt 0x020000100000 = false ∧
      ((s.clu 31).unc.filter (fun t => decide (s.dspTime (31 / 8) < t + 1000000000))).length < 3) := by
  refine ⟨inv_of rfl rfl, ?_⟩; decide +kernel

/-- Link 9 in state `st`; with `n` replays within the last millisecond. -/
def linked (st n : Nat) : State := { up with links := [(9, { Link.ship with st := st, times := List.replicate n 0, consec := n })] }

theorem wit_LinksAndAborts_replay :
    (Invariant (linked 2 2) ∧ 9 < 10 ∧ 2 ≤ ((linked 2 2).link 9).st ∧ ((linked 2 2).link 9).consec + 1 < 4 ∧
      (((linked 2 2).dspTime ((linkDies 9).headD 0) :: ((linked 2 2).link 9).times).filter
        (fun t => decide ((linked 2 2).dspTime ((linkDies 9).headD 0) < t + 1000000))).length < 16) ∧
    (Invariant (linked 2 3) ∧ 2 ≤ ((linked 2 3).link 9).st ∧ 4 ≤ ((linked 2 3).link 9).consec + 1) ∧
    (16 ≤ (((linked 4 15).dspTime ((linkDies 9).headD 0) :: ((linked 4 15).link 9).times).filter
        (fun t => decide ((linked 4 15).dspTime ((linkDies 9).headD 0) < t + 1000000))).length) ∧
    ((linked 1 0).link 9).st < 2 ∧ ((linked 1 0).link 9).st = 1 ∧ laneState 9 32 ≠ 0 ∧ laneState 9 33 = 0 ∧ ((linked 1 0).link 9).tries ≠ 3 := by
  refine ⟨⟨inv_of rfl rfl, ?_⟩, ⟨inv_of rfl rfl, ?_⟩, ?_⟩ <;> decide +kernel

theorem wit_LinksAndAborts_command : 3 < 4 ∧ Accepted (linked 2 0) 1 (0x4200 + 3) 0x79 1 15 ∧ (15 : Nat).testBit 3 = true ∧
    2 ≤ ((linked 2 0).link ((linksOf 3).getD 3 0)).st := by
  unfold Accepted; decide +kernel

theorem wit_LinksAndAborts_aborts :
    (let s := { (ctx5 .opened 0 0) with aborts := [(1, { origin := 3, at_ := 0, wait := [0], relayed := [], orphan := false })],
                                        links := [(6, { Link.ship with st := 2 })] };
      Invariant s ∧ AMap.get? 1 s.aborts = some { origin := 3, at_ := 0, wait := [0], relayed := [], orphan := false } ∧ 0 ∈ [0] ∧
      2 ≤ (s.link (peerLink 3 0)).st ∧ s.holdsJob 0 1 = true ∧ (s.ctx 5).st = .opened ∧ s.home 5 = 0 ∧ s.od 0x5000 5 5 = 1) ∧
    (let s := ({ (ctx5 .opened 0 0) with aborts := [(1, { origin := 3, at_ := 0, wait := [0], relayed := [], orphan := false })] }).setReg (baseDSP 3) 2000;
      Invariant s ∧ AMap.get? 1 s.aborts = some { origin := 3, at_ := 0, wait := [0], relayed := [], orphan := false } ∧ 0 + 2000 ≤ s.dspTime 3) := by
  refine ⟨⟨inv_of rfl rfl, ?_⟩, ⟨inv_of rfl rfl, ?_⟩⟩ <;> decide +kernel

/-- A solver descriptor and a clearance descriptor, running; the clearance engine's map 7 has its pool at 0x100000. -/
def engaged (op : Nat) : State × Desc :=
  let p := run id op [(83, 1), (88, 4096)]
  ({ p.1 with maps := (mapping 1 .defined 0 5).1.maps }, p.2)

theorem wit_RequestsThatFail_engines :
    (let p := engaged 0x0300; Runs p 0x0300 ∧ (∃ g, solverHit p.2 0x020004000010 0 = some g) ∧ solverHit p.2 0x1000 0 = none) ∧
    (let p := engaged 0x0410; Runs p 0x0410 ∧ p.1.poolAt 0x100000 = true ∧ p.1.poolAt 0x1000 = false) ∧
    (Runs (run id 0x0F00 []) 0x0F00 ∧ ¬ (0x0400 ≤ 0x0F00 ∧ 0x0F00 ≤ 0x04FF)) := by
  refine ⟨⟨by decide +kernel, ⟨0, by decide +kernel⟩, by decide +kernel⟩, by decide +kernel, by decide +kernel⟩

/-- Link 0 in training with a doorbell and a record that wait for it. -/
def hubTraining : State :=
  { up with
    links := [(0, { Link.ship with st := 1, tries := 3 })],
    dies := [(0, { Die.ship with running := true, doors := [(5, 2)], notes := [] })] }

theorem wit_LinksAndAborts_hub :
    Invariant hubTraining ∧ (hubTraining.link 0).st = 1 ∧ laneState 0 16 ≠ 0 ∧ laneState 0 17 = 0 ∧
    (hubTraining.die 0).doors = [(5, 2)] ∧ (hubTraining.die 0).notes = [] := by
  refine ⟨inv_of rfl rfl, ?_⟩; decide +kernel

theorem wit_LinksAndAborts_orphan :
    (let s := { (ctx5 .opened 0 0) with aborts := [(1, { origin := 3, at_ := 9, wait := [0], relayed := [], orphan := true })] };
      Invariant s ∧ (AMap.get? 1 s.aborts).any (fun a => a.orphan) = true ∧ (s.die 0).st = 0) ∧
    (let s := { up with aborts := [(1, { origin := 3, at_ := 9, wait := [0], relayed := [], orphan := true })] };
      s.holdsJob 0 1 = false) := by
  refine ⟨⟨inv_of rfl rfl, ?_⟩, ?_⟩ <;> decide +kernel

/-! ### Witnesses: the recovery sequencer and functional safety -/

/-- `s` with core 0 in reset state `r` since REC_TIME 0. -/
def coreRst (s : State) (r : Nat) : State := s.setCore 0 { s.core 0 with rst := r, drainAt := 0 }

theorem wit_HangLadder :
    (let p := run (fun d => { d with cls := 1, cores := [255], die := 3 }) 0x0F00 [];
      Invariant p.1 ∧ 255 < 292 ∧ 255 < 256 ∧ (p.1.elemRst 255).1 = 0 ∧ AMap.wf p.1.descs = true ∧ p.1.replayOn 255 = none ∧
      p.1.desc? 3 = some p.2 ∧ p.2.st = .running ∧ p.2.onElem 255 = true ∧ p.2.result = none ∧ p.2.cls ≤ 1) ∧
    ((coreRst up 1).elemRst 0).1 = 1 ∧ ((coreRst up 2).elemRst 0).1 = 2 ∧ (coreRst up 2).explained 0 = false ∧
    (let s := (coreRst up 2).setReg baseREC 200000; Invariant s ∧ (s.elemRst 0).1 = 2 ∧ (s.elemRst 0).2 + 10 * resetTime 0 ≤ s.recTime) ∧
    (let s := (coreRst up 2).setReg baseREC 199999; s.recTime < (s.elemRst 0).2 + 10 * resetTime 0) := by
  refine ⟨⟨inv_of rfl rfl, ?_⟩, ?_, ?_, ?_, ⟨inv_of rfl rfl, ?_⟩, ?_⟩ <;> decide +kernel

/-- A hang of core 0 whose suspect 3 is still to replay, or is being replayed on core 8. -/
def hung (now : Option (Nat × Nat)) (result : Option Result) : State × Desc :=
  let p := run (fun d => { d with st := if now.isSome then .running else .waiting, result := result, cores := [] }) 0x0F00 []
  ({ p.1 with rcv := { p.1.rcv with hangs :=
      [{ elem := 0, die := 0, level := 0x05F1, todo := if now.isSome then [] else [3], now := now, guilty := false, sc := false }] } }, p.2)

theorem wit_HangLadder_replay :
    (let p := hung none none
     let u := p.1.pruneHang 0;
      Invariant p.1 ∧ 0 < 292 ∧
      u.rcv.hangs.find? (fun h => h.elem == 0) =
        some { elem := 0, die := 0, level := 0x05F1, todo := [3], now := none, guilty := false, sc := false } ∧
      (u.elemRst 0).1 = 0 ∧ u.desc? 3 = some p.2 ∧
      u.quarantine { elem := 0, die := 0, level := 0x05F1, todo := [3], now := none, guilty := false, sc := false } p.2 = some ([0], 0)) ∧
    (let p := hung (some (3, 8)) none;
      p.1.rcv.hangs.find? (fun h => h.elem == 0) =
        some { elem := 0, die := 0, level := 0x05F1, todo := [], now := some (3, 8), guilty := false, sc := false } ∧
      p.1.desc? 3 = some p.2 ∧ p.2.result = none) ∧
    (hung (some (3, 8)) (some ⟨0, 0, 0⟩)).2.result ≠ none := by
  refine ⟨⟨inv_of rfl rfl, ?_⟩, ?_⟩ <;> decide +kernel

theorem wit_ResetCommands :
    Invariant up ∧ 255 < 256 ∧ 31 < 32 ∧ Accepted up 1 (0x4000 + 255) 0x22 1 1 ∧ up.resettable 255 = true ∧
    Accepted (coreRst up 1) 1 (0x4000 + 0) 0x22 1 1 ∧ (coreRst up 1).resettable 0 = false ∧
    Accepted up 1 (0x4000 + 255) 0x22 1 2 ∧ (up.core 255).remap = false ∧ (up.core 255).dead = false ∧
    Accepted up 1 (0x4100 + 31) 0x51 1 1 ∧ up.resettable (256 + 31) = true ∧
    (let s := up.setClu 0 { up.clu 0 with rst := 2 }; Accepted s 1 (0x4100 + 0) 0x51 1 1 ∧ s.resettable (256 + 0) = false) := by
  refine ⟨inv_of rfl rfl, ?_⟩; unfold Accepted; decide +kernel

theorem wit_ResetCommands_remap :
    (let s := up.setCore 255 { up.core 255 with fenced := true, remap := true };
      Invariant s ∧ s.resettable (256 + 31) = true ∧ (∀ k, k < 8 → s.reserver (8 * 31 + k) = none) ∧ 7 < 8 ∧ (s.core (8 * 31 + 7)).remap = true) ∧
    (∀ k, k < 8 → (up.core (8 * 31 + k)).remap = false) ∧
    (let s := { up with ctxs := [(5, { Ctx.zero with st := .opened, rsv := [255] })] };
      Invariant s ∧ 7 < 8 ∧ s.reserver (8 * 31 + 7) ≠ none) := by
  refine ⟨⟨inv_of rfl rfl, ?_⟩, ?_, ⟨inv_of rfl rfl, ?_⟩⟩ <;> decide +kernel

/-- Die 3 in recovery or out of service. -/
def die3 (st : Nat) (retried : Bool) : State := up.setDie 3 { up.die 3 with st := st, retried := retried }

theorem wit_DieRecovery :
    (Invariant up ∧ 3 < 4 ∧ Accepted up 1 (0x4200 + 3) 0x82 1 1 ∧ (up.die 3).st = 0) ∧
    (Invariant (die3 2 false) ∧ Accepted (die3 2 false) 1 (0x4200 + 3) 0x82 1 1 ∧ ((die3 2 false).die 3).st = 2 ∧
      ((die3 2 false).die 3).retried = false) ∧
    (Invariant (die3 2 true) ∧ Accepted (die3 2 true) 1 (0x4200 + 3) 0x82 1 1 ∧ ((die3 2 true).die 3).retried = true) ∧
    (Invariant (die3 1 false) ∧ Accepted (die3 1 false) 1 (0x4200 + 3) 0x82 1 1 ∧ ((die3 1 false).die 3).st = 1 ∧
      (∀ p, p ∈ (die3 1 false).descs → p.2.die ≠ 3) ∧ (die3 1 false).recTime ≤ ((die3 1 false).die 3).recAt + 4000000000) ∧
    laneState 3 16 ≠ 0 ∧ laneState 3 17 = 0 ∧
    (let s := (die3 1 false).setReg baseREC 4000000001; Invariant s ∧ (s.die 3).recAt + 4000000000 < s.recTime) := by
  refine ⟨⟨inv_of rfl rfl, ?_⟩, ⟨inv_of rfl rfl, ?_⟩, ⟨inv_of rfl rfl, ?_⟩, ⟨inv_of rfl rfl, ?_⟩, ?_, ?_, ⟨inv_of rfl rfl, ?_⟩⟩ <;>
    (try unfold Accepted) <;> decide +kernel

theorem wit_BaristaFailures :
    (Invariant up ∧ up.md.barista = 0 ∧ up.rcv.halted = false ∧
      (up.md.restarts.filter (fun t => decide (up.recTime < t + 600000000000))).length < 3) ∧
    (let s := up.setReg baseREC 10000000; s.rcv.beatAt + 10000000 ≤ s.recTime ∧ s.md.barista = 0) ∧
    (let s := { up with rcv := { up.rcv with halted := true } }; Invariant s ∧ s.rcv.halted = true ∧ s.md.barista = 0) ∧
    (let s := { up with md := { up.md with barista := 4 } };
      Invariant s ∧ s.md.barista ≠ 0 ∧ s.rcv.halted = false ∧ 3 ≤ s.md.st ∧ s.ranked = s.md.st) ∧
    (let s := up.setReg keyBarista 1000000; Invariant s ∧ s.md.barista = 0 ∧ s.md.beatAt + 1000000 ≤ s.barTime) ∧
    Accepted up 1 0x2300 0x0B 1 1 ∧ 255 < 256 ∧ 256 ≤ 256 := by
  refine ⟨⟨inv_of rfl rfl, ?_⟩, ?_, ⟨inv_of rfl rfl, ?_⟩, ⟨inv_of rfl rfl, ?_⟩, ⟨inv_of rfl rfl, ?_⟩, ?_⟩ <;>
    (try unfold Accepted) <;> decide +kernel

/-- `up` with the island changed, and SAF_TIME at `t`. -/
def island (t : Nat) (f : Isl → Isl) : State := { up with isl := f up.isl, regs := [(baseSAF, t)] }

theorem inv_island (t : Nat) (f : Isl → Isl) : Invariant (island t f) := inv_of rfl rfl

theorem wit_SafetyIsland_causes :
    (Invariant up ∧ up.hasCause 3 = false) ∧ (island 0 (fun i => { i with causes := 8 })).hasCause 3 = true ∧
    (20000 < 20001 ∧ up.stopCmd true ≠ false ∧ up.hasCause 3 = false ∧ up.isl.safe ≠ 2) ∧ 20000 ≤ 20000 ∧
    (let s := island 1000 (fun i => { i with safe := 1, ss1End := 1000 }); s.isl.safe = 1 ∧ s.isl.ss1End ≤ s.safTime) ∧
    (let s := island 999 (fun i => { i with safe := 1, ss1End := 1000 }); s.isl.safe = 1 ∧ s.safTime < s.isl.ss1End) := by
  refine ⟨⟨inv_of rfl rfl, ?_⟩, ?_⟩ <;> decide +kernel

theorem wit_SafetyIsland_pulses :
    (let s := (island 100000000 id).setOd 0x2200 0x0A 1;
      Invariant s ∧ s.isl.pulseA = 0 ∧ s.od 0x2200 0x0A = 1 ∧ s.isl.lastA + 100000000 ≤ s.safTime ∧
      s.isl.pulseB = 0 ∧ s.isl.lastB + 100000000 ≤ s.safTime ∧ s.isl.lastA + 50000000 ≤ s.safTime) ∧
    (let s := island 100 (fun i => { i with pulseA := 100 }); Invariant s ∧ s.isl.pulseA ≠ 0 ∧ s.isl.pulseA ≤ s.safTime) ∧
    (let s := island 100 (fun i => { i with mons := [(63, { Mon.zero with ends := 100, good := true }), (64, Mon.zero)] });
      Invariant s ∧ (s.mon 63).ends ≠ 0 ∧ (s.mon 63).ends ≤ s.safTime ∧ (s.mon 63).good = true ∧ (s.mon 62).ends = 0) ∧
    (let s := island 100 (fun i => { i with mons := [(63, { Mon.zero with ends := 100 })] });
      Invariant s ∧ (s.mon 63).ends ≠ 0 ∧ (s.mon 63).ends ≤ s.safTime ∧ (s.mon 63).good = false) ∧
    (let s := (island 1000001 (fun i => { i with tests := [(291, { Tst.zero with tested := true })] })).setOd 0x2200 8 1;
      Invariant s ∧ 291 < 292 ∧ (s.tst 291).tested = true ∧ (s.tst 291).at_ + s.od 0x2200 8 * 1000000 < s.safTime) := by
  refine ⟨⟨inv_of rfl rfl, ?_⟩, ⟨inv_of rfl rfl, ?_⟩, ⟨inv_of rfl rfl, ?_⟩, ⟨inv_of rfl rfl, ?_⟩, ⟨inv_of rfl rfl, ?_⟩⟩ <;> decide +kernel

/-- The safe state is held and a table of one entry lies at 0x4000. -/
def tabled : State :=
  ((({ up with isl := { up.isl with safe := 2, causes := 1 } }).setOd 0x2201 1 0x4000).setOd 0x2201 2 1).wrN (hub 0x4000) 16 (1 * 2 ^ 16)

theorem wit_SafetyIsland_limits :
    (let s := tabled;
      Memory.wf s.mem = true ∧ Accepted s 1 0x2201 3 4 (crc32c (natBytes (s.rdBytes (hub 0x4000) 16))) ∧ s.od 0x2201 1 = 0x4000 ∧ s.od 0x2201 2 = 1 ∧
      0x4000 % 16 = 0 ∧ hubRange 0x4000 (16 * 1) = true ∧
      crc32c (natBytes (s.rdBytes (hub 0x4000) (16 * 1))) = crc32c (natBytes (s.rdBytes (hub 0x4000) 16)) % 2 ^ 32 ∧
      ((List.range 1).map (fun i => s.rdHub (0x4000 + 16 * i) 16)).all limitOk = true) ∧
    Accepted tabled 1 0x2201 3 4 1 ∧ crc32c (natBytes (tabled.rdBytes (hub 0x4000) (16 * 1))) ≠ 1 % 2 ^ 32 := by
  unfold Accepted; decide +kernel

theorem wit_SafetyIsland_loop :
    (let s := { (island 2000 (fun i => { i with period := 1000 })) with esp := { Esp.zero with st := 1 } };
      Invariant s ∧ s.esp.st ≠ 0 ∧ s.isl.frameAt + 2 * s.isl.period ≤ s.safTime) ∧
    (let s := { (island 1999 (fun i => { i with period := 1000 })) with esp := { Esp.zero with st := 1 } };
      s.safTime < s.isl.frameAt + 2 * s.isl.period) ∧
    (let s := island 1000 (fun i => { i with own := true, period := 1000 }); Invariant s ∧ s.isl.own = true ∧ s.isl.ownAt + s.isl.period ≤ s.safTime) ∧
    (let s := ((island 1000000 (fun i => { i with fsoeSt := [(63, 4)] })).setOd (0x2740 + 63) 1 1).setOd (0x2740 + 63) 6 1;
      Invariant s ∧ s.od (0x2740 + 63) 1 ≠ 0 ∧ AMap.getD 63 0 s.isl.fsoeSt = 4 ∧
      AMap.getD 63 0 s.isl.fsoeAt + s.od (0x2740 + 63) 6 * 1000000 ≤ s.safTime) := by
  refine ⟨⟨inv_of rfl rfl, ?_⟩, ?_, ⟨inv_of rfl rfl, ?_⟩, ⟨inv_of rfl rfl, ?_⟩⟩ <;> decide +kernel

/-- A class S descriptor with a shadow copy on die 1. -/
def paired (op : Nat) (x : Shadow) (result : Option Result) : State × Desc :=
  let p := run (fun d => { d with cls := 0, shadow := some x, result := result }) op []
  ({ p.1 with ctxs := [(5, { Ctx.zero with st := .opened, rsv := [0, 64] })], isl := { p.1.isl with tests := [(64, { Tst.zero with tested := true })] },
              regs := [(baseDSP 1, 1000)] }, p.2)

def copyOf (placed judged : Bool) : Shadow := { die := 1, cores := [], placed := placed, at_ := 1000, judged := judged }

theorem wit_PairsAndSweeps_place :
    (let p := paired 0x0510 (copyOf false false) none
     let s := p.1.setOd 0x2200 7 0;
      Invariant s ∧ s.desc? 3 = some p.2 ∧ p.2.shadow = some (copyOf false false) ∧ p.2.st = .running ∧ (s.die 1).st = 0 ∧
      1000 + s.od 0x2200 7 ≤ s.dspTime 1 ∧ p.2.unitless = true ∧ s.cleShadow p.2 1 = true) ∧
    (let p := paired 0x0F00 (copyOf false false) none
     let s := p.1.setOd 0x2200 7 0;
      Invariant s ∧ p.2.unitless = false ∧ s.shadowCores p.2 1 = some [64]) ∧
    (let p := paired 0x0F00 (copyOf false false) none
     let s := p.1.setOd 0x2200 7 1; s.dspTime 1 < 1000 + s.od 0x2200 7) := by
  refine ⟨⟨inv_of rfl rfl, ?_⟩, ⟨inv_of rfl rfl, ?_⟩, ?_⟩ <;> decide +kernel

/-- A class S check whose copy waits for the engine of die 1, which has passed its test or not. -/
def pairedCheck (tested : Bool) : State × Desc :=
  let p := paired 0x0410 (copyOf false false) none
  ({ p.1 with isl := { p.1.isl with tests := [(289, { Tst.zero with tested := tested })] } }.setOd 0x2200 7 0, p.2)

theorem wit_PairsAndSweeps_check :
    (let p := pairedCheck true;
      Invariant p.1 ∧ p.1.desc? 3 = some p.2 ∧ p.2.unitless = true ∧ p.2.op = 0x0410 ∧ p.1.cleShadow p.2 1 = true ∧ p.1.runningCheck 1 = none) ∧
    (pairedCheck false).1.cleShadow (pairedCheck false).2 1 = false := by
  refine ⟨⟨inv_of rfl rfl, ?_⟩, ?_⟩ <;> decide +kernel

theorem wit_PairsAndSweeps_failed :
    (let p := paired 0x0410 (copyOf true false) (some ⟨0x05A0, 9, 0⟩);
      Invariant p.1 ∧ p.1.desc? 3 = some p.2 ∧ p.2.shadow = some (copyOf true false) ∧ 2 ≤ stClass 0x05A0 ∧
      p.1.shadowOut p.2 ⟨0x05A0, 9, 0⟩ = true) ∧
    (let p := paired 0x0F00 (copyOf true false) (some ⟨0x05A0, 9, 0⟩); p.1.shadowOut p.2 ⟨0x05A0, 9, 0⟩ = false) := by
  refine ⟨⟨inv_of rfl rfl, ?_⟩, ?_⟩ <;> decide +kernel

theorem wit_PairsAndSweeps_compare :
    (let p := paired 0x0F00 (copyOf true false) (some ⟨0x0120, 0, 0⟩);
      Invariant p.1 ∧ p.1.desc? 3 = some p.2 ∧ p.2.shadow = some (copyOf true false) ∧ p.2.result = some ⟨0x0120, 0, 0⟩ ∧
      stClass 0x0120 < 2 ∧ (∀ g, g ∈ [(0x1000, 0)] → g.1 + 64 ≤ 0x040000000000) ∧ (p.1.die 1).st = 0 ∧ stClass 0x0120 ≠ 4 ∧ stClass 0x0120 ≠ 5) ∧
    (pairSign ([].map (fun g : Nat × Nat => (g.1, g.2, up.rd g.1 64))) = pairSign [] ∧ ([] : List (Nat × Nat)).length = 0) ∧
    stClass 0x0402 = 4 ∧ (copyOf true true).judged = true ∧ 2 ≤ stClass 0x0200 := by
  refine ⟨⟨inv_of rfl rfl, ?_⟩, ?_, ?_⟩
  · decide +kernel
  · exact ⟨rfl, rfl⟩
  · decide

theorem wit_PairsAndSweeps_differ : pairSign ([(0x1000, 1)].map (fun g : Nat × Nat => (g.1, g.2, up.rd g.1 64))) ≠ pairSign [(0x1000, 1, 1)] := by
  decide +kernel

/-- Context 5 is verified context 15, a closing NOP has ended, and the golden input is newly in its slot. -/
def goldened (want : Nat) : State × Desc :=
  let p := run (fun d => { d with result := some ⟨0, 0, 0⟩ }) 0x0F00 []
  ((({ p.1 with isl := { p.1.isl with vers := [(15, { Ver.zero with fresh := true })] },
                objs := [(9, { Obj.zero with st := .present, owner := 5, addr := 0x10000, size := 64 })] }).setOd (0x2260 + 15) 1 5).setOd
      (0x2260 + 15) 6 9 |>.wrN 0x10000 8 want, p.2)

theorem wit_PairsAndSweeps_golden : ∀ w, w ∈ [up.goldenSign 0 0, up.goldenSign 0 0 + 1] →
    (let p := goldened w
     let s := p.1;
      Memory.wf s.mem = true ∧ s.desc? 3 = some p.2 ∧ s.verOf p.2.ctx = some 15 ∧ p.2.result = some ⟨0, 0, 0⟩ ∧ p.2.closes = true ∧
      p.2.stage ≠ 1 ∧ (∀ q, q ∈ s.descs → q.2.ctx = p.2.ctx → 3 ≤ q.1) ∧ (s.ver 15).bad = false ∧ (s.ver 15).fresh = true ∧
      s.rd ((s.obj (s.od (0x2260 + 15) 6)).addr + s.od (0x2260 + 15) 7 * s.od (0x2260 + 15) 3 + 8 * (s.ver 15).input) 8 = w ∧
      (w = up.goldenSign 0 0 ↔ s.goldenSign (s.od (0x2260 + 15) 4) (s.od (0x2260 + 15) 5) = w)) := by
  decide +kernel

theorem wit_PairsAndSweeps_sweep :
    (let s := island 0 (fun i => { i with tests := [(255, { Tst.zero with owed := true })] });
      Invariant s ∧ s.sliceable 255 = true ∧ (s.tst 255).owed = true) ∧
    (let s := island 0 (fun i => { i with tests := [(255, { Tst.zero with run := true })] });
      Invariant s ∧ (s.tst 255).run = true ∧ (s.tst 255).slices + 1 < sweepLen 255 ∧ s.sliceable 255 = false) ∧
    (let s := island 0 (fun i => { i with tests := [(255, { Tst.zero with run := true, slices := sweepLen 255 - 1 })] });
      Invariant s ∧ (s.tst 255).run = true ∧ sweepLen 255 ≤ (s.tst 255).slices + 1 ∧ s.barred 255 = false ∧ 255 < 256) ∧
    (let s := (island 0 (fun i => { i with tests := [(255, { Tst.zero with run := true, slices := sweepLen 255 - 1 })] })).setCore 255
        { up.core 255 with dead := true };
      Invariant s ∧ s.barred 255 = true) := by
  refine ⟨⟨inv_of rfl rfl, ?_⟩, ⟨inv_of rfl rfl, ?_⟩, ⟨inv_of rfl rfl, ?_⟩, ⟨inv_of rfl rfl, ?_⟩⟩ <;> decide +kernel

theorem wit_PairsAndSweeps_pinned :
    (let s := { (island 0 (fun i => { i with tests := [(255, { Tst.zero with run := true })] })) with
        strs := [(2, { strm2 .pinned with core := 255 }), (3, strm2 .resident)] };
      Invariant s ∧ (s.tst 255).run = true ∧ (s.strm 2).st = .pinned ∧ (s.strm 2).core = 255 ∧ (s.strm 3).st ≠ .pinned ∧
      AMap.wf s.strs = true) ∧
    ((island 0 id).tst 255).run = false := by
  refine ⟨⟨inv_of rfl rfl, ?_⟩, ?_⟩ <;> decide +kernel

/-! ### Witnesses: the Espresso loop -/

/-- A loop of one SubDevice with images of 8 bytes, one output field, a template of one GEMM on context 5 of class C, without a
standby, at a period of 1 ms. -/
def loop : State :=
  let s := { up with ctxs := [(5, { Ctx.zero with st := .opened, rsvCl := [0] })], isl := { up.isl with table := [2 ^ 16] } }
  let s := [(3, 1000000), (4, 100000), (5, 0x4000), (6, 1), (7, 0x5000), (8, 1), (9, 0x6000), (0x0A, 1), (0x0B, 5), (0x0C, 0xFFFF),
    (0x10, 0x8000), (0x15, 0x7000), (0x16, 1)].foldl (fun s p => s.setOd 0x2700 p.1 p.2) s
  let s := [(4, 1), (9, 0x4000), (0x0A, 256)].foldl (fun s p => s.setOd 0x5000 p.1 p.2 5) s
  ((s.wrN (hub 0x4000) 64 (8 * 2 ^ 96 + 8 * 2 ^ 128)).wrN (hub 0x5000) 16 (7 * 2 ^ 16 + 2 ^ 24)).wrN (hub 0x6000) 64 1

/-- The loop with the block changed by `f`, at ESP_TIME `t`. -/
def looping (t : Nat) (f : Esp → Esp) : State := { loop with esp := f Esp.zero, regs := [(baseESP, t)] }

theorem inv_loop : Memory.wf loop.mem = true ∧ Flash.wf loop.flash = true := by decide +kernel

theorem inv_looping (t : Nat) (f : Esp → Esp) : Invariant (looping t f) := by
  unfold Invariant looping
  dsimp only
  exact inv_loop

theorem wit_LoopCommands_arm :
    (let s := loop;
      Memory.wf s.mem = true ∧ Flash.wf s.flash = true ∧ Accepted s 1 0x2700 2 1 1 ∧ s.esp.st = 0 ∧ s.loopLegal = true ∧ s.tableOk [(0, 0)] = true ∧
      s.fieldsOk = true ∧ s.templateOk = true ∧ s.fsoeOk = true ∧ (s.setOd 0x2700 0x12 (1000 % 2 ^ 32)).periodOk = true) ∧
    loop.tableOk [(1, 0)] = false ∧
    (Accepted (looping 0 (fun e => { e with st := 1 })) 1 0x2700 2 1 1 ∧ (looping 0 (fun e => { e with st := 1 })).esp.st ≠ 0) := by
  unfold Accepted; decide +kernel

theorem wit_LoopCommands_run :
    (let s := looping 0 (fun e => { e with st := 1 });
      Accepted s 1 0x2700 2 1 2 ∧ s.esp.st = 1 ∧ s.loopLegal = true ∧ s.esp.stopLeft = 0 ∧ s.periodOk = true ∧ Accepted s 1 0x2700 2 1 4) ∧
    (let s := looping 0 (fun e => { e with st := 2 });
      Accepted s 1 0x2700 2 1 3 ∧ s.esp.st = 2 ∧ s.esp.stopLeft = 0 ∧ Accepted s 1 0x2700 2 1 2 ∧ s.esp.st ≠ 1 ∧ Accepted s 1 0x2700 2 1 4) ∧
    (Accepted loop 1 0x2700 2 1 3 ∧ loop.esp.st ≠ 2) ∧
    (let s := { (looping 0 (fun e => { e with absent := true })) with dict := (loop.setOd 0x2700 0x0C 6).dict };
      Accepted s 1 0x2700 0x26 1 1 ∧ s.esp.absent = true ∧ s.standby ≠ 0xFFFF) ∧
    (Accepted loop 1 0x2700 0x26 1 1 ∧ loop.esp.absent = false) := by
  unfold Accepted; decide +kernel

theorem wit_LoopCommands_sdo :
    (let s := (loop.setOd 0x2701 4 0x9000).setOd 0x2701 5 2
     let x := { seg with data := [1, 2] };
      Accepted s 1 0x2701 6 1 1 ∧ Accepted s 0 0x2701 6 1 2 ∧ x.ok = true ∧ x.data.length = s.od 0x2701 5 ∧
      s.acyclicOk 0 = true ∧ s.acyclicOk (min 1486 (s.od 0x2701 5)) = true ∧ s.od 0x2701 5 ≤ 1486 ∧
      s.od 0x2701 4 + s.od 0x2701 5 ≤ hubSize) ∧
    (let s := looping 0 (fun e => { e with st := 1, phase := 1 });
      Accepted s 1 0x2701 6 1 1 ∧ Accepted s 1 0x2701 6 1 2 ∧ s.acyclicOk 0 = false ∧ s.acyclicOk (min 1486 (s.od 0x2701 5)) = false) := by
  unfold Accepted; decide +kernel

theorem wit_LoopCommands_rest :
    (let s := looping (1 + loop.lo 0x22 * 1000) (fun e => { e with lowAt := 1 });
      s.md.barista = 0 ∧ 7 ≤ s.md.st ∧ s.md.decaf = false ∧ s.esp.lowAt ≠ 0 ∧ s.esp.lowAt + s.lo 0x22 * 1000 ≤ s.espTime) ∧
    (looping 0 (fun e => { e with critical := true })).esp.critical = true ∧
    (let s := looping 0 (fun e => { e with st := 1, phase := 4, tickAt := 0 });
      s.esp.sdo = none ∧ s.esp.st ≠ 0 ∧ 4 ≤ s.esp.phase ∧
      s.espTime + 80 * (52 + max ([] : List Byte).length 32) + 10000 ≤ s.esp.tickAt + s.lo 3) ∧
    (∀ st, st ∈ [0, 1] → (let s := looping 0 (fun e => { e with st := st, sdo := some (true, true, [1]) });
      s.esp.sdo = some (true, true, [1]) ∧ s.acyclicOk (s.sdoLen true) = decide (st = 0))) := by
  decide +kernel

theorem wit_LoopCycle_input :
    (let s := looping 2000000 (fun e => { e with st := 1, phase := 5, tickAt := 1000000 }); s.esp.st ≠ 0 ∧ s.esp.tickAt + s.lo 3 ≤ s.espTime ∧ s.esp.phase = 5) ∧
    (let s := looping 1999999 (fun e => { e with st := 1, phase := 5, tickAt := 1000000 }); s.espTime < s.esp.tickAt + s.lo 3) ∧
    (let s := looping 1000 (fun e => { e with st := 1, phase := 1, ring := 1 });
      s.esp.phase = 1 ∧ 0 < (framesOf s.inLen).length ∧ 1 < 2 ∧ 2 * 0 + 1 ∉ s.esp.done ∧ s.espTime ≤ s.esp.tickAt + s.cutoff ∧
      ((insNat (2 * 0 + 1) s.esp.done).filter (fun d => d / 2 == 0)).length < s.copiesDue) ∧
    (let s := looping 1000 (fun e => { e with st := 1, phase := 1 });
      s.esp.phase = 1 ∧ (framesOf s.inLen).length = 1 ∧ s.esp.ring = 0 ∧ s.esp.done = [] ∧ s.esp.wkcs = [] ∧
      1 = expectWkc (s.subds.map subIn) ((framesOf s.inLen).getD 0 (0, 0))) ∧
    (let s := looping loop.cutoff (fun e => { e with st := 1, phase := 1 }); s.esp.phase = 1 ∧ s.esp.tickAt + s.cutoff ≤ s.espTime ∧
      s.espTime ≤ s.esp.tickAt + s.cutoff) ∧
    (looping (loop.cutoff - 1) (fun e => { e with phase := 1 })).espTime < loop.cutoff := by
  decide +kernel

/-- The loop in its program's phase at ESP_TIME 99,999, with a standby on context 6; records of status `p` and `q` stand at the
offsets 0xA000 of the primary and 0xB000 of the standby. -/
def sided (p q : Nat) : State :=
  let s := (((looping 99999 (fun e => { e with st := 2, phase := 2 })).setOd 0x2700 0x0C 6).setOd 0x5000 0x0B 0xA000 5).setOd 0x5000 0x0B 0xB000 6
  ((s.wrN (hub 0x6000) 64 (1 + 0xA000 * 2 ^ 144)).wrN (hub 0xA000) 32 (p + 0xC005 * 2 ^ 176)).wrN (hub 0xB000) 32 (q + 0xC006 * 2 ^ 176)

theorem wit_LoopCycle_success :
    (let s := sided 0 0;
      Memory.wf s.mem = true ∧ s.esp.phase = 2 ∧ s.espTime < s.esp.inAt + s.lo 4 ∧ s.sideGood s.primary s.esp.seqP = true ∧
      s.sideBad s.primary s.esp.seqP = false ∧ s.sideGood s.standby s.esp.seqS = true ∧ s.esp.absent = false) ∧
    (let s := sided 0x0401 0;
      Memory.wf s.mem = true ∧ s.esp.phase = 2 ∧ s.espTime < s.esp.inAt + s.lo 4 ∧ s.sideBad s.primary s.esp.seqP = true ∧
      s.sideGood s.standby s.esp.seqS = true ∧ s.esp.absent = false) := by
  decide +kernel

theorem wit_LoopCycle_sides :
    (let s := looping 99999 (fun e => { e with st := 2, phase := 2 }); s.esp.phase = 2 ∧ s.espTime < s.esp.inAt + s.lo 4) ∧
    (let s := looping 100000 (fun e => { e with st := 2, phase := 2 }); s.esp.phase = 2 ∧ s.esp.inAt + s.lo 4 ≤ s.espTime ∧ s.esp.side ≠ some 1) ∧
    (let s := looping 100000 (fun e => { e with st := 2, phase := 2, side := some 1 });
      s.esp.phase = 2 ∧ s.esp.inAt + s.lo 4 ≤ s.espTime ∧ s.esp.side = some 1) ∧
    (let s := looping 0 (fun e => { e with phase := 4, outLeft := 2 });
      s.esp.phase ≠ 0 ∧ s.esp.outLeft ≠ 0 ∧ 0 < (framesOf s.outLen).length ∧ 1 < 2 ∧ 2 * 0 + 1 ∉ s.esp.outDone ∧
      s.copiesDue ≤ ((insNat (2 * 0 + 1) s.esp.outDone).filter (fun d => d / 2 == 0)).length ∧
      AMap.getD 0 0 s.esp.outSums + 1 = expectWkc (s.subds.map subOut) ((framesOf s.outLen).getD 0 (0, 0)) ∧ 2 ≤ s.esp.outLeft) ∧
    (let s := looping 0 (fun e => { e with phase := 1, outLeft := 1, ring := 1 });
      s.esp.phase ≠ 0 ∧ s.esp.outLeft ≠ 0 ∧ 0 < (framesOf s.outLen).length ∧ 2 * 0 + 0 ∉ s.esp.outDone ∧
      ((insNat (2 * 0 + 0) s.esp.outDone).filter (fun d => d / 2 == 0)).length < s.copiesDue) ∧
    (let s := looping 0 (fun e => { e with st := 2, phase := 4, outLeft := 1 });
      s.esp.outLeft = 1 ∧ s.esp.phase = 4 ∧ s.esp.st = 2 ∧ 0x0190 ∉ s.esp.stats ∧ 0x0192 ∉ s.esp.stats ∧
      0x7000 = s.lo 0x15 + 64 * (s.esp.cycle % max 1 (s.lo 0x16)) ∧ 0x7000 + 64 ≤ hubSize) := by
  decide +kernel

theorem wit_LoopCycle_counter :
    (let s := looping 0 (fun e => { e with phase := 4, outLeft := 2 });
      s.copiesDue ≤ ((insNat (2 * 0 + 1) s.esp.outDone).filter (fun d => d / 2 == 0)).length ∧ 2 ≤ s.esp.outLeft ∧
      AMap.getD 0 0 s.esp.outSums + 7 ≠ expectWkc (s.subds.map subOut) ((framesOf s.outLen).getD 0 (0, 0))) := by
  decide +kernel

/-- After the outputs of a Running cycle, the sides as armed or changed. -/
def mirroring (swapped : Bool) : State := looping 0 (fun e => { e with st := 2, phase := 4, swapped := swapped })

theorem wit_LoopCycle_mirror : ∀ swapped, swapped ∈ [false, true] →
    (let s := mirroring swapped
     let a := clusBase 0
     let b := clusBase 31 + 0x00400000 - 8192
     let t := { s with strs := [(1, strm2 .pinned), (2, strm2 .pinned)] };
      s.esp.st = 2 ∧ 4 ≤ s.esp.phase ∧ s.esp.mirrored = false ∧ s.esp.absent = false ∧ s.esp.takeover = false ∧
      inClusSram (if s.esp.swapped then b else a) 8192 = true ∧ inClusSram (if s.esp.swapped then a else b) 8192 = true ∧
      inClusSram b 8193 = false ∧ (t.strm 1).st = .pinned ∧ (t.strm 2).st = .pinned) := by
  decide +kernel

theorem wit_LoopCycle_limits :
    (let s := looping 0 (fun e => { e with phase := 3 });
      s.esp.phase = 3 ∧ s.limitsPass (fun i => s.rd (s.vecAt s.primary (s.lo 0x0E) + 4 * i) 4) = true ∧
      s.esp.side ≠ some 1 ∧
      (∀ w, w ∈ s.fields → fOut w = true → isNan (outValue w (s.rd (s.vecAt s.primary (s.lo 0x0E) + 4 * fIdx w) 4)) = false)) ∧
    (let s := (looping 0 (fun e => { e with phase := 3 })).wrN (hub 0x5000) 16 (7 * 2 ^ 16 + 2 ^ 24 + 0x7FC00000 * 2 ^ 64);
      s.fields.any (fun w => fOut w && isNan (outValue w (s.rd (s.vecAt s.primary (s.lo 0x0E) + 4 * fIdx w) 4))) = true) ∧
    (let s := { (looping 0 (fun e => { e with phase := 3 })) with isl := { loop.isl with table := [] } };
      s.esp.phase = 3 ∧ s.limitsPass (fun i => s.rd (s.vecAt s.primary (s.lo 0x0E) + 4 * i) 4) = false) := by
  decide +kernel

/-! ### Witnesses: fusion -/

/-- Source `n` of type `ty` on `port` with selection `sel`, enabled or not: slots of 128 bytes in a ring of `slots` at 0x10000, its
records at 0x2000. -/
def source (s : State) (n ty port sel on : Nat) (slots : Nat) : State :=
  [(1, on), (2, ty), (3, port), (4, sel), (5, 0x10000), (6, 128), (7, slots), (8, 0x2000)].foldl (fun s p => s.setOd (0x2610 + n) p.1 p.2) s

theorem wit_FusionControl_sources :
    (let s := source up 63 4 1 0 0 2; Invariant s ∧ 63 < 64 ∧ Accepted s 1 (0x2610 + 63) 1 1 1 ∧ s.srcOn 63 = false) ∧
    (let s := source up 63 4 1 0 1 2; Invariant s ∧ Accepted s 1 (0x2610 + 63) 1 1 1 ∧ s.srcOn 63 = true ∧ Accepted s 1 (0x2610 + 63) 1 1 0) := by
  refine ⟨⟨inv_of rfl rfl, ?_⟩, ⟨inv_of rfl rfl, ?_⟩⟩ <;> unfold Accepted <;> decide +kernel

/-- Voting group 15 over IMU sources 1 and 2, with its output ring in source 63; the safe state is held. -/
def voting (on : Nat) : State :=
  let s := { up with md := { up.md with st := 11 }, isl := { Isl.boot with causes := 1 } }
  let s := source (source (source s 1 3 0 0 0 2) 2 3 1 0 0 2) 63 (if on = 1 then 6 else 0) 0 0 on 2
  ((s.setOd (0x2660 + 15) 2 6).setOd (0x2660 + 15) 3 1).setOd (0x2660 + 15) 1 on

theorem wit_FusionControl_groups :
    (let s := voting 0; Invariant s ∧ 15 < 16 ∧ Accepted s 1 (0x2660 + 15) 1 1 1 ∧ s.grpOn 15 = false ∧ s.so ((s.members 15).headD 0) 2 = 3) ∧
    (let s := voting 1; Invariant s ∧ Accepted s 1 (0x2660 + 15) 1 1 0 ∧ s.grpOn 15 = true ∧ s.claimsOut 15 = true) := by
  refine ⟨⟨inv_of rfl rfl, ?_⟩, ⟨inv_of rfl rfl, ?_⟩⟩ <;> unfold Accepted <;> decide +kernel

/-- Fusion set 7 over source 63, two positions at 0x30000 released by the consumer, its instants by timer or by source 63. -/
def fset (on pace : Nat) : State :=
  [(1, on), (2, 2 ^ 63), (3, if pace = 0 then 63 else 128), (4, pace), (5, 0x30000), (6, 2), (7, 1000), (8, 0xFFFF)].foldl
    (fun s p => s.setOd (0x2670 + 7) p.1 p.2) (source up 63 4 1 0 0 2)

theorem wit_FusionControl_sets :
    (let s := fset 0 0; Invariant s ∧ 7 < 8 ∧ Accepted s 1 (0x2670 + 7) 1 1 1 ∧ s.setOn 7 = false ∧ (s.od (0x2670 + 7) 3).testBit 7 = false) ∧
    (let s := fset 0 100000; Accepted s 1 (0x2670 + 7) 1 1 1 ∧ s.setOn 7 = false ∧ (s.od (0x2670 + 7) 3).testBit 7 = true) ∧
    (let s := fset 1 0; Accepted s 1 (0x2670 + 7) 1 1 0) := by
  refine ⟨⟨inv_of rfl rfl, ?_⟩, ?_, ?_⟩ <;> unfold Accepted <;> decide +kernel

theorem wit_FusionControl_ego :
    Accepted up 1 0x2680 1 1 0xFF ∧ Accepted up 1 0x2680 1 1 63 ∧ 63 ≠ 0xFF ∧ up.od 0x2680 2 + 128 ≤ hubSize ∧ Accepted up 1 0x2680 9 1 1 := by
  unfold Accepted; decide +kernel

theorem alone_up (ty port sel slots : Nat) (h : (source up 63 ty port sel 1 slots).groupOf 63 = none)
    (g : ∀ i, i < 8 → (source up 63 ty port sel 1 slots).setOn i = false) (e : (source up 63 ty port sel 1 slots).od 0x2680 1 ≠ 63) :
    Alone (source up 63 ty port sel 1 slots) 63 := ⟨g, h, e⟩

theorem storable {s : State} {n k : Nat} {l : List Byte} (d : Nat) (h : s.slotFor n ((s.src n).seq + 1) = some k)
    (a : s.so n 5 + (k + 1) * s.so n 6 ≤ 2 ^ 36) (b : l.length ≤ s.so n 6) (c : s.diesOf ⟨s.so n 5, s.so n 6 * s.so n 7, true, false⟩ = [d])
    (e : (s.die d).st = 0) : Storable s n k l := ⟨h, a, b, by intro x hx; rw [c, List.mem_singleton] at hx; rw [hx]; exact e⟩

theorem wit_SamplesAndInstants_stored :
    (let s := source up 63 4 1 0 1 2;
      Invariant s ∧ 63 < 64 ∧ s.srcOn 63 = true ∧ s.so 63 2 = 4 ∧ Alone s 63 ∧ Storable s 63 1 [1, 2]) ∧
    (let s := source up 63 1 7 0x10003 1 2;
      Invariant s ∧ (s.sourcesOn 1 7).filter (fun n => s.so n 4 % 16 == 3) = [63] ∧ Alone s 63 ∧
      Storable s 63 1 (packPackets (s.csiTakes 63) [(0x12, [1, 2])] [] []).1) ∧
    (let s := source up 63 2 3 0 1 2;
      Invariant s ∧ (s.sourcesOn 2 3).filter (fun n => s.matches_ (s.so n 4) 0 0 (s.od 0x2650 3)) = [63] ∧ Alone s 63 ∧
      frameEnds (s.od (0x2650 + s.so 63 4) 5) ((s.src 63).parts + 1) [1] = true ∧ Storable s 63 1 ((s.src 63).fill ++ [1])) := by
  refine ⟨⟨inv_of rfl rfl, by decide, by decide +kernel, by decide +kernel, alone_up _ _ _ _ ?_ ?_ ?_, storable 0 ?_ ?_ ?_ ?_ ?_⟩,
    ⟨inv_of rfl rfl, by decide +kernel, alone_up _ _ _ _ ?_ ?_ ?_, storable 0 ?_ ?_ ?_ ?_ ?_⟩,
    ⟨inv_of rfl rfl, by decide +kernel, alone_up _ _ _ _ ?_ ?_ ?_, by decide +kernel, storable 0 ?_ ?_ ?_ ?_ ?_⟩⟩ <;> decide +kernel

/-- Source 63 with both of its slots held, or an SPI read in progress. -/
def held (s : State) (busy : Bool) (parts : Nat) : State :=
  { s with fse := { s.fse with srcs := [(63, { Src.zero with held := if busy then [] else [(0, 1), (1, 1)], busy := busy, parts := parts })] } }

theorem wit_SamplesAndInstants_dropped :
    (let s := held (source up 63 4 1 0 1 2) false 0;
      Invariant s ∧ s.srcOn 63 = true ∧ s.so 63 2 = 4 ∧ (∀ i, i < 8 → s.setOn i = false) ∧ s.slotFor 63 ((s.src 63).seq + 1) = none) ∧
    up.srcOn 63 = false ∧ (up.sourcesOn 1 7).filter (fun n => up.so n 4 % 16 == 3) = [] ∧
    (let s := (source up 63 2 3 0 1 2).setOd 0x2650 5 2;
      Invariant s ∧ (s.sourcesOn 2 3).filter (fun n => s.matches_ (s.so n 4) 0 0 (s.od 0x2650 3)) = [63] ∧
      frameEnds (s.od (0x2650 + s.so 63 4) 5) ((s.src 63).parts + 1) [1] = false) := by
  refine ⟨⟨inv_of rfl rfl, ?_⟩, ?_, ?_, ⟨inv_of rfl rfl, ?_⟩⟩ <;> decide +kernel

theorem wit_SamplesAndInstants_imu :
    (let s := source up 63 3 3 0 1 2; Invariant s ∧ s.sourcesOn 3 3 = [63] ∧ (s.src 63).busy = false ∧
      (s.sourcesOn 3 3).filter (fun n => (s.src n).busy) = []) ∧
    (let s := held (source up 63 3 3 0 1 2) true 0;
      Invariant s ∧ s.sourcesOn 3 3 = [63] ∧ (s.src 63).busy = true ∧ (s.sourcesOn 3 3).filter (fun n => (s.src n).busy) = [63] ∧
      Alone s 63 ∧ s.so 63 0x19 ≤ 64 ∧ (List.replicate 128 (0 : Byte)).length = 128 ∧ Storable s 63 1 (List.replicate 128 0)) := by
  refine ⟨⟨inv_of rfl rfl, ?_⟩, ⟨inv_of rfl rfl, ?_, ?_, ?_, ⟨?_, ?_, ?_⟩, ?_, ?_, storable 0 ?_ ?_ ?_ ?_ ?_⟩⟩ <;> decide +kernel

/-- Set 7 enabled at FSE_TIME `t` with a cut waiting since time 10, and an instant of time 0 at position `pos` not yet released. -/
def cutting (t : Nat) (pos : Option Nat) : State :=
  { (fset 1 0) with
    regs := [(baseFSE, t)],
    fse := { Fse.zero with
      srcs := [(63, { Src.zero with seq := 1, slot := 1 })],
      sets := [(7, { num := 0, cuts := [10], insts := match pos with | some p => [{ pos := p, num := 1, at_ := 0, names := [(63, 1)] }] | none => [] })] } }

theorem wit_SamplesAndInstants_cut :
    (let s := cutting 11 (some 1);
      Invariant s ∧ (s.fset 7).cuts = 10 :: [] ∧ 10 < s.fseTime ∧ s.setOn 7 = true ∧ s.od (0x2670 + 7) 6 ≠ 0 ∧
      1 = ((s.fset 7).num + 1) % s.od (0x2670 + 7) 6 ∧ (s.fset 7).insts.any (fun x => x.pos == 1) = true) ∧
    (let s := cutting 11 none;
      Invariant s ∧ (s.fset 7).insts.any (fun x => x.pos == 1) = false ∧ s.od (0x2670 + 7) 8 = 0xFFFF ∧
      s.od (0x2670 + 7) 5 + s.od (0x2670 + 7) 6 * s.instBytes 7 ≤ hubSize ∧
      (∀ n, n ∈ maskList (s.od (0x2670 + 7) 2) → (s.src n).slot < 256 ∧ s.so n 8 + 64 * 256 ≤ s.od (0x2670 + 7) 5) ∧ 63 ∈ maskList (s.od (0x2670 + 7) 2)) ∧
    ((cutting 10 none).fseTime ≤ ((cutting 10 none).fset 7).cuts.headD 0) ∧ (up.fset 7).cuts = [] := by
  refine ⟨⟨inv_of rfl rfl, ?_⟩, ⟨inv_of rfl rfl, ?_⟩, ?_, ?_⟩ <;> decide +kernel

theorem wit_SamplesAndInstants_release :
    (let s := cutting 1001 (some 1);
      Invariant s ∧ 7 < 8 ∧ 1 < s.od (0x2670 + 7) 6 ∧ s.od (0x2670 + 7) 5 + s.od (0x2670 + 7) 6 * s.instBytes 7 ≤ hubSize ∧
      (s.fset 7).insts.find? (fun x => x.pos == 1) = some { pos := 1, num := 1, at_ := 0, names := [(63, 1)] } ∧
      (s.fset 7).insts.find? (fun x => x.pos == 0) = none ∧ ([(63, 1)] : List (Nat × Nat)).Nodup ∧ 0 + s.od (0x2670 + 7) 7 < s.fseTime) ∧
    (let s := cutting 1000 (some 1); s.fseTime ≤ 0 + s.od (0x2670 + 7) 7 ∧ s.od (0x2670 + 7) 6 ≤ 2) := by
  refine ⟨⟨inv_of rfl rfl, ?_⟩, ?_⟩ <;> decide +kernel

/-! ### Witnesses: power and the unit -/

/-- `up` with the Governor changed, at GOV_TIME `t`. -/
def governed (t : Nat) (f : Gov → Gov) : State := { up with gov := f Gov.zero, regs := [(baseGOV, t)] }

theorem wit_GovernorCommands_period :
    (Invariant (governed 100000 id) ∧ (governed 100000 id).gov.at_ + 100000 ≤ (governed 100000 id).govTime) ∧
    (governed 99999 id).govTime < (governed 99999 id).gov.at_ + 100000 ∧
    ([1050] : List Int).any (fun x => decide (1050 ≤ x)) = true ∧ ([999] : List Int).all (fun x => decide (x < 1000)) = true ∧
    (let s := (governed 10000001 (fun g => { g with coverAt := 1 })).setOd 0x2100 0x10 1;
      Invariant s ∧ s.shedding = true ∧ s.gov.coverAt ≠ 0 ∧ s.gov.coverAt + 10000000 ≤ s.govTime) ∧ up.shedding = false ∧
    up.gov.emerg = false ∧ 255 < 256 ∧ 259 < 260 ∧
    (let s := governed 5 (fun g => { g with droopEnd := 5 }); Invariant s ∧ s.gov.droopEnd ≠ 0 ∧ s.gov.droopEnd ≤ s.govTime) := by
  refine ⟨⟨inv_of rfl rfl, ?_⟩, ?_, ?_, ?_, ⟨inv_of rfl rfl, ?_⟩, ?_, ?_, ?_, ?_, ⟨inv_of rfl rfl, ?_⟩⟩ <;> decide +kernel

theorem wit_GovernorCommands_twihus :
    (let s := up.setOd (0x2120 + up.od 0x2100 8) 4 1;
      Invariant s ∧ s.twihus = true ∧ s.md.barista = 0 ∧ 63 < 64 ∧ 1 ≠ 0 ∧ 1 ≤ 1 ∧ AMap.getD 63 0 s.gov.learnAt = 0) ∧
    (let s := { (governed 10000001 (fun g => { g with learnAt := [(63, 1)] })) with dict := (up.setOd (0x2120 + up.od 0x2100 8) 4 1).dict };
      s.twihus = true ∧ AMap.getD 63 0 s.gov.learnAt + 10000000 ≤ s.govTime) := by
  refine ⟨⟨inv_of rfl rfl, ?_⟩, ?_⟩ <;> decide +kernel

theorem wit_GovernorCommands_gate :
    (let s := (governed 1000 id).setOd 0x2100 0x1A 1;
      Invariant s ∧ 31 < 32 ∧ (s.clu 31).gated = false ∧ (s.clu 31).rst = 0 ∧ s.coresBusy.any (fun n => coreClus n == 31) = false ∧
      s.enginesBusy.contains 31 = false ∧ (clusCores 31).any (fun n => (s.reserver n).isSome) = false ∧ s.od 0x2100 0x1A ≠ 0 ∧
      (s.clu 31).idleAt + s.od 0x2100 0x1A * 1000 ≤ s.govTime) ∧
    (let s := governed 1000000 id; Invariant s ∧ 3 < 4 ∧ (s.die 3).st = 0 ∧ AMap.getD 3 0 s.gov.avs + 1000000 ≤ s.govTime) ∧
    (Accepted up 1 0x2100 0x0A 1 1 ∧ Accepted up 1 0x2100 0x0F 1 1 ∧ up.od 0x2100 0x0E + 32768 ≤ hubSize ∧
      Accepted up 1 (0x2140 + 63) 3 1 1) := by
  refine ⟨⟨inv_of rfl rfl, ?_⟩, ⟨inv_of rfl rfl, ?_⟩, ?_⟩ <;> (try unfold Accepted) <;> decide +kernel

/-- The module in state `st` of bring-up, at step `step`, in boot mode before Cores-Starting's dictionary serves. -/
def bringing (st step : Nat) (f : Brd → Brd) : State :=
  { State.reset with md := { Mod.boot with st := st }, brd := f { Brd.boot with step := step } }

/-- Whatever the unit flash holds: where its record is valid and its key is the seed's, the good branch's hypotheses hold; where
there is none, or its key is another, those of the exits do. -/
theorem wit_BringUp_power :
    Invariant State.reset ∧ State.reset.md.st ≤ 1 ∧ State.reset.md.barista ≠ 4 ∧ State.reset.brd.held = false ∧
    State.reset.brd.xtal = true ∧ State.reset.brd.pgWait = false ∧
    ((∃ u, State.reset.unitRead = some u ∧ Config.publicKey (if State.reset.md.st = 0 then 0 % 2 ^ 256 else State.reset.brd.seed) = u.key) ∨
      State.reset.unitRead = none ∨
      (∃ u, State.reset.unitRead = some u ∧ Config.publicKey (if State.reset.md.st = 0 then 0 % 2 ^ 256 else State.reset.brd.seed) ≠ u.key)) := by
  refine ⟨inv_of rfl rfl, by decide, by decide, by decide, by decide, by decide, ?_⟩
  cases h : State.reset.unitRead with
  | none => exact .inr (.inl rfl)
  | some u =>
    by_cases k : Config.publicKey (if State.reset.md.st = 0 then 0 % 2 ^ 256 else State.reset.brd.seed) = u.key
    · exact .inl ⟨u, rfl, k⟩
    · exact .inr (.inr ⟨u, rfl, k⟩)

/-- Awaiting-Image with a valid header of a 1 MiB image of one section in hub SRAM; `n` blocks of it drained, or all (state 5). -/
def imaged (st n : Nat) : State :=
  let s := { (bringing 2 6 id) with apers := [(0, { Aper.preset with st := st, drained := List.range n })] }
  let w := wdsOf [(0, 0x49474C42), (4, 1), (6, 1), (8, 1048576), (16, 1), (96, 1), (100, 4096), (104, 64)]
  s.wrN (imageAt 0) 128 w

theorem wit_BringUp_header :
    (let s := imaged 4 1;
      Memory.wf s.mem = true ∧ Flash.wf s.flash = true ∧ s.md.st = 2 ∧ s.md.barista ≠ 4 ∧ (s.aper 0).boot = true ∧ s.brd.judged = false ∧
      s.headerOk = true ∧ (s.aper 0).st ≠ 5 ∧ (s.aper 0).drained.contains 0 = true ∧ (s.aper 0).drained.length ≠ ceilDiv (s.img 8 4) 65536) ∧
    (let s := imaged 5 16; Memory.wf s.mem = true ∧ s.headerOk = true ∧ (s.aper 0).st = 5 ∧ (s.aper 0).boot = true) ∧
    (let s := { (imaged 4 1) with mem := [] }; s.headerOk = false ∧ (s.aper 0).drained.contains 0 = true) := by
  decide +kernel

/-- The whole image written and hashed; `m` is its mask of permitted variants. -/
def judged (m : Nat) : State :=
  { ((imaged 5 16).wrN (imageAt 12) 1 m) with brd := { Brd.boot with step := 6, judged := true } }

/-- An image that permits no variant fails its first check. -/
theorem wit_BringUp_image_fails :
    Memory.wf (judged 0).mem = true ∧ (judged 0).alive = true ∧ (judged 0).md.barista ≠ 4 ∧ (judged 0).md.st = 2 ∧
    ((judged 0).aper 0).st = 5 ∧ ((judged 0).aper 0).boot = true ∧ (judged 0).brd.judged = true ∧ (judged 0).imgCheck = some 0x03E9 := by
  decide +kernel

/-- One that permits variant 1 passes wherever its key's digest is release key 0's and the signature over it verifies. -/
theorem wit_BringUp_image_passes
    (h : (Config.sha512 (natBytes ((judged 1).rdBytes (imageAt 2048) 133)) == Config.romDigest 0 0) = true)
    (g : Config.verify (natBytes ((judged 1).rdBytes (imageAt 2048) 133)) (judged 1).imgDigest
      (natBytes ((judged 1).rdBytes (imageAt 2192) 132)) = true) :
    Memory.wf (judged 1).mem = true ∧ (judged 1).alive = true ∧ (judged 1).md.st = 2 ∧ ((judged 1).aper 0).st = 5 ∧
    ((judged 1).aper 0).boot = true ∧ (judged 1).brd.judged = true ∧ (judged 1).imgCheck = none := by
  refine ⟨by decide +kernel, by decide +kernel, by decide +kernel, by decide +kernel, by decide +kernel, by decide +kernel, ?_⟩
  have a : (judged 1).img 88 1 = 0 := by decide +kernel
  have b : (judged 1).img 12 1 = 1 := by decide +kernel
  have c : decide ((judged 1).floorNow ≤ (judged 1).img 16 4) = true := by decide +kernel
  have u : (judged 1).brd.cust = none := rfl
  have v : (judged 1).brd.unit = UnitRec.typical := rfl
  simp only [State.imgCheck, a, b, c, u, v, h, g]
  rfl

theorem wit_BringUp_steps :
    (let s := bringing 3 7 (fun b => { b with mainPg := true }); Invariant s ∧ s.alive = true ∧ s.md.barista ≠ 4 ∧ s.md.st = 3 ∧ s.brd.step = 7 ∧ s.brd.mainPg = true) ∧
    (let s := (bringing 3 7 id).setReg keyBarista 100000000; Invariant s ∧ s.brd.mainPg = false ∧ s.brd.waitAt + 100000000 ≤ s.barTime) ∧
    (let s := bringing 3 8 id; Invariant s ∧ s.md.st = 3 ∧ s.brd.step ≠ 7) ∧
    (let s := bringing 4 8 id; Invariant s ∧ s.md.st = 4 ∧ 3 < 4 ∧ (s.die 3).st ≠ 2 ∧ ∀ d, d < 4 → (s.die d).st = 2 ∨ d ∈ [0, 1, 2, 3]) ∧
    (let s := bringing 5 9 id; Invariant s ∧ s.md.st = 5 ∧ (∀ l, l < 4 → laneState l (([16, 16, 16, 16] : List Nat).getD l 0) ≠ 0) ∧ (s.die 3).st ≠ 2) ∧
    (let s := bringing 6 10 id; Invariant s ∧ s.md.st = 6 ∧ s.isl.safe ≠ 0 ∧ (s.die 3).st ≠ 2) ∧ 7 ≤ up.md.st := by
  refine ⟨⟨inv_of rfl rfl, ?_⟩, ⟨inv_of rfl rfl, ?_⟩, ⟨inv_of rfl rfl, ?_⟩, ⟨inv_of rfl rfl, ?_⟩, ⟨inv_of rfl rfl, ?_⟩, ⟨inv_of rfl rfl, ?_⟩, ?_⟩ <;>
    decide +kernel

/-- Safe-Hold with a binding request of operation `v` at 0 and a bound customer, or none. -/
def binding (v : Nat) (bound : Bool) : State :=
  let s := { up with md := { up.md with st := 11 }, isl := { Isl.boot with causes := 1 }, brd := { Brd.boot with
    cust := if bound then some { seq := 1, bound := true, require := false, floor := 0, cid := 1, key := 1, sector := 0 } else none } }
  s.wrN (hub 0) 64 (wdsOf [(0, 0x44424C42), (4, v), (8, 1), (12, if bound then 2 else 1)])

theorem wit_IdentityCommands_report :
    (Accepted up 1 0x2020 2 1 1 ∧ up.attestBase = true) ∧
    (let s := up.setOd 0x2020 3 1; Invariant s ∧ Accepted s 1 0x2020 2 1 1 ∧ s.attestBase = false) := by
  refine ⟨?_, inv_of rfl rfl, ?_⟩ <;> unfold Accepted <;> decide +kernel

theorem wit_IdentityCommands_bind :
    (let s := binding 1 false; Memory.wf s.mem = true ∧ Flash.wf s.flash = true ∧ Accepted s 1 0x2030 6 1 1 ∧ s.bindOk 1 = true) ∧
    (∀ v, v ∈ [1, 2, 3] → (Accepted (binding 4 true) 1 0x2030 6 1 v ∧ (binding 4 true).bindOk v = false)) := by
  unfold Accepted; decide +kernel

/-- A rebind or unbind request is valid wherever the signature over it verifies under the bound key. -/
theorem wit_IdentityCommands_rebind (v : Nat) (hv : v = 2 ∨ v = 3)
    (h : Config.verify (natBytes (toBytes 133 1)) (Config.sha512 (natBytes ((binding v true).rdBytes (hub 0) 168)))
      (natBytes ((binding v true).rdBytes (hub 168) 132)) = true) : Accepted (binding v true) 1 0x2030 6 1 v ∧ (binding v true).bindOk v = true := by
  have a : ∀ v, v ∈ [2, 3] → Accepted (binding v true) 1 0x2030 6 1 v := by unfold Accepted; decide +kernel
  have c : (binding v true).custNow = { seq := 1, bound := true, require := false, floor := 0, cid := 1, key := 1, sector := 0 } := rfl
  refine ⟨a v (by simp; exact hv), ?_⟩
  simp only [State.bindOk, c]
  have o : (binding v true).od 0x2030 5 = 0 := by rcases hv with rfl | rfl <;> decide +kernel
  rw [o]
  simp only [Nat.zero_add, h]
  rcases hv with rfl | rfl <;> decide +kernel

theorem wit_IdentityCommands_rest :
    (let s := up.setOd 0x2030 7 0; Invariant s ∧ Accepted s 1 0x2030 6 1 4 ∧ s.floorNow ≤ s.od 0x2030 7 ∧ s.od 0x2030 7 ≤ s.brd.imgVer) ∧
    (let s := up.setOd 0x2030 7 1; Invariant s ∧ Accepted s 1 0x2030 6 1 4 ∧ s.brd.imgVer < s.od 0x2030 7) ∧
    (let s := ((up.setOd 0x2402 1 0x80000).setOd 0x2402 2 0).setOd 0x2402 3 4096; Invariant s ∧ Accepted s 1 0x2402 4 1 1 ∧ 0x80000 ≤ s.od 0x2402 1) := by
  refine ⟨⟨inv_of rfl rfl, ?_⟩, ⟨inv_of rfl rfl, ?_⟩, ⟨inv_of rfl rfl, ?_⟩⟩ <;> unfold Accepted <;> decide +kernel

theorem wit_PowerAndPins :
    (let s := { up with brd := { Brd.boot with step := 8 } };
      Invariant s ∧ 2000 < 2001 ∧ s.alive = true ∧ 8 ≤ s.brd.step ∧ s.md.st ≠ 0 ∧ 1000 ≤ 1000 ∧ 900 ≤ 900 ∧ 900 < 1000) ∧
    up.brd.step < 8 ∧ (bringing 0 0 id).md.st = 0 ∧
    (let s := { up with brd := { Brd.boot with xtal := false, held := true } }; Invariant s ∧ s.brd.held = true ∧ 1000000 ≤ 1000000 ∧ s.alive = false) ∧
    (isRC (baseHP + 0x40) = true ∧ (baseHP + 0x40) / 0x10000 * 0x10000 = baseHP ∧ 3 < 4) ∧
    (isRC (baseSLV 31 + 0x28) = true ∧ (baseSLV 31 + 0x28) / 0x10000 * 0x10000 ≠ baseHP) ∧ isRC baseHP = false := by
  refine ⟨⟨inv_of rfl rfl, ?_⟩, ?_, ?_, ⟨inv_of rfl rfl, ?_⟩, ?_⟩ <;> decide +kernel

theorem wit_MemoryMap : Invariant up ∧ (hubSize - 2) + ([1, 2] : List Byte).length ≤ hubSize ∧ 2 ^ 36 - 1 < 2 ^ 36 ∧
    up.interleaved = false ∧ (up.setOd 0x2000 0x10 1).interleaved = true := ⟨inv_of rfl rfl, by decide +kernel⟩

theorem wit_MailboxReplacement :
    (let s := { (opened up 3 (0x100000 + 64 * 15)) with
        h2b := [(63, { Mbox.zero with full := true })], b2h := [(63, { Mbox.zero with full := true })],
        rcv := { Recov.boot with mboxes := [(255, { Mbox.zero with full := true })] } }
     let b := burst 3 (0x100000 + 64 * 15) 64 1 0;
      Invariant s ∧ 65535 < 2 ^ 16 ∧ 255 < 256 ∧ (s.coreBox 255).full = true ∧ s.alive = true ∧ b.ch < 4 ∧ b.n = 64 ∧ b.ecc = false ∧
      b.fixed = false ∧ b.mask % 2 ^ 64 = 0 ∧ s.md.bootMode = false ∧ 15 < 16 ∧ s.burstOff b = 0x100000 + 64 * 15 ∧ 63 = 4 * 15 + b.ch ∧
      (s.h2bBox 63).full = true ∧ (s.b2hBox 63).full = true) := by
  refine ⟨inv_of rfl rfl, ?_⟩; decide +kernel

/-! ### The spec's own examples and the shape of a step -/

/-- R17's example: 0x12345678 under a 4 KiB interleave, and without. -/
theorem test_interleave_example : dramDie true 0x12345678 = 1 ∧ dramOff true 0x12345678 = 0x48D1678 ∧
    dramDie false 0x12345678 = 0 ∧ dramOff false 0x12345678 = 0x12345678 := by decide

def digits : List Byte := [0x31, 0x32, 0x33, 0x34, 0x35, 0x36, 0x37, 0x38, 0x39]

/-- R481's check values over "123456789". -/
theorem test_crc_examples : crc64 digits = 0x6C40DF5F0B497347 ∧ crc32c (digits.map (fun b => b.toNat)) = 0xE3069283 := by
  decide +kernel

/-- Table 02-2: the largest finite values of E4M3, FP16, MXFP4 and MXINT8, and E4M3's NaN. -/
theorem test_largest_values : toDy (decodeElem fmtE4M3 0x7E) = ⟨14, 5⟩ ∧ toDy (decodeElem fmtFP16 0x7BFF) = ⟨2047, 5⟩ ∧
    toDy (decodeElem fmtMXFP4 7) = ⟨3, 1⟩ ∧ toDy (decodeElem fmtMXINT8 0x7F) = ⟨127, -6⟩ ∧ decodeElem fmtE4M3 0x7F = .nan := by decide +kernel

/-- R27's example: a block whose largest value is 9.3 takes scale 0x80 in MXFP4, and 9.3 becomes 0b0110. -/
theorem test_microscale_example : runFlg (mxBlock fmtMXFP4 (f32 0x4114CCCD :: [])) = ((0x80, [6]), 0) := by decide +kernel

/-- Chapter 02's example: 2^24 and a block of 11.90625 − 0.0078125 at 2^−3 accumulate to 16,777,218. -/
theorem test_block_dot_example :
    bits32 (runFlg (mxeBlock (valNat 16777216)
      ([(scaleVal 0x81 (decodeElem fmtMXFP4 7), scaleVal 0x7A (decodeElem fmtMXINT8 0x7F)),
        (scaleVal 0x81 (decodeElem fmtMXFP4 9), scaleVal 0x7A (decodeElem fmtMXINT8 0x01))]))).1 = 0x4B800001 := by decide +kernel

/-- The doorbell example of chapter 03: C = 4,094 and S = 64; P = 4,097 is taken, 4,200 is not. -/
def rung (p : Nat) : State :=
  ((ctx5 .opened 4094 4094).setOd 0x5000 0x0A 64 5).dspDoorbell 0 (5 + p * 2 ^ 32)
theorem test_doorbell_example : ((rung 4097).ctx 5).prod = 4097 ∧ ((rung 4200).ctx 5).prod = 4094 ∧ (rung 4200).od 0x5000 0x18 5 = 1 := by
  decide +kernel

/-- Chapter 05's example: B_head of FP8-E4M3 and of BF16 at head_dim 128 and page_tokens 128. -/
theorem test_head_bytes_example : (KvGeom.mk 8 128 128 2 5).bHead = 32768 ∧ (KvGeom.mk 8 128 128 1 3).bHead = 65536 := by decide

/-- Chapter 06's example: a = 0.5, b = 1, s = 4 and a mark at step 4. -/
theorem test_scan_example : (runFlg (scanBlock valZero (valNat 4)
    ((List.range 6).map (fun i => (Val.fin false 1 (-1), Val.fin false 1 0, i == 4))))).1.map bits32 =
    [0x40400000, 0x40200000, 0x40100000, 0x40080000, 0x3F800000, 0x3FC00000] := by decide +kernel

/-- Chapter 09's example: measured periods against 33,333,333 ns over 10 s. -/
theorem test_slip_example : slipJudge false (absDiff 33450000 33333333) 10000000000 33333333 = true ∧
    slipJudge false (absDiff 33366667 33333333) 10000000000 33333333 = false ∧
    slipJudge false (absDiff 33300000 33450000) 10000000000 33333333 = true ∧
    slipJudge true 55555 10000000000 33333333 = false := by decide

/-- Chapter 10's example: images of 708 and 532 bytes are 60.80 µs and 46.72 µs on the wire. -/
theorem test_wire_example : wireTime 708 = 60800 ∧ wireTime 532 = 46720 := by decide +kernel

/-- Chapter 11's example: a compressed 3 GiB BF16 object takes 3,224,371,200 bytes of DRAM. -/
theorem test_footprint_example : footprint 1 fmtBF16 1 3221225472 0 = 3224371200 := by decide +kernel

/-- Chapter 13's example: the host addresses of a doorbell slot, a request slot and a window under a 4 KiB granule. -/
theorem test_host_address_example : hostLinear 0x1000 3 0x210040 = 0x843040 ∧ hostLinear 0x1000 1 0x240040 = 0x901040 ∧
    0x100000000 + 5 * apWindow = 0x13C000000 := by decide

/-- Chapter 01's example: logical core 157 with the shipped map is p32 of CD2. -/
theorem test_core_map_example : up.coreEntry 157 1 = 32 ∧ coreClus 157 = 19 := by decide +kernel

/-- A step takes the command in front and leaves the rest of the queue. -/
theorem test_step_takes_the_front :
    (match step { low with pending := [.nop 0, .gemm 1] } with | .next t => t.pending == [.gemm 1] | _ => false) = true := by decide +kernel

/-- No word spells a command. -/
theorem test_no_word_spells_a_command : decodeTableWord 32 0 = none ∧ up.withFetchWord 32 0 = up := ⟨rfl, rfl⟩

end Sys2Proof.Tests
end

section
/-! Chapter 01's memory map: the hub SRAM window and hub SRAM are one memory (R16), and the DRAM map sends each DRAM address to a
location of its own (R17). -/

namespace Sys2Proof.Machine

/-- Below the register pages all is memory. -/
theorem isRegSpace_of_lt {a : Nat} (h : a < 0x040000000000) : isRegSpace a = false := by
  unfold isRegSpace
  exact decide_eq_false (by omega)

/-! ### The hub SRAM window (R16) -/

/-- An address of the hub SRAM window. -/
def hubWindow (o : Nat) : Nat := 0x020080000000 + o

theorem hubWindow_add (o i : Nat) : hubWindow o + i = hubWindow (o + i) := Nat.add_assoc _ o i

theorem hub_add (o i : Nat) : hub o + i = hub (o + i) := Nat.add_assoc _ o i

theorem hubWindow_reg (o : Nat) (h : o < hubSize) : isRegSpace (hubWindow o) = false :=
  isRegSpace_of_lt (by unfold hubSize at h; unfold hubWindow; omega)

theorem hubWindow_loc (s : State) (o : Nat) (h : o < hubSize) : s.loc (hubWindow o) = hub o := by
  unfold hubSize at h
  unfold State.loc unalias hubWindow hub
  rw [if_neg (by omega), if_pos (by omega)]
  omega

/-- A byte of the window is the byte of hub SRAM at the same offset. -/
theorem hubWindow_byteAt (s : State) (o : Nat) (h : o < hubSize) : s.byteAt (hubWindow o) = s.byteAt (hub o) := by
  simp only [State.byteAt, hubWindow_reg o h, hub_reg o h, hubWindow_loc s o h, hub_loc s o h, Bool.false_eq_true, if_false]

theorem wrByte_hubWindow (s : State) (o : Nat) (b : Byte) (h : o < hubSize) :
    s.wrByte (hubWindow o) b = s.wrByte (hub o) b := by
  simp only [State.wrByte, hubWindow_reg o h, hub_reg o h, hubWindow_loc s o h, hub_loc s o h]

/-- A write through the window is the write to hub SRAM. -/
theorem wr_hubWindow (s : State) (o : Nat) (l : List Byte) (h : o + l.length ≤ hubSize) :
    s.wr (hubWindow o) l = s.wr (hub o) l := by
  induction l generalizing s o with
  | nil => rfl
  | cons b l ih =>
    rw [List.length_cons] at h
    calc s.wr (hubWindow o) (b :: l)
        = (s.wrByte (hubWindow o) b).wr (hubWindow (o + 1)) l := rfl
      _ = (s.wrByte (hub o) b).wr (hub (o + 1)) l := by
          rw [wrByte_hubWindow s o b (by omega), ih _ (o + 1) (by omega)]

/-- What is written to hub SRAM reads back there. -/
theorem wr_hub_byteAt (s : State) (o : Nat) (l : List Byte) (h : o + l.length ≤ hubSize) (i : Nat) (hi : i < l.length) :
    (s.wr (hub o) l).byteAt (hub o + i) = l.getD i 0 := by
  unfold hubSize at h
  rw [List.getD_eq_getElem l 0 hi]
  refine wr_byteAt_in s (hub o) l (fun j hj => ?_) (fun j k hj hk e => ?_) i hi
  · rw [hub_add]
    exact hub_reg (o + j) (by omega)
  · rw [hub_add, hub_add, hub_loc s (o + j) (by omega), hub_loc s (o + k) (by omega)] at e
    unfold hub at e
    omega

/-! ### The DRAM map (R17) -/

theorem dram_loc (s : State) (a : Nat) (h : a < 2 ^ 36) :
    s.loc a = dramDie s.interleaved a * 2 ^ 34 + dramOff s.interleaved a := if_pos h

theorem dram_dieOf (s : State) (a : Nat) (h : a < 2 ^ 36) : s.dieOf a = some (dramDie s.interleaved a) := if_pos h

theorem dramDie_flat (a : Nat) : dramDie false a = a >>> 34 := (Nat.shiftRight_eq_div_pow a 34).symm

theorem dramOff_flat (a : Nat) : dramOff false a = a &&& 0x3FFFFFFFF := (Nat.and_two_pow_sub_one_eq_mod a 34).symm

theorem dramDie_interleaved (a : Nat) : dramDie true a = (a >>> 12) &&& 3 := by
  rw [Nat.shiftRight_eq_div_pow, Nat.and_two_pow_sub_one_eq_mod _ 2]
  rfl

theorem dramOff_interleaved (a : Nat) : dramOff true a = ((a >>> 14) <<< 12) ||| (a &&& 0xFFF) := by
  have hlow : a &&& 0xFFF = a % 2 ^ 12 := Nat.and_two_pow_sub_one_eq_mod a 12
  rw [hlow, ← Nat.shiftLeft_add_eq_or_of_lt (Nat.mod_lt a (by decide)), Nat.shiftLeft_eq, Nat.shiftRight_eq_div_pow]
  rfl

/-- Two DRAM addresses name one location only where they are equal: die and offset give the address back. -/
theorem dram_loc_inj (s : State) (a b : Nat) (ha : a < 2 ^ 36) (hb : b < 2 ^ 36) : s.loc a = s.loc b ↔ a = b := by
  rw [dram_loc s a ha, dram_loc s b hb]
  cases s.interleaved with
  | false => simp only [dramDie, dramOff, Bool.false_eq_true, if_false]; omega
  | true =>
    have hdiv : ∀ n : Nat, n / 16384 = n / 4096 / 4 := fun n => (Nat.div_div_eq_div_mul n 4096 4).symm
    simp only [dramDie, dramOff, if_true, hdiv]
    omega

/-- A byte written to DRAM shows at its own address and at no other address of DRAM. -/
theorem wr_dram_byteAt (s : State) (a b : Nat) (v : Byte) (ha : a < 2 ^ 36) (hb : b < 2 ^ 36) :
    (s.wr a [v]).byteAt b = if b = a then v else s.byteAt b := by
  have hw : s.wr a [v] = s.wrByte a v := rfl
  rw [hw, wrByte_byteAt s a b v (isRegSpace_of_lt (by omega)) (isRegSpace_of_lt (by omega))]
  simp only [dram_loc_inj s a b ha hb, eq_comm]

end Sys2Proof.Machine

namespace Sys2Proof

open Sys2Proof.Machine

/-- Settles O59. The window and hub SRAM share every location, so that a write through one is the write through the other (R16);
the DRAM map is one to one, so that a byte written shows at its own address alone (R17). -/
theorem memoryMap : Obligations.MemoryMap := by
  unfold Obligations.MemoryMap
  intro s _
  refine ⟨fun o l h => ⟨wr_hubWindow s o l h, fun i hi => ?_⟩, fun a ha => ⟨fun hf => ?_, fun ht => ?_, fun b v hb => ?_⟩⟩
  · have hread := wr_hub_byteAt s o l h i hi
    have halias := hubWindow_byteAt (s.wr (hub o) l) (o + i) (by omega)
    rw [← hubWindow_add, ← hub_add] at halias
    exact ⟨halias.trans hread, hread⟩
  · rw [dram_dieOf s a ha, dram_loc s a ha, hf, dramDie_flat, dramOff_flat]
    exact ⟨rfl, rfl⟩
  · rw [dram_dieOf s a ha, dram_loc s a ha, ht, dramDie_interleaved, dramOff_interleaved]
    exact ⟨rfl, rfl⟩
  · exact wr_dram_byteAt s a b v ha hb

end Sys2Proof
end

section
/-! Integer results (R32, R35, R81, R90, R92, R101): what INT8 and INT32 matrices in tile form load as, the bytes that an INT32
matrix is stored as, and what an elementwise addition and a GEMM of them therefore leave in memory. -/

namespace Sys2Proof.Machine

/-! ### Words of 32 bits as integers (R35) -/

/-- The integers of INT32. -/
def IsInt32 (i : Int) : Prop := int32Min ≤ i ∧ i ≤ int32Max

theorem isInt32_iff (i : Int) : IsInt32 i ↔ -2147483648 ≤ i ∧ i ≤ 2147483647 := by
  unfold IsInt32 int32Min int32Max
  omega

theorem isInt32_toSigned (n : Nat) : IsInt32 (toSigned 32 n) := by
  rw [isInt32_iff]
  unfold toSigned
  dsimp only
  split <;> omega

theorem toSigned_mod (w n : Nat) : toSigned w (n % 2 ^ w) = toSigned w n := by
  unfold toSigned
  rw [Nat.mod_mod]

theorem ofSigned_lt (i : Int) : ofSigned 32 i < 2 ^ 32 := by
  unfold ofSigned
  omega

theorem toSigned_ofSigned {i : Int} (h : IsInt32 i) : toSigned 32 (ofSigned 32 i) = i := by
  rw [isInt32_iff] at h
  unfold toSigned ofSigned
  dsimp only
  split <;> omega

theorem ofSigned_toSigned (n : Nat) : ofSigned 32 (toSigned 32 n) = n % 2 ^ 32 := by
  unfold toSigned ofSigned
  dsimp only
  split <;> omega

/-- The word of a sum of the integers of two words is the sum of the words modulo 2^32. -/
theorem ofSigned_add (a b : Nat) : ofSigned 32 (toSigned 32 a + toSigned 32 b) = (a + b) % 2 ^ 32 := by
  unfold toSigned ofSigned
  dsimp only
  split <;> split <;> omega

theorem toSigned_8_bounds (n : Nat) : -128 ≤ toSigned 8 n ∧ toSigned 8 n ≤ 127 := by
  unfold toSigned
  dsimp only
  split <;> omega

@[simp] theorem rneInt_valInt (i : Int) : rneInt (valInt i) = i := by
  have hshift : rneShift i.natAbs 0 = i.natAbs := by simp [rneShift]
  simp only [rneInt, valInt, hshift, decide_eq_true_eq]
  split <;> omega

/-! ### Little-endian bytes (R4) -/

@[simp] theorem toBytes_length (n w : Nat) : (toBytes n w).length = n := by
  induction n generalizing w with
  | zero => rfl
  | succ n ih => simp only [toBytes, List.length_cons, ih]

theorem ofBytes_toBytes (n w : Nat) : ofBytes (toBytes n w) = w % 256 ^ n := by
  induction n generalizing w with
  | zero => simp [toBytes, ofBytes, Nat.mod_one]
  | succ n ih =>
    have hbyte : (BitVec.ofNat 8 w).toNat = w % 256 := BitVec.toNat_ofNat w 8
    rw [toBytes, ofBytes, ih, hbyte, Nat.pow_succ', Nat.mod_mul]

theorem toBytes_add (m n w : Nat) : toBytes (m + n) w = toBytes m w ++ toBytes n (w / 256 ^ m) := by
  induction m generalizing w with
  | zero => simp [toBytes]
  | succ m ih =>
    rw [Nat.add_right_comm, toBytes, toBytes, ih, Nat.pow_succ', Nat.div_div_eq_div_mul]
    rfl

theorem toBytes_mod (n w : Nat) : toBytes n (w % 256 ^ n) = toBytes n w := by
  induction n generalizing w with
  | zero => rfl
  | succ n ih =>
    have hlow : BitVec.ofNat 8 (w % 256 ^ (n + 1)) = BitVec.ofNat 8 w := by
      apply BitVec.eq_of_toNat_eq
      rw [BitVec.toNat_ofNat, BitVec.toNat_ofNat]
      exact Nat.mod_mod_of_dvd w (Dvd.intro_left (256 ^ n) rfl)
    rw [toBytes, toBytes, hlow, Nat.pow_succ', Nat.mod_mul_right_div_self, ih]

/-- Elements of 32 bits packed from the least significant upward are their bytes one after another (R25). -/
theorem toBytes_packBits (l : List Nat) : toBytes (4 * l.length) (packBits 32 l) = l.flatMap (toBytes 4) := by
  induction l with
  | nil => rfl
  | cons x xs ih =>
    have hlow : (x % 2 ^ 32 + packBits 32 xs * 2 ^ 32) % 256 ^ 4 = x % 256 ^ 4 := by omega
    have hhigh : (x % 2 ^ 32 + packBits 32 xs * 2 ^ 32) / 256 ^ 4 = packBits 32 xs := by omega
    rw [List.length_cons, Nat.mul_succ, Nat.add_comm, toBytes_add, packBits, hhigh, ih, List.flatMap_cons,
      ← toBytes_mod 4, hlow, toBytes_mod]

/-! ### Reads -/

theorem rd_eq_ofBytes (s : State) (a n : Nat) : s.rd a n = ofBytes (s.rdBytes a n) := by
  induction n generalizing a with
  | zero => rfl
  | succ n ih => rw [State.rd, State.rdBytes, ofBytes, ih]

theorem rd_congr {s t : State} (h : ∀ a, t.byteAt a = s.byteAt a) (a n : Nat) : t.rd a n = s.rd a n := by
  induction n generalizing a with
  | zero => rfl
  | succ n ih => rw [State.rd, State.rd, h, ih]

theorem rd_one (s : State) (a : Nat) : s.rd a 1 = (s.byteAt a).toNat := rfl

/-- A field of whole bytes at a whole byte. -/
theorem rdBits_bytes (s : State) (a o k : Nat) : s.rdBits a (o * (8 * k)) (8 * k) = s.rd (a + k * o) k % 2 ^ (8 * k) := by
  have hbit : o * (8 * k) = 8 * (k * o) := by ring
  unfold State.rdBits
  rw [hbit, Nat.mul_div_cancel_left _ (by decide : 0 < 8), Nat.mul_mod_right, Nat.shiftRight_zero]
  congr 2
  omega

/-- Bytes written to DRAM read back at their addresses. -/
theorem rdBytes_wr_dram (s : State) (a : Nat) (l : List Byte) (h : a + l.length ≤ 2 ^ 36) (k n : Nat) (hk : k + n ≤ l.length) :
    (s.wr a l).rdBytes (a + k) n = (l.drop k).take n := by
  induction n generalizing k with
  | zero => rw [State.rdBytes, List.take_zero]
  | succ n ih =>
    have hbyte : (s.wr a l).byteAt (a + k) = l[k] :=
      wr_byteAt_in s a l (fun i hi => isRegSpace_of_lt (by omega))
        (fun i j hi hj e => Nat.add_left_cancel ((dram_loc_inj s (a + i) (a + j) (by omega) (by omega)).mp e)) k (by omega)
    rw [State.rdBytes, hbyte, Nat.add_assoc, ih (k + 1) (by omega), List.drop_eq_getElem_cons (by omega : k < l.length),
      List.take_succ_cons]

/-- A number written to DRAM among other bytes reads back at its address. -/
theorem rd_wr_dram (s : State) (a : Nat) (l : List Byte) (h : a + l.length ≤ 2 ^ 36) {k n w : Nat} (hk : k + n ≤ l.length)
    (hw : (l.drop k).take n = toBytes n w) : (s.wr a l).rd (a + k) n = w % 256 ^ n := by
  rw [rd_eq_ofBytes, rdBytes_wr_dram s a l h k n hk, hw, ofBytes_toBytes]

/-! ### Loads of integer matrices (R81) -/

theorem loadBits_int {f : Nat} (hf : fmtInt f = true) (sc w : Nat) :
    loadBits f sc w = pure (valInt (toSigned (fmtBits f) w)) := by
  have hmx : fmtMx f = false := by
    simp only [fmtInt, fmtMx, decide_eq_true_eq, decide_eq_false_iff_not] at *
    omega
  simp only [loadBits, hmx, decodeElem, hf, Bool.false_and, Bool.false_eq_true, if_false, if_true]
  rfl

/-- The word of element (r, c) of an INT32 matrix in tile form. -/
def int32At (s : State) (base cs r c : Nat) : Nat := s.rd (tileAt 13 false base cs r c + 4 * (r % 32 * 32 + c % 32)) 4

/-- The integer that element (r, c) of an INT8 matrix in tile form spells. -/
def int8At (s : State) (base cs r c : Nat) : Int :=
  toSigned 8 (s.byteAt (tileAt 11 false base cs r c + (r % 32 * 32 + c % 32))).toNat

theorem elemAt_int32 (s : State) (base cs r c : Nat) :
    s.elemAt 13 base cs r c = pure (valInt (toSigned 32 (int32At s base cs r c))) := by
  have hbits : s.rdBits (tileAt 13 false base cs r c) ((r % 32 * 32 + c % 32) * 32) 32 = int32At s base cs r c % 2 ^ 32 :=
    rdBits_bytes s _ _ 4
  unfold State.elemAt
  rw [loadBits_int rfl]
  simp only [tileRows, fmtBits, hbits, toSigned_mod, Nat.reduceEqDiff, if_false, or_self]

theorem elemAt_int8 (s : State) (base cs r c : Nat) : s.elemAt 11 base cs r c = pure (valInt (int8At s base cs r c)) := by
  have hbits : s.rdBits (tileAt 11 false base cs r c) ((r % 32 * 32 + c % 32) * 8) 8 =
      (s.byteAt (tileAt 11 false base cs r c + (r % 32 * 32 + c % 32))).toNat % 2 ^ 8 := by
    have h := rdBits_bytes s (tileAt 11 false base cs r c) (r % 32 * 32 + c % 32) 1
    rwa [Nat.one_mul, rd_one] at h
  unfold State.elemAt int8At
  rw [loadBits_int rfl]
  simp only [tileRows, fmtBits, hbits, toSigned_mod, Nat.reduceEqDiff, if_false, or_self]

/-- The values of a matrix, by rows. -/
def valRows (rs cs : Nat) (x : Nat → Nat → Int) : List (List Val) :=
  (List.range rs).map (fun r => (List.range cs).map (fun c => valInt (x r c)))

theorem loadMat_int8 (s : State) (base rs cs : Nat) : s.loadMat 11 base rs cs = pure (valRows rs cs (int8At s base cs)) := by
  simp only [State.loadMat, elemAt_int8, List.mapM_pure]
  rfl

theorem row_valRows {rs cs r : Nat} (x : Nat → Nat → Int) (hr : r < rs) :
    row (valRows rs cs x) r = (List.range cs).map (fun c => valInt (x r c)) := by
  simp [row, valRows, hr]

/-! ### Stores of INT32 matrices (R81) -/

/-- A matrix with zeros beyond its rows and columns. -/
def padded (rs cs : Nat) (x : Nat → Nat → Int) (r c : Nat) : Int := if r < rs ∧ c < cs then x r c else 0

/-- The bytes of a block of a tile of INT32 elements: the 32 elements of row `r` from column `c0`. -/
def int32Block (x : Nat → Nat → Int) (r c0 : Nat) : List Byte :=
  (List.range 32).flatMap (fun c => toBytes 4 (ofSigned 32 (x r (c0 + c))))

/-- The bytes of an INT32 matrix in tile form: tiles by rows of tiles, blocks by rows of a tile. -/
def int32Tiles (rs cs : Nat) (x : Nat → Nat → Int) : List Byte :=
  (List.range (ceilDiv rs 32)).flatMap (fun i => (List.range (ceilDiv cs 32)).flatMap (fun j =>
    (List.range 32).flatMap (fun r => int32Block (padded rs cs x) (i * 32 + r) (j * 32))))

theorem isInt32_padded {x : Nat → Nat → Int} (hx : ∀ r c, IsInt32 (x r c)) (rs cs r c : Nat) : IsInt32 (padded rs cs x r c) := by
  unfold padded
  split
  · exact hx r c
  · rw [isInt32_iff]; omega

theorem at_row_valRows (rs cs : Nat) (x : Nat → Nat → Int) (r c : Nat) :
    (if c < cs then at_ (row (valRows rs cs x) r) c else valZero) = valInt (padded rs cs x r c) := by
  by_cases hc : c < cs
  · by_cases hr : r < rs
    · simp [hc, hr, at_, row_valRows x hr, padded]
    · simp [hc, hr, at_, row, valRows, padded, valZero, valInt]
  · simp [hc, padded, valZero, valInt]

/-- Conversion to INT32 keeps an integer of INT32, and no flag is set. -/
theorem convert_int32 (ieee : Bool) {i : Int} (h : IsInt32 i) : convert 13 ieee (valInt i) = pure (ofSigned 32 i) := by
  have hlo : ¬ i < intMin 13 := by rw [isInt32_iff] at h; change ¬ i < -2147483648; omega
  have hhi : ¬ i > intMax 13 := by rw [isInt32_iff] at h; change ¬ i > 2147483647; omega
  have hsat : convert 13 ieee (valInt i) = satInt 13 (rneInt (valInt i)) := rfl
  rw [hsat, rneInt_valInt, satInt, if_neg hlo, if_neg hhi]
  rfl

theorem convBlock_int32 (ieee : Bool) {n : Nat} {x : Nat → Int} (hx : ∀ c, IsInt32 (x c)) :
    convBlock 13 ieee ((List.range n).map (fun c => valInt (x c))) = pure (0, (List.range n).map (fun c => ofSigned 32 (x c))) := by
  have hconv : convBlock 13 ieee ((List.range n).map (fun c => valInt (x c))) =
      (do pure (0, ← ((List.range n).map (fun c => valInt (x c))).mapM (convert 13 ieee))) := rfl
  simp only [hconv, List.mapM_map, Function.comp_def, convert_int32 ieee (hx _), List.mapM_pure, pure_bind]

theorem toBytes_int32Block (x : Nat → Nat → Int) (r c0 : Nat) :
    toBytes (4 * fmtBits 13) (packBits (fmtBits 13) ((List.range 32).map (fun c => ofSigned 32 (x r (c0 + c))))) = int32Block x r c0 := by
  have h := toBytes_packBits ((List.range 32).map (fun c => ofSigned 32 (x r (c0 + c))))
  rw [List.length_map, List.length_range, List.flatMap_map] at h
  exact h

/-- Storing an INT32 matrix sets no flag. -/
theorem tileStore_int32 (ieee : Bool) (rs cs : Nat) {x : Nat → Nat → Int} (hx : ∀ r c, IsInt32 (x r c)) :
    tileStore 13 ieee rs cs (valRows rs cs x) = pure (int32Tiles rs cs x) := by
  have hrows : tileRows 13 = 32 := rfl
  have hmx : fmtMx 13 = false := rfl
  simp only [tileStore, tileStoreWith, hrows, hmx, at_row_valRows, convBlock_int32 ieee (fun _ => isInt32_padded hx rs cs _ _),
    List.mapM_pure, pure_bind, List.map_map, Function.comp_def, toBytes_int32Block, Bool.false_eq_true, if_false, List.append_nil]
  simp only [int32Tiles, List.flatMap_def, List.flatten_flatten, List.map_map, Function.comp_def]

theorem length_flatMap_range {α : Type} {f : Nat → List α} {L : Nat} (hL : ∀ i, (f i).length = L) (m : Nat) :
    ((List.range m).flatMap f).length = m * L := by
  simp [List.length_flatMap, hL]

/-- A slice of one of the equally long pieces of a list. -/
theorem slice_flatMap_range {α : Type} {f : Nat → List α} {L : Nat} (hL : ∀ i, (f i).length = L) {m i k n : Nat} (hi : i < m)
    (hk : k + n ≤ L) : (((List.range m).flatMap f).drop (i * L + k)).take n = ((f i).drop k).take n := by
  induction m with
  | zero => omega
  | succ m ih =>
    have hlen := length_flatMap_range hL m
    have hlast : (List.range (m + 1)).flatMap f = (List.range m).flatMap f ++ f m := by simp [List.range_succ]
    rw [hlast]
    rcases Nat.lt_succ_iff_lt_or_eq.mp hi with him | rfl
    · have hbound : i * L + L ≤ m * L := by rw [← Nat.succ_mul]; exact Nat.mul_le_mul_right L him
      rw [List.drop_append_of_le_length (by omega), List.take_append_of_le_length (by rw [List.length_drop]; omega), ih him]
    · rw [List.drop_append, List.drop_eq_nil_of_le (by omega), hlen, Nat.add_sub_cancel_left, List.nil_append]

theorem length_int32Block (x : Nat → Nat → Int) (r c0 : Nat) : (int32Block x r c0).length = 128 :=
  length_flatMap_range (fun _ => toBytes_length 4 _) 32

theorem length_int32Tiles (rs cs : Nat) (x : Nat → Nat → Int) : (int32Tiles rs cs x).length = matBytes 13 false rs cs := by
  have htile := fun i j => length_flatMap_range (fun r => length_int32Block (padded rs cs x) (i * 32 + r) (j * 32)) 32
  unfold int32Tiles
  rw [length_flatMap_range (fun i => length_flatMap_range (htile i) _), ← Nat.mul_assoc]
  rfl

/-- The bytes of element (r, c) lie where R81 puts it. -/
theorem slice_int32Tiles {rs cs r c : Nat} (x : Nat → Nat → Int) (hr : r < rs) (hc : c < cs) :
    ((int32Tiles rs cs x).drop ((r / 32 * ceilDiv cs 32 + c / 32) * 4096 + 4 * (r % 32 * 32 + c % 32))).take 4 =
      toBytes 4 (ofSigned 32 (x r c)) := by
  have hblock := fun r c0 => length_int32Block (padded rs cs x) r c0
  have htile := fun i j => length_flatMap_range (fun r => hblock (i * 32 + r) (j * 32)) 32
  have hoff : (r / 32 * ceilDiv cs 32 + c / 32) * 4096 + 4 * (r % 32 * 32 + c % 32) =
      r / 32 * (ceilDiv cs 32 * (32 * 128)) + (c / 32 * (32 * 128) + (r % 32 * 128 + (c % 32 * 4 + 0))) := by ring
  have hcol : c / 32 < ceilDiv cs 32 := by unfold ceilDiv; omega
  have hrow : r / 32 < ceilDiv rs 32 := by unfold ceilDiv; omega
  have hend : c / 32 * (32 * 128) + (32 * 128) ≤ ceilDiv cs 32 * (32 * 128) := by
    rw [← Nat.succ_mul]; exact Nat.mul_le_mul_right _ hcol
  rw [hoff, int32Tiles, slice_flatMap_range (fun i => length_flatMap_range (htile i) _) hrow (by omega),
    slice_flatMap_range (htile _) hcol (by omega), slice_flatMap_range (fun i => hblock _ _) (by omega) (by omega), int32Block,
    slice_flatMap_range (fun _ => toBytes_length 4 _) (by omega) (by omega), List.drop_zero,
    List.take_of_length_le (toBytes_length 4 _).le, Nat.div_add_mod', Nat.div_add_mod']
  simp only [padded, hr, hc, and_self, if_true]

/-- Element (r, c) of an INT32 matrix stored to DRAM. -/
theorem int32At_wr_int32Tiles (s : State) {a rs cs r c : Nat} (x : Nat → Nat → Int) (ha : a + matBytes 13 false rs cs ≤ 2 ^ 36)
    (hr : r < rs) (hc : c < cs) : int32At (s.wr a (int32Tiles rs cs x)) a cs r c = ofSigned 32 (x r c) := by
  have hslice := slice_int32Tiles x hr hc
  have hlen := length_int32Tiles rs cs x
  have hin := congrArg List.length hslice
  rw [List.length_take, List.length_drop, toBytes_length] at hin
  have hread := rd_wr_dram s a (int32Tiles rs cs x) (by omega) (by omega) hslice
  have haddr : tileAt 13 false a cs r c + 4 * (r % 32 * 32 + c % 32) =
      a + ((r / 32 * ceilDiv cs 32 + c / 32) * 4096 + 4 * (r % 32 * 32 + c % 32)) := Nat.add_assoc _ _ _
  rw [int32At, haddr, hread]
  exact Nat.mod_eq_of_lt (ofSigned_lt _)

/-! ### A running operation on DRAM -/

/-- A descriptor whose operands lie below the register pages reads no register. -/
theorem regReads_eq_nil {s : State} {d : Desc} (h : ∀ r, r ∈ s.rngsOf d → r.a ≤ 2 ^ 36) : s.regReads d = [] := by
  have hnone : (s.rngsOf d).filter (fun r => !r.wr && isRegSpace r.a) = [] := by
    rw [List.filter_eq_nil_iff]
    intro r hr
    have hreg := isRegSpace_of_lt (Nat.lt_of_le_of_lt (h r hr) (by decide))
    rw [hreg, Bool.and_false]
    exact Bool.false_ne_true
  unfold State.regReads
  rw [hnone]
  rfl

/-- A running operation that no access ends and that reads no register has its effect and its result. -/
theorem runOp_of_running {s : State} {id : Nat} {d : Desc} (hd : s.desc? id = some d) (hst : d.st = .running)
    (hres : d.result = none) (hstop : s.stopOf d = none) (hreg : ∀ u : State, u.regReads d = [])
    (f : State → Desc → State × Nat × Nat) :
    s.runOp id d.op anyDesc f = (f s d).1.finish id (f s d).2.1 (f s d).2.2 := by
  have hon : s.opOn id d.op = some d := by simp [State.opOn, hd, hst, hres]
  have hany : (!anyDesc d) = false := rfl
  simp only [State.runOp, hon, hany, hstop, State.showRegs, State.clearReads, hreg, List.isEmpty_nil, List.foldl_nil,
    Bool.false_eq_true, if_false, if_true]

/-- The end of a command that finishes a descriptor after a write: the descriptor has its result, and every byte is as the
write left it. -/
theorem done_finish_wr (s u : State) (a : Nat) (l : List Byte) {id : Nat} {d : Desc} (hd : u.desc? id = some d) (st fl : Nat) :
    ∃ t, s.done ((u.wr a l).finish id st fl) = .next t ∧
      t.desc? id = some { d with result := some { status := st, outcome := 0, flags := fl } } ∧
      ∀ b, t.byteAt b = (u.wr a l).byteAt b := by
  refine ⟨_, rfl, ?_, fun b => ?_⟩
  · have hdesc : (u.wr a l).desc? id = some d := by rw [wr_eq]; exact hd
    have hfin : ((u.wr a l).finish id st fl).desc? id =
        some { d with result := some { status := st, outcome := 0, flags := fl } } := by
      simp only [State.finish, State.updDesc_desc, if_true, hdesc, Option.map_some]
    exact hfin
  · unfold State.byteAt
    simp only [cellGet_cellCanon]
    rfl

/-- An operation that stores an INT32 matrix in DRAM and ends without status or flags. -/
theorem done_finish_int32Tiles (s u : State) {a rs cs id r c : Nat} {d : Desc} (x : Nat → Nat → Int) (hd : u.desc? id = some d)
    (ha : a + matBytes 13 false rs cs ≤ 2 ^ 36) (hr : r < rs) (hc : c < cs) :
    ∃ t, s.done ((u.wr a (int32Tiles rs cs x)).finish id 0 0) = .next t ∧
      t.desc? id = some { d with result := some { status := 0, outcome := 0, flags := 0 } } ∧
      int32At t a cs r c = ofSigned 32 (x r c) := by
  obtain ⟨t, hnext, hdesc, hbytes⟩ := done_finish_wr s u a (int32Tiles rs cs x) hd 0 0
  exact ⟨t, hnext, hdesc, (rd_congr hbytes _ 4).trans (int32At_wr_int32Tiles u x ha hr hc)⟩

/-! ### Elementwise addition of INT32 matrices (R35, R101; Table 04-10) -/

/-- The descriptor adds two INT32 matrices in tile form into a third. -/
structure AddsInt32 (d : Desc) : Prop where
  op : d.op = 0x0010
  fn : d.f 56 1 = 1
  inF : d.inF = 13
  outF : d.outF = 13
  bF : d.f 57 1 = 13
  bMode : d.f 59 1 = 0

/-- The elements of the result of an INT32 addition. -/
def int32Sums (s : State) (d : Desc) (r c : Nat) : Int :=
  toSigned 32 (ofSigned 32 (toSigned 32 (int32At s (d.f 24 6) (d.f 52 4) r c) + toSigned 32 (int32At s (d.f 30 6) (d.f 52 4) r c)))

section
variable {d : Desc} (h : AddsInt32 d) (s : State)
include h

theorem AddsInt32.rngsOf_eq : s.rngsOf d =
    [rdTile (d.f 24 6) (matBytes 13 false (d.f 48 4) (d.f 52 4)), wrTile (d.f 42 6) (matBytes 13 false (d.f 48 4) (d.f 52 4)),
      rdTile (d.f 30 6) (matBytes 13 false (d.f 48 4) (d.f 52 4))] := by
  simp [State.rngsOf, opInfo, elementwiseInfo, ewB, ewC, ewRng, h.op, h.fn, h.inF, h.outF, h.bF, h.bMode]

theorem AddsInt32.ewElem_eq (r c : Nat) : ewElem s d r c = pure (valInt (int32Sums s d r c)) := by
  simp [ewElem, ewB, ewC, ewOperand, ewIntFn, fmtInt, elemAt_int32, int32Sums, h.fn, h.inF, h.outF, h.bF, h.bMode]

theorem AddsInt32.elementwiseRun_eq :
    elementwiseRun s d = (s.wr (d.f 42 6) (int32Tiles (d.f 48 4) (d.f 52 4) (int32Sums s d)), 0, 0) := by
  have hstore := tileStore_int32 d.ieee (d.f 48 4) (d.f 52 4) (x := int32Sums s d) (fun r c => isInt32_toSigned _)
  unfold valRows at hstore
  simp only [elementwiseRun, h.ewElem_eq, h.outF, List.mapM_pure, pure_bind, hstore]
  rfl

end

/-! ### GEMM of INT8 matrices into INT32 (R32, R90, R92) -/

/-- The descriptor multiplies two dense INT8 matrices into INT32, without bias or residual, at a depth at which no order of
accumulation can saturate. -/
structure MulsInt8 (d : Desc) : Prop where
  op : d.op = 0x0001
  inF : d.inF = 11
  bF : d.f 60 1 = 11
  outF : d.outF = 13
  plain : d.f 61 1 = 0
  depth : d.f 56 4 ≤ 131071

/-- Element (i, j) of the product of A and the transpose of B. -/
def int8Dot (s : State) (d : Desc) (i j : Nat) : Int :=
  ((List.range (d.f 56 4)).map (fun c => int8At s (d.f 24 6) (d.f 56 4) i c * int8At s (d.f 30 6) (d.f 56 4) j c)).sum

theorem foldl_add_pos (l : List Int) (a : Int) :
    l.foldl (fun a p => if p > 0 then a + p else a) a = a + (l.map (fun p => max p 0)).sum := by
  induction l generalizing a with
  | nil => simp
  | cons p l ih =>
    rw [List.foldl_cons, ih, List.map_cons, List.sum_cons]
    split <;> omega

theorem foldl_add_neg (l : List Int) (a : Int) :
    l.foldl (fun a p => if p < 0 then a + p else a) a = a + (l.map (fun p => min p 0)).sum := by
  induction l generalizing a with
  | nil => simp
  | cons p l ih =>
    rw [List.foldl_cons, ih, List.map_cons, List.sum_cons]
    split <;> omega

theorem sum_max_add_sum_min (l : List Int) : (l.map (fun p => max p 0)).sum + (l.map (fun p => min p 0)).sum = l.sum := by
  rw [← List.sum_map_add]
  simp only [max_add_min, add_zero, List.map_id']

/-- A sum of at most 131,071 terms of a magnitude of at most 2^14 is an INT32. -/
theorem isInt32_sum {l : List Int} (hlen : l.length ≤ 131071) (hl : ∀ p, p ∈ l → -16384 ≤ p ∧ p ≤ 16384) : IsInt32 l.sum := by
  have hlo := List.card_nsmul_le_sum l (-16384) (fun p hp => (hl p hp).1)
  have hhi := List.sum_le_card_nsmul l 16384 (fun p hp => (hl p hp).2)
  rw [nsmul_eq_mul] at hlo hhi
  rw [isInt32_iff]
  omega

/-- Of so few and small terms neither the positive ones nor the negative ones leave INT32. -/
theorem sum_max_le_and_le_sum_min {l : List Int} (hlen : l.length ≤ 131071) (hl : ∀ p, p ∈ l → -16384 ≤ p ∧ p ≤ 16384) :
    (l.map (fun p => max p 0)).sum ≤ int32Max ∧ int32Min ≤ (l.map (fun p => min p 0)).sum := by
  constructor
  · refine (isInt32_sum (by rwa [List.length_map]) (List.forall_mem_map.mpr fun p hp => ?_)).2
    obtain ⟨hlo, hhi⟩ := hl p hp
    omega
  · refine (isInt32_sum (by rwa [List.length_map]) (List.forall_mem_map.mpr fun p hp => ?_)).1
    obtain ⟨hlo, hhi⟩ := hl p hp
    omega

/-- R32's accumulation of the products of two rows is exact where they are so few and small. -/
theorem mxeDotInt_exact (cand : Nat) {n : Nat} {x y : Nat → Int} (hn : n ≤ 131071)
    (hxy : ∀ c, -16384 ≤ x c * y c ∧ x c * y c ≤ 16384) :
    mxeDotInt cand ((List.range n).map (fun c => valInt (x c))) ((List.range n).map (fun c => valInt (y c))) =
      pure ((List.range n).map (fun c => x c * y c)).sum := by
  have hin := sum_max_le_and_le_sum_min (l := (List.range n).map (fun c => x c * y c)) (by simpa using hn)
    (List.forall_mem_map.mpr fun c _ => hxy c)
  have hsum := sum_max_add_sum_min ((List.range n).map (fun c => x c * y c))
  simp only [List.map_map, Function.comp_def] at hin hsum
  simp only [mxeDotInt, List.zip_map', List.map_map, Function.comp_def, rneInt_valInt, foldl_add_pos, foldl_add_neg, zero_add]
  rw [if_pos hin, hsum]

theorem int8At_mul_bounds (s : State) (a b as bs i j c : Nat) :
    -16384 ≤ int8At s a as i c * int8At s b bs j c ∧ int8At s a as i c * int8At s b bs j c ≤ 16384 := by
  obtain ⟨hxlo, hxhi⟩ := toSigned_8_bounds (s.byteAt (tileAt 11 false a as i c + (i % 32 * 32 + c % 32))).toNat
  obtain ⟨hylo, hyhi⟩ := toSigned_8_bounds (s.byteAt (tileAt 11 false b bs j c + (j % 32 * 32 + c % 32))).toNat
  unfold int8At
  constructor <;> nlinarith

theorem sat32_of_isInt32 {i : Int} (h : IsInt32 i) : sat32 i = pure i := by
  rw [sat32, if_neg (not_lt.mpr h.1), if_neg (not_lt.mpr h.2)]

/-- Flagged computations that set no flag, one after another. -/
theorem mapM_eq_pure_map {α β : Type} {l : List α} {f : α → Flg β} {g : α → β} (h : ∀ x, x ∈ l → f x = pure (g x)) :
    l.mapM f = pure (l.map g) := by
  induction l with
  | nil => rfl
  | cons x l ih =>
    rw [List.mapM_cons, h x List.mem_cons_self, ih (fun y hy => h y (List.mem_cons_of_mem x hy)), pure_bind, pure_bind,
      List.map_cons]

section
variable {d : Desc} (h : MulsInt8 d) (s : State)
include h

theorem MulsInt8.rngsOf_eq : s.rngsOf d =
    [rdTile (d.f 24 6) (matBytes 11 false (d.f 48 4) (d.f 56 4)), rdTile (d.f 30 6) (matBytes 11 false (d.f 52 4) (d.f 56 4)),
      wrTile (d.f 36 6) (matBytes 13 false (d.f 48 4) (d.f 52 4))] := by
  simp [State.rngsOf, opInfo, gemmInfo, h.op, h.inF, h.bF, h.outF, h.plain]

theorem MulsInt8.isInt32_int8Dot (i j : Nat) : IsInt32 (int8Dot s d i j) :=
  isInt32_sum (by simpa using h.depth) (List.forall_mem_map.mpr fun c _ => int8At_mul_bounds s _ _ _ _ i j c)

theorem MulsInt8.mxeDotInt_eq {i j : Nat} (hi : i < d.f 48 4) (hj : j < d.f 52 4) (cand : Nat) :
    mxeDotInt cand (row (valRows (d.f 48 4) (d.f 56 4) (int8At s (d.f 24 6) (d.f 56 4))) i)
      (row (valRows (d.f 52 4) (d.f 56 4) (int8At s (d.f 30 6) (d.f 56 4))) j) = pure (int8Dot s d i j) := by
  rw [row_valRows _ hi, row_valRows _ hj]
  exact mxeDotInt_exact cand h.depth (int8At_mul_bounds s _ _ _ _ i j)

theorem MulsInt8.gemmRows_eq (k : Nat) : gemmRows s d k = pure (valRows (d.f 48 4) (d.f 52 4) (int8Dot s d)) := by
  have hgrp : mxeGroup 11 = 1 := rfl
  simp only [gemmRows, h.inF, h.bF, h.outF, h.plain, hgrp, loadMat_int8, Nat.zero_testBit, Bool.false_eq_true, if_false,
    if_true, pure_bind, Option.map_none, add_zero]
  refine mapM_eq_pure_map fun i hi => mapM_eq_pure_map fun j hj => ?_
  rw [h.mxeDotInt_eq s (List.mem_range.mp hi) (List.mem_range.mp hj), pure_bind, sat32_of_isInt32 (h.isInt32_int8Dot s i j), pure_bind]

theorem MulsInt8.gemmRun_eq : gemmRun s d =
    ({ s with free := s.free + 1 }.wr (d.f 36 6) (int32Tiles (d.f 48 4) (d.f 52 4) (int8Dot s d)), 0, 0) := by
  simp only [gemmRun, h.gemmRows_eq, h.outF, h.plain, tileStore_int32 d.ieee _ _ (h.isInt32_int8Dot s), pure_bind,
    Nat.zero_testBit, Bool.false_and, Bool.false_eq_true, if_false]
  rfl

end

end Sys2Proof.Machine

namespace Sys2Proof

open Sys2Proof.Machine

/-- An elementwise addition of INT32 matrices in DRAM ends without status or flags, with each word of the result the sum of
its two operands modulo 2^32 (R35). -/
theorem exec_elementwise_addsInt32 {s : State} {id r c : Nat} {d : Desc} (h : AddsInt32 d) (hd : s.desc? id = some d)
    (hst : d.st = .running) (hres : d.result = none) (hstop : s.stopOf d = none) (ha : d.f 24 6 ≤ 2 ^ 36) (hb : d.f 30 6 ≤ 2 ^ 36)
    (ho : d.f 42 6 + matBytes 13 false (d.f 48 4) (d.f 52 4) ≤ 2 ^ 36) (hr : r < d.f 48 4) (hc : c < d.f 52 4) :
    ∃ t, exec (.elementwise id) s = .next t ∧
      t.desc? id = some { d with result := some { status := 0, outcome := 0, flags := 0 } } ∧
      int32At t (d.f 42 6) (d.f 52 4) r c =
        (int32At s (d.f 24 6) (d.f 52 4) r c + int32At s (d.f 30 6) (d.f 52 4) r c) % 2 ^ 32 := by
  have hreg (u : State) : u.regReads d = [] := regReads_eq_nil (by
    simp only [h.rngsOf_eq, List.forall_mem_cons, rdTile, wrTile]
    exact ⟨ha, by omega, hb, by simp⟩)
  have hexec : exec (.elementwise id) s = s.done (s.runOp id d.op anyDesc elementwiseRun) := by rw [h.op]; rfl
  have hword : ofSigned 32 (int32Sums s d r c) =
      (int32At s (d.f 24 6) (d.f 52 4) r c + int32At s (d.f 30 6) (d.f 52 4) r c) % 2 ^ 32 := by
    rw [int32Sums, ofSigned_toSigned, ofSigned_add, Nat.mod_mod]
  rw [hexec, runOp_of_running hd hst hres hstop hreg, h.elementwiseRun_eq, ← hword]
  exact done_finish_int32Tiles s s _ hd ho hr hc

/-- A GEMM of INT8 matrices in DRAM into INT32 ends without status or flags, with each element of the result the exact sum
of products (R32). -/
theorem exec_gemm_mulsInt8 {s : State} {id i j : Nat} {d : Desc} (h : MulsInt8 d) (hd : s.desc? id = some d)
    (hst : d.st = .running) (hres : d.result = none) (hstop : s.stopOf d = none) (ha : d.f 24 6 ≤ 2 ^ 36) (hb : d.f 30 6 ≤ 2 ^ 36)
    (ho : d.f 36 6 + matBytes 13 false (d.f 48 4) (d.f 52 4) ≤ 2 ^ 36) (hi : i < d.f 48 4) (hj : j < d.f 52 4) :
    ∃ t, exec (.gemm id) s = .next t ∧
      t.desc? id = some { d with result := some { status := 0, outcome := 0, flags := 0 } } ∧
      toSigned 32 (int32At t (d.f 36 6) (d.f 52 4) i j) = int8Dot s d i j := by
  have hreg (u : State) : u.regReads d = [] := regReads_eq_nil (by
    simp only [h.rngsOf_eq, List.forall_mem_cons, rdTile, wrTile]
    exact ⟨ha, hb, by omega, by simp⟩)
  have hexec : exec (.gemm id) s = s.done (s.runOp id d.op anyDesc gemmRun) := by rw [h.op]; rfl
  rw [hexec, runOp_of_running hd hst hres hstop hreg, h.gemmRun_eq]
  obtain ⟨t, hnext, hdesc, hread⟩ := done_finish_int32Tiles s { s with free := s.free + 1 } (int8Dot s d) hd ho hi hj
  exact ⟨t, hnext, hdesc, by rw [hread, toSigned_ofSigned (h.isInt32_int8Dot s i j)]⟩

/-- Settles O28. Loads and stores of integer matrices set no flag, so that an addition leaves the sums of words modulo 2^32;
at a depth of at most 131,071 neither the positive nor the negative products leave INT32 on their own, so that a GEMM is exact. -/
theorem integerResults : Obligations.IntegerResults := by
  unfold Obligations.IntegerResults
  refine ⟨fun s id r j d _ hd hst hres hop hstop hfn hin hout hbf hbm ha hb ho hr hj => ?_,
    fun s id i j d _ hd hst hres hop hstop hin hbf hout hplain hdepth ha hb ho hi hj => ?_⟩
  · exact exec_elementwise_addsInt32 ⟨hop, hfn, hin, hout, hbf, hbm⟩ hd hst hres hstop (by omega) (by omega) ho hr hj
  · exact exec_gemm_mulsInt8 ⟨hop, hin, hbf, hout, hplain, hdepth⟩ hd hst hres hstop (by omega) (by omega) ho hi hj

end Sys2Proof
end

section
/-! Doorbells (R54, R60, R10): a doorbell replaces the producer count, waits for the hub link of its die, or is dropped and
counted. -/

namespace Sys2Proof.Machine

/-- A doorbell is held back on its way: the hub link of a die in service carries nothing (R10). -/
def State.doorWaits (s : State) (die : Nat) : Prop := (s.die die).running = true ∧ (s.die die).st = 0 ∧ s.hubLink die = false

/-- The Espresso block alone submits to context `c` now (R246). -/
def State.loopOwns (s : State) (c : Nat) : Prop := s.esp.st ≠ 0 ∧ (s.od 0x2700 0x0B = c ∨ s.od 0x2700 0x0C = c)

/-- The dispatcher takes producer count `p` for context `c` (R54). -/
def State.takesDoor (s : State) (c p : Nat) : Prop :=
  ((s.ctx c).st = .opened ∨ (s.ctx c).st = .paused) ∧ (s.die (s.home c)).st ≠ 2 ∧
    (p % 2 ^ 32 + 2 ^ 32 - (s.ctx c).cons) % 2 ^ 32 ≤ s.od 0x5000 0x0A c

/-- A doorbell is dropped and counted in 0x5000:18 of its context. -/
def State.dropDoor (s : State) (c : Nat) : State := s.bumpOd 0x5000 0x18 1 32 c

theorem ring_of_takes {s : State} {c p : Nat} (h : s.takesDoor c p) :
    s.ring c p = s.setCtx c { s.ctx c with prod := p % 2 ^ 32 } := if_pos h

theorem ring_of_not_takes {s : State} {c p : Nat} (h : ¬ s.takesDoor c p) : s.ring c p = s.dropDoor c := if_neg h

theorem door_of_waits {s : State} {c : Nat} (p : Nat) (h : s.doorWaits (s.home c)) :
    s.door c p = s.setDie (s.home c) { s.die (s.home c) with doors := (s.die (s.home c)).doors ++ [(c, p % 2 ^ 32)] } := if_pos h

theorem door_of_not_waits {s : State} {c : Nat} (p : Nat) (h : ¬ s.doorWaits (s.home c)) : s.door c p = s.ring c p := if_neg h

theorem knock_of_loopOwns {s : State} {c : Nat} (p : Nat) (h : s.loopOwns c) : s.knock c p = s.dropDoor c := if_pos h

theorem knock_of_not_loopOwns {s : State} {c : Nat} (p : Nat) (h : ¬ s.loopOwns c) : s.knock c p = s.door c p := if_neg h

theorem dspDoorbell_of_home {s : State} {die w : Nat} (h : s.home (w % 16384) = die) :
    s.dspDoorbell die w = s.knock (w % 16384) (w / 2 ^ 32) := if_neg (not_not_intro h)

theorem dspDoorbell_of_not_home {s : State} {die w : Nat} (h : s.home (w % 16384) ≠ die) :
    s.dspDoorbell die w = s.dropDoor (w % 16384) := if_pos h

end Sys2Proof.Machine

namespace Sys2Proof

open Sys2Proof.Machine

/-- A doorbell that is dropped is counted, and changes nothing else. -/
theorem done_dropDoor {s : State} (hs : Invariant s) (c : Nat) (hc : c < 16384) :
    ∃ t, s.done (s.dropDoor c) = .next t ∧ t = { s with dict := t.dict } ∧ SameBytes s t ∧
      SameOd [odKey 0x5000 0x18 c] s t ∧ t.od 0x5000 0x18 c = (s.od 0x5000 0x18 c + 1) % 2 ^ 32 := by
  have hod : SameOd [odKey 0x5000 0x18 c] s (s.dropDoor c) := (SameOd.of_dict _ rfl).bumpOd _ _ _ _ _ List.mem_cons_self
  have hkey : odKey 0x2000 0x10 0 ∉ [odKey 0x5000 0x18 c] := by simp only [odKey, List.mem_singleton]; omega
  exact ⟨_, State.done_of_same hs rfl rfl rfl, rfl, SameBytes.of_mem rfl (hod.interleaved hkey) rfl, hod,
    State.bumpOd_od_self _ _ _ _ _ _⟩

/-- Settles O22. A doorbell passes the loop's claim on its contexts, the hub link of its die and the check of its count, each of
which takes it on, holds it or drops it. -/
theorem doorbells : Obligations.Doorbells := by
  unfold Obligations.Doorbells
  intro s die w c hs hc
  subst hc
  have hexec : exec (.dspDoorbellWrite die w) s = s.done (s.dspDoorbell die w) := rfl
  rw [hexec]
  refine ⟨fun hhome _ hdie hesp => ?_, fun hdrop => ?_⟩
  · have hloop : ¬ s.loopOwns (w % 16384) := by unfold State.loopOwns; tauto
    rw [dspDoorbell_of_home hhome, knock_of_not_loopOwns _ hloop]
    subst hhome
    refine ⟨fun hlink hst hcount => ?_, fun hlink hrun hdst => ?_⟩
    · have hpass : ¬ s.doorWaits (s.home (w % 16384)) := by
        rintro ⟨hr, h0, hl⟩
        rw [hr, h0, hl] at hlink
        simp at hlink
      rw [door_of_not_waits _ hpass, ring_of_takes ⟨hst, hdie, hcount⟩]
      exact ⟨_, State.done_of_same hs rfl rfl rfl, rfl, SameBytes.of_dict rfl rfl rfl,
        fun k hk => by rw [State.setCtx_ctx, if_neg (Ne.symm hk)], by rw [State.setCtx_ctx, if_pos rfl]⟩
    · rw [door_of_waits _ ⟨hrun, hdst, hlink⟩]
      exact ⟨_, State.done_of_same hs rfl rfl rfl, rfl, SameBytes.of_dict rfl rfl rfl,
        fun k hk => by rw [State.setDie_die, if_neg (Ne.symm hk)], by rw [State.setDie_die, if_pos rfl]⟩
  · have hdropped : s.dspDoorbell die w = s.dropDoor (w % 16384) := by
      by_cases hhome : s.home (w % 16384) = die
      · rw [dspDoorbell_of_home hhome]
        by_cases hloop : s.loopOwns (w % 16384)
        · exact knock_of_loopOwns _ hloop
        · subst hhome
          obtain ⟨hlink, hbad⟩ := (hdrop.resolve_left (fun h => h rfl)).resolve_left hloop
          have hpass : ¬ s.doorWaits (s.home (w % 16384)) := by
            rintro ⟨hr, h0, hl⟩
            rw [hr, h0, hl] at hlink
            simp at hlink
          have hring : ¬ s.takesDoor (w % 16384) (w / 2 ^ 32) := by
            rintro ⟨hst, hdie, hcount⟩
            rcases hbad with h2 | ⟨ho, hp⟩ | hlt
            · exact hdie h2
            · exact hst.elim ho hp
            · exact absurd hcount (Nat.not_le_of_lt hlt)
          rw [knock_of_not_loopOwns _ hloop, door_of_not_waits _ hpass, ring_of_not_takes hring]
      · exact dspDoorbell_of_not_home hhome
    rw [hdropped]
    exact done_dropDoor hs _ (Nat.mod_lt _ (by decide))

end Sys2Proof
end

section
/-! Two statements that a state outside the module's own runs refutes: `Invariant` speaks of memory and flash alone, so that a NOP
may hold an object (R61, R266) and the context table may list a context twice. -/

namespace Sys2Proof.Machine

/-- A running operation whose accesses end it gets their status, whatever it does (R20, R283). -/
theorem runOp_of_stopped {s : State} {id st : Nat} {d : Desc} (hd : s.desc? id = some d) (hst : d.st = .running)
    (hres : d.result = none) (hstop : s.stopOf d = some st) (f : State → Desc → State × Nat × Nat) :
    s.runOp id d.op anyDesc f = s.endDesc id st 0x09 := by
  have hon : s.opOn id d.op = some d := by simp [State.opOn, hd, hst, hres]
  have hany : (!anyDesc d) = false := rfl
  simp only [State.runOp, hon, hany, hstop, Bool.false_eq_true, if_false]

/-! ### A NOP that holds a destroyed object -/

/-- A running NOP of context 0 that names object 0. -/
def nopOnObject : Desc := { State.reset.mkDesc 0 0x0F00 with st := .running, objs := [0] }

/-- That NOP is outstanding, and its object is on its way to destruction. -/
def revokedNop : State :=
  { State.reset with descs := [(0, nopOnObject)], objs := [(0, { Obj.zero with st := .destroying })] }

theorem revokedNop_stopOf : revokedNop.stopOf nopOnObject = some 0x0540 := by decide +kernel

/-- The NOP ends as one whose grant was revoked. -/
theorem revokedNop_result :
    ((revokedNop.endDesc 0 0x0540 0x09).desc? 0).bind (·.result) = some { status := 0x0540, outcome := 9, flags := 0 } := by
  decide +kernel

/-! ### A context table that lists context 3 twice -/

/-- Context 3 is listed as Closed, and a second time as Open with core 0 reserved; the D context 4 has a minimum share. The
dispatcher of die 0 runs and its share window is over. -/
def twiceListed : State :=
  { State.reset.setOd 0x5000 0x16 1000 4 with
    ctxs := [(3, Ctx.zero), (3, { Ctx.zero with st := .opened, rsv := [0] }), (4, { Ctx.zero with st := .opened })]
    dies := [(0, { Die.ship with running := true, windowLen := 0 })] }

/-- The window begins with 63 shared cores. -/
theorem twiceListed_owedFor : twiceListed.owedFor 4 0 (twiceListed.od 0x2A00 2) = 630000000 := by decide +kernel

/-- The second entry of context 3 is stored as the first, which is not listed, so that core 0 is shared before context 4's turn. -/
theorem twiceListed_owed : ((twiceListed.shareWindow 0).ctx 4).owed = 640000000 := by decide +kernel

end Sys2Proof.Machine

namespace Sys2Proof

open Sys2Proof.Machine

/-- Refutes O23: its last clause lets a NOP name objects, and one whose object is on its way to destruction ends 0x0540. -/
theorem not_slotReadAndNop : ¬ Obligations.SlotReadAndNop := by
  unfold Obligations.SlotReadAndNop
  rintro ⟨_, hnop⟩
  have hinv : Invariant revokedNop := ⟨rfl, rfl⟩
  obtain ⟨t, hnext, _, _, hdesc, _⟩ := hnop revokedNop 0 nopOnObject hinv rfl rfl rfl rfl
  have hexec : exec (.nop 0) revokedNop = revokedNop.done (revokedNop.endDesc 0 0x0540 0x09) :=
    congrArg revokedNop.done (runOp_of_stopped (id := 0) (d := nopOnObject) rfl rfl rfl revokedNop_stopOf _)
  have ht : t.desc? 0 = (revokedNop.endDesc 0 0x0540 0x09).desc? 0 := by
    rw [hexec] at hnext
    cases hnext
    rfl
  have hresult := revokedNop_result
  rw [← ht, hdesc] at hresult
  simp at hresult

/-- Refutes O26: where the context table lists a context twice, the fold that opens a share window frees a reservation on its
way, and a later D context is owed a share of one core more than the window began with. -/
theorem not_timeOnDescriptors : ¬ Obligations.TimeOnDescriptors := by
  unfold Obligations.TimeOnDescriptors
  intro h
  have hinv : Invariant twiceListed := ⟨rfl, rfl⟩
  obtain ⟨_, _, _, _, hwindow, _⟩ := h twiceListed 0 4 0 nopOnObject hinv
  have hnone : ∀ p, p ∈ twiceListed.descs → p.2.st ≠ .running := fun p hp => absurd hp List.not_mem_nil
  obtain ⟨t, hnext, _, _, _, _, hctx, _⟩ := hwindow (by decide +kernel) (by decide +kernel) hnone
  have ht : t.ctx 4 = (twiceListed.shareWindow 0).ctx 4 := by
    have hexec : exec (.shareWindowStart 0) twiceListed = twiceListed.done (twiceListed.shareWindow 0) := rfl
    rw [hexec] at hnext
    cases hnext
    rfl
  have hcls : twiceListed.cls 4 = 3 := by decide +kernel
  have hctx4 := hctx 4 (by decide +kernel) (by decide +kernel)
  rw [if_pos hcls] at hctx4
  have howed : (t.ctx 4).owed = twiceListed.owedFor 4 0 (twiceListed.od 0x2A00 2) := congrArg Ctx.owed hctx4
  rw [ht, twiceListed_owed, twiceListed_owedFor] at howed
  omega

end Sys2Proof
end

section
/-! What the dispatchers' shared operations leave alone: ends of descriptors, core time, holds, and the writes into hub SRAM. A frame
is stated as `∃ …, f s = { s with … }`, so that frames compose by `subst`. -/

namespace Sys2Proof.Machine

/-! ### Entries below an index -/

/-- Every stored entry whose object lies below index `b` reads as before. -/
def SameOdBelow (b : Nat) (s t : State) : Prop := ∀ i j k, odKey i j k < odKey b 0 0 → t.od i j k = s.od i j k

theorem SameOdBelow.of_dict {s t : State} (b : Nat) (h : t.dict = s.dict) : SameOdBelow b s t := by
  intro i j k _
  simp only [State.od, h]

theorem SameOdBelow.trans {b : Nat} {s t u : State} (h : SameOdBelow b s t) (k : SameOdBelow b t u) : SameOdBelow b s u :=
  fun i j l hk => (k i j l hk).trans (h i j l hk)

theorem SameOdBelow.mono {a b : Nat} {s t : State} (hab : a ≤ b) (h : SameOdBelow b s t) : SameOdBelow a s t :=
  fun i j k hk => h i j k (Nat.lt_of_lt_of_le hk (by unfold odKey; omega))

theorem SameOdBelow.bumpOd {b : Nat} {s t : State} (h : SameOdBelow b s t) {i : Nat} (hi : b ≤ i) (j n w k : Nat) :
    SameOdBelow b s (t.bumpOd i j n w k) := by
  intro p q r hk
  rw [← h p q r hk]
  exact State.bumpOd_od_ne t n w (by unfold odKey at hk ⊢; omega)

theorem SameOdBelow.interleaved {b : Nat} {s t : State} (h : SameOdBelow b s t) (hb : 0x2000 < b) : t.interleaved = s.interleaved := by
  unfold State.interleaved
  rw [h 0x2000 0x10 0 (by unfold odKey; omega)]

/-! ### Descriptors that are not outstanding stay so -/

/-- Whatever is not outstanding before is not outstanding after. -/
def NoNewDesc (s t : State) : Prop := ∀ i, s.desc? i = none → t.desc? i = none

theorem NoNewDesc.of_descs {s t : State} (h : t.descs = s.descs) : NoNewDesc s t := by
  intro i hi
  unfold State.desc? at hi ⊢
  rw [h, hi]

theorem NoNewDesc.refl (s : State) : NoNewDesc s s := fun _ h => h

theorem NoNewDesc.trans {s t u : State} (h : NoNewDesc s t) (k : NoNewDesc t u) : NoNewDesc s u := fun i hi => k i (h i hi)

theorem NoNewDesc.foldl {α : Type} {f : State → α → State} (hf : ∀ u x, NoNewDesc u (f u x)) (l : List α) (s : State) :
    NoNewDesc s (l.foldl f s) :=
  List.foldlRecOn l f (NoNewDesc.refl s) (fun u hu x _ => hu.trans (hf u x))

theorem get?_isSome_of_mem {α : Type} {p : Nat × α} {t : AMap α} (h : p ∈ t) : (AMap.get? p.1 t).isSome = true := by
  induction t with
  | nil => exact absurd h List.not_mem_nil
  | cons q t ih =>
    unfold AMap.get?
    split
    · rfl
    · rename_i hne
      rcases List.mem_cons.mp h with rfl | ht
      · exact absurd rfl hne
      · exact ih ht

theorem desc?_ne_none_of_mem {s : State} {p : Nat × Desc} (h : p ∈ s.descs) : s.desc? p.1 ≠ none := by
  have hsome := get?_isSome_of_mem h
  intro hnone
  unfold State.desc? at hnone
  rw [hnone] at hsome
  exact absurd hsome (by decide)

theorem desc?_updDesc_none {s : State} {i j : Nat} (f : Desc → Desc) (h : s.desc? j = none) : (s.updDesc i f).desc? j = none := by
  rw [State.updDesc_desc, h]
  split <;> rfl

/-! ### Writes of memory -/

theorem wr_frame (s : State) (a : Nat) (l : List Byte) : ∃ m, s.wr a l = { s with mem := m } := ⟨_, wr_eq s a l⟩

theorem wrByte_frame (s : State) (a : Nat) (b : Byte) : ∃ m, s.wrByte a b = { s with mem := m } := ⟨_, wrByte_eq s a b⟩

theorem foldl_mem_frame {α : Type} {f : State → α → State} (hf : ∀ u x, ∃ m, f u x = { u with mem := m }) (l : List α) (s : State) :
    ∃ m, l.foldl f s = { s with mem := m } := by
  refine List.foldlRecOn (b := s) (motive := fun u => ∃ m, u = { s with mem := m }) l f ⟨_, rfl⟩ (fun u hu x _ => ?_)
  obtain ⟨m, rfl⟩ := hu
  obtain ⟨m', h⟩ := hf { s with mem := m } x
  exact ⟨m', h⟩

theorem paste_frame (s : State) (a n : Nat) (cs : List Host.Cell) : ∃ m, s.paste a n cs = { s with mem := m } := by
  unfold State.paste
  split
  · obtain ⟨m, h⟩ := foldl_mem_frame (f := fun (s : State) i => s.wrByte (a + i) 0) (fun u i => wrByte_frame u _ _) (List.range n) s
    rw [h]
    exact foldl_mem_frame (f := fun (s : State) (c : Host.Cell) => s.wrByte (a + c.1) c.2) (fun u c => wrByte_frame u _ _) cs _
  · exact ⟨_, rfl⟩

theorem scribble_frame (s : State) (a n : Nat) : ∃ k m, s.scribble a n = { s with free := k, mem := m } :=
  ⟨_, _, wr_eq { s with free := s.free + 1 } a _⟩

theorem foldl_free_mem_frame {α : Type} {f : State → α → State} (hf : ∀ u x, ∃ k m, f u x = { u with free := k, mem := m })
    (l : List α) (s : State) : ∃ k m, l.foldl f s = { s with free := k, mem := m } := by
  refine List.foldlRecOn (b := s) (motive := fun u => ∃ k m, u = { s with free := k, mem := m }) l f ⟨_, _, rfl⟩ (fun u hu x _ => ?_)
  obtain ⟨k, m, rfl⟩ := hu
  obtain ⟨k', m', h⟩ := hf { s with free := k, mem := m } x
  exact ⟨k', m', h⟩

/-! ### Early ends (R88) -/

theorem scribbleOuts_frame (s : State) (d : Desc) (p : Rng → Bool) : ∃ k m, s.scribbleOuts d p = { s with free := k, mem := m } := by
  refine foldl_free_mem_frame (fun u r => ?_) _ _
  split
  · exact scribble_frame u r.a r.n
  · exact ⟨_, _, rfl⟩

theorem slvEnd_frame (s : State) (d : Desc) : ∃ k m, slvEnd s d = { s with free := k, mem := m } :=
  foldl_free_mem_frame (fun u _ => scribble_frame u _ _) _ _

theorem updateUndo_frame (s : State) (d : Desc) : ∃ m q, updateUndo s d = { s with mem := m, maps := q } := by
  unfold updateUndo
  dsimp only
  split
  · obtain ⟨m, h⟩ := foldl_mem_frame (f := fun u (p : Nat × Nat) =>
      wrEntry u (s.sdMap (d.f 48 1)) p.1 p.2 0 (s.sdMap (d.f 48 1)).gen false) (fun u p => wr_frame u _ _) (pairUp (d.aux.drop 2)) s
    rw [h]
    exact ⟨_, _, rfl⟩
  · exact ⟨_, _, rfl⟩

theorem cleUndo_frame (s : State) (id : Nat) (d : Desc) : ∃ m q, cleUndo s id d = { s with mem := m, maps := q } := by
  unfold cleUndo
  split
  · exact updateUndo_frame s d
  · split
    · dsimp only
      split <;> exact ⟨_, _, rfl⟩
    · exact ⟨_, _, rfl⟩

/-- What an early end undoes lies in memory, pages and maps. -/
theorem cutEffects_frame (s : State) (id : Nat) (d : Desc) :
    ∃ k m p q, s.cutEffects id d = { s with free := k, mem := m, pages := p, maps := q } := by
  have houts (f : Rng → Bool) : ∃ k m p q, s.scribbleOuts d f = { s with free := k, mem := m, pages := p, maps := q } := by
    obtain ⟨k, m, h⟩ := scribbleOuts_frame s d f
    exact ⟨k, m, _, _, h⟩
  unfold State.cutEffects
  split
  · exact houts _
  split
  · exact houts _
  split
  · exact ⟨_, _, _, _, rfl⟩
  split
  · obtain ⟨k, m, h⟩ := scribbleOuts_frame s d (fun _ => true)
    obtain ⟨k', m', h'⟩ := slvEnd_frame { s with free := k, mem := m } d
    rw [h, h']
    exact ⟨_, _, _, _, rfl⟩
  split
  · obtain ⟨m, q, h⟩ := cleUndo_frame s id d
    exact ⟨_, m, _, q, h⟩
  split
  · exact houts _
  · exact ⟨_, _, _, _, rfl⟩

/-- An early end changes memory, pages, maps and the descriptor table. -/
theorem endDesc_frame (s : State) (id st oc : Nat) :
    ∃ k m ds p q, s.endDesc id st oc = { s with free := k, mem := m, descs := ds, pages := p, maps := q } := by
  unfold State.endDesc
  split
  · exact ⟨_, _, _, _, _, rfl⟩
  · rename_i d _
    dsimp only
    split
    · exact ⟨_, _, _, _, _, rfl⟩
    split
    · exact ⟨_, _, _, _, _, rfl⟩
    · obtain ⟨k, m, p, q, h⟩ := cutEffects_frame s id d
      rw [h]
      exact ⟨_, _, _, _, _, rfl⟩

/-- In the table an early end gives the descriptor its result, where it has none yet. -/
theorem endDesc_desc (s : State) (id st oc j : Nat) :
    (s.endDesc id st oc).desc? j = if id = j then (s.desc? j).map (·.ended st oc) else s.desc? j := by
  unfold State.endDesc
  cases hd : s.desc? id with
  | none =>
    dsimp only
    split
    · subst_vars
      rw [hd]
      rfl
    · rfl
  | some d =>
    dsimp only
    by_cases hr : d.result.isSome = true
    · rw [if_pos hr]
      split
      · subst_vars
        rw [hd, Option.map_some, Desc.ended, if_pos hr]
      · rfl
    · have hcut : ∀ i, (if d.st = .waiting ∧ d.pages.isEmpty then s else s.cutEffects id d).desc? i = s.desc? i := by
        intro i
        split
        · rfl
        · obtain ⟨k, m, p, q, h⟩ := cutEffects_frame s id d
          rw [h]
          rfl
      rw [if_neg hr, State.updDesc_desc, hcut]
      split
      · subst_vars
        rw [hd, Option.map_some, Option.map_some, Desc.ended, if_neg hr]
      · rfl

theorem NoNewDesc.endDesc (s : State) (id st oc : Nat) : NoNewDesc s (s.endDesc id st oc) := by
  intro i hi
  rw [endDesc_desc, hi]
  split <;> rfl

theorem endWhere_frame (s : State) (p : Desc → Bool) (st oc : Nat) :
    ∃ k m ds pg q, s.endWhere p st oc = { s with free := k, mem := m, descs := ds, pages := pg, maps := q } := by
  unfold State.endWhere
  refine List.foldlRecOn (b := s)
    (motive := fun u => ∃ k m ds pg q, u = { s with free := k, mem := m, descs := ds, pages := pg, maps := q })
    _ _ ⟨_, _, _, _, _, rfl⟩ (fun u hu x _ => ?_)
  obtain ⟨k, m, ds, pg, q, rfl⟩ := hu
  split
  · obtain ⟨k', m', ds', pg', q', h⟩ := endDesc_frame { s with free := k, mem := m, descs := ds, pages := pg, maps := q } x.1 st oc
    rw [h]
    exact ⟨_, _, _, _, _, rfl⟩
  · exact ⟨_, _, _, _, _, rfl⟩

theorem NoNewDesc.endWhere (s : State) (p : Desc → Bool) (st oc : Nat) : NoNewDesc s (s.endWhere p st oc) := by
  refine NoNewDesc.foldl (fun u x => ?_) _ _
  split
  · exact NoNewDesc.endDesc u x.1 st oc
  · exact NoNewDesc.refl u

end Sys2Proof.Machine
end

section
/-! The final record (R74, R425, R445): what it writes, what it lets go of, and what follows from it. -/

namespace Sys2Proof.Machine

/-! ### What causes, notices and aborts do to the descriptor table -/

theorem toHost_frame (s : State) (m w : Nat) : ∃ x y, s.toHost m w = { s with dict := x, b2h := y } := by
  unfold State.toHost State.countColl
  dsimp only
  split <;> exact ⟨_, _, rfl⟩

theorem sendNotice_frame (s : State) (kind st : Nat) (l : List Byte) :
    ∃ x y m, s.sendNotice kind st l = { s with dict := x, b2h := y, md := m } := by
  unfold State.sendNotice
  dsimp only
  obtain ⟨x, y, h⟩ := toHost_frame { s with md := { s.md with notices := (s.md.notices + 1) % 2 ^ 32 } } 1
    (ofBytes (toBytes 4 ((s.md.notices + 1) % 2 ^ 32) ++ toBytes 2 kind ++ toBytes 2 st ++ toBytes 8 s.barTime
      ++ (l ++ List.replicate (48 - l.length) 0)))
  exact ⟨x, y, _, h⟩

theorem notice_frame (s : State) (kind st src : Nat) (l : List Byte) :
    ∃ x y m, s.notice kind st src l = { s with dict := x, b2h := y, md := m } := by
  unfold State.notice
  split
  · exact ⟨_, _, _, rfl⟩
  · obtain ⟨x, y, m, h⟩ := sendNotice_frame s kind st l
    dsimp only
    rw [h]
    split <;> exact ⟨_, _, _, rfl⟩

theorem verdict_frame (s : State) (c : Nat) :
    ∃ k x r y m, s.verdict c = { s with free := k, dict := x, regs := r, b2h := y, md := m } := by
  unfold State.verdict
  dsimp only
  obtain ⟨x, y, m, h⟩ := notice_frame ((s.bumpReg (baseSAF + 0x18)).bumpOd 0x2200 3).freeDetail.2 2 (causeStatus c) 0
    ((s.bumpReg (baseSAF + 0x18)).bumpOd 0x2200 3).freeDetail.1
  rw [h]
  exact ⟨_, _, _, _, _, rfl⟩

theorem takeSafe_frame (s : State) (c r : Nat) : ∃ i, s.takeSafe c r = { s with isl := i } := by
  unfold State.takeSafe
  split
  · exact ⟨_, rfl⟩
  split
  · split <;> exact ⟨_, rfl⟩
  split
  · exact ⟨_, rfl⟩
  · exact ⟨_, rfl⟩

/-- An interim record lies in hub SRAM, or waits at the die for the hub link (R10, R75). -/
theorem interim_frame (s : State) (d : Desc) (st oc : Nat) : ∃ m x, s.interim d st oc = { s with mem := m, dies := x } := by
  unfold State.interim State.noteHub
  dsimp only
  split
  · obtain ⟨m, h⟩ := wr_frame s (hub d.recOff) (recordBytes st oc 0 d.seq (s.dspTime d.die - d.start)
      (d.delayAt (s.dspTime d.die)) d.reason d.coreNo d.ctx false 0 d.job)
    exact ⟨m, _, h⟩
  · exact ⟨_, _, rfl⟩

/-- A new delay reason touches the delayed descriptor alone. -/
theorem delayFor_desc_ne (s : State) {id j : Nat} (d : Desc) (r : Nat) (h : j ≠ id) : (s.delayFor id d r).desc? j = s.desc? j := by
  have hset (e : Desc) : (s.setDesc id e).desc? j = s.desc? j := by rw [State.setDesc_desc, if_neg (Ne.symm h)]
  unfold State.delayFor
  dsimp only
  split
  · exact hset _
  split
  · obtain ⟨m, x, hi⟩ := interim_frame (s.setDesc id { { d.setReason (s.dspTime d.die) r with waited := true } with
        epAt := s.dspTime d.die, interim := true }) { d.setReason (s.dspTime d.die) r with waited := true } 0x0211 0x06
    exact (congrArg (fun u : State => u.desc? j) hi).trans (hset _)
  · exact hset _

theorem NoNewDesc.decafEntry (s : State) : NoNewDesc s s.decafEntry := by
  refine List.foldlRecOn (b := s) (motive := fun u => NoNewDesc s u) s.descs decafOne (NoNewDesc.refl s) (fun u hu p hp => ?_)
  intro i hi
  have hui := hu i hi
  have hne : i ≠ p.1 := fun e => desc?_ne_none_of_mem hp (e ▸ hi)
  unfold decafOne
  dsimp only
  split
  · exact hui
  split
  · exact desc?_updDesc_none _ hui
  · rw [delayFor_desc_ne u p.2 0x06 hne, hui]

theorem NoNewDesc.enterState (s : State) (st status : Nat) : NoNewDesc s (s.enterState st status) := by
  unfold State.enterState
  dsimp only
  generalize hu : ((State.setOd _ 0x2000 0x06 _).setOd 0x2000 0x07 status).bumpOd 0x2000 0x0A = u
  have h0 : NoNewDesc s u := NoNewDesc.of_descs (by rw [← hu]; rfl)
  have hentry : NoNewDesc u (if st = 10 then u.decafEntry else if st = 11 then u.safeHoldEntry else u) := by
    split
    · exact NoNewDesc.decafEntry u
    split
    · exact NoNewDesc.endWhere u _ _ _
    · exact NoNewDesc.refl u
  refine h0.trans (hentry.trans ?_)
  generalize (if st = 10 then u.decafEntry else if st = 11 then u.safeHoldEntry else u) = v
  obtain ⟨x, y, m, h⟩ := sendNotice_frame v 1 status (toBytes 1 st ++ toBytes 1 s.md.st ++ toBytes 1 v.conditions)
  rw [h]
  split <;> exact NoNewDesc.of_descs rfl

theorem NoNewDesc.modUpdate (s : State) (status : Nat) : NoNewDesc s (s.modUpdate status) := by
  unfold State.modUpdate
  split
  · exact NoNewDesc.enterState s _ _
  · exact NoNewDesc.refl s

theorem NoNewDesc.raiseCause (s : State) (c : Nat) : NoNewDesc s (s.raiseCause c) := by
  unfold State.raiseCause
  split
  · exact NoNewDesc.refl s
  · dsimp only
    generalize hu : { s with isl := { s.isl with causes := s.isl.causes ||| (2 ^ c) } } = u
    have h0 : NoNewDesc s u := NoNewDesc.of_descs (by rw [← hu])
    have hv : NoNewDesc u (if 3 ≤ c then u.verdict c else u) := by
      split
      · obtain ⟨k, x, r, y, m, h⟩ := verdict_frame u c
        rw [h]
        exact NoNewDesc.of_descs rfl
      · exact NoNewDesc.refl u
    refine h0.trans (hv.trans ?_)
    generalize (if 3 ≤ c then u.verdict c else u) = v
    obtain ⟨i, h⟩ := takeSafe_frame v c (v.reaction c)
    rw [h]
    split
    · exact NoNewDesc.of_descs rfl
    · exact (NoNewDesc.of_descs (t := { v with isl := i }) rfl).trans (NoNewDesc.modUpdate _ _)

theorem NoNewDesc.monNote (s : State) (c st : Nat) : NoNewDesc s (s.monNote c st) := by
  refine NoNewDesc.foldl (fun u i => ?_) _ _
  unfold monRecord
  dsimp only
  generalize hv : ite (u.monOf i c 1 = true) _ _ = v
  have hmiss : NoNewDesc u v := by
    rw [← hv]
    split
    · split
      · split
        · exact (NoNewDesc.of_descs (t := u.setMon i { u.mon i with miss := 0 }) rfl).trans (NoNewDesc.raiseCause _ _)
        · exact NoNewDesc.of_descs rfl
      · exact NoNewDesc.of_descs rfl
    · exact NoNewDesc.refl u
  refine hmiss.trans ?_
  split <;> exact NoNewDesc.of_descs rfl

theorem NoNewDesc.abortCtx (s : State) (c : Nat) : NoNewDesc s (s.abortCtx c) := by
  unfold State.abortCtx
  dsimp only
  split
  · split <;> exact NoNewDesc.of_descs rfl
  split
  · exact (NoNewDesc.endWhere s (fun d => d.ctx == c) 0x0402 0x08).trans (NoNewDesc.of_descs rfl)
  · exact NoNewDesc.refl s

theorem NoNewDesc.abortDie (s : State) (d job : Nat) : NoNewDesc s (s.abortDie d job) := by
  refine NoNewDesc.foldl (fun u p => ?_) _ _
  split
  · exact NoNewDesc.abortCtx u p.1
  · exact NoNewDesc.refl u

theorem NoNewDesc.startAbort (s : State) (job d : Nat) : NoNewDesc s (s.startAbort job d) := by
  unfold State.startAbort
  split
  · exact NoNewDesc.refl s
  · refine NoNewDesc.trans ?_ (NoNewDesc.abortDie _ d job)
    split <;> exact NoNewDesc.of_descs rfl

theorem NoNewDesc.unfence (s : State) (c : Nat) : NoNewDesc s (s.unfence c) := by
  unfold State.unfence
  dsimp only
  split
  · split
    · refine NoNewDesc.trans ?_ (NoNewDesc.abortCtx _ c)
      exact NoNewDesc.of_descs rfl
    · exact NoNewDesc.of_descs rfl
  · exact NoNewDesc.refl s

theorem NoNewDesc.frameNote (s : State) (id : Nat) (d : Desc) (st : Nat) (checked : Bool) :
    NoNewDesc s (s.frameNote id d st checked) := by
  have hrotate (u : State) (v : Nat) : NoNewDesc u (u.rotate v) := by
    unfold State.rotate State.copyMem
    dsimp only
    obtain ⟨m, h⟩ := paste_frame u (u.od (0x2260 + v) 2) (u.od (0x2260 + v) 3)
      (u.slice ((u.obj (u.od (0x2260 + v) 6)).addr + ((u.ver v).input + 1) % max 1 (u.od (0x2260 + v) 7) * u.od (0x2260 + v) 3)
        (u.od (0x2260 + v) 3))
    rw [h]
    exact NoNewDesc.of_descs rfl
  have hend (u : State) (v : Nat) : NoNewDesc u (u.frameEnd v d.ctx id) := by
    unfold State.frameEnd
    dsimp only
    split
    · refine NoNewDesc.trans ?_ (hrotate _ v)
      exact NoNewDesc.of_descs rfl
    · exact NoNewDesc.of_descs rfl
  have hcount (u : State) (v : Nat) : NoNewDesc u (u.unchecked v).1 := by
    unfold State.unchecked
    dsimp only
    split
    · exact NoNewDesc.of_descs rfl
    · refine NoNewDesc.trans ?_ (NoNewDesc.raiseCause _ 9)
      exact NoNewDesc.of_descs rfl
  unfold State.frameNote
  split
  · exact NoNewDesc.refl s
  · split
    · dsimp only
      split
      · exact hend s _
      · exact (hcount s _).trans (hend _ _)
    · split
      · exact NoNewDesc.refl s
      · exact NoNewDesc.of_descs rfl

/-! ### The parts of a final record -/

/-- The record of descriptor `id` and the energy of its job are written; its cores, if it ran, are free (R74, R445). -/
def State.recorded (s : State) (id energy : Nat) (d : Desc) (r : Result) : State :=
  let now := s.dspTime d.die
  let st := s.doneStatus d r.status
  let e := if s.ledger then min energy (2 ^ 32 - 1) else 0
  let u := if d.st = .running then s.freeCores id d else s
  let f := u.eventFlags d r
  let u := f.2.wr (hub d.recOff) (recordBytes st (d.outcomeOf r st) f.1 d.seq (if d.outcomeOf r st = 3 then 0 else now - d.start)
    (d.delayAt now) (if d.replays = 2 then 0x08 else d.mainReason now) d.coreNo d.ctx true e d.job)
  if s.ledger then u.addEnergy d.job e else u

/-- Descriptor `id` is no longer outstanding: its entry is gone, and what it held (R123, R266, R270). -/
def State.dropEntry (s : State) (id : Nat) : State :=
  let s := (s.delDesc id).sweepHolds
  { s with rcv := { s.rcv with fencing := s.rcv.fencing.filter (· ≠ id) } }

/-- The descriptor is let go of: its objects' stamps, its save area, and its entry (R74). -/
def State.letGo (s : State) (id : Nat) (d : Desc) : State :=
  let s := d.objs.foldl (fun s h => if (s.obj h).st = .present then s.setObj h { s.obj h with stamp := s.carTime } else s) s
  (match d.save with | some h => s.dropObj h | none => s).dropEntry id

/-- What follows from a final record with status `st` and outcome `oc`: counts, monitors, frames, a job abort, the end of a
fence. -/
def State.concluded (s : State) (id : Nat) (d : Desc) (st oc : Nat) : State :=
  let s := if oc = 3 ∨ oc = 5 then s.countRefusal d.ctx d.die else s
  let s := ((s.countTier d.die st).monNote d.ctx st).serviceNote d.ctx st
  let s := s.frameNote id d st (d.stage == 1 && d.closes)
  let s := if startsAbort st oc then s.startAbort d.job d.die else s
  s.unfence d.ctx

theorem finalRecord_eq {s : State} {id : Nat} {d : Desc} {r : Result} (energy : Nat) (hd : s.desc? id = some d)
    (hr : d.result = some r) (hm : s.mayFinish d = true) :
    s.finalRecord id energy = ((s.recorded id energy d r).letGo id d).concluded id d (s.doneStatus d r.status)
      (d.outcomeOf r (s.doneStatus d r.status)) := by
  unfold State.finalRecord
  rw [hd]
  dsimp only
  rw [hr]
  dsimp only
  rw [hm]
  rfl

theorem NoNewDesc.concluded (s : State) (id : Nat) (d : Desc) (st oc : Nat) : NoNewDesc s (s.concluded id d st oc) := by
  have hcount : NoNewDesc s (if oc = 3 ∨ oc = 5 then s.countRefusal d.ctx d.die else s) := by
    split <;> exact NoNewDesc.of_descs rfl
  have htier (u : State) : NoNewDesc u (u.countTier d.die st) := by
    unfold State.countTier
    split <;> exact NoNewDesc.of_descs rfl
  have hservice (u : State) : NoNewDesc u (u.serviceNote d.ctx st) := by
    unfold State.serviceNote
    split
    · exact NoNewDesc.refl u
    split
    · split <;> exact NoNewDesc.of_descs rfl
    split <;> exact NoNewDesc.of_descs rfl
  have habort (u : State) : NoNewDesc u (if startsAbort st oc then u.startAbort d.job d.die else u) := by
    split
    · exact NoNewDesc.startAbort u _ _
    · exact NoNewDesc.refl u
  unfold State.concluded
  dsimp only
  exact hcount.trans ((htier _).trans ((NoNewDesc.monNote _ _ _).trans ((hservice _).trans ((NoNewDesc.frameNote _ _ _ _ _).trans
    ((habort _).trans (NoNewDesc.unfence _ _))))))

end Sys2Proof.Machine
end

section
/-! Reads of hub SRAM, the charge of core time, the cores that a gang gives up, and what lets go of a descriptor (R64, R66, R74). -/

namespace Sys2Proof.Machine

/-! ### Reads of hub SRAM -/

theorem loc_congr {s t : State} (h : t.interleaved = s.interleaved) (a : Nat) : t.loc a = s.loc a := by
  unfold State.loc
  rw [h]

theorem byteAt_congr {s t : State} (hm : t.mem = s.mem) (hi : t.interleaved = s.interleaved) (hr : t.regs = s.regs) (a : Nat) :
    t.byteAt a = s.byteAt a := by
  unfold State.byteAt State.reg
  rw [loc_congr hi, hm, hr]

theorem rd_congr_range {s t : State} {a n : Nat} (h : ∀ i, i < n → t.byteAt (a + i) = s.byteAt (a + i)) : t.rd a n = s.rd a n := by
  induction n generalizing a with
  | zero => rfl
  | succ n ih =>
    have h0 := h 0 (Nat.succ_pos n)
    rw [Nat.add_zero] at h0
    rw [State.rd, State.rd, h0, ih (fun i hi => by
      have hs := h (i + 1) (Nat.succ_lt_succ hi)
      rwa [← Nat.add_assoc, Nat.add_right_comm] at hs)]

theorem rdBytes_eq_of_byteAt {s : State} {a : Nat} {l : List Byte} (h : ∀ i, i < l.length → s.byteAt (a + i) = l.getD i 0) :
    s.rdBytes a l.length = l := by
  induction l generalizing a with
  | nil => rfl
  | cons b l ih =>
    have h0 := h 0 (Nat.succ_pos _)
    rw [Nat.add_zero] at h0
    rw [List.length_cons, State.rdBytes, h0, ih (fun i hi => by
      have hs := h (i + 1) (Nat.succ_lt_succ hi)
      rwa [← Nat.add_assoc, Nat.add_right_comm] at hs)]
    rfl

/-- A number written to hub SRAM reads back. -/
theorem rd_wr_hub (s : State) {o : Nat} (n w : Nat) (h : o + n ≤ hubSize) :
    (s.wr (hub o) (toBytes n w)).rd (hub o) n = w % 256 ^ n := by
  have hlen : (toBytes n w).length = n := toBytes_length n w
  have hbytes := rdBytes_eq_of_byteAt (s := s.wr (hub o) (toBytes n w)) (a := hub o) (l := toBytes n w)
    (fun i hi => wr_hub_byteAt s o _ (by omega) i hi)
  rw [hlen] at hbytes
  rw [rd_eq_ofBytes, hbytes, ofBytes_toBytes]

/-- What lies in hub SRAM beside the bytes written keeps its value. -/
theorem wr_hub_byteAt_of_disjoint (s : State) {o p : Nat} (l : List Byte) (ho : o + l.length ≤ hubSize) (hp : p < hubSize)
    (h : p < o ∨ o + l.length ≤ p) : (s.wr (hub o) l).byteAt (hub p) = s.byteAt (hub p) := by
  unfold hubSize at ho hp
  refine wr_byteAt_out s (hub o) (hub p) l (hub_reg p hp) (fun i hi e => ?_)
  rw [hub_add, hub_loc s (o + i) (by omega), hub_loc s p hp] at e
  unfold hub at e
  omega

theorem recordBytes_length (st oc fl seq elapsed delay reason core ctx : Nat) (final : Bool) (energy job : Nat) :
    (recordBytes st oc fl seq elapsed delay reason core ctx final energy job).length = 32 := by
  simp only [recordBytes, List.length_append, toBytes_length]

/-! ### Core time, and the cores that a gang gives up (R64, R66) -/

/-- Counts of cores' entries lie at 0x4000 and above. -/
theorem foldl_bumpCores_frame (f : State → Nat) (l : List Nat) (s : State) :
    ∃ x, l.foldl (fun s n => s.bumpOd (0x4000 + n) 4 (f s) 64) s = { s with dict := x } ∧
      SameOdBelow 0x4000 s { s with dict := x } := by
  refine List.foldlRecOn (b := s) (motive := fun u => ∃ x, u = { s with dict := x } ∧ SameOdBelow 0x4000 s { s with dict := x })
    _ _ ⟨_, rfl, SameOdBelow.of_dict _ rfl⟩ (fun u hu n _ => ?_)
  obtain ⟨x, rfl, hx⟩ := hu
  exact ⟨_, rfl, hx.bumpOd (Nat.le_add_right _ _) 4 (f { s with dict := x }) 64 0⟩

theorem foldl_lastRan_frame (c : Nat) (l : List Nat) (s : State) :
    ∃ x, l.foldl (fun s n => s.setCore n { s.core n with last := c }) s = { s with cores := x } := by
  refine List.foldlRecOn (b := s) (motive := fun u => ∃ x, u = { s with cores := x }) _ _ ⟨_, rfl⟩ (fun u hu n _ => ?_)
  obtain ⟨x, rfl⟩ := hu
  exact ⟨_, rfl⟩

/-- A core of the list, and one that has run the context before, has last run the context. -/
theorem foldl_lastRan_last (c n : Nat) (l : List Nat) (s : State) (h : n ∈ l ∨ (s.core n).last = c) :
    ((l.foldl (fun s n => s.setCore n { s.core n with last := c }) s).core n).last = c := by
  induction l generalizing s with
  | nil => exact h.resolve_left List.not_mem_nil
  | cons m l ih =>
    rw [List.foldl_cons]
    refine ih _ ?_
    by_cases hm : m = n
    · right
      rw [State.setCore_core, if_pos hm]
    · rcases h with h | h
      · exact Or.inl ((List.mem_cons.mp h).resolve_left (fun e => hm e.symm))
      · right
        rw [State.setCore_core, if_neg hm, h]

theorem foldl_idleAt_frame (l : List Nat) (s : State) :
    ∃ x, l.foldl (fun s n => s.setClu (coreClus n) { s.clu (coreClus n) with idleAt := s.govTime }) s = { s with clus := x } := by
  refine List.foldlRecOn (b := s) (motive := fun u => ∃ x, u = { s with clus := x }) _ _ ⟨_, rfl⟩ (fun u hu n _ => ?_)
  obtain ⟨x, rfl⟩ := hu
  exact ⟨_, rfl⟩

/-- Charging core time touches the cores' entries, the context and the descriptor. -/
theorem settle_frame (s : State) (id : Nat) :
    ∃ x ds cs, s.settle id = { s with dict := x, descs := ds, ctxs := cs } ∧ SameOdBelow 0x4000 s (s.settle id) := by
  unfold State.settle
  split
  · exact ⟨_, _, _, rfl, SameOdBelow.of_dict _ rfl⟩
  · rename_i d _
    split
    · exact ⟨_, _, _, rfl, SameOdBelow.of_dict _ rfl⟩
    · dsimp only
      generalize hu : s.setCtx d.ctx _ = u
      obtain ⟨x, h, hx⟩ := foldl_bumpCores_frame (fun _ => s.dspTime d.die - d.since) d.cores u
      rw [h]
      subst hu
      exact ⟨_, _, _, rfl, fun i j k hk => hx i j k hk⟩

theorem settle_desc_ne (s : State) {id j : Nat} (h : j ≠ id) : (s.settle id).desc? j = s.desc? j := by
  unfold State.settle
  split
  · rfl
  · rename_i d _
    split
    · rfl
    · dsimp only
      rw [State.updDesc_desc, if_neg (Ne.symm h)]
      obtain ⟨x, hx, _⟩ := foldl_bumpCores_frame (fun _ => s.dspTime d.die - d.since) d.cores (s.setCtx d.ctx _)
      rw [hx]
      rfl

/-- A running descriptor's context is charged its cores times the time since it was last charged. -/
theorem settle_ctx {s : State} {id : Nat} {d : Desc} (hd : s.desc? id = some d) (hst : d.st = .running) (c : Nat) :
    (s.settle id).ctx c = if d.ctx = c then
      { s.ctx d.ctx with remain := (s.ctx d.ctx).remain - (d.cores.length * (s.dspTime d.die - d.since) : Nat),
                         used := (s.ctx d.ctx).used + d.cores.length * (s.dspTime d.die - d.since) } else s.ctx c := by
  unfold State.settle
  rw [hd]
  dsimp only
  rw [if_neg (not_not_intro hst)]
  obtain ⟨x, hx, _⟩ := foldl_bumpCores_frame (fun _ => s.dspTime d.die - d.since) d.cores (s.setCtx d.ctx
    { s.ctx d.ctx with remain := (s.ctx d.ctx).remain - (d.cores.length * (s.dspTime d.die - d.since) : Nat),
                       used := (s.ctx d.ctx).used + d.cores.length * (s.dspTime d.die - d.since) })
  rw [hx]
  exact State.setCtx_ctx _ _ _ _

/-- Beyond the charge, giving up cores touches the cores' entries, cores and clusters. -/
theorem freeCores_frame (s : State) (id : Nat) (d : Desc) :
    ∃ x co cl, s.freeCores id d = { s.settle id with dict := x, cores := co, clus := cl } ∧
      SameOdBelow 0x4000 s (s.freeCores id d) := by
  obtain ⟨_, _, _, _, hod⟩ := settle_frame s id
  unfold State.freeCores
  dsimp only
  obtain ⟨co, hco⟩ := foldl_lastRan_frame d.ctx d.cores (s.settle id)
  rw [hco]
  obtain ⟨cl, hcl⟩ := foldl_idleAt_frame d.cores { s.settle id with cores := co }
  rw [hcl]
  split
  · rename_i x _
    obtain ⟨co', hco'⟩ := foldl_lastRan_frame d.ctx x.cores { s.settle id with cores := co, clus := cl }
    rw [hco']
    obtain ⟨y, hy, hod'⟩ := foldl_bumpCores_frame (fun s => s.dspTime x.die - x.at_) x.cores
      { s.settle id with cores := co', clus := cl }
    rw [hy]
    exact ⟨_, _, _, rfl, hod.trans hod'⟩
  · exact ⟨_, _, _, rfl, hod⟩

theorem freeCores_last (s : State) {id n : Nat} {d : Desc} (h : n ∈ d.cores) : ((s.freeCores id d).core n).last = d.ctx := by
  have hlast := foldl_lastRan_last d.ctx n d.cores (s.settle id) (Or.inl h)
  unfold State.freeCores
  dsimp only
  generalize d.cores.foldl (fun s n => s.setCore n { s.core n with last := d.ctx }) (s.settle id) = u at hlast ⊢
  obtain ⟨cl, hcl⟩ := foldl_idleAt_frame d.cores u
  rw [hcl]
  split
  · rename_i x _
    have hagain := foldl_lastRan_last d.ctx n x.cores { u with clus := cl } (Or.inr hlast)
    generalize x.cores.foldl (fun s n => s.setCore n { s.core n with last := d.ctx }) { u with clus := cl } = v at hagain ⊢
    obtain ⟨y, hy, _⟩ := foldl_bumpCores_frame (fun s => s.dspTime x.die - x.at_) x.cores v
    rw [hy]
    exact hagain
  · exact hlast

/-! ### Letting go -/

theorem sweepHolds_frame (s : State) :
    ∃ x pg os, s.sweepHolds = { s with dict := x, pages := pg, objs := os } ∧ SameOdBelow 0x2410 s s.sweepHolds := by
  unfold State.sweepHolds
  dsimp only
  split
  · exact ⟨_, _, _, rfl, SameOdBelow.of_dict _ rfl⟩
  · refine ⟨_, _, _, rfl, SameOdBelow.bumpOd ?_ (Nat.le_refl _) _ _ _ _⟩
    exact SameOdBelow.of_dict _ rfl

theorem dropEntry_frame (s : State) (id : Nat) :
    ∃ x ds pg os rc, s.dropEntry id = { s with dict := x, descs := ds, pages := pg, objs := os, rcv := rc } ∧
      SameOdBelow 0x2410 s (s.dropEntry id) := by
  obtain ⟨x, pg, os, h, hod⟩ := sweepHolds_frame (s.delDesc id)
  unfold State.dropEntry
  dsimp only
  rw [h] at hod ⊢
  exact ⟨_, _, _, _, _, rfl, fun i j k hk => hod i j k hk⟩

theorem dropEntry_desc (s : State) (id j : Nat) : (s.dropEntry id).desc? j = if id = j then none else s.desc? j := by
  obtain ⟨x, pg, os, h, _⟩ := sweepHolds_frame (s.delDesc id)
  unfold State.dropEntry
  dsimp only
  rw [h]
  exact State.delDesc_desc s id j

/-- Before its entry goes, letting go of a descriptor touches objects alone. -/
theorem letGo_eq (s : State) (id : Nat) (d : Desc) : ∃ os, s.letGo id d = State.dropEntry { s with objs := os } id := by
  have hstamp : ∃ os, d.objs.foldl (fun s h => if (s.obj h).st = .present then s.setObj h { s.obj h with stamp := s.carTime } else s) s
      = { s with objs := os } := by
    refine List.foldlRecOn (b := s) (motive := fun u => ∃ os, u = { s with objs := os }) _ _ ⟨_, rfl⟩ (fun u hu h _ => ?_)
    obtain ⟨os, rfl⟩ := hu
    split <;> exact ⟨_, rfl⟩
  obtain ⟨os, hos⟩ := hstamp
  unfold State.letGo
  dsimp only
  rw [hos]
  split <;> exact ⟨_, rfl⟩

end Sys2Proof.Machine
end

section
/-! The final record of a descriptor that ran, where nothing follows from it (R74, R425, R445): its bytes, and what it leaves alone. -/

namespace Sys2Proof.Machine

/-! ### Contexts that no monitor and no frame watches -/

theorem monOf_congr {s t : State} (h : SameOdBelow 0x2400 s t) {i : Nat} (hi : i < 64) (c k : Nat) :
    t.monOf i c k = s.monOf i c k := by
  unfold State.monOf
  rw [h _ 1 0 (by unfold odKey; omega), h _ 2 0 (by unfold odKey; omega)]

theorem watched_congr {s t : State} (h : SameOdBelow 0x2400 s t) (c : Nat) : t.watched c = s.watched c := by
  unfold State.watched
  rw [Bool.eq_iff_iff, List.any_eq_true, List.any_eq_true]
  refine exists_congr (fun i => and_congr_right (fun hi => ?_))
  rw [monOf_congr h (List.mem_range.mp hi)]

theorem verOf_congr {s t : State} (h : SameOdBelow 0x2400 s t) (c : Nat) : t.verOf c = s.verOf c := by
  refine List.find?_congr (fun v hv => ?_)
  have hlt := List.mem_range.mp hv
  rw [h _ 1 0 (by unfold odKey; omega)]

/-- A monitor that names a context neither by its deadlines nor by its windows does not name it by one of them. -/
theorem monOf_eq_false {s : State} {i c : Nat} (h : s.monOf i c 3 = false) : s.monOf i c 1 = false ∧ s.monOf i c 2 = false := by
  unfold State.monOf at h ⊢
  cases hc : s.od (0x2220 + i) 1 == c with
  | false => exact ⟨rfl, rfl⟩
  | true =>
    rw [hc, Bool.true_and, decide_eq_false_iff_not, not_not] at h
    have hsub (k : Nat) (hk : 3 &&& k = k) : s.od (0x2220 + i) 2 &&& k = 0 := by
      rw [← hk, ← Nat.and_assoc, h, Nat.zero_and]
    rw [hsub 1 rfl, hsub 2 rfl]
    exact ⟨rfl, rfl⟩

theorem monNote_of_not_watched {s : State} {c : Nat} (h : s.watched c = false) (st : Nat) : s.monNote c st = s := by
  refine List.foldlRecOn (b := s) (motive := fun u => u = s) _ _ rfl (fun u hu i hi => ?_)
  subst hu
  have hall : u.monOf i c 3 = false := by
    unfold State.watched at h
    rw [List.any_eq_false] at h
    exact Bool.not_eq_true _ ▸ h i hi
  obtain ⟨h1, h2⟩ := monOf_eq_false hall
  unfold monRecord
  simp only [h1, h2, Bool.false_eq_true, Bool.false_and, if_false]

theorem serviceNote_of_not_watched {s : State} {c : Nat} (h : s.watched c = false) (st : Nat) : s.serviceNote c st = s := by
  unfold State.serviceNote
  rw [h]
  rfl

theorem frameNote_of_verOf_none {s : State} {d : Desc} (h : s.verOf d.ctx = none) (id st : Nat) (checked : Bool) :
    s.frameNote id d st checked = s := by
  unfold State.frameNote
  rw [h]

/-- Nothing follows from the record of a descriptor that is no refusal, tier fault or abort, of an Open context that nothing
watches. -/
theorem concluded_of_quiet {s : State} {d : Desc} {st oc : Nat} (id : Nat) (hver : s.verOf d.ctx = none)
    (hwatch : s.watched d.ctx = false) (hctx : (s.ctx d.ctx).st = .opened) (habort : startsAbort st oc = false)
    (h3 : oc ≠ 3) (h5 : oc ≠ 5) (htier : isTierFault st = false) : s.concluded id d st oc = s := by
  have hunfence : s.unfence d.ctx = s := by
    unfold State.unfence
    dsimp only
    rw [hctx, if_neg (fun h => CtxSt.noConfusion h.1)]
  have hcount : s.countTier d.die st = s := by
    unfold State.countTier
    rw [htier]
    rfl
  unfold State.concluded
  dsimp only
  rw [if_neg (not_or_intro h3 h5), hcount, monNote_of_not_watched hwatch, serviceNote_of_not_watched hwatch,
    frameNote_of_verOf_none hver, habort, if_neg Bool.false_ne_true, hunfence]

/-! ### The record of a descriptor that ran -/

theorem eventFlags_fst_congr {s t : State} (h : t.free = s.free) (d : Desc) (r : Result) :
    (t.eventFlags d r).1 = (s.eventFlags d r).1 := by
  unfold State.eventFlags State.draw
  rw [h]
  split <;> rfl

theorem eventFlags_snd_frame (s : State) (d : Desc) (r : Result) : ∃ k, (s.eventFlags d r).2 = { s with free := k } := by
  unfold State.eventFlags
  split <;> exact ⟨_, rfl⟩

theorem eventFlags_of_ended {r : Result} (h : r.outcome < 7) (s : State) (d : Desc) : s.eventFlags d r = (r.flags, s) := by
  unfold State.eventFlags
  rw [if_neg (fun hc => Nat.not_le_of_lt h hc.1)]

theorem addEnergy_eq {s : State} {job o : Nat} (h : s.od 0x2100 0x0E + 8 * (job % 4096) = o) (e : Nat) :
    s.addEnergy job e = s.wr (hub o) (toBytes 8 ((s.rd (hub o) 8 + e) % 2 ^ 64)) := by
  rw [← h]
  rfl

/-- The bytes of the final record of a descriptor that ran and was not refused (Table 03-10). -/
def State.finalBytes (s : State) (d : Desc) (r : Result) (e : Nat) : List Byte :=
  let now := s.dspTime d.die
  let st := s.doneStatus d r.status
  recordBytes st (d.outcomeOf r st) (s.eventFlags d r).1 d.seq (now - d.start) (d.delayAt now)
    (if d.replays = 2 then 0x08 else d.mainReason now) d.coreNo d.ctx true e d.job

/-- The cores are given up and the event flags drawn. -/
def State.unloaded (s : State) (id : Nat) (d : Desc) (r : Result) : State := ((s.freeCores id d).eventFlags d r).2

theorem unloaded_frame (s : State) (id : Nat) (d : Desc) (r : Result) :
    ∃ k x co cl, s.unloaded id d r = { s.settle id with free := k, dict := x, cores := co, clus := cl } ∧
      SameOdBelow 0x4000 s (s.unloaded id d r) := by
  obtain ⟨k, hk⟩ := eventFlags_snd_frame (s.freeCores id d) d r
  obtain ⟨x, co, cl, h, hod⟩ := freeCores_frame s id d
  unfold State.unloaded
  rw [hk]
  rw [h] at hod ⊢
  exact ⟨k, x, co, cl, rfl, fun i j l hl => hod i j l hl⟩

theorem freeCores_free (s : State) (id : Nat) (d : Desc) : (s.freeCores id d).free = s.free := by
  obtain ⟨x, co, cl, h, _⟩ := freeCores_frame s id d
  obtain ⟨y, ds, cs, hs, _⟩ := settle_frame s id
  rw [h, hs]

/-- The record is written, and where the ledger runs the energy after it. -/
theorem recorded_of_running {s : State} {d : Desc} {r : Result} (id energy : Nat) (hst : d.st = .running)
    (h3 : d.outcomeOf r (s.doneStatus d r.status) ≠ 3) :
    s.recorded id energy d r =
      if s.ledger then ((s.unloaded id d r).wr (hub d.recOff) (s.finalBytes d r (min energy (2 ^ 32 - 1)))).addEnergy d.job
          (min energy (2 ^ 32 - 1))
      else (s.unloaded id d r).wr (hub d.recOff) (s.finalBytes d r 0) := by
  unfold State.recorded State.finalBytes State.unloaded
  dsimp only
  rw [if_pos hst, if_neg h3, eventFlags_fst_congr (freeCores_free s id d)]
  cases s.ledger <;> simp only [Bool.false_eq_true, if_false, if_true]

/-- What becomes of a running descriptor's context, cores, entry and free values when its record is written. -/
theorem recorded_frame {s : State} {d : Desc} {r : Result} (id energy : Nat) (hst : d.st = .running)
    (h3 : d.outcomeOf r (s.doneStatus d r.status) ≠ 3) :
    ∃ m, s.recorded id energy d r = { s.unloaded id d r with mem := m } := by
  rw [recorded_of_running id energy hst h3]
  obtain ⟨m, hm⟩ := wr_frame (s.unloaded id d r) (hub d.recOff) (s.finalBytes d r (if s.ledger then min energy (2 ^ 32 - 1) else 0))
  cases hl : s.ledger with
  | false =>
    rw [hl] at hm
    exact ⟨m, hm⟩
  | true =>
    rw [hl, if_pos rfl] at hm
    rw [if_pos rfl, hm, addEnergy_eq rfl]
    exact wr_frame { s.unloaded id d r with mem := m } _ _

/-- What the record and the ledger's entry leave of every byte of memory. -/
theorem recorded_bytes {s : State} {d : Desc} {r : Result} {id energy e led : Nat} (hst : d.st = .running)
    (h3 : d.outcomeOf r (s.doneStatus d r.status) ≠ 3) (he : e = if s.ledger then min energy (2 ^ 32 - 1) else 0)
    (hled : led = s.od 0x2100 0x0E + 8 * (d.job % 4096)) (hrec : d.recOff + 32 ≤ hubSize) (hend : led + 8 ≤ hubSize)
    (hdisj : led + 8 ≤ d.recOff ∨ d.recOff + 32 ≤ led) :
    (∀ b, isRegSpace b = false → (∀ i, i < 32 → s.loc (hub d.recOff + i) ≠ s.loc b) →
      (s.ledger = true → ∀ i, i < 8 → s.loc (hub led + i) ≠ s.loc b) → (s.recorded id energy d r).byteAt b = s.byteAt b) ∧
    (∀ k, k < 32 → (s.recorded id energy d r).byteAt (hub d.recOff + k) = (s.finalBytes d r e).getD k 0) ∧
    (s.ledger = true → (s.recorded id energy d r).rdHub led 8 = (s.rdHub led 8 + e) % 2 ^ 64) := by
  obtain ⟨k, x, co, cl, hu, hod⟩ := unloaded_frame s id d r
  obtain ⟨y, ds, cs, hset, _⟩ := settle_frame s id
  have hmem : (s.unloaded id d r).mem = s.mem := by rw [hu, hset]
  have hregs : (s.unloaded id d r).regs = s.regs := by rw [hu, hset]
  have hil := hod.interleaved (by decide)
  have hbyte := byteAt_congr hmem hil hregs
  have hlen : (s.finalBytes d r e).length = 32 := recordBytes_length _ _ _ _ _ _ _ _ _ _ _ _
  have hledger : (s.unloaded id d r).od 0x2100 0x0E + 8 * (d.job % 4096) = led := by
    rw [hled, hod 0x2100 0x0E 0 (by decide)]
  generalize hv : (s.unloaded id d r).wr (hub d.recOff) (s.finalBytes d r e) = v
  have hvil (a : Nat) : v.loc a = s.loc a := by rw [← hv, wr_loc, loc_congr hil]
  have hout (b : Nat) (hb : isRegSpace b = false) (hne : ∀ i, i < 32 → s.loc (hub d.recOff + i) ≠ s.loc b) :
      v.byteAt b = s.byteAt b := by
    rw [← hv, wr_byteAt_out _ _ _ _ hb (fun i hi => by rw [loc_congr hil, loc_congr hil]; exact hne i (hlen ▸ hi)), hbyte]
  have hin (k : Nat) (hk : k < 32) : v.byteAt (hub d.recOff + k) = (s.finalBytes d r e).getD k 0 := by
    rw [← hv]
    exact wr_hub_byteAt _ _ _ (by omega) k (by omega)
  cases hl : s.ledger with
  | false =>
    rw [hl, if_neg Bool.false_ne_true] at he
    have hw : s.recorded id energy d r = v := by
      rw [recorded_of_running id energy hst h3, hl, if_neg Bool.false_ne_true, ← hv, he]
    rw [hw]
    exact ⟨fun b hb hne _ => hout b hb hne, hin, fun h => absurd h Bool.false_ne_true⟩
  | true =>
    rw [hl, if_pos rfl] at he
    have hvled : v.od 0x2100 0x0E + 8 * (d.job % 4096) = led := by rw [← hv, wr_eq]; exact hledger
    have hw : s.recorded id energy d r = v.wr (hub led) (toBytes 8 ((v.rd (hub led) 8 + e) % 2 ^ 64)) := by
      rw [recorded_of_running id energy hst h3, hl, if_pos rfl, ← he, hv, addEnergy_eq hvled]
    have hold : v.rd (hub led) 8 = s.rd (hub led) 8 := rd_congr_range (fun i hi => by
      rw [hub_add, ← hbyte, ← hv]
      exact wr_hub_byteAt_of_disjoint _ _ (by omega) (by omega) (by omega))
    rw [hw, hold]
    refine ⟨fun b hb hne hnled => ?_, fun k hk => ?_, fun _ => ?_⟩
    · rw [wr_byteAt_out _ _ _ _ hb (fun i hi => ?_), hout b hb hne]
      rw [hvil, hvil]
      exact hnled rfl i (by rwa [toBytes_length] at hi)
    · rw [← hin k hk, hub_add]
      exact wr_hub_byteAt_of_disjoint _ _ (by rw [toBytes_length]; exact hend) (by omega) (by rw [toBytes_length]; omega)
    · have hread := rd_wr_hub v 8 ((s.rd (hub led) 8 + e) % 2 ^ 64) hend
      unfold State.rdHub
      rw [hread]
      exact Nat.mod_mod _ (2 ^ 64)

/-- A command that leaves queue and flash alone answers its effect, with memory in canonical form. -/
theorem State.done_of_flash {s t : State} (h : Invariant s) (hp : t.pending = s.pending) (hf : t.flash = s.flash) :
    s.done t = .next { t with mem := cellCanon 0 t.mem } := by
  have hflash : cellCanon 0xFF t.flash = t.flash := cellCanon_of_wf 0xFF _ (by rw [hf]; exact h.2)
  simp only [State.done, hflash, ← hp]

theorem canon_byteAt (t : State) (a : Nat) : State.byteAt { t with mem := cellCanon 0 t.mem } a = t.byteAt a := by
  unfold State.byteAt
  simp only [cellGet_cellCanon]
  rfl

end Sys2Proof.Machine

namespace Sys2Proof

open Sys2Proof.Machine

/-- Settles O25. Nothing that follows from a record makes a descriptor outstanding again; where nothing follows from it, the record
and the ledger's entry are all that memory shows of it. -/
theorem finalRecord : Obligations.FinalRecord := by
  unfold Obligations.FinalRecord
  intro s id energy d r hs hd hr
  have hexec : exec (.descriptorFinalRecord id energy) s = s.done (s.finalRecord id energy) := rfl
  rw [hexec]
  have hgone (u : State) : (u.letGo id d).desc? id = none := by
    obtain ⟨os, h⟩ := letGo_eq u id d
    rw [h, dropEntry_desc, if_pos rfl]
  refine ⟨fun hm => ?_, fun now st oc e led hm hst hver hwatch hctx hnow hstat hoc habort h3 h5 htier hrec he hled hend hdisj => ?_⟩
  · rw [finalRecord_eq energy hd hr hm]
    exact ⟨_, rfl, NoNewDesc.concluded _ _ _ _ _ _ (hgone _)⟩
  · subst hnow hstat hoc
    obtain ⟨hout, hin, hsum⟩ := recorded_bytes (id := id) hst h3 he hled hrec hend hdisj
    obtain ⟨m, hw⟩ := recorded_frame id energy hst h3
    obtain ⟨k, x, co, cl, hu, hod⟩ := unloaded_frame s id d r
    obtain ⟨y, ds, cs, hset, _⟩ := settle_frame s id
    obtain ⟨os, hlet⟩ := letGo_eq (s.recorded id energy d r) id d
    obtain ⟨x', ds', pg, os', rc, hdrop, hod'⟩ := dropEntry_frame { s.recorded id energy d r with objs := os } id
    generalize hg : (s.recorded id energy d r).letGo id d = g
    rw [hg] at hlet
    rw [← hlet] at hdrop hod'
    have hodg : SameOdBelow 0x2400 s g := by
      have hodw : SameOdBelow 0x4000 s { s.recorded id energy d r with objs := os } := by
        rw [hw]
        exact fun i j l hl => hod i j l hl
      exact (hodw.mono (by decide)).trans (hod'.mono (by decide))
    have hgctx (c : Nat) : g.ctx c = (s.settle id).ctx c := by rw [hdrop, hw, hu]; rfl
    have hopen : (g.ctx d.ctx).st = .opened := by rw [hgctx, settle_ctx hd hst, if_pos rfl, ← hctx]
    have hquiet := concluded_of_quiet id ((verOf_congr hodg _).trans hver) ((watched_congr hodg _).trans hwatch) hopen habort h3 h5
      htier
    rw [finalRecord_eq energy hd hr hm, hg, hquiet]
    have hwbyte (a : Nat) : State.byteAt { g with mem := cellCanon 0 g.mem } a = (s.recorded id energy d r).byteAt a := by
      have hil : g.interleaved = (s.recorded id energy d r).interleaved :=
        (hod'.interleaved (by decide) : g.interleaved = State.interleaved { s.recorded id energy d r with objs := os })
      rw [canon_byteAt, byteAt_congr (by rw [hdrop]) hil (by rw [hdrop])]
    have hframe : g = { s with free := g.free, mem := g.mem, dict := g.dict, descs := g.descs, ctxs := g.ctxs, cores := g.cores,
                               clus := g.clus, objs := g.objs, pages := g.pages, rcv := g.rcv } := by
      rw [hdrop, hw, hu, hset]
    have hdescg (j : Nat) : g.desc? j = if id = j then none else (s.recorded id energy d r).desc? j := by
      rw [hlet]
      exact dropEntry_desc _ id j
    refine ⟨_, State.done_of_flash hs (by rw [hframe]) (by rw [hframe]), by rw [hframe], ?_, fun j hj => ?_,
      fun b hb hne hnled => (hwbyte b).trans (hout b hb hne hnled), fun i hi => (hwbyte _).trans (hin i hi), fun hev => ?_,
      fun hl => (rd_congr hwbyte _ 8).trans (hsum hl), fun n hn => ?_, ?_⟩
    · exact (hdescg id).trans (if_pos rfl)
    · refine ((hdescg j).trans (if_neg (Ne.symm hj))).trans ?_
      rw [hw, hu]
      exact settle_desc_ne s hj
    · refine ⟨congrArg Prod.fst (eventFlags_of_ended hev s d), ?_⟩
      have hfree : g.free = (s.unloaded id d r).free := by rw [hdrop, hw]
      refine hfree.trans ?_
      rw [State.unloaded, eventFlags_of_ended hev, freeCores_free]
    · have hcore : g.core n = (s.freeCores id d).core n := by
        obtain ⟨k', hk'⟩ := eventFlags_snd_frame (s.freeCores id d) d r
        rw [hdrop, hw, State.unloaded, hk']
        rfl
      exact (congrArg Core.last hcore).trans (freeCores_last s hn)
    · exact (congrArg Ctx.used (hgctx d.ctx)).trans (by rw [settle_ctx hd hst, if_pos rfl])

end Sys2Proof
end

section
/-! Context commands (R51–R54, R485): what each leaves of contexts, descriptors, streams, objects and maps. -/

namespace Sys2Proof.AMap

variable {α : Type}

theorem mem_of_get?_eq_some {k : Nat} {v : α} {t : AMap α} (h : get? k t = some v) : (k, v) ∈ t := by
  induction t with
  | nil => exact absurd h (by simp [get?])
  | cons p t ih =>
    obtain ⟨j, w⟩ := p
    unfold get? at h
    split at h
    · rename_i hj
      cases h
      exact hj ▸ List.mem_cons_self
    · exact List.mem_cons_of_mem _ (ih h)

/-- What a table reads at a key is its default or listed. -/
theorem getD_eq_or_mem (k : Nat) (d : α) (t : AMap α) : getD k d t = d ∨ (k, getD k d t) ∈ t := by
  unfold getD
  cases h : get? k t with
  | none => exact Or.inl rfl
  | some v => exact Or.inr (mem_of_get?_eq_some h)

theorem get?_eq_none_of_risesFrom {i k : Nat} {t : AMap α} (h : risesFrom (some i) t = true) (hk : k ≤ i) : get? k t = none := by
  induction t generalizing i with
  | nil => rfl
  | cons p t ih =>
    obtain ⟨j, w⟩ := p
    simp only [risesFrom, Bool.and_eq_true, decide_eq_true_eq] at h
    unfold get?
    rw [if_neg (by omega)]
    exact ih h.2 (by omega)

/-- A filter of a table whose keys rise keeps or drops an entry by what it holds. -/
theorem get?_keep_of_wf (k : Nat) (p : Nat → α → Bool) {t : AMap α} (h : wf t = true) :
    get? k (keep p t) = (get? k t).filter (p k) := by
  induction t with
  | nil => rfl
  | cons q t ih =>
    obtain ⟨j, w⟩ := q
    have hrise : risesFrom (some j) t = true := h
    have ih := ih (risesFrom_none j t hrise)
    have hhead (u : AMap α) : get? k ((j, w) :: u) = if j = k then some w else get? k u := rfl
    rw [hhead]
    by_cases hj : j = k
    · subst hj
      rw [if_pos rfl, Option.filter_some]
      unfold keep
      split
      · exact (hhead _).trans (if_pos rfl)
      · rw [ih, get?_eq_none_of_risesFrom hrise (Nat.le_refl j)]
        rfl
    · rw [if_neg hj]
      unfold keep
      split
      · exact ((hhead _).trans (if_neg hj)).trans ih
      · exact ih

theorem wf_put [DecidableEq α] (d : α) (k : Nat) (v : α) {t : AMap α} (h : wf t = true) : wf (put d k v t) = true := by
  unfold put
  split
  · rw [del_eq_keep]
    exact wf_keep _ t h
  · exact wf_ins k v t h

end Sys2Proof.AMap

namespace Sys2Proof.Machine

/-! ### The command as an access -/

theorem effect_context (s : State) (c v : Nat) (x : Seg) : s.effect 0x5000 3 c v x = s.ctxCommand c v := by
  have hmod : s.effMod 0x5000 3 v x = none := by simp [State.effMod, within]
  have hfuse : s.effFuse 0x5000 3 v = none := by simp [State.effFuse, within]
  have hunit : s.effUnit 0x5000 3 c v x = some (s.ctxCommand c v) := by simp [State.effUnit, within]
  have hjudge (u : State) : u.judgeCrc 0x5000 3 = u := by
    have hset : inSafetySet 0x5000 3 = false := by decide
    simp [State.judgeCrc, hset]
  unfold State.effect
  rw [hmod, hfuse, hunit]
  dsimp only [Option.orElse_eq_orElse, HOrElse.hOrElse, OrElse.orElse, Option.orElse]
  rw [hjudge]

/-- An accepted context command: its effect on the selected context, in canonical form, and its answer. -/
theorem access_context {s r : State} {path v st : Nat} (hs : Invariant s) (h : Accepted s path 0x5000 3 1 v)
    (he : s.ctxCommand (s.sel path 0x5000) v = (r, st)) (hp : r.pending = s.pending) (hf : r.flash = s.flash) :
    ∃ t, s.done (s.access path 0x5000 3 1 v Seg.none) = .next t ∧
      t = { r with mem := cellCanon 0 r.mem, dict := t.dict, md := t.md } ∧ SameOd [odKey 0x2002 3 0] r t ∧ Answered path st t := by
  have hinst : s.instOf path 0x5000 3 = s.sel path 0x5000 := rfl
  obtain ⟨t, ht, hframe, hod, hans, _⟩ := access_spec Seg.none rfl h (fun hc => absurd hc.1 (by decide))
    ((congrArg (s.effect 0x5000 3 · v Seg.none) hinst).trans ((effect_context s _ v _).trans he))
  rw [ht]
  refine ⟨_, State.done_of_flash hs (by rw [hframe]; exact hp) (by rw [hframe]; exact hf), ?_, hod, hans⟩
  have hm : t.mem = r.mem := by rw [hframe]
  rw [hm]
  conv_lhs => rw [hframe]

/-- The same of a command that leaves memory and dictionary alone. -/
theorem access_context_quiet {s r : State} {path v st : Nat} (hs : Invariant s) (h : Accepted s path 0x5000 3 1 v)
    (he : s.ctxCommand (s.sel path 0x5000) v = (r, st)) (hp : r.pending = s.pending) (hf : r.flash = s.flash)
    (hm : r.mem = s.mem) (hd : r.dict = s.dict) :
    ∃ t, s.done (s.access path 0x5000 3 1 v Seg.none) = .next t ∧ t = { r with dict := t.dict, md := t.md } ∧
      SameBytes s t ∧ SameOd [odKey 0x2002 3 0] s t ∧ Answered path st t := by
  obtain ⟨t, ht, hframe, hod, hans⟩ := access_context hs h he hp hf
  have hcanon : cellCanon 0 r.mem = r.mem := cellCanon_of_wf 0 _ (by rw [hm]; exact hs.1)
  rw [hcanon] at hframe
  have hods : SameOd [odKey 0x2002 3 0] s t := (SameOd.of_dict _ hd).trans hod
  exact ⟨t, ht, hframe, SameBytes.of_mem (by rw [hframe]; exact hm) (hods.interleaved (by decide)) (by rw [hframe]; exact hf), hods, hans⟩

/-! ### Open (R53, R62, R65, R385) -/

/-- The context that Open puts in service, what it owes apart. -/
def State.openedCtx (s : State) (c : Nat) : Ctx :=
  { Ctx.zero with
    st := .opened
    rsv := if s.cls c = 0 then (s.freeCoresOf (s.home c)).take (s.od 0x5000 0x15 c) ++
      (s.freeCoresOf (s.shadowDie c)).take (s.od 0x5000 0x15 c) else []
    rsvCl := if s.cls c = 1 then maskClus (s.od 0x5000 0x15 c) else []
    pool := if s.isSC c then s.od 0x5000 0x17 c else 0
    periodAt := s.dspTime (s.home c)
    quota := s.od 0x5000 0x13 c
    period := s.od 0x5000 0x14 c
    remain := s.od 0x5000 0x13 c }

theorem openWindows_frame (s : State) (c : Nat) : ∃ ms, s.openWindows c = { s with isl := { s.isl with mons := ms } } := by
  refine List.foldlRecOn (b := s) (motive := fun u => ∃ ms, u = { s with isl := { s.isl with mons := ms } }) _ _ ⟨_, rfl⟩
    (fun u hu i _ => ?_)
  obtain ⟨ms, rfl⟩ := hu
  split <;> exact ⟨_, rfl⟩

/-- What an opened D context is owed for the rest of its die's share window (R65). -/
def State.openedOwed (s : State) (c : Nat) : Nat :=
  let u := s.setCtx c (s.openedCtx c)
  if u.cls c = 3 then
    u.owedFor c (s.home c) ((s.die (s.home c)).windowAt + (s.die (s.home c)).windowLen - s.dspTime (s.home c)) else 0

theorem openContext_of_check {s : State} {c : Nat} (h : s.openCheck c = none) :
    s.openContext c =
      (((s.setCtx c (s.openedCtx c)).setCtx c { s.openedCtx c with owed := s.openedOwed c }).openWindows c, 0) := by
  unfold State.openContext
  rw [h]
  rfl

/-! ### Flush (R52) -/

/-- Flush ends what waits or is stopped, discards what the ring holds unread and leaves the context Paused. -/
theorem flushContext_of_running {s : State} {c : Nat} (h : (s.ctx c).st = .opened ∨ (s.ctx c).st = .paused) :
    s.flushContext c = ((s.endWhere (fun d => d.ctx == c && decide (d.st ≠ .running)) 0x0406 0x08).setCtx c
      { s.ctx c with st := .paused, cons := (s.ctx c).prod }, 0) := by
  unfold State.flushContext
  dsimp only
  rw [if_pos h]

/-! ### Close (R485) -/

/-- The streams of a closing context end. -/
def State.closeStreams (s : State) (c : Nat) : State :=
  s.strs.foldl (fun s p => if p.2.owner = c ∧ p.2.st ≠ .free then s.endStream p.1 else s) s

/-- Its objects are destroyed. -/
def State.closeObjects (s : State) (c : Nat) : State :=
  s.objs.foldl (fun s p => if p.2.owner = c ∧ p.2.st ≠ .destroying then destroyObj s p.1 else s) s

/-- Its maps retire, its staging requests end, its reservations are released. -/
def State.closeRest (s : State) (c : Nat) : State :=
  let s := s.apers.foldl (closeAper c) s
  (s.setCtx c { s.ctx c with st := .closed, rsv := [], rsvCl := [], pool := 0 }).sweepHolds

theorem closeContext_of_closable {s : State} {c : Nat} (h : s.closable c = true) :
    s.closeContext c =
      (State.closeRest (List.foldl (closeMap c) ((s.closeStreams c).closeObjects c) ((s.closeStreams c).closeObjects c).maps) c, 0) := by
  unfold State.closeContext
  rw [h]
  rfl

/-! #### Streams -/

theorem endStream_frame (s : State) (x : Nat) :
    ∃ co, s.endStream x = { s with cores := co, objs := AMap.del (s.strm x).obj s.objs, strs := (s.endStream x).strs } := by
  unfold State.endStream
  dsimp only
  split <;> exact ⟨_, rfl⟩

theorem endStream_strm (s : State) (x y : Nat) : (s.endStream x).strm y = if x = y then Strm.zero else s.strm y := by
  unfold State.endStream
  dsimp only
  rw [State.setStrm_strm]
  split
  · rfl
  · split <;> rfl

/-- A stream that is Free, or whose end is still to come, is Free when the streams have ended. -/
theorem foldl_endStream_free (c x : Nat) (l : AMap Strm) (s : State)
    (h : (s.strm x).st = .free ∨ ∃ p, p ∈ l ∧ p.1 = x ∧ p.2.owner = c ∧ p.2.st ≠ .free) :
    ((l.foldl (fun s p => if p.2.owner = c ∧ p.2.st ≠ .free then s.endStream p.1 else s) s).strm x).st = .free := by
  induction l generalizing s with
  | nil => exact h.resolve_right (fun ⟨p, hp, _⟩ => absurd hp List.not_mem_nil)
  | cons q l ih =>
    rw [List.foldl_cons]
    refine ih _ ?_
    rcases h with h | ⟨p, hp, hx, ho, hst⟩
    · left
      split
      · rw [endStream_strm]
        split
        · rfl
        · exact h
      · exact h
    · rcases List.mem_cons.mp hp with rfl | hp
      · left
        rw [if_pos ⟨ho, hst⟩, endStream_strm, if_pos hx]
        rfl
      · exact Or.inr ⟨p, hp, hx, ho, hst⟩

theorem closeStreams_strm {s : State} {c x : Nat} (h : (s.strm x).owner = c) : ((s.closeStreams c).strm x).st = .free := by
  refine foldl_endStream_free c x s.strs s ?_
  by_cases hfree : (s.strm x).st = .free
  · exact Or.inl hfree
  · rcases AMap.getD_eq_or_mem x Strm.zero s.strs with hz | hm
    · exact absurd (congrArg Strm.st hz) hfree
    · exact Or.inr ⟨_, hm, rfl, h, hfree⟩

/-- Ending streams frees their cores' banks and their backing objects (R159, Table 11-2). -/
theorem closeStreams_frame (s : State) (c : Nat) :
    ∃ co os st, s.closeStreams c = { s with cores := co, objs := os, strs := st } ∧ (AMap.wf s.objs = true → AMap.wf os = true) ∧
      ∀ h, AMap.getD h Obj.zero os = AMap.getD h Obj.zero s.objs ∨ AMap.getD h Obj.zero os = Obj.zero := by
  refine List.foldlRecOn (b := s) (motive := fun u => ∃ co os st, u = { s with cores := co, objs := os, strs := st } ∧
    (AMap.wf s.objs = true → AMap.wf os = true) ∧
    ∀ h, AMap.getD h Obj.zero os = AMap.getD h Obj.zero s.objs ∨ AMap.getD h Obj.zero os = Obj.zero)
    _ _ ⟨_, _, _, rfl, id, fun _ => Or.inl rfl⟩ (fun u hu p _ => ?_)
  obtain ⟨co, os, st, rfl, hwf, hget⟩ := hu
  split
  · obtain ⟨co', he⟩ := endStream_frame { s with cores := co, objs := os, strs := st } p.1
    rw [he]
    refine ⟨_, _, _, rfl, fun h => ?_, fun h => ?_⟩
    · rw [AMap.del_eq_keep]
      exact AMap.wf_keep _ _ (hwf h)
    · unfold AMap.getD
      rw [AMap.get?_del]
      split
      · exact Or.inr rfl
      · exact hget h
  · exact ⟨_, _, _, rfl, hwf, hget⟩

/-! #### Objects -/

/-- An object is on its way to destruction, or gone. -/
def Obj.leaving (o : Obj) : Prop := o.st = .destroying ∨ o.st = .free

/-- The sweep drops objects that are being destroyed, and changes no other. -/
theorem sweepHolds_obj {s : State} (hwf : AMap.wf s.objs = true) (h : Nat) :
    AMap.wf s.sweepHolds.objs = true ∧ (s.sweepHolds.obj h = s.obj h ∨ s.sweepHolds.obj h = Obj.zero) := by
  have hobjs : s.sweepHolds.objs = AMap.keep (fun h (o : Obj) => !(decide (o.st = ObjSt.destroying) && !(s.objHeld h))) s.objs := by
    unfold State.sweepHolds
    dsimp only
    split <;> rfl
  unfold State.obj
  rw [hobjs]
  refine ⟨AMap.wf_keep _ _ hwf, ?_⟩
  unfold AMap.getD
  rw [AMap.get?_keep_of_wf h _ hwf]
  cases AMap.get? h s.objs with
  | none => exact Or.inl rfl
  | some o =>
    rw [Option.filter_some]
    split
    · exact Or.inl rfl
    · exact Or.inr rfl

/-- The objects' table is in order, and object `h` is leaving if `p` says so. -/
def Leaves (h : Nat) (p : Prop) (s : State) : Prop := AMap.wf s.objs = true ∧ (p → (s.obj h).leaving)

theorem Leaves.sweepHolds {s : State} {h : Nat} {p : Prop} (hl : Leaves h p s) : Leaves h p s.sweepHolds := by
  obtain ⟨hwf, hobj⟩ := sweepHolds_obj hl.1 h
  refine ⟨hwf, fun hp => ?_⟩
  rcases hobj with e | e <;> rw [e]
  · exact hl.2 hp
  · exact Or.inr rfl

theorem Leaves.setObj {s : State} {h k : Nat} {p : Prop} {o : Obj} (hwf : AMap.wf s.objs = true)
    (ho : p → h = k → o.leaving) (hk : p → h ≠ k → (s.obj k).leaving) : Leaves k p (s.setObj h o) := by
  refine ⟨AMap.wf_put Obj.zero h o hwf, fun hp => ?_⟩
  rw [State.setObj_obj]
  split
  · rename_i e
    exact ho hp e
  · rename_i e
    exact hk hp e

theorem destroyObj_frame (s : State) (h : Nat) :
    ∃ x pg sp, destroyObj s h = { s with dict := x, pages := pg, objs := (destroyObj s h).objs, spills := sp } := by
  unfold destroyObj
  dsimp only
  generalize hu : ite ((s.obj h).kind = 3) _ _ = u
  have hframe : ∃ pg os, u = { s with pages := pg, objs := os } := by
    rw [← hu]
    split <;> exact ⟨_, _, rfl⟩
  obtain ⟨pg, os, rfl⟩ := hframe
  obtain ⟨x, pg', os', hs, _⟩ := sweepHolds_frame { s with pages := pg, objs := os }
  rw [hs]
  exact ⟨_, _, _, rfl⟩

/-- A destroyed object leaves, and one that is leaving goes on to. -/
theorem Leaves.destroyObj {s : State} {h k : Nat} {p : Prop} (hl : Leaves k p s) : Leaves k (h = k ∨ p) (destroyObj s h) := by
  unfold Machine.destroyObj
  dsimp only
  have hset : Leaves k (h = k ∨ p) (s.setObj h { s.obj h with st := .destroying }) :=
    Leaves.setObj hl.1 (fun _ _ => Or.inl rfl) (fun hp hne => hl.2 (hp.resolve_left hne))
  generalize hu : ite ((s.obj h).kind = 3) _ _ = u
  have hobjs : u.objs = (s.setObj h { s.obj h with st := .destroying }).objs := by
    rw [← hu]
    split <;> rfl
  have hleaves : Leaves k (h = k ∨ p) u := by
    unfold Leaves State.obj at hset ⊢
    rw [hobjs]
    exact hset
  exact hleaves.sweepHolds

/-- Whether object `k` is among those that a list has of context `c` and that are not being destroyed. -/
def Doomed (c k : Nat) (l : AMap Obj) : Prop := ∃ p, p ∈ l ∧ p.1 = k ∧ p.2.owner = c ∧ p.2.st ≠ .destroying

theorem foldl_destroyObj_leaves {c k : Nat} {p : Prop} (l : AMap Obj) (s : State) (hl : Leaves k p s) :
    Leaves k (p ∨ Doomed c k l)
      (l.foldl (fun s p => if p.2.owner = c ∧ p.2.st ≠ .destroying then destroyObj s p.1 else s) s) := by
  induction l generalizing s p with
  | nil => exact ⟨hl.1, fun h => hl.2 (h.resolve_right (fun ⟨q, hq, _⟩ => absurd hq List.not_mem_nil))⟩
  | cons q l ih =>
    rw [List.foldl_cons]
    by_cases hq : q.2.owner = c ∧ q.2.st ≠ .destroying
    · rw [if_pos hq]
      obtain ⟨hwf, hleave⟩ := ih (destroyObj s q.1) (hl.destroyObj (h := q.1))
      refine ⟨hwf, fun h => hleave ?_⟩
      rcases h with h | ⟨r, hr, hk, hd⟩
      · exact Or.inl (Or.inr h)
      · rcases List.mem_cons.mp hr with rfl | hr
        · exact Or.inl (Or.inl hk)
        · exact Or.inr ⟨r, hr, hk, hd⟩
    · rw [if_neg hq]
      obtain ⟨hwf, hleave⟩ := ih s hl
      refine ⟨hwf, fun h => hleave ?_⟩
      rcases h with h | ⟨r, hr, hk, hd⟩
      · exact Or.inl h
      · rcases List.mem_cons.mp hr with rfl | hr
        · exact absurd hd hq
        · exact Or.inr ⟨r, hr, hk, hd⟩

theorem closeObjects_frame (s : State) (c : Nat) :
    ∃ x pg os sp, s.closeObjects c = { s with dict := x, pages := pg, objs := os, spills := sp } := by
  refine List.foldlRecOn (b := s) (motive := fun u => ∃ x pg os sp, u = { s with dict := x, pages := pg, objs := os, spills := sp })
    _ _ ⟨_, _, _, _, rfl⟩ (fun u hu p _ => ?_)
  obtain ⟨x, pg, os, sp, rfl⟩ := hu
  split
  · obtain ⟨x', pg', sp', h⟩ := destroyObj_frame { s with dict := x, pages := pg, objs := os, spills := sp } p.1
    rw [h]
    exact ⟨_, _, _, _, rfl⟩
  · exact ⟨_, _, _, _, rfl⟩

/-- Every object of a closing context is leaving once its streams have ended and its objects are destroyed. -/
theorem closeObjects_leaves {s : State} {c h : Nat} (hwf : AMap.wf s.objs = true) (ho : (s.obj h).owner = c) :
    Leaves h True ((s.closeStreams c).closeObjects c) := by
  obtain ⟨co, os, st, hframe, hwfs, hget⟩ := closeStreams_frame s c
  rw [hframe]
  have hstart : Leaves h ((State.obj { s with objs := os } h).leaving) { s with cores := co, objs := os, strs := st } :=
    ⟨hwfs hwf, id⟩
  obtain ⟨hwf', hleave⟩ := foldl_destroyObj_leaves (c := c) os _ hstart
  refine ⟨hwf', fun _ => hleave ?_⟩
  by_cases hl : (State.obj { s with objs := os } h).leaving
  · exact Or.inl hl
  · right
    unfold Obj.leaving at hl
    rw [not_or] at hl
    rcases AMap.getD_eq_or_mem h Obj.zero os with hz | hm
    · exact absurd (congrArg Obj.st hz) hl.2
    · rcases hget h with e | e
      · exact ⟨_, hm, rfl, (congrArg Obj.owner e).trans ho, hl.1⟩
      · exact absurd (congrArg Obj.st e) hl.2

/-! #### Maps -/

/-- A map is retiring, or no longer defined. -/
def SdMap.retired (m : SdMap) : Prop := m.st = .retiring ∨ m.st = .undef

/-- A retiring map becomes undefined, or stays; no other map changes (R192). -/
theorem mapRetireFree_frame (s : State) (n : Nat) :
    ∃ mp ds, mapRetireFree s n = { s with maps := mp, descs := ds } ∧
      ∀ k, AMap.getD k SdMap.zero mp = s.sdMap k ∨ AMap.getD k SdMap.zero mp = SdMap.zero := by
  have hfree (k : Nat) : (s.setMap n SdMap.zero).sdMap k = s.sdMap k ∨ (s.setMap n SdMap.zero).sdMap k = SdMap.zero := by
    rw [State.setMap_sdMap]
    split
    · exact Or.inr rfl
    · exact Or.inl rfl
  unfold mapRetireFree
  dsimp only
  split
  · split
    · split <;> exact ⟨_, _, rfl, hfree⟩
    · exact ⟨_, _, rfl, hfree⟩
  · exact ⟨_, _, rfl, fun k => Or.inl rfl⟩

theorem closeMap_frame (c : Nat) (s : State) (p : Nat × SdMap) : ∃ mp ds, closeMap c s p = { s with maps := mp, descs := ds } := by
  unfold closeMap
  split
  · obtain ⟨mp, ds, h, _⟩ := mapRetireFree_frame (s.setMap p.1 { s.sdMap p.1 with st := .retiring }) p.1
    rw [h]
    exact ⟨_, _, rfl⟩
  · exact ⟨_, _, rfl⟩

theorem closeMap_retired {c k : Nat} {s : State} {p : Nat × SdMap}
    (h : (s.sdMap k).retired ∨ (p.1 = k ∧ p.2.owner = c ∧ p.2.st ≠ .undef)) : ((closeMap c s p).sdMap k).retired := by
  unfold closeMap
  split
  · obtain ⟨mp, ds, he, hmp⟩ := mapRetireFree_frame (s.setMap p.1 { s.sdMap p.1 with st := .retiring }) p.1
    rw [he]
    have hset : ((s.setMap p.1 { s.sdMap p.1 with st := .retiring }).sdMap k).retired := by
      rw [State.setMap_sdMap]
      split
      · exact Or.inl rfl
      · rename_i hne
        exact h.resolve_right (fun hp => hne hp.1)
    rcases hmp k with e | e
    · exact (congrArg SdMap.retired e).mpr hset
    · exact (congrArg SdMap.retired e).mpr (Or.inr rfl)
  · rename_i hno
    exact h.resolve_right (fun hp => hno hp.2)

theorem foldl_closeMap_frame (c : Nat) (l : AMap SdMap) (s : State) :
    ∃ mp ds, l.foldl (closeMap c) s = { s with maps := mp, descs := ds } := by
  refine List.foldlRecOn (b := s) (motive := fun u => ∃ mp ds, u = { s with maps := mp, descs := ds }) _ _ ⟨_, _, rfl⟩
    (fun u hu p _ => ?_)
  obtain ⟨mp, ds, rfl⟩ := hu
  obtain ⟨mp', ds', h⟩ := closeMap_frame c { s with maps := mp, descs := ds } p
  rw [h]
  exact ⟨_, _, rfl⟩

theorem foldl_closeMap_retired {c k : Nat} (l : AMap SdMap) (s : State)
    (h : (s.sdMap k).retired ∨ ∃ p, p ∈ l ∧ p.1 = k ∧ p.2.owner = c ∧ p.2.st ≠ .undef) :
    ((l.foldl (closeMap c) s).sdMap k).retired := by
  induction l generalizing s with
  | nil => exact h.resolve_right (fun ⟨p, hp, _⟩ => absurd hp List.not_mem_nil)
  | cons q l ih =>
    rw [List.foldl_cons]
    refine ih _ ?_
    rcases h with h | ⟨p, hp, hk⟩
    · exact Or.inl (closeMap_retired (Or.inl h))
    · rcases List.mem_cons.mp hp with rfl | hp
      · exact Or.inl (closeMap_retired (Or.inr hk))
      · exact Or.inr ⟨p, hp, hk⟩

/-- Every map that the closing context defined is retiring or undefined once its maps have been closed. -/
theorem closeMaps_retired {s : State} {c n : Nat} (h : (s.sdMap n).owner = c) :
    ((s.maps.foldl (closeMap c) s).sdMap n).retired := by
  refine foldl_closeMap_retired s.maps s ?_
  by_cases hr : (s.sdMap n).retired
  · exact Or.inl hr
  · right
    unfold SdMap.retired at hr
    rw [not_or] at hr
    rcases AMap.getD_eq_or_mem n SdMap.zero s.maps with hz | hm
    · exact absurd (congrArg SdMap.st hz) hr.2
    · exact ⟨_, hm, rfl, h, hr.2⟩

/-! #### Staging requests and reservations -/

theorem dropHold_frame (s : State) (h : Nat) : ∃ x pg os, s.dropHold h = { s with dict := x, pages := pg, objs := os } := by
  unfold State.dropHold
  obtain ⟨x, pg, os, hs, _⟩ := sweepHolds_frame (s.setObj h { s.obj h with holds := (s.obj h).holds - 1 })
  rw [hs]
  exact ⟨_, _, _, rfl⟩

theorem Leaves.dropHold {s : State} {k : Nat} {p : Prop} (hl : Leaves k p s) (h : Nat) : Leaves k p (s.dropHold h) := by
  unfold State.dropHold
  refine Leaves.sweepHolds (Leaves.setObj hl.1 (fun hp e => ?_) (fun hp _ => hl.2 hp))
  subst e
  exact hl.2 hp

/-- The aperture has left what it was doing; its object is still held. -/
def State.aperLeft (s : State) (a st status : Nat) : State :=
  let s := s.setAper a { s.aper a with st := st, status := status, blocks := 0, want := 0, covered := [], drained := [],
                                       noted := false, data := [], ready := false, boot := false }
  { s with stageQ := s.stageQ.filter (· ≠ a) }

theorem leaveAper_eq (s : State) (a st status : Nat) :
    s.leaveAper a st status =
      if (s.aper a).holding then (s.aperLeft a st status).dropHold (s.aper a).handle else s.aperLeft a st status := rfl

theorem leaveAper_frame (s : State) (a st status : Nat) :
    ∃ x pg os ap q, s.leaveAper a st status = { s with dict := x, pages := pg, objs := os, apers := ap, stageQ := q } := by
  rw [leaveAper_eq]
  split
  · obtain ⟨x, pg, os, h⟩ := dropHold_frame (s.aperLeft a st status) (s.aper a).handle
    rw [h]
    exact ⟨_, _, _, _, _, rfl⟩
  · exact ⟨_, _, _, _, _, rfl⟩

theorem Leaves.leaveAper {s : State} {k : Nat} {p : Prop} (hl : Leaves k p s) (a st status : Nat) :
    Leaves k p (s.leaveAper a st status) := by
  have hleft : Leaves k p (s.aperLeft a st status) := hl
  rw [leaveAper_eq]
  split
  · exact hleft.dropHold _
  · exact hleft

theorem closeAper_frame (c : Nat) (s : State) (p : Nat × Aper) :
    ∃ x pg os ap q, closeAper c s p = { s with dict := x, pages := pg, objs := os, apers := ap, stageQ := q } := by
  unfold closeAper
  split
  · split
    · exact leaveAper_frame s _ _ _
    split
    · exact leaveAper_frame s _ _ _
    · exact ⟨_, _, _, _, _, rfl⟩
  · exact ⟨_, _, _, _, _, rfl⟩

theorem Leaves.closeAper {s : State} {k : Nat} {q : Prop} (hl : Leaves k q s) (c : Nat) (p : Nat × Aper) :
    Leaves k q (closeAper c s p) := by
  unfold Machine.closeAper
  split
  · split
    · exact hl.leaveAper _ _ _
    split
    · exact hl.leaveAper _ _ _
    · exact hl
  · exact hl

theorem foldl_closeAper_frame (c : Nat) (l : AMap Aper) (s : State) :
    ∃ x pg os ap q, l.foldl (closeAper c) s = { s with dict := x, pages := pg, objs := os, apers := ap, stageQ := q } := by
  refine List.foldlRecOn (b := s)
    (motive := fun u => ∃ x pg os ap q, u = { s with dict := x, pages := pg, objs := os, apers := ap, stageQ := q })
    _ _ ⟨_, _, _, _, _, rfl⟩ (fun u hu p _ => ?_)
  obtain ⟨x, pg, os, ap, q, rfl⟩ := hu
  obtain ⟨x', pg', os', ap', q', h⟩ := closeAper_frame c { s with dict := x, pages := pg, objs := os, apers := ap, stageQ := q } p
  rw [h]
  exact ⟨_, _, _, _, _, rfl⟩

/-- The end of its staging requests and reservations touches nothing of a closing context but the context. -/
theorem closeRest_frame (s : State) (c : Nat) :
    ∃ x cs pg os ap q, s.closeRest c = { s with dict := x, ctxs := cs, pages := pg, objs := os, apers := ap, stageQ := q } ∧
      ∀ k, AMap.getD k Ctx.zero cs = if c = k then { s.ctx c with st := .closed, rsv := [], rsvCl := [], pool := 0 } else s.ctx k := by
  unfold State.closeRest
  dsimp only
  obtain ⟨x, pg, os, ap, q, h⟩ := foldl_closeAper_frame c s.apers s
  rw [h]
  generalize hu : State.setCtx _ c _ = u
  obtain ⟨x', pg', os', h', _⟩ := sweepHolds_frame u
  rw [h']
  subst hu
  exact ⟨_, _, _, _, _, _, rfl, fun k => State.setCtx_ctx _ _ _ _⟩

theorem Leaves.closeRest {s : State} {k : Nat} {p : Prop} (hl : Leaves k p s) (c : Nat) : Leaves k p (s.closeRest c) := by
  have hapers : Leaves k p (s.apers.foldl (Machine.closeAper c) s) :=
    List.foldlRecOn (b := s) (motive := fun u => Leaves k p u) _ _ hl (fun _ hu q _ => hu.closeAper c q)
  unfold State.closeRest
  exact Leaves.sweepHolds (s := State.setCtx _ c _) hapers

/-- What a closing context leaves: itself Closed, its streams Free, its maps retired and its objects leaving. -/
theorem closeContext_spec {s : State} {c : Nat} (h : s.closable c = true) :
    ∃ x ds cs co pg st mp os sp ap q,
      s.closeContext c = ({ s with dict := x, descs := ds, ctxs := cs, cores := co, pages := pg, strs := st, maps := mp, objs := os,
                                   spills := sp, apers := ap, stageQ := q }, 0) ∧
      (∀ k, AMap.getD k Ctx.zero cs =
        if c = k then { s.ctx c with st := .closed, rsv := [], rsvCl := [], pool := 0 } else s.ctx k) ∧
      (∀ x, (s.strm x).owner = c → (AMap.getD x Strm.zero st).st = .free) ∧
      (∀ n, (s.sdMap n).owner = c → (AMap.getD n SdMap.zero mp).retired) ∧
      (AMap.wf s.objs = true → ∀ h, (s.obj h).owner = c → (AMap.getD h Obj.zero os).leaving) := by
  rw [closeContext_of_closable h]
  obtain ⟨co, os, st, h1, _, _⟩ := closeStreams_frame s c
  obtain ⟨x2, pg2, os2, sp2, h2⟩ := closeObjects_frame (s.closeStreams c) c
  obtain ⟨mp3, ds3, h3⟩ := foldl_closeMap_frame c ((s.closeStreams c).closeObjects c).maps ((s.closeStreams c).closeObjects c)
  generalize hv : ((s.closeStreams c).closeObjects c).maps.foldl (closeMap c) ((s.closeStreams c).closeObjects c) = v at h3 ⊢
  obtain ⟨x4, cs4, pg4, os4, ap4, q4, h4, hctx⟩ := closeRest_frame v c
  have hstrs (x : Nat) (hx : (s.strm x).owner = c) : (AMap.getD x Strm.zero v.strs).st = .free := by
    have hfree := closeStreams_strm hx
    rw [h3, h2]
    exact hfree
  have hmaps (n : Nat) (hn : (s.sdMap n).owner = c) : (AMap.getD n SdMap.zero v.maps).retired := by
    have hsame : ((s.closeStreams c).closeObjects c).sdMap n = s.sdMap n := by rw [h2, h1]; rfl
    rw [← hv]
    exact closeMaps_retired (hsame ▸ hn)
  have hobjs (hwf : AMap.wf s.objs = true) (k : Nat) (hk : (s.obj k).owner = c) : (AMap.getD k Obj.zero os4).leaving := by
    have hv : Leaves k True v := by
      have hl := closeObjects_leaves hwf hk
      rw [h3]
      exact hl
    have hl := (hv.closeRest c).2 trivial
    rw [h4] at hl
    exact hl
  have hvctx (k : Nat) : v.ctx k = s.ctx k := by rw [h3, h2, h1]; rfl
  simp only [hvctx] at hctx
  rw [h4]
  generalize hst : v.strs = st' at hstrs
  generalize hmp : v.maps = mp' at hmaps
  rw [h3, h2, h1] at hst hmp ⊢
  exact ⟨_, _, _, _, _, _, _, _, _, _, _, rfl, hctx, fun x hx => hst ▸ hstrs x hx, fun n hn => hmp ▸ hmaps n hn, hobjs⟩

end Sys2Proof.Machine

namespace Sys2Proof

open Sys2Proof.Machine

section
variable {s : State} {path c : Nat}

theorem exec_contextOpen (hs : Invariant s) (hsel : s.sel path 0x5000 = c) (ha : Accepted s path 0x5000 3 1 1)
    (hcheck : s.openCheck c = none) :
    ∃ t, exec (.contextOpen path) s = .next t ∧ t = { s with dict := t.dict, ctxs := t.ctxs, md := t.md, isl := t.isl } ∧
      SameBytes s t ∧ SameOd [odKey 0x2002 3 0] s t ∧ Answered path 0 t ∧ t.isl = { s.isl with mons := t.isl.mons } ∧
      ∀ k, t.ctx k = if c = k then { s.openedCtx c with owed := s.openedOwed c } else s.ctx k := by
  have hcmd := openContext_of_check hcheck
  obtain ⟨ms, hms⟩ := openWindows_frame ((s.setCtx c (s.openedCtx c)).setCtx c { s.openedCtx c with owed := s.openedOwed c }) c
  rw [hms] at hcmd
  obtain ⟨t, hexec, hframe, hbytes, hod, hans⟩ := access_context_quiet hs ha ((congrArg (s.ctxCommand · 1) hsel).trans hcmd)
    rfl rfl rfl rfl
  refine ⟨t, hexec, by rw [hframe]; rfl, hbytes, hod, hans, by rw [hframe]; rfl, fun k => ?_⟩
  have hctx : t.ctx k = ((s.setCtx c (s.openedCtx c)).setCtx c { s.openedCtx c with owed := s.openedOwed c }).ctx k := by
    rw [hframe]; rfl
  rw [hctx, State.setCtx_ctx, State.setCtx_ctx]
  split <;> rfl

/-- Pause, Resume and the like: a command that sets the context alone. -/
theorem access_setCtx {v : Nat} {x : Ctx} (hs : Invariant s) (hsel : s.sel path 0x5000 = c) (ha : Accepted s path 0x5000 3 1 v)
    (hcmd : s.ctxCommand c v = (s.setCtx c x, 0)) :
    ∃ t, s.done (s.access path 0x5000 3 1 v Seg.none) = .next t ∧ t = { s with dict := t.dict, ctxs := t.ctxs, md := t.md } ∧
      SameBytes s t ∧ SameOd [odKey 0x2002 3 0] s t ∧ Answered path 0 t ∧ (∀ k, k ≠ c → t.ctx k = s.ctx k) ∧ t.ctx c = x := by
  obtain ⟨t, hexec, hframe, hbytes, hod, hans⟩ := access_context_quiet hs ha ((congrArg (s.ctxCommand · v) hsel).trans hcmd)
    rfl rfl rfl rfl
  have hctx (k : Nat) : t.ctx k = (s.setCtx c x).ctx k := by rw [hframe]; rfl
  refine ⟨t, hexec, by rw [hframe]; rfl, hbytes, hod, hans, fun k hk => ?_, ?_⟩
  · rw [hctx, State.setCtx_ctx, if_neg (Ne.symm hk)]
  · rw [hctx, State.setCtx_ctx, if_pos rfl]

/-- A command that its context's state does not allow is answered 0x030D and changes nothing else. -/
theorem access_context_refused {v : Nat} (hs : Invariant s) (hsel : s.sel path 0x5000 = c) (ha : Accepted s path 0x5000 3 1 v)
    (hcmd : s.ctxCommand c v = (s, 0x030D)) :
    ∃ t, s.done (s.access path 0x5000 3 1 v Seg.none) = .next t ∧ t = { s with dict := t.dict, md := t.md } ∧ SameBytes s t ∧
      SameOd [odKey 0x2002 3 0] s t ∧ Answered path 0x030D t :=
  access_context_quiet hs ha ((congrArg (s.ctxCommand · v) hsel).trans hcmd) rfl rfl rfl rfl

/-- Flush, where nothing is stopped and nothing that waits holds pages: what waits ends 0x0406, and no byte changes. -/
theorem exec_contextFlush_waiting (hs : Invariant s) (hsel : s.sel path 0x5000 = c) (ha : Accepted s path 0x5000 3 1 4)
    (hst : (s.ctx c).st = .opened ∨ (s.ctx c).st = .paused)
    (hwait : ∀ i d, s.desc? i = some d → d.st ≠ .stopped ∧ (d.st = .waiting → d.pages = [])) :
    ∃ t, exec (.contextFlush path) s = .next t ∧ t = { s with dict := t.dict, descs := t.descs, ctxs := t.ctxs, md := t.md } ∧
      SameBytes s t ∧ SameOd [odKey 0x2002 3 0] s t ∧ Answered path 0 t ∧ (∀ k, k ≠ c → t.ctx k = s.ctx k) ∧
      t.ctx c = { s.ctx c with st := .paused, cons := (s.ctx c).prod } ∧
      ∀ i, t.desc? i =
        (s.desc? i).map (fun d => if d.ctx == c && decide (d.st ≠ .running) then d.ended 0x0406 0x08 else d) := by
  obtain ⟨hend, hdesc⟩ := endWhere_waiting s (fun d => d.ctx == c && decide (d.st ≠ .running)) 0x0406 0x08 (fun i d hd hp => by
    obtain ⟨hns, hpg⟩ := hwait i d hd
    have hnr : d.st ≠ .running := of_decide_eq_true (Bool.and_eq_true_iff.mp hp).2
    have hw : d.st = .waiting := by
      cases h : d.st with
      | waiting => rfl
      | running => exact absurd h hnr
      | stopped => exact absurd h hns
    exact Or.inl ⟨hw, by rw [hpg hw]; rfl⟩)
  have hcmd := flushContext_of_running hst
  rw [hend] at hcmd
  obtain ⟨t, hexec, hframe, hbytes, hod, hans⟩ := access_context_quiet hs ha ((congrArg (s.ctxCommand · 4) hsel).trans hcmd)
    rfl rfl rfl rfl
  have hctx (k : Nat) : t.ctx k = if c = k then { s.ctx c with st := .paused, cons := (s.ctx c).prod } else s.ctx k := by
    rw [hframe]
    exact State.setCtx_ctx s c k { s.ctx c with st := .paused, cons := (s.ctx c).prod }
  refine ⟨t, hexec, by rw [hframe]; rfl, hbytes, hod, hans, fun k hk => ?_, ?_, fun i => ?_⟩
  · rw [hctx, if_neg (Ne.symm hk)]
  · rw [hctx, if_pos rfl]
  · rw [← hdesc, hframe]
    rfl

/-- Flush in general. -/
theorem exec_contextFlush (hs : Invariant s) (hsel : s.sel path 0x5000 = c) (ha : Accepted s path 0x5000 3 1 4)
    (hst : (s.ctx c).st = .opened ∨ (s.ctx c).st = .paused) :
    ∃ t, exec (.contextFlush path) s = .next t ∧
      t = { s with free := t.free, mem := t.mem, dict := t.dict, regs := t.regs, descs := t.descs, ctxs := t.ctxs,
                   pages := t.pages, maps := t.maps, md := t.md } ∧
      Answered path 0 t ∧ (t.ctx c).st = .paused ∧ (∀ k, k ≠ c → t.ctx k = s.ctx k) := by
  obtain ⟨k, m, ds, pg, q, hend⟩ := endWhere_frame s (fun d => d.ctx == c && decide (d.st ≠ .running)) 0x0406 0x08
  have hcmd := flushContext_of_running hst
  rw [hend] at hcmd
  obtain ⟨t, hexec, hframe, _, hans⟩ := access_context hs ha ((congrArg (s.ctxCommand · 4) hsel).trans hcmd) rfl rfl
  have hctx (k : Nat) : t.ctx k = if c = k then { s.ctx c with st := .paused, cons := (s.ctx c).prod } else s.ctx k := by
    rw [hframe]
    exact State.setCtx_ctx s c k { s.ctx c with st := .paused, cons := (s.ctx c).prod }
  refine ⟨t, hexec, by rw [hframe]; rfl, hans, ?_, fun k hk => ?_⟩
  · rw [hctx, if_pos rfl]
  · rw [hctx, if_neg (Ne.symm hk)]

theorem exec_contextClose (hs : Invariant s) (hsel : s.sel path 0x5000 = c) (ha : Accepted s path 0x5000 3 1 5)
    (hcl : s.closable c = true) :
    ∃ t, exec (.contextClose path) s = .next t ∧ Answered path 0 t ∧
      t = { s with mem := t.mem, dict := t.dict, regs := t.regs, descs := t.descs, ctxs := t.ctxs, cores := t.cores,
                   pages := t.pages, strs := t.strs, maps := t.maps, objs := t.objs, spills := t.spills, apers := t.apers,
                   stageQ := t.stageQ, md := t.md } ∧
      (∀ k, k ≠ c → t.ctx k = s.ctx k) ∧
      t.ctx c = { s.ctx c with st := .closed, rsv := [], rsvCl := [], pool := 0 } ∧
      (∀ x, (s.strm x).owner = c → (t.strm x).st = .free) ∧
      (AMap.wf s.objs = true → ∀ h, (s.obj h).owner = c → (s.obj h).st ≠ .free → (t.obj h).st = .destroying ∨ (t.obj h).st = .free) ∧
      (∀ n, (s.sdMap n).owner = c → (t.sdMap n).st = .retiring ∨ (t.sdMap n).st = .undef) := by
  obtain ⟨x, ds, cs, co, pg, st, mp, os, sp, ap, q, hcmd, hctx, hstrs, hmaps, hobjs⟩ := closeContext_spec hcl
  obtain ⟨t, hexec, hframe, _, hans⟩ := access_context hs ha ((congrArg (s.ctxCommand · 5) hsel).trans hcmd) rfl rfl
  refine ⟨t, hexec, hans, by rw [hframe], fun k hk => ?_, ?_, fun x hx => ?_, fun hwf h ho _ => ?_, fun n hn => ?_⟩
  · rw [hframe]
    exact (hctx k).trans (if_neg (Ne.symm hk))
  · rw [hframe]
    exact (hctx c).trans (if_pos rfl)
  · rw [hframe]
    exact hstrs x hx
  · rw [hframe]
    exact hobjs hwf h ho
  · rw [hframe]
    exact hmaps n hn

end

/-- Settles O21. A context command is an access of 0x5000:03 whose effect is the command's on the selected context; each
command's effect is followed to the state that it leaves. -/
theorem contextCommands : Obligations.ContextCommands := by
  unfold Obligations.ContextCommands
  intro s path c hs _ hsel
  refine ⟨fun ha hcheck => ?_, fun ha hst => ?_, fun ha hst => ?_, fun ha hst hwait => ?_, exec_contextFlush hs hsel,
    exec_contextClose hs hsel, fun _ i v hi ha => ?_⟩
  · obtain ⟨t, hexec, hframe, hbytes, hod, hans, hisl, hctx⟩ := exec_contextOpen hs hsel ha hcheck
    have hc := (hctx c).trans (if_pos rfl)
    refine ⟨t, hexec, hframe, hbytes, hod, hans, hisl, fun k hk => (hctx k).trans (if_neg (Ne.symm hk)), ?_⟩
    rw [hc]
    refine ⟨rfl, rfl, rfl, rfl, rfl, rfl, rfl, rfl, rfl, ?_⟩
    simp only [State.openedCtx, State.isSC, decide_eq_true_eq]
  · exact access_setCtx hs hsel ha (if_pos hst)
  · exact access_setCtx hs hsel ha (if_pos hst)
  · obtain ⟨t, hexec, hframe, hbytes, hod, hans, hother, hc, hdesc⟩ := exec_contextFlush_waiting hs hsel ha hst hwait
    refine ⟨t, hexec, hframe, hbytes, hod, hans, hother, hc, fun i d hd hrun => ?_, fun i d hd hctx hw hres => ?_⟩
    · simp [hdesc, hd, hrun]
    · simp [hdesc, hd, hctx, hw, hres, Desc.ended]
  · rcases hi with ⟨rfl, rfl, hst⟩ | ⟨rfl, rfl, hst⟩ | ⟨rfl, rfl, ho, hp⟩ | ⟨rfl, rfl, hst⟩ | ⟨rfl, rfl, hcl⟩
    · exact access_context_refused hs hsel ha (if_neg hst)
    · exact access_context_refused hs hsel ha (if_neg hst)
    · exact access_context_refused hs hsel ha (if_neg (not_or_intro ho hp))
    · refine access_context_refused hs hsel ha ?_
      have hcheck : s.openCheck c = some 0x030D := by simp [State.openCheck, firstFail, hst]
      simp only [State.ctxCommand, State.openContext, hcheck]
    · refine access_context_refused hs hsel ha ?_
      simp only [State.ctxCommand, State.closeContext, hcl, Bool.not_false, if_true]

end Sys2Proof
end

section
/-! Placement (R59, R66–R68): delay reasons, the pass over a wait list of one, preemption and the entry on cores. -/

namespace Sys2Proof.Machine

/-! ### Delay reasons (R73) -/

/-- A delayed descriptor with its reason set to `r` at `now`. -/
def Desc.delayedFor (d : Desc) (now r : Nat) : Desc := { d.setReason now r with waited := true }

/-- The new reason turns waiting into a pause: an episode begins that has its interim record. -/
def Desc.paused (d : Desc) (now r : Nat) : Desc := { d.delayedFor now r with epAt := now, interim := true }

/-- The new reason ends a pause: an episode begins that has no interim record yet. -/
def Desc.unpaused (d : Desc) (now r : Nat) : Desc := { d.delayedFor now r with epAt := now, interim := false }

theorem setReason_eq (d : Desc) (now r : Nat) :
    ∃ a n, d.setReason now r = { d with delays := a, since := n, reason := r } := by
  unfold Desc.setReason
  split
  · rename_i h
    exact ⟨_, _, by rw [← h.1]⟩
  · exact ⟨_, _, rfl⟩

theorem delayFor_of_same {s : State} {d : Desc} (id : Nat) {r : Nat} (h : d.pausedBy r = d.pausedBy d.reason) :
    s.delayFor id d r = s.setDesc id (d.delayedFor (s.dspTime d.die) r) := if_pos h

theorem delayFor_of_pauses {s : State} {d : Desc} (id : Nat) {r : Nat} (h : d.pausedBy r = true) (h' : d.pausedBy d.reason = false) :
    s.delayFor id d r = (s.setDesc id (d.paused (s.dspTime d.die) r)).interim (d.delayedFor (s.dspTime d.die) r) 0x0211 0x06 := by
  have hne : d.pausedBy r ≠ d.pausedBy d.reason := by rw [h, h']; decide
  unfold State.delayFor
  dsimp only
  rw [if_neg hne, if_pos h]
  rfl

theorem delayFor_of_resumes {s : State} {d : Desc} (id : Nat) {r : Nat} (h : d.pausedBy r = false) (h' : d.pausedBy d.reason = true) :
    s.delayFor id d r = s.setDesc id (d.unpaused (s.dspTime d.die) r) := by
  have hne : d.pausedBy r ≠ d.pausedBy d.reason := by rw [h, h']; decide
  unfold State.delayFor
  dsimp only
  rw [if_neg hne, if_neg (by rw [h]; decide)]
  rfl

/-- A new delay reason touches the descriptor and what its interim record does. -/
theorem delayFor_frame (s : State) (id : Nat) (d : Desc) (r : Nat) :
    ∃ m x a n p i, s.delayFor id d r = { s.setDesc id { d with delays := a, since := n, reason := r, waited := true, epAt := p, interim := i }
      with mem := m, dies := x } := by
  obtain ⟨a, n, hset⟩ := setReason_eq d (s.dspTime d.die) r
  unfold State.delayFor
  dsimp only
  rw [hset]
  split
  · exact ⟨_, _, a, n, _, _, rfl⟩
  split
  · obtain ⟨m, x, hi⟩ := interim_frame (s.setDesc id { d with delays := a, since := n, reason := r, waited := true, epAt := s.dspTime d.die, interim := true })
      { d with delays := a, since := n, reason := r, waited := true } 0x0211 0x06
    exact ⟨m, x, a, n, _, _, hi⟩
  · exact ⟨_, _, a, n, _, _, rfl⟩

/-- A reason that does not pause writes no record. -/
theorem delayFor_of_not_paused {s : State} {d : Desc} (id : Nat) {r : Nat} (h : d.pausedBy r = false) :
    ∃ e, s.delayFor id d r = s.setDesc id e ∧ e.st = d.st ∧ e.reason = r ∧ e.waited = true ∧ e.result = d.result := by
  obtain ⟨a, n, hset⟩ := setReason_eq d (s.dspTime d.die) r
  by_cases hr : d.pausedBy d.reason = true
  · refine ⟨_, delayFor_of_resumes id h hr, ?_⟩
    rw [Desc.unpaused, Desc.delayedFor, hset]
    exact ⟨rfl, rfl, rfl, rfl⟩
  · refine ⟨_, delayFor_of_same id (h.trans (Bool.eq_false_iff.mpr hr).symm), ?_⟩
    rw [Desc.delayedFor, hset]
    exact ⟨rfl, rfl, rfl, rfl⟩

/-- Over a hub link that carries traffic an interim record goes into hub SRAM at once (R10). -/
theorem interim_of_hubLink {s : State} {d : Desc} (st oc : Nat) (h : s.hubLink d.die = true) :
    s.interim d st oc = s.wr (hub d.recOff) (recordBytes st oc 0 d.seq (s.dspTime d.die - d.start) (d.delayAt (s.dspTime d.die))
      d.reason d.coreNo d.ctx false 0 d.job) := if_pos h

theorem interim_delayedFor {s : State} {d : Desc} (now r st oc : Nat) (h : s.hubLink d.die = true) :
    s.interim (d.delayedFor now r) st oc = s.wr (hub d.recOff) (recordBytes st oc 0 d.seq (s.dspTime d.die - d.start)
      ((d.delayedFor now r).delayAt (s.dspTime d.die)) r d.coreNo d.ctx false 0 d.job) := by
  obtain ⟨a, n, hset⟩ := setReason_eq d now r
  rw [Desc.delayedFor, hset]
  exact interim_of_hubLink st oc h

theorem leave_of_desc {s : State} {id : Nat} {d : Desc} (h : s.desc? id = some d) (r : Nat) : s.leave id r = s.delayFor id d r := by
  unfold State.leave
  rw [h]

theorem shortReason_not_paused {s : State} {d : Desc} (h : d.st = .waiting) : d.pausedBy (s.shortReason d) = false := by
  have hne : ¬ (d.st = .stopped ∧ d.reason = 0x03) := by rw [h]; rintro ⟨hst, _⟩; cases hst
  unfold State.shortReason
  rw [if_neg hne]
  split
  · rfl
  split
  · rfl
  split <;> rfl

/-! ### A pass over a wait list of one (R67) -/

/-- No cores are held for a descriptor of the die. -/
def State.unheld (s : State) (die : Nat) : State := s.setDie die { s.die die with head := none, allow := [] }

section
variable {s : State} {die id : Nat} {d : Desc}

theorem place_eq (hrun : (s.die die).running = true) (hst : (s.die die).st = 0) (hw : s.waitOrder die = [id]) :
    s.place die = if (placePass [id] false s).2 then (placePass [id] false s).1 else (placePass [id] false s).1.unheld die := by
  unfold State.place
  dsimp only
  rw [if_pos ⟨hrun, hst⟩, hw]
  rfl

theorem placePass_of_blocker {r : Nat} (hd : s.desc? id = some d) (hb : s.blocker id d = some r) :
    placePass [id] false s = (s.leave id r, false) := by
  simp only [placePass, hd, hb]

theorem placePass_of_done {t : State} (hd : s.desc? id = some d) (hb : s.blocker id d = none)
    (ht : s.tryPlace id d false = .done t) : placePass [id] false s = (t, false) := by
  simp only [placePass, hd, hb, ht]

theorem placePass_of_wait {t : State} {r : Nat} (hd : s.desc? id = some d) (hb : s.blocker id d = none)
    (ht : s.tryPlace id d false = .wait t r) : placePass [id] false s = (t.leave id r, false) := by
  simp only [placePass, hd, hb, ht]

theorem placePass_of_short {t : State} {r : Nat} (hd : s.desc? id = some d) (hb : s.blocker id d = none)
    (ht : s.tryPlace id d false = .short t r) (hu : s.unitOf d = .cores) :
    placePass [id] false s = ((t.leave id r).holdFor id d, true) := by
  simp only [placePass, hd, hb, ht, hu]
  rfl

end

/-! ### Cores for a gang (R66) -/

theorem pick_of_cores {s : State} {d : Desc} (hu : s.unitOf d = .cores) (hpin : pinCoreOf s d = none) (hop : d.op ≠ 0x0210)
    (die : Nat) (free : List Nat) :
    s.pick d die free = if s.gangOf d ≤ free.length then some (s.prefer d.ctx free (s.gangOf d)) else none := by
  unfold State.pick
  dsimp only
  rw [hu]
  dsimp only
  rw [hpin]
  dsimp only
  rw [if_neg hop]

/-- A descriptor of the shared classes gets its cores among the free ones, or they are too few. -/
theorem tryPlace_of_cores {s : State} {id : Nat} {d : Desc} (hcls : 2 ≤ d.cls) (hu : s.unitOf d = .cores) (hpin : pinCoreOf s d = none)
    (hop : d.op ≠ 0x0210) :
    s.tryPlace id d false = if s.gangOf d ≤ (s.freeFor d.ctx d.cls d.die).length then
      s.placeOn id d (s.prefer d.ctx (s.freeFor d.ctx d.cls d.die) (s.gangOf d)) else .short s (s.shortReason d) := by
  have hpick := pick_of_cores hu hpin hop d.die (s.freeFor d.ctx d.cls d.die)
  unfold State.tryPlace
  rw [if_neg (fun h => by omega), hu]
  dsimp only
  rw [if_neg (by omega), if_neg (by decide), hpick]
  by_cases hfit : s.gangOf d ≤ (s.freeFor d.ctx d.cls d.die).length
  · rw [if_pos hfit, if_pos hfit]
  · rw [if_neg hfit, if_neg hfit]

theorem map_ite_congr {α β : Type} {f : α → β} {c : Prop} [Decidable c] {a a' b b' : Option α} (h : a.map f = a'.map f)
    (h' : b.map f = b'.map f) : (if c then a else b).map f = (if c then a' else b').map f := by
  split <;> assumption

theorem opInfo_unit_congr (s t : State) (d : Desc) : (opInfo s d).map (·.unit) = (opInfo t d).map (·.unit) := by
  unfold opInfo
  repeat refine map_ite_congr rfl ?_
  rfl

/-- On what a descriptor runs depends on its opcode alone. -/
theorem unitOf_congr (s t : State) (d : Desc) : s.unitOf d = t.unitOf d := by
  have h := opInfo_unit_congr s t d
  unfold State.unitOf
  cases hs : opInfo s d <;> cases ht : opInfo t d <;> simp_all

theorem op_ne_check_of_cores {s : State} {d : Desc} (h : s.unitOf d = .cores) : d.op ≠ 0x0410 := by
  intro hop
  simp [State.unitOf, opInfo, hop, checkInfo] at h

/-! ### Preemption and the cores held for a head (R68) -/

/-- `t` differs from `s` in why descriptors are asked to stop, and in nothing else. -/
def OnlyAsked (s t : State) : Prop :=
  t = { s with descs := t.descs } ∧ ∀ j e, s.desc? j = some e → ∃ w, t.desc? j = some { e with why := w }

theorem OnlyAsked.refl (s : State) : OnlyAsked s s := ⟨rfl, fun _ e h => ⟨e.why, h⟩⟩

theorem OnlyAsked.ask {s t : State} (h : OnlyAsked s t) (i : Nat) (w : StopWhy) :
    OnlyAsked s (t.updDesc i (fun d => { d with why := w })) := by
  obtain ⟨hframe, hdesc⟩ := h
  refine ⟨by rw [hframe]; rfl, fun j e he => ?_⟩
  obtain ⟨w', hw⟩ := hdesc j e he
  rw [State.updDesc_desc, hw]
  split
  · exact ⟨w, rfl⟩
  · exact ⟨w', rfl⟩

theorem OnlyAsked.preemptSome {s : State} (cle : Bool) (l : List (Nat × Desc)) (need : Nat) {t : State} (h : OnlyAsked s t) :
    OnlyAsked s (preemptSome cle l need t) := by
  induction l generalizing need t with
  | nil => exact h
  | cons p l ih =>
    unfold Machine.preemptSome
    split
    · exact h
    · exact ih _ (h.ask p.1 .preempt)

theorem OnlyAsked.preemptUnits {s : State} (d : Desc) (l : List (Nat × Desc)) (out : List Nat) {t : State} (h : OnlyAsked s t) :
    OnlyAsked s (preemptUnits d l out t) := by
  induction l generalizing out t with
  | nil => exact h
  | cons p l ih =>
    unfold Machine.preemptUnits
    split
    · exact h
    split
    · exact ih _ (h.ask p.1 .preempt)
    · exact ih _ h

theorem preemptFor_onlyAsked (s : State) (d : Desc) (n : Nat) : OnlyAsked s (s.preemptFor d n) := by
  have h := OnlyAsked.refl s
  unfold State.preemptFor
  dsimp only
  split
  · split
    · exact h.preemptUnits d _ _
    · exact h
  · split
    · exact h.preemptSome _ _ _
    · exact h

theorem holdFor_of_cores {s : State} {d : Desc} (id : Nat) (hu : s.unitOf d = .cores) :
    ∃ x, x.head = some id ∧ OnlyAsked (s.setDie d.die x) (s.holdFor id d) := by
  have hne : s.unitOf d ≠ .clearance := by rw [hu]; decide
  unfold State.holdFor
  dsimp only
  rw [if_neg hne]
  refine ⟨_, ?_, preemptFor_onlyAsked _ d _⟩
  split
  · assumption
  · rfl

/-! ### Entry on cores (R66, R443) -/

theorem wake_frame (s : State) (g : Nat) :
    ∃ x c, s.wake g = { s with dict := x, clus := c } ∧ SameOdBelow 0x4100 s { s with dict := x } := by
  unfold State.wake
  dsimp only
  split
  · refine ⟨_, _, rfl, ?_⟩
    exact SameOdBelow.bumpOd (SameOdBelow.of_dict _ rfl) (Nat.le_add_right _ _) _ _ _ _
  · exact ⟨_, _, rfl, SameOdBelow.of_dict _ rfl⟩

theorem foldl_wake_frame (l : List Nat) (s : State) :
    ∃ x c, l.foldl (fun s n => s.wake (coreClus n)) s = { s with dict := x, clus := c } ∧ SameOdBelow 0x4100 s { s with dict := x } := by
  refine List.foldlRecOn (b := s) (motive := fun u => ∃ x c, u = { s with dict := x, clus := c } ∧ SameOdBelow 0x4100 s { s with dict := x })
    _ _ ⟨_, _, rfl, SameOdBelow.of_dict _ rfl⟩ (fun u hu n _ => ?_)
  obtain ⟨x, c, rfl, hx⟩ := hu
  obtain ⟨x', c', h, hx'⟩ := wake_frame { s with dict := x, clus := c } (coreClus n)
  exact ⟨x', c', h, fun i j k hk => (hx' i j k hk).trans (hx i j k hk)⟩

/-- The descriptor runs on `cores` from `now`. -/
def Desc.entered (d : Desc) (cores : List Nat) (now : Nat) (sh : Option Shadow) : Desc :=
  { d with st := .running, cores := cores, save := none, placedAt := now, delays := d.delaysAt now, since := now, shadow := sh, why := .none }

/-- A descriptor other than a check enters: clusters wake, tests stop, its save area goes, and its entry says so. -/
theorem enterRun_of_desc {s : State} {id : Nat} {d : Desc} (cores : List Nat) (hd : s.desc? id = some d) (hop : d.op ≠ 0x0410) :
    ∃ x c g i o sh, s.enterRun id cores =
        State.setDesc { s with dict := x, clus := c, gov := g, isl := i, objs := o } id (d.entered cores (s.dspTime d.die) sh) ∧
      SameOdBelow 0x4100 s { s with dict := x } ∧ (d.save = none → o = s.objs) ∧ (2 ≤ d.cls → sh = d.shadow) := by
  obtain ⟨x, c, hwake, hod⟩ := foldl_wake_frame cores s
  unfold State.enterRun
  rw [hd]
  dsimp only
  rw [if_neg hop, hwake]
  generalize hv : ite ((State.gov _).phases.contains d.phase = true) _ _ = v
  have hgov : ∃ g, v = { s with dict := x, clus := c, gov := g } := by
    rw [← hv]
    split <;> exact ⟨_, rfl⟩
  obtain ⟨g, rfl⟩ := hgov
  generalize cores ++ _ ++ _ = els
  generalize hw : List.foldl _ _ els = w
  have hisl : ∃ i, w = { s with dict := x, clus := c, gov := g, isl := i } := by
    rw [← hw]
    refine List.foldlRecOn (b := { s with dict := x, clus := c, gov := g })
      (motive := fun u => ∃ i, u = { s with dict := x, clus := c, gov := g, isl := i }) _ _ ⟨_, rfl⟩ (fun u hu n _ => ?_)
    obtain ⟨i, rfl⟩ := hu
    split <;> exact ⟨_, rfl⟩
  obtain ⟨i, rfl⟩ := hisl
  have hshadow (a : Option Shadow) : 2 ≤ d.cls → (if d.cls = 0 ∧ d.shadow.isNone = true then a else d.shadow) = d.shadow :=
    fun h => if_neg (fun hc => by omega)
  cases hsave : d.save with
  | none => exact ⟨x, c, g, i, _, _, rfl, hod, fun _ => rfl, hshadow _⟩
  | some h => exact ⟨x, c, g, i, _, _, rfl, hod, nofun, hshadow _⟩

end Sys2Proof.Machine
end

section
/-! A descriptor that alone waits on its die (R59, R66–R68, R73): it is barred, it enters on cores, or cores are held for it. -/

namespace Sys2Proof.Machine

section
variable {s : State} {id : Nat} {d : Desc}

/-- The operations that read nothing at placement. -/
theorem placeHook_of_plain (h : d.op ∉ [0x0030, 0x0100, 0x0110, 0x0120, 0x0200, 0x0210, 0x0220, 0x0300, 0x0310, 0x0410]) :
    s.placeHook id d = .ok s := by
  simp only [List.mem_cons, List.not_mem_nil, or_false, not_or] at h
  obtain ⟨h1, h2, h3, h4, h5, h6, h7, h8, h9, h10⟩ := h
  simp only [State.placeHook, h1, h2, h3, h4, h5, h6, h7, h8, h9, h10, or_self, if_false]

section
variable (cores : List Nat) (hst : d.st = .waiting) (hcls : 2 ≤ d.cls)
include hst hcls

theorem placeOn_of_ok {x : State} (h : s.placeHook id d = .ok x) : s.placeOn id d cores = .done (x.enterRun id cores) := by
  unfold State.placeOn
  rw [if_neg (by rw [hst]; decide), if_neg (fun h => by omega), h]

theorem placeOn_of_fault {x : State} {st : Nat} (h : s.placeHook id d = .fault x st) :
    s.placeOn id d cores =
      .done ((x.enterRun id cores).updDesc id (fun d => { d with result := some { status := st, outcome := 0, flags := 0 } })) := by
  unfold State.placeOn
  rw [if_neg (by rw [hst]; decide), if_neg (fun h => by omega), h]

theorem placeOn_of_wait {x : State} {r : Nat} (h : s.placeHook id d = .wait x r) : s.placeOn id d cores = .wait x r := by
  unfold State.placeOn
  rw [if_neg (by rw [hst]; decide), if_neg (fun h => by omega), h]

end

end

end Sys2Proof.Machine

namespace Sys2Proof

open Sys2Proof.Machine

section
variable {s : State} {die id : Nat} {d : Desc}

/-! ### The command, by what becomes of the descriptor -/

section
variable (hrun : (s.die die).running = true) (hst0 : (s.die die).st = 0) (hw : s.waitOrder die = [id]) (hd : s.desc? id = some d)
include hrun hst0 hw hd

theorem exec_gangPlacement_of_blocker {r : Nat} (hb : s.blocker id d = some r) :
    exec (.gangPlacement die) s = s.done ((s.delayFor id d r).unheld die) := by
  have hplace := place_eq hrun hst0 hw
  rw [placePass_of_blocker hd hb, leave_of_desc hd] at hplace
  exact congrArg s.done hplace

theorem exec_gangPlacement_of_done {t : State} (hb : s.blocker id d = none) (ht : s.tryPlace id d false = .done t) :
    exec (.gangPlacement die) s = s.done (t.unheld die) := by
  have hplace := place_eq hrun hst0 hw
  rw [placePass_of_done hd hb ht] at hplace
  exact congrArg s.done hplace

theorem exec_gangPlacement_of_wait {t : State} {r : Nat} (hb : s.blocker id d = none) (ht : s.tryPlace id d false = .wait t r) :
    exec (.gangPlacement die) s = s.done ((t.leave id r).unheld die) := by
  have hplace := place_eq hrun hst0 hw
  rw [placePass_of_wait hd hb ht] at hplace
  exact congrArg s.done hplace

theorem exec_gangPlacement_of_short {r : Nat} (hb : s.blocker id d = none) (hu : s.unitOf d = .cores)
    (ht : s.tryPlace id d false = .short s r) :
    exec (.gangPlacement die) s = s.done ((s.delayFor id d r).holdFor id d) := by
  have hplace := place_eq hrun hst0 hw
  rw [placePass_of_short hd hb ht hu, leave_of_desc hd] at hplace
  exact congrArg s.done hplace

end

/-- What the statement of placement assumes of the state, the die and the descriptor. -/
structure WaitsAlone (s : State) (die id : Nat) (d : Desc) : Prop where
  inv : Invariant s
  running : (s.die die).running = true
  inService : (s.die die).st = 0
  order : s.waitOrder die = [id]
  desc : s.desc? id = some d
  home : d.die = die
  waiting : d.st = .waiting

variable (h : WaitsAlone s die id d)
include h

/-! ### What bars it is its delay reason -/

theorem exec_barred_same {r : Nat} (hb : s.blocker id d = some r) (hp : d.pausedBy r = d.pausedBy d.reason) :
    ∃ t, exec (.gangPlacement die) s = .next t ∧ t = { s with descs := t.descs, dies := t.dies } ∧ SameBytes s t ∧
      (∀ j, j ≠ id → t.desc? j = s.desc? j) ∧ t.desc? id = some (d.delayedFor (s.dspTime die) r) := by
  have hexec := exec_gangPlacement_of_blocker h.running h.inService h.order h.desc hb
  rw [delayFor_of_same id hp, h.home] at hexec
  exact ⟨_, hexec.trans (State.done_of_same h.inv rfl rfl rfl), rfl, SameBytes.of_dict rfl rfl rfl,
    fun j hj => (State.setDesc_desc s id j _).trans (if_neg (Ne.symm hj)), (State.setDesc_desc s id id _).trans (if_pos rfl)⟩

theorem exec_barred_resumes {r : Nat} (hb : s.blocker id d = some r) (hp : d.pausedBy r = false) (hp' : d.pausedBy d.reason = true) :
    ∃ t, exec (.gangPlacement die) s = .next t ∧ t = { s with descs := t.descs, dies := t.dies } ∧ SameBytes s t ∧
      (∀ j, j ≠ id → t.desc? j = s.desc? j) ∧ t.desc? id = some (d.unpaused (s.dspTime die) r) := by
  have hexec := exec_gangPlacement_of_blocker h.running h.inService h.order h.desc hb
  rw [delayFor_of_resumes id hp hp', h.home] at hexec
  exact ⟨_, hexec.trans (State.done_of_same h.inv rfl rfl rfl), rfl, SameBytes.of_dict rfl rfl rfl,
    fun j hj => (State.setDesc_desc s id j _).trans (if_neg (Ne.symm hj)), (State.setDesc_desc s id id _).trans (if_pos rfl)⟩

/-- A pause that begins writes the interim record of the episode, and no other byte (R73, R75). -/
theorem exec_barred_pauses {r : Nat} (hb : s.blocker id d = some r) (hp : d.pausedBy r = true) (hp' : d.pausedBy d.reason = false)
    (hlink : s.hubLink die = true) (hrec : d.recOff + 32 ≤ hubSize) :
    ∃ t, exec (.gangPlacement die) s = .next t ∧ t = { s with mem := t.mem, descs := t.descs, dies := t.dies } ∧
      (∀ j, j ≠ id → t.desc? j = s.desc? j) ∧ t.desc? id = some (d.paused (s.dspTime die) r) ∧ SameBytesBut (hub d.recOff) 32 s t ∧
      ∀ k, k < 32 → t.byteAt (hub d.recOff + k) =
        (recordBytes 0x0211 6 0 d.seq (s.dspTime die - d.start) ((d.delayedFor (s.dspTime die) r).delayAt (s.dspTime die)) r d.coreNo
          d.ctx false 0 d.job).getD k 0 := by
  obtain rfl := h.home
  have hexec := exec_gangPlacement_of_blocker h.running h.inService h.order h.desc hb
  rw [delayFor_of_pauses id hp hp', interim_delayedFor (s := s.setDesc id _) _ r _ _ hlink] at hexec
  generalize hl : recordBytes 0x0211 0x06 0 d.seq _ _ r d.coreNo d.ctx false 0 d.job = l at hexec
  have hlen : l.length = 32 := by rw [← hl]; exact recordBytes_length _ _ _ _ _ _ _ _ _ _ _ _
  generalize hu : s.setDesc id (d.paused (s.dspTime d.die) r) = u at hexec
  have hloc (a : Nat) : u.loc a = s.loc a := by rw [← hu]; rfl
  have hbyte (a : Nat) : u.byteAt a = s.byteAt a := by rw [← hu]; rfl
  have hdesc (j : Nat) : u.desc? j = if id = j then some (d.paused (s.dspTime d.die) r) else s.desc? j := by
    rw [← hu]
    exact State.setDesc_desc s id j _
  have hwf := Memory.wf_wr u (hub d.recOff) l (by rw [← hu]; exact h.inv.1)
  have hout (b : Nat) (hb : isRegSpace b = false) (hne : ∀ i, i < 32 → s.loc (hub d.recOff + i) ≠ s.loc b) :
      (u.wr (hub d.recOff) l).byteAt b = s.byteAt b := by
    refine (wr_byteAt_out u _ b l hb (fun i hi => ?_)).trans (hbyte b)
    rw [hloc, hloc]
    exact hne i (hlen ▸ hi)
  have hin (k : Nat) (hk : k < 32) : (u.wr (hub d.recOff) l).byteAt (hub d.recOff + k) = l.getD k 0 :=
    wr_hub_byteAt u d.recOff l (by omega) k (by omega)
  obtain ⟨m, hm⟩ := wr_frame u (hub d.recOff) l
  rw [hm] at hexec hwf hout hin
  rw [← hu] at hexec hdesc hout hin
  refine ⟨_, hexec.trans (State.done_of_wf rfl ⟨hwf, h.inv.2⟩), rfl, fun j hj => (hdesc j).trans (if_neg (Ne.symm hj)),
    (hdesc id).trans (if_pos rfl), ⟨hout, rfl⟩, fun k hk => (hin k hk).trans ?_⟩
  rw [← hl]
  rfl

/-! ### Cores -/

theorem exec_fits (cores : List Nat) (hb : s.blocker id d = none) (hcls : 2 ≤ d.cls) (hsave : d.save = none)
    (hop : d.op ∉ [0x0030, 0x0100, 0x0110, 0x0120, 0x0200, 0x0210, 0x0220, 0x0300, 0x0310, 0x0410])
    (ht : s.tryPlace id d false = s.placeOn id d cores) :
    ∃ t, exec (.gangPlacement die) s = .next t ∧
      t = { s with dict := t.dict, descs := t.descs, clus := t.clus, dies := t.dies, isl := t.isl, gov := t.gov } ∧ SameBytes s t ∧
      (∀ j, j ≠ id → t.desc? j = s.desc? j) ∧ t.desc? id = some (d.entered cores (s.dspTime die) d.shadow) ∧
      (t.die die).head = none := by
  have hcheck : d.op ≠ 0x0410 := fun e => hop (by rw [e]; decide)
  obtain ⟨x, c, g, i, o, sh, henter, hod, ho, hsh⟩ := enterRun_of_desc cores h.desc hcheck
  rw [placeOn_of_ok cores h.waiting hcls (placeHook_of_plain hop)] at ht
  have hexec := exec_gangPlacement_of_done h.running h.inService h.order h.desc hb ht
  rw [henter, ho hsave, hsh hcls, h.home] at hexec
  refine ⟨_, hexec.trans (State.done_of_same h.inv rfl rfl rfl), rfl, SameBytes.of_mem rfl (hod.interleaved (by decide)) rfl,
    fun j hj => (State.setDesc_desc _ id j _).trans (if_neg (Ne.symm hj)), (State.setDesc_desc _ id id _).trans (if_pos rfl), ?_⟩
  exact congrArg Die.head ((State.setDie_die _ die die _).trans (if_pos rfl))

theorem exec_short (hb : s.blocker id d = none) (hu : s.unitOf d = .cores)
    (ht : s.tryPlace id d false = .short s (s.shortReason d)) :
    ∃ t, exec (.gangPlacement die) s = .next t ∧ t = { s with descs := t.descs, dies := t.dies } ∧ SameBytes s t ∧
      (t.die die).head = some id ∧
      ∃ e, t.desc? id = some e ∧ e.st = .waiting ∧ e.reason = s.shortReason d ∧ e.waited = true ∧ e.result = d.result := by
  have hexec := exec_gangPlacement_of_short h.running h.inService h.order h.desc hb hu ht
  obtain ⟨e, hdelay, hst, hreason, hwaited, hresult⟩ := delayFor_of_not_paused (s := s) id (shortReason_not_paused (s := s) h.waiting)
  rw [hdelay] at hexec
  obtain ⟨x, hhead, hasked, hdesc⟩ := holdFor_of_cores (s := s.setDesc id e) id ((unitOf_congr _ s d).trans hu)
  obtain ⟨w, hw⟩ := hdesc id e ((State.setDesc_desc s id id e).trans (if_pos rfl))
  rw [hasked] at hexec
  refine ⟨_, hexec.trans (State.done_of_same h.inv rfl rfl rfl), rfl, SameBytes.of_dict rfl rfl rfl, ?_, _, hw,
    hst.trans h.waiting, hreason, hwaited, hresult⟩
  rw [← h.home]
  exact (congrArg Die.head ((State.setDie_die s d.die d.die x).trans (if_pos rfl))).trans hhead

end

end Sys2Proof
end

section
/-! Making room for pages, objects and save areas (R124, R280, R281): what it touches. -/

namespace Sys2Proof.Machine

/-! ### Making room (R280, R281) -/

/-- Between `s` and `t` memory, counts, pages and objects may have changed, as room was made; memory is still in canonical form. -/
structure MakesRoom (s t : State) : Prop where
  frame : t = { s with mem := t.mem, dict := t.dict, regs := t.regs, pages := t.pages, objs := t.objs }
  wf : Memory.wf s.mem = true → Memory.wf t.mem = true

theorem MakesRoom.refl (s : State) : MakesRoom s s := ⟨rfl, id⟩

theorem MakesRoom.trans {s t u : State} (h : MakesRoom s t) (k : MakesRoom t u) : MakesRoom s u := by
  refine ⟨k.frame.trans ?_, k.wf ∘ h.wf⟩
  rw [h.frame]

theorem MakesRoom.wr {s t : State} (h : MakesRoom s t) (a : Nat) (l : List Byte) : MakesRoom s (t.wr a l) :=
  h.trans ⟨by rw [wr_eq t a l], Memory.wf_wr t a l⟩

theorem MakesRoom.evictNotice (s : State) (h st trig owner : Nat) : MakesRoom s (s.evictNotice h st trig owner) := by
  have hcount (n : Nat) : MakesRoom s (s.setReg (baseCAR + 0x8000) n) := ⟨rfl, id⟩
  unfold State.evictNotice
  dsimp only
  split
  · exact hcount _
  · exact ((hcount _).wr _ _).wr _ _

theorem MakesRoom.dropPage (s : State) (h trig : Nat) : MakesRoom s (s.dropPage h trig) := by
  refine MakesRoom.trans ?_ (MakesRoom.evictNotice _ h 0x10 trig (s.page h).owner)
  exact ⟨rfl, Memory.wf_cellClear _ _ _⟩

theorem MakesRoom.evictObj (s : State) (h trig : Nat) (cold : Bool) : MakesRoom s (s.evictObj h trig cold) := by
  refine MakesRoom.trans ?_ (MakesRoom.evictNotice _ h (if cold then 2 else 3) trig (s.obj h).owner)
  exact ⟨rfl, id⟩

theorem MakesRoom.evictOne {s t : State} {d trig : Nat} (h : s.evictOne d trig = some t) : MakesRoom s t := by
  unfold State.evictOne at h
  split at h
  · cases h
    split
    · exact MakesRoom.evictObj s _ _ _
    · exact MakesRoom.dropPage s _ _
  · split at h
    · cases h
      exact MakesRoom.dropPage s _ _
    · cases h

theorem MakesRoom.evictUntil (d trig : Nat) (goal : State → Bool) (n : Nat) (s : State) : MakesRoom s (evictUntil d trig goal n s) := by
  induction n generalizing s with
  | zero => exact MakesRoom.refl s
  | succ n ih =>
    unfold Machine.evictUntil
    split
    · exact MakesRoom.refl s
    · split
      · rename_i t ht
        exact (MakesRoom.evictOne ht).trans (ih t)
      · exact MakesRoom.refl s

theorem spillUntil_frame (d trig need n : Nat) (s : State) : ∃ q, spillUntil d trig need n s = { s with spills := q } := by
  induction n generalizing s with
  | zero => exact ⟨_, rfl⟩
  | succ n ih =>
    unfold spillUntil
    split
    · exact ⟨_, rfl⟩
    · split
      · exact ih _
      · exact ⟨_, rfl⟩

/-! ### Pages for an operation (R124) -/

theorem MakesRoom.freePage {s t : State} (h : MakesRoom s t) (n : Nat) : MakesRoom s (t.freePage n) :=
  h.trans ⟨rfl, Memory.wf_cellClear (kvBase + n * kib64) kib64 t.mem⟩

theorem MakesRoom.newPage {s t : State} (h : MakesRoom s t) (c d n first : Nat) : MakesRoom s (t.newPage c d n first) :=
  h.trans ⟨rfl, Memory.wf_cellClear (kvBase + n * kib64) kib64 t.mem⟩

theorem MakesRoom.pageRoom (c : Nat) (l : List Nat) (s : State) : MakesRoom s (State.pageRoom c l s).2 := by
  induction l generalizing s with
  | nil => exact MakesRoom.refl s
  | cons d l ih =>
    have hevict := MakesRoom.evictUntil d 1 (fun s => s.roomFor c d kib64) s.evictFuel s
    rw [State.pageRoom]
    generalize Machine.evictUntil d 1 (fun s => s.roomFor c d kib64) s.evictFuel s = u at hevict ⊢
    split
    · exact hevict
    · exact hevict.trans (ih u)

theorem MakesRoom.pageDie (s : State) (c hint : Nat) : MakesRoom s (s.pageDie c hint).2 := by
  unfold State.pageDie
  split
  · exact MakesRoom.refl s
  · exact MakesRoom.pageRoom c _ s

theorem MakesRoom.allocPages (c hint : Nat) (l : List Nat) (s : State) : MakesRoom s (allocPages c hint l s).2 := by
  induction l generalizing s with
  | nil => exact MakesRoom.refl s
  | cons f l ih =>
    unfold Machine.allocPages
    split
    · exact MakesRoom.refl s
    · rename_i h _ _
      split
      · have hdie := MakesRoom.pageDie s c hint
        split
        · rename_i t ht
          rw [ht] at hdie
          exact hdie
        · rename_i d t ht
          rw [ht] at hdie
          have hrest := (hdie.newPage c d h f).trans (ih (t.newPage c d h f))
          split
          · rename_i hs u hu
            rw [hu] at hrest
            exact hrest
          · rename_i u hu
            rw [hu] at hrest
            exact hrest.freePage h
      · exact MakesRoom.refl s

theorem pageSpill_frame {s t : State} {c hint n : Nat} (h : s.pageSpill c hint n = some t) : ∃ q, t = { s with spills := q } := by
  unfold State.pageSpill at h
  split at h
  · dsimp only at h
    generalize hu : List.foldl _ s _ = u at h
    have hframe : ∃ q, u = { s with spills := q } := by
      rw [← hu]
      refine List.foldlRecOn (b := s) (motive := fun u => ∃ q, u = { s with spills := q }) _ _ ⟨_, rfl⟩ (fun u hu d _ => ?_)
      obtain ⟨q, rfl⟩ := hu
      split
      · exact spillUntil_frame _ _ _ _ _
      · exact ⟨_, rfl⟩
    split at h
    · cases h
    · cases h
      exact hframe
  · cases h

end Sys2Proof.Machine
end

section
/-! What placement reads leaves a descriptor's operation as it is (R115, R118, R135, R136, R149). -/

namespace Sys2Proof.Machine

/-- Descriptor `id` is outstanding in both states or in neither, with one opcode. -/
def SameOp (id : Nat) (s t : State) : Prop := (t.desc? id).map (·.op) = (s.desc? id).map (·.op)

theorem SameOp.of_descs (id : Nat) {s t : State} (h : t.descs = s.descs) : SameOp id s t := by
  unfold SameOp State.desc?
  rw [h]

theorem SameOp.trans {id : Nat} {s t u : State} (h : SameOp id s t) (k : SameOp id t u) : SameOp id s u := Eq.trans k h

theorem SameOp.updDesc {id : Nat} {s t : State} (h : SameOp id s t) (i : Nat) {f : Desc → Desc} (hf : ∀ d, (f d).op = d.op) :
    SameOp id s (t.updDesc i f) := by
  refine h.trans ?_
  unfold SameOp
  rw [State.updDesc_desc]
  split
  · rw [Option.map_map]
    congr 1
    funext d
    exact hf d
  · rfl

theorem SameOp.bumpOd {id : Nat} {s t : State} (h : SameOp id s t) (i j n w k : Nat) : SameOp id s (t.bumpOd i j n w k) := h

theorem SameOp.setPage {id : Nat} {s t : State} (h : SameOp id s t) (n : Nat) (p : Page) : SameOp id s (t.setPage n p) := h

theorem SameOp.wr {id : Nat} {s t : State} (h : SameOp id s t) (a : Nat) (l : List Byte) : SameOp id s (t.wr a l) :=
  h.trans (SameOp.of_descs id (by rw [wr_eq]))

theorem SameOp.foldl {id : Nat} {α : Type} {f : State → α → State} (hf : ∀ u x, SameOp id u (f u x)) (l : List α) (s : State) :
    SameOp id s (l.foldl f s) :=
  List.foldlRecOn l f (SameOp.of_descs id rfl) (fun _ hu x _ => hu.trans (hf _ x))

theorem MakesRoom.sameOp {s t : State} (h : MakesRoom s t) (id : Nat) : SameOp id s t := SameOp.of_descs id (by rw [h.frame])

/-- The state in which a reading at placement ends. -/
def PRes.state : PRes → State
  | .ok s => s
  | .fault s _ => s
  | .wait s _ => s

theorem SameOp.ok {id : Nat} {s t : State} (h : SameOp id s t) : SameOp id s (PRes.ok t).state := h

theorem SameOp.fault {id : Nat} {s t : State} (h : SameOp id s t) (st : Nat) : SameOp id s (PRes.fault t st).state := h

theorem SameOp.wait {id : Nat} {s t : State} (h : SameOp id s t) (r : Nat) : SameOp id s (PRes.wait t r).state := h

theorem SameOp.of_ite {id : Nat} {s : State} {c : Prop} [Decidable c] {a b : PRes} (ha : SameOp id s a.state) (hb : SameOp id s b.state) :
    SameOp id s (if c then a else b).state := by
  split <;> assumption

section
variable (s : State) (id : Nat) (d : Desc)

theorem SameOp.absenceReport (die rep : Nat) (bad : List (Nat × Nat × Nat)) : SameOp id s (absenceReport s die rep bad) := by
  unfold Machine.absenceReport
  split
  · exact SameOp.of_descs id rfl
  · exact ((SameOp.of_descs id rfl).wr _ _).bumpOd _ _ _ _ _

theorem SameOp.attnFault (st : Nat) : SameOp id s (attnFault s d st).state := by
  unfold Machine.attnFault
  dsimp only [PRes.state]
  refine SameOp.foldl (fun u r => ?_) _ _
  split
  · obtain ⟨k, m, h⟩ := scribble_frame u r.a r.n
    rw [h]
    exact SameOp.of_descs id rfl
  · exact SameOp.of_descs id rfl

theorem SameOp.setPages {α : Type} (f : α → Nat) (g : State → α → Page) (l : List α) :
    SameOp id s (l.foldl (fun s x => s.setPage (f x) (g s x)) s) :=
  SameOp.foldl (f := fun s x => s.setPage (f x) (g s x)) (fun _ _ => SameOp.of_descs id rfl) l s

theorem SameOp.convClear : SameOp id s (convClear s d) := by
  unfold Machine.convClear
  split
  · refine List.foldlRecOn (b := (s, d.f 42 6)) (motive := fun p => SameOp id s p.1) _ _ (SameOp.of_descs id rfl) (fun p hp w _ => ?_)
    exact hp.wr _ _
  · exact SameOp.of_descs id rfl

theorem SameOp.attnPlace : SameOp id s (attnPlace s id d).state := by
  have hfault (t : State) := SameOp.attnFault t id d
  have hreport := SameOp.absenceReport s id d.die (d.f 48 6)
  unfold Machine.attnPlace
  dsimp only
  refine SameOp.of_ite (hfault s _) (SameOp.of_ite ((hreport _).trans (hfault _ _)) ?_)
  cases plLength s (d.f 36 6) (attnGeom d) with
  | none => exact hfault s _
  | some len => exact SameOp.of_ite (hfault s _) (SameOp.ok (SameOp.updDesc (SameOp.setPages s id _ _ _) id (fun _ => rfl)))

theorem SameOp.refillPlace : SameOp id s (refillPlace s id d).state := by
  have hfault := (SameOp.of_descs id (s := s) rfl).fault
  have hreport := SameOp.absenceReport s id d.die (d.f 42 6)
  unfold Machine.refillPlace
  dsimp only
  exact SameOp.of_ite (hfault _) (SameOp.of_ite ((hreport _).fault _) (SameOp.of_ite (hfault _) (SameOp.of_ite (hfault _)
    (SameOp.ok (SameOp.updDesc (SameOp.setPages s id _ _ _) id (fun _ => rfl))))))

theorem SameOp.copyOnWrite (q i h : Nat) : SameOp id s (copyOnWrite s id d q i h).2 := by
  have halloc := (MakesRoom.allocPages d.ctx (d.f 64 1) [(s.page h).first] s).sameOp id
  unfold Machine.copyOnWrite
  dsimp only
  split
  · rename_i h' t ht
    rw [ht] at halloc
    exact SameOp.bumpOd (SameOp.setPage (SameOp.wr (t := { t.setPage h' _ with mem := _ }) halloc _ _) _ _) _ _ _ _ _
  · rename_i t _ ht
    rw [ht] at halloc
    exact halloc

theorem SameOp.appendShort (held : List Nat) (n : Nat) : SameOp id s (appendShort s id d held n).state := by
  unfold Machine.appendShort
  split
  · rename_i t ht
    obtain ⟨q, rfl⟩ := pageSpill_frame ht
    refine SameOp.wait (SameOp.updDesc (SameOp.of_descs id rfl) id ?_) _
    exact fun _ => rfl
  · exact (SameOp.of_descs id rfl).fault _

theorem SameOp.pagePlace : SameOp id s (pagePlace s id d).state :=
  SameOp.ok (SameOp.updDesc (SameOp.of_descs id rfl) id (fun _ => rfl))

theorem SameOp.solverPlace : SameOp id s (solverPlace s id d).state :=
  SameOp.ok (SameOp.updDesc (SameOp.of_descs id rfl) id (fun _ => rfl))

theorem SameOp.checkPlace : SameOp id s (checkPlace s id d).state := by
  have hstay : SameOp id s s := SameOp.of_descs id rfl
  unfold Machine.checkPlace
  dsimp only
  refine SameOp.of_ite (hstay.fault _) (SameOp.of_ite (hstay.fault _) (SameOp.ok (SameOp.bumpOd (SameOp.updDesc hstay id ?_) _ _ _ _ _)))
  exact fun _ => rfl

/-- Step 4 of R135: every shared last page is copied, as long as pages can be had. -/
theorem SameOp.copies {id : Nat} (d : Desc) (l : List (Nat × Nat × Nat)) (r : Bool × State) :
    SameOp id r.2 (l.foldl (fun (r : Bool × State) p =>
      if !r.1 || decide ((r.2.page p.2.2).refs ≤ 1) then r else Machine.copyOnWrite r.2 id d p.1 p.2.1 p.2.2) r).2 := by
  induction l generalizing r with
  | nil => exact SameOp.of_descs id rfl
  | cons p l ih =>
    refine SameOp.trans ?_ (ih _)
    dsimp only
    split
    · exact SameOp.of_descs id rfl
    · exact SameOp.copyOnWrite r.2 id d _ _ _

theorem SameOp.appendPlace : SameOp id s (appendPlace s id d).state := by
  have hfault := (SameOp.of_descs id (s := s) rfl).fault
  unfold Machine.appendPlace
  extract_lets g a pos n v lastI endI old free bad s1 firsts
  have hreport := (SameOp.absenceReport s id d.die (d.f 42 6) bad).fault 0x0542
  refine SameOp.of_ite (hfault _) (SameOp.of_ite hreport ?_)
  rcases plLength s a g with _ | len
  · exact hfault _
  refine SameOp.of_ite (hfault _) (SameOp.of_ite (hfault _) (SameOp.of_ite hreport (SameOp.of_ite (hfault _)
    (SameOp.of_ite (hfault _) ?_))))
  have h1 : SameOp id s s1 := SameOp.setPages s id _ _ _
  split
  rename_i made s2 hcopies
  have h2 := SameOp.copies (id := id) d old (true, s1)
  rw [hcopies] at h2
  have h12 : SameOp id s s2 := h1.trans h2
  extract_lets cur held
  split
  · exact h12.trans (SameOp.appendShort s2 id d _ _)
  have h3 := (MakesRoom.allocPages d.ctx (d.f 64 1) firsts s2).sameOp id
  split
  · rename_i s3 hs3
    rw [hs3] at h3
    exact (h12.trans h3).trans (SameOp.appendShort s3 id d _ _)
  · rename_i news s3 hs3
    rw [hs3] at h3
    exact SameOp.ok (SameOp.updDesc ((h12.trans h3).trans (SameOp.setPages s3 id _ _ _)) id (fun _ => rfl))

/-- The state in which a claim of slots ends, where it finds a place or waits for one. -/
def SlotRes.state? : SlotRes → Option State
  | .at_ s _ _ => some s
  | .wait s _ => some s
  | .none_ => none

theorem claimSlots_descs (die n : Nat) : ∀ t, (s.claimSlots die n).state? = some t → t.descs = s.descs := by
  intro t
  unfold State.claimSlots
  dsimp only
  split
  · intro h
    rw [← Option.some.inj h]
    rfl
  · split
    · exact nofun
    · intro h
      rw [← Option.some.inj h]
      refine List.foldlRecOn (motive := fun (v : State) => v.descs = s.descs) _ _ rfl (fun _ hv _ _ => ?_)
      exact hv

theorem swapInAll_descs (home : Nat) (l : List Nat) : (swapInAll home l s).1.descs = s.descs := by
  induction l generalizing s with
  | nil => rfl
  | cons x l ih =>
    have hclaim := claimSlots_descs s home (s.strm x).slots
    unfold swapInAll
    dsimp only
    split
    · split
      · rename_i t g j ht
        rw [ht] at hclaim
        exact (ih _).trans (hclaim t rfl)
      · rename_i t outs ht
        rw [ht] at hclaim
        exact (ih t).trans (hclaim t rfl)
      · rfl
    · split
      · exact ih s
      · exact ih s

theorem SameOp.streamPlace : SameOp id s (streamPlace s id d).state := by
  have hstay : SameOp id s s := SameOp.of_descs id rfl
  have hswap : SameOp id s (swapInAll d.die (strNames s d) s).1 := SameOp.of_descs id (swapInAll_descs s _ _)
  unfold Machine.streamPlace
  extract_lets l r s1
  split
  · exact hstay
  split
  · split
    · exact hstay
    split
    · exact hswap
    split
    · exact hswap.updDesc id (fun _ => rfl)
    · refine SameOp.updDesc (hswap.trans ?_) id (fun _ => rfl)
      refine SameOp.of_descs id ?_
      dsimp only [s1]
      split <;> rfl
  · split
    · exact hstay
    · exact hstay.updDesc id (fun _ => rfl)

theorem SameOp.placeHook : SameOp id s (s.placeHook id d).state := by
  have hstay : SameOp id s s := SameOp.of_descs id rfl
  have hstream := SameOp.streamPlace s id d
  have hcheck := SameOp.checkPlace s id d
  unfold State.placeHook
  split
  · exact SameOp.convClear s id d
  split
  · split
    · exact SameOp.attnPlace s id d
    · exact SameOp.attnFault s id d _
  split
  · split
    · exact hstay
    split
    · exact SameOp.refillPlace s id d
    · exact SameOp.appendPlace s id d
  split
  · exact SameOp.pagePlace s id d
  split
  · split
    · rename_i t ht
      rw [ht] at hstream
      split
      · exact hstay
      · exact hstream
    · exact hstream
  split
  · exact hstream
  split
  · exact SameOp.solverPlace s id d
  split
  · split
    · rename_i t ht
      rw [ht] at hcheck
      exact SameOp.of_ite hcheck hstay
    · exact hcheck
  · exact hstay

end

end Sys2Proof.Machine
end

section
/-! What the operation of a descriptor that alone waits does at its placement comes first (R59, R66): it runs, ends or waits. -/

namespace Sys2Proof

open Sys2Proof.Machine

section
variable {s x : State} {die id : Nat} {d e : Desc}

theorem op_eq_of_placeHook (hd : s.desc? id = some d) (he : (s.placeHook id d).state.desc? id = some e) : e.op = d.op := by
  have h := SameOp.placeHook s id d
  unfold SameOp at h
  rw [hd, he] at h
  exact Option.some.inj h

variable (h : WaitsAlone s die id d) (hb : s.blocker id d = none) (hu : s.unitOf d = .cores) (hcls : 2 ≤ d.cls)
  (hx : x.desc? id = some e)
include h hb hu hcls hx

theorem exec_hook_ok {cores : List Nat} (ht : s.tryPlace id d false = s.placeOn id d cores) (hhook : s.placeHook id d = .ok x) :
    ∃ t f, exec (.gangPlacement die) s = .next t ∧ t.desc? id = some f ∧ f.st = .running ∧ f.cores = cores ∧ f.result = e.result ∧
      f.aux = e.aux ∧ f.words = e.words := by
  have hop := op_eq_of_placeHook h.desc (by rw [hhook]; exact hx)
  obtain ⟨_, _, _, _, _, sh, henter, _⟩ := enterRun_of_desc cores hx (by rw [hop]; exact op_ne_check_of_cores hu)
  rw [placeOn_of_ok cores h.waiting hcls hhook] at ht
  have hexec := exec_gangPlacement_of_done h.running h.inService h.order h.desc hb ht
  rw [henter] at hexec
  exact ⟨_, _, hexec, (State.setDesc_desc _ id id _).trans (if_pos rfl), rfl, rfl, rfl, rfl, rfl⟩

theorem exec_hook_fault {cores : List Nat} {st : Nat} (ht : s.tryPlace id d false = s.placeOn id d cores)
    (hhook : s.placeHook id d = .fault x st) :
    ∃ t f, exec (.gangPlacement die) s = .next t ∧ t.desc? id = some f ∧ f.result = some { status := st, outcome := 0, flags := 0 } := by
  have hop := op_eq_of_placeHook h.desc (by rw [hhook]; exact hx)
  obtain ⟨_, _, _, _, _, sh, henter, _⟩ := enterRun_of_desc cores hx (by rw [hop]; exact op_ne_check_of_cores hu)
  rw [placeOn_of_fault cores h.waiting hcls hhook] at ht
  have hexec := exec_gangPlacement_of_done h.running h.inService h.order h.desc hb ht
  rw [henter] at hexec
  exact ⟨_, _, hexec, (State.updDesc_desc _ id id _).trans ((if_pos rfl).trans
    (congrArg (Option.map _) ((State.setDesc_desc _ id id _).trans (if_pos rfl)))), rfl⟩

omit hu in
theorem exec_hook_wait {cores : List Nat} {r : Nat} (ht : s.tryPlace id d false = s.placeOn id d cores)
    (hhook : s.placeHook id d = .wait x r) (hst : e.st = .waiting) :
    ∃ t f, exec (.gangPlacement die) s = .next t ∧ t.desc? id = some f ∧ f.st = .waiting ∧ f.result = e.result ∧ f.waited = true := by
  rw [placeOn_of_wait cores h.waiting hcls hhook] at ht
  have hexec := exec_gangPlacement_of_wait h.running h.inService h.order h.desc hb ht
  obtain ⟨_, _, _, _, _, _, hdelay⟩ := delayFor_frame x id e r
  rw [leave_of_desc hx, hdelay] at hexec
  exact ⟨_, _, hexec, (State.setDesc_desc _ id id _).trans (if_pos rfl), hst, rfl, rfl⟩

end

end Sys2Proof
end

section
/-! A gang that has been asked to stop (R69, R73, R280). -/

namespace Sys2Proof.Machine

/-! ### Room for a save area -/

theorem makeObj_spec {s x : State} {kind c die size foot h : Nat} {charge : Bool}
    (hm : s.makeObj kind c die size foot charge = some (h, x)) :
    ∃ u o, MakesRoom s u ∧ x = State.setObj { u with free := u.free + 1 } h o ∧ o.st = .present ∧ o.kind = kind ∧ o.owner = c := by
  have hroom := MakesRoom.evictUntil die 1 (fun s => s.roomFor c die foot) s.evictFuel s
  unfold State.makeObj at hm
  split at hm
  · cases hm
  dsimp only at hm
  generalize evictUntil die 1 (fun s => s.roomFor c die foot) s.evictFuel s = u at hm hroom
  split at hm
  · cases hm
  split at hm
  · cases hm
  split at hm
  · cases hm
  · obtain ⟨rfl, rfl⟩ := Prod.mk.inj (Option.some.inj hm)
    exact ⟨u, _, hroom, rfl, rfl, rfl, rfl⟩

theorem makeSpill_spec {s x : State} {c die foot : Nat} {charge : Bool} (hw : s.makeSpill c die foot charge = some x) :
    ∃ u q, MakesRoom s u ∧ x = { u with spills := q } := by
  have hroom := MakesRoom.evictUntil die 1 (fun s => s.roomFor c die foot) s.evictFuel s
  unfold State.makeSpill at hw
  split at hw
  · cases hw
  split at hw
  · rename_i y hy
    cases hw
    unfold State.makeRoom at hy
    dsimp only at hy
    generalize evictUntil die 1 (fun s => s.roomFor c die foot) s.evictFuel s = u at hy hroom
    split at hy
    · cases hy
    · generalize roundUp foot kib64 + _ = need at hy
      obtain ⟨q, hq⟩ := spillUntil_frame die 1 need u.evictFuel u
      split at hy
      · cases hy
      · injection hy with hy
        exact ⟨u, q, hroom, hy.symm.trans hq⟩
  · cases hw

/-! ### Giving up the cores -/

/-- What the save area of a gang holds (R69, R184). -/
def Desc.saveSize (d : Desc) (bytes : Nat) : Nat :=
  max 1 ((if d.op = 0x0300 ∨ d.op = 0x0310 then 32768 * d.cores.length else 0) + min bytes ((d.cores.length + 1) * (mib + 8192)))

/-- The descriptor of a gang that has stopped at `now`, with its save area `h` and progress `aux`. -/
def Desc.stopped (d : Desc) (aux : List Nat) (now h : Nat) : Desc :=
  { d with aux := aux, st := .stopped, cores := [], was := d.cores, save := some h, preempted := true, since := now, epAt := now,
           reason := stopReason d.why, why := .none, interim := false }

/-- A check that runs keeps its progress as it stops (R188). -/
def State.stopProgress (s : State) (id : Nat) (d : Desc) : State :=
  if d.op = 0x0410 ∧ s.runningCheck d.die = some id then s.keepProgress id else s

/-- The gang gives up its cores, with save area `h`. -/
def State.stopWith (s : State) (id : Nat) (d : Desc) (h : Nat) : State :=
  let now := s.dspTime d.die
  let s := (s.stopProgress id d).freeCores id d
  let d' := d.stopped (((s.desc? id).map (fun x => x.aux)).getD d.aux) now h
  let s := ((s.setDesc id d').bumpReg (baseDSP d.die + 0x28)).bumpOd (0x2A10 + d.die) 2
  if d.cls = 4 ∨ d.why = .decaf then (s.updDesc id (fun d => { d with interim := true })).interim d' 0x0211 0x06 else s

theorem stopProgress_frame {s : State} {id : Nat} {d : Desc} (hd : s.desc? id = some d) :
    ∃ k ds a, s.stopProgress id d = { s with free := k, descs := ds } ∧ AMap.get? id ds = some { d with aux := a } ∧
      ∀ j, j ≠ id → AMap.get? j ds = s.desc? j := by
  unfold State.stopProgress
  split
  · exact ⟨_, _, _, rfl, (State.updDesc_desc _ id id _).trans ((if_pos rfl).trans (congrArg (Option.map _) hd)),
      fun j hj => (State.updDesc_desc _ id j _).trans (if_neg (Ne.symm hj))⟩
  · exact ⟨_, _, _, rfl, hd, fun j _ => rfl⟩

/-- Its cores are free: what they and its context are charged is counted, and no other descriptor changes. -/
theorem freed_frame {s : State} {id : Nat} {d : Desc} (hd : s.desc? id = some d) (hst : d.st = .running) :
    ∃ k x ds cs co cl, (s.stopProgress id d).freeCores id d =
        { s with free := k, dict := x, descs := ds, ctxs := cs, cores := co, clus := cl } ∧
      (∀ j, j ≠ id → AMap.get? j ds = s.desc? j) ∧ ∀ c, c ≠ d.ctx → AMap.getD c Ctx.zero cs = s.ctx c := by
  obtain ⟨k, ds, a, hprog, hid, hother⟩ := stopProgress_frame hd
  rw [hprog]
  generalize hv : { s with free := k, descs := ds } = v
  have hvid : v.desc? id = some { d with aux := a } := by rw [← hv]; exact hid
  have hvother (j : Nat) (hj : j ≠ id) : v.desc? j = s.desc? j := by rw [← hv]; exact hother j hj
  have hvctx (c : Nat) : v.ctx c = s.ctx c := by rw [← hv]; rfl
  obtain ⟨x, co, cl, hfree, _⟩ := freeCores_frame v id d
  obtain ⟨x', ds', cs, hset, _⟩ := settle_frame v id
  have hdesc (j : Nat) (hj : j ≠ id) := (settle_desc_ne v hj).trans (hvother j hj)
  have hctx (c : Nat) (hc : c ≠ d.ctx) := ((settle_ctx hvid hst c).trans (if_neg (Ne.symm hc))).trans (hvctx c)
  rw [hset] at hdesc hctx
  rw [hfree, hset, ← hv]
  exact ⟨_, _, _, _, _, _, rfl, hdesc, hctx⟩

/-- Stopping a gang changes its descriptor, what its cores and context are charged, the counts and, with an interim record, hub SRAM. -/
theorem stopWith_spec {s : State} {id : Nat} {d : Desc} (hd : s.desc? id = some d) (hst : d.st = .running) (h : Nat) :
    ∃ k m x r ds cs co cl di a i, s.stopWith id d h =
        { s with free := k, mem := m, dict := x, regs := r, descs := ds, ctxs := cs, cores := co, clus := cl, dies := di } ∧
      AMap.get? id ds = some { d.stopped a (s.dspTime d.die) h with interim := i } ∧ (∀ j, j ≠ id → AMap.get? j ds = s.desc? j) ∧
      (∀ c, c ≠ d.ctx → (s.stopWith id d h).ctx c = s.ctx c) ∧
      (s.stopWith id d h).reg (baseDSP d.die + 0x28) = (s.reg (baseDSP d.die + 0x28) + 1) % 2 ^ 64 := by
  obtain ⟨k, x, ds, cs, co, cl, hfree, hother, hctx⟩ := freed_frame hd hst
  unfold State.stopWith
  dsimp only
  rw [hfree]
  generalize Option.getD _ d.aux = a
  generalize hw : State.bumpOd _ (0x2A10 + d.die) 2 1 32 0 = w
  have hstop : ∃ x r, w = { s with free := k, dict := x, regs := r, descs := AMap.ins id (d.stopped a (s.dspTime d.die) h) ds,
                                   ctxs := cs, cores := co, clus := cl } ∧
      w.reg (baseDSP d.die + 0x28) = (s.reg (baseDSP d.die + 0x28) + 1) % 2 ^ 64 := by
    rw [← hw]
    exact ⟨_, _, rfl, (State.bumpReg_reg _ _ _ _).trans (if_pos rfl)⟩
  obtain ⟨x', r, rfl, hreg⟩ := hstop
  have hid (i : Nat) := AMap.get?_ins i id (d.stopped a (s.dspTime d.die) h) ds
  split
  · generalize hv : State.updDesc _ id _ = v
    obtain ⟨m, di, hi⟩ := interim_frame v (d.stopped a (s.dspTime d.die) h) 0x0211 0x06
    rw [hi, ← hv]
    refine ⟨k, m, _, _, _, _, _, _, di, a, true, rfl, ?_, fun j hj => ?_, hctx, hreg⟩
    · exact (AMap.get?_upd _ _ _ _).trans ((if_pos rfl).trans (congrArg (Option.map _) ((hid id).trans (if_pos rfl))))
    · exact (AMap.get?_upd _ _ _ _).trans ((if_neg (Ne.symm hj)).trans (((hid j).trans (if_neg (Ne.symm hj))).trans (hother j hj)))
  · exact ⟨k, _, _, _, _, _, _, _, _, a, false, rfl, (hid id).trans (if_pos rfl),
      fun j hj => ((hid j).trans (if_neg (Ne.symm hj))).trans (hother j hj), hctx, hreg⟩

/-! ### The command, by what can be held -/

section
variable {s : State} {id bytes : Nat} {d : Desc} (hd : s.desc? id = some d) (hst : d.st = .running) (hwhy : d.why ≠ .none)
  (hres : d.result = none)
include hd hst hwhy hres

theorem gangStop_of_held {h : Nat} {x : State}
    (hm : s.makeObj 8 d.ctx d.die (d.saveSize bytes) (roundUp (d.saveSize bytes) kib64) (d.why ≠ .reset) = some (h, x)) :
    s.gangStop id bytes = x.stopWith id d h := by
  have hgo : ¬ (d.st ≠ .running ∨ d.why = .none ∨ d.result.isSome) := by simp [hst, hwhy, hres]
  unfold State.gangStop
  rw [hd]
  dsimp only
  rw [if_neg hgo]
  unfold Desc.saveSize at hm
  rw [hm]
  rfl

theorem gangStop_of_spill {x : State}
    (hm : s.makeObj 8 d.ctx d.die (d.saveSize bytes) (roundUp (d.saveSize bytes) kib64) (d.why ≠ .reset) = none)
    (hw : s.makeSpill d.ctx d.die (roundUp (d.saveSize bytes) kib64) (d.why ≠ .reset) = some x) : s.gangStop id bytes = x := by
  have hgo : ¬ (d.st ≠ .running ∨ d.why = .none ∨ d.result.isSome) := by simp [hst, hwhy, hres]
  unfold State.gangStop
  rw [hd]
  dsimp only
  rw [if_neg hgo]
  unfold Desc.saveSize at hm hw
  rw [hm, hw]

theorem gangStop_of_no_room
    (hm : s.makeObj 8 d.ctx d.die (d.saveSize bytes) (roundUp (d.saveSize bytes) kib64) (d.why ≠ .reset) = none)
    (hw : s.makeSpill d.ctx d.die (roundUp (d.saveSize bytes) kib64) (d.why ≠ .reset) = none) :
    s.gangStop id bytes = if d.evictable then
      ((s.endDesc id 0x0405 0x07).bumpReg (baseDSP d.die + 0x30)).updDesc id (fun d => { d with why := .none })
    else s.updDesc id (fun d => { d with why := .none }) := by
  have hgo : ¬ (d.st ≠ .running ∨ d.why = .none ∨ d.result.isSome) := by simp [hst, hwhy, hres]
  unfold State.gangStop
  rw [hd]
  dsimp only
  rw [if_neg hgo]
  unfold Desc.saveSize at hm hw
  rw [hm, hw]

end

end Sys2Proof.Machine
end

section
/-! Gangs are placed and stopped (R59, R66–R69, R73, R280), by what becomes of the gang. -/

namespace Sys2Proof

open Sys2Proof.Machine

section
variable {s : State} {id bytes : Nat} {d : Desc} (hs : Invariant s) (hd : s.desc? id = some d) (hst : d.st = .running)
  (hwhy : d.why ≠ .none) (hres : d.result = none)
include hs hd hst hwhy hres

/-- The save area is held: the gang gives up its cores. -/
theorem exec_gangStop_held {h : Nat} {x : State}
    (hm : s.makeObj 8 d.ctx d.die (d.saveSize bytes) (roundUp (d.saveSize bytes) kib64) (d.why ≠ .reset) = some (h, x)) :
    ∃ t e, exec (.preemptedGangStop id bytes) s = .next t ∧
      t = { s with free := t.free, mem := t.mem, dict := t.dict, regs := t.regs, descs := t.descs, ctxs := t.ctxs, cores := t.cores,
                   clus := t.clus, dies := t.dies, pages := t.pages, objs := t.objs } ∧
      t.desc? id = some e ∧ e.st = .stopped ∧ e.cores = [] ∧ e.was = d.cores ∧ e.save = some h ∧ e.preempted = true ∧
      e.reason = stopReason d.why ∧ e.why = .none ∧ e.result = none ∧ (∀ j, j ≠ id → t.desc? j = s.desc? j) ∧
      (∀ k, k ≠ d.ctx → t.ctx k = s.ctx k) ∧ (t.obj h).st = .present ∧ (t.obj h).kind = 8 ∧ (t.obj h).owner = d.ctx ∧
      t.reg (baseDSP d.die + 0x28) = (x.reg (baseDSP d.die + 0x28) + 1) % 2 ^ 64 := by
  have hexec : exec (.preemptedGangStop id bytes) s = s.done (s.gangStop id bytes) := rfl
  rw [gangStop_of_held hd hst hwhy hres hm] at hexec
  obtain ⟨u, o, hroom, hx, hpresent, hkind, howner⟩ := makeObj_spec hm
  have hframe := hroom.frame
  have hxd : x.desc? id = some d := by
    rw [hx, hframe]
    exact hd
  obtain ⟨_, _, _, _, _, _, _, _, _, _, _, hstop, hid, hother, hctx, hreg⟩ := stopWith_spec hxd hst h
  generalize x.stopWith id d h = y at hexec hstop hctx hreg
  have hobj : y.obj h = o := by
    rw [hstop, hx]
    exact (State.setObj_obj _ h h o).trans (if_pos rfl)
  have hy : y = { s with free := y.free, mem := y.mem, dict := y.dict, regs := y.regs, descs := y.descs, ctxs := y.ctxs,
                         cores := y.cores, clus := y.clus, dies := y.dies, pages := y.pages, objs := y.objs } := by
    rw [hstop, hx, hframe]
    rfl
  have hdone := State.done_of_flash hs (t := y) (by rw [hy]) (by rw [hy])
  have hydesc (j : Nat) := congrArg (State.desc? · j) hstop
  have hxdesc (j : Nat) : x.desc? j = s.desc? j := by rw [hx, hframe]; rfl
  have hxctx (k : Nat) : x.ctx k = s.ctx k := by rw [hx, hframe]; rfl
  refine ⟨_, _, hexec.trans hdone, ?_, (hydesc id).trans hid, rfl, rfl, rfl, rfl, rfl, rfl, rfl, hres,
    fun j hj => (hydesc j).trans ((hother j hj).trans (hxdesc j)), fun k hk => (hctx k hk).trans (hxctx k),
    (congrArg Obj.st hobj).trans hpresent, (congrArg Obj.kind hobj).trans hkind, (congrArg Obj.owner hobj).trans howner, hreg⟩
  rw [hy]

/-- A spill can make the room: the gang goes on stopping (R280). -/
theorem exec_gangStop_spill {x : State}
    (hm : s.makeObj 8 d.ctx d.die (d.saveSize bytes) (roundUp (d.saveSize bytes) kib64) (d.why ≠ .reset) = none)
    (hw : s.makeSpill d.ctx d.die (roundUp (d.saveSize bytes) kib64) (d.why ≠ .reset) = some x) :
    exec (.preemptedGangStop id bytes) s = .next x := by
  have hexec : exec (.preemptedGangStop id bytes) s = s.done (s.gangStop id bytes) := rfl
  rw [gangStop_of_spill hd hst hwhy hres hm hw] at hexec
  obtain ⟨u, q, hroom, hx⟩ := makeSpill_spec hw
  have hframe := hroom.frame
  have hinv : Invariant x := by
    rw [hx]
    refine ⟨hroom.wf hs.1, ?_⟩
    rw [hframe]
    exact hs.2
  exact hexec.trans (State.done_of_wf (by rw [hx, hframe]) hinv)

omit hs in
/-- No room, and a gang that may be evicted: it ends 0x0405 and is counted. -/
theorem exec_gangStop_evicted
    (hm : s.makeObj 8 d.ctx d.die (d.saveSize bytes) (roundUp (d.saveSize bytes) kib64) (d.why ≠ .reset) = none)
    (hw : s.makeSpill d.ctx d.die (roundUp (d.saveSize bytes) kib64) (d.why ≠ .reset) = none) (he : d.evictable = true) :
    ∃ t e, exec (.preemptedGangStop id bytes) s = .next t ∧ t.desc? id = some e ∧
      e.result = some { status := 0x0405, outcome := 7, flags := 0 } ∧ e.why = .none ∧
      t.reg (baseDSP d.die + 0x30) = (s.reg (baseDSP d.die + 0x30) + 1) % 2 ^ 64 := by
  have hexec : exec (.preemptedGangStop id bytes) s = s.done (s.gangStop id bytes) := rfl
  rw [gangStop_of_no_room hd hst hwhy hres hm hw, if_pos he] at hexec
  have hend : (s.endDesc id 0x0405 0x07).desc? id = some (d.ended 0x0405 0x07) := by
    rw [endDesc_desc, if_pos rfl, hd]
    rfl
  have hended : d.ended 0x0405 0x07 = { d with result := some { status := 0x0405, outcome := 7, flags := 0 } } := by
    simp [Desc.ended, hres]
  obtain ⟨k, m, ds, p, q, hframe⟩ := endDesc_frame s id 0x0405 0x07
  rw [hended] at hend
  rw [hframe] at hend hexec
  exact ⟨_, _, hexec, (State.updDesc_desc _ id id _).trans ((if_pos rfl).trans (congrArg (Option.map _) hend)), rfl, rfl,
    (State.bumpReg_reg _ _ _ _).trans (if_pos rfl)⟩

/-- No room, and a gang that may not be evicted: it goes on. -/
theorem exec_gangStop_kept
    (hm : s.makeObj 8 d.ctx d.die (d.saveSize bytes) (roundUp (d.saveSize bytes) kib64) (d.why ≠ .reset) = none)
    (hw : s.makeSpill d.ctx d.die (roundUp (d.saveSize bytes) kib64) (d.why ≠ .reset) = none) (he : d.evictable = false) :
    ∃ t, exec (.preemptedGangStop id bytes) s = .next t ∧ t = { s with descs := t.descs } ∧ SameBytes s t ∧
      t.desc? id = some { d with why := .none } ∧ ∀ j, j ≠ id → t.desc? j = s.desc? j := by
  have hexec : exec (.preemptedGangStop id bytes) s = s.done (s.gangStop id bytes) := rfl
  rw [gangStop_of_no_room hd hst hwhy hres hm hw, if_neg (by rw [he]; decide)] at hexec
  exact ⟨_, hexec.trans (State.done_of_same hs rfl rfl rfl), rfl, SameBytes.of_dict rfl rfl rfl,
    (State.updDesc_desc s id id _).trans ((if_pos rfl).trans (congrArg (Option.map _) hd)),
    fun j hj => (State.updDesc_desc s id j _).trans (if_neg (Ne.symm hj))⟩

end

/-- Settles O24. A descriptor that alone waits is barred, enters on the cores that its class may use, or has cores held for it; a
gang that stops gives up its cores, waits for a spill, is evicted or goes on, as its save area can be held. -/
theorem gangs : Obligations.Gangs := by
  unfold Obligations.Gangs
  refine ⟨fun s die id d free hs hrun hst0 hw hd hdie hst hsave hfree => ?_, fun s id bytes size d m w hs hd hst hwhy hres hsize hm hw => ?_⟩
  · have hwaits : WaitsAlone s die id d := ⟨hs, hrun, hst0, hw, hd, hdie, hst⟩
    subst hdie hfree
    refine ⟨fun hb hu hcls hpin h30 h100 h110 h120 h200 h210 h220 h300 h310 h410 => ⟨fun hfit => ?_, fun hshort => ?_⟩,
      fun x e hb hu hcls hpin hop hfit hx => ?_, fun r hb hrec => ⟨exec_barred_same hwaits hb, fun hp hp' hlink => ?_,
        exec_barred_resumes hwaits hb⟩⟩
    · have ht := (tryPlace_of_cores (id := id) hcls hu hpin h210).trans (if_pos hfit)
      have hplain : d.op ∉ [0x0030, 0x0100, 0x0110, 0x0120, 0x0200, 0x0210, 0x0220, 0x0300, 0x0310, 0x0410] := by simp [*]
      obtain ⟨t, hexec, hframe, hbytes, hother, hdesc, hhead⟩ := exec_fits hwaits _ hb hcls hsave hplain ht
      refine ⟨t, hexec, hframe, hbytes, hother, hdesc.trans ?_, hhead⟩
      rw [Desc.entered, ← hsave]
    · exact exec_short hwaits hb hu ((tryPlace_of_cores hcls hu hpin h210).trans (if_neg (by omega)))
    · have ht := (tryPlace_of_cores (id := id) hcls hu hpin hop).trans (if_pos hfit)
      exact ⟨exec_hook_ok hwaits hb hu hcls hx ht, fun st => exec_hook_fault hwaits hb hu hcls hx ht,
        fun r => exec_hook_wait hwaits hb hcls hx ht⟩
    · obtain ⟨t, hexec, hframe, hother, hdesc, hout, hin⟩ := exec_barred_pauses hwaits hb hp hp' hlink hrec
      exact ⟨t, _, hexec, hframe, hother, rfl, hdesc, hout, hin⟩
  · have hsize' : size = d.saveSize bytes := hsize
    subst hsize'
    subst hm hw
    refine ⟨fun h x hm => exec_gangStop_held hs hd hst hwhy hres hm, fun x hm hw => exec_gangStop_spill hs hd hst hwhy hres hm hw,
      fun hm hw he => exec_gangStop_evicted hd hst hwhy hres hm hw ?_, fun hm hw hc hp => exec_gangStop_kept hs hd hst hwhy hres hm hw ?_⟩
    · simpa [Desc.evictable] using he
    · simp [Desc.evictable, hc, hp]

end Sys2Proof
end

section
/-! Lengths of stored operands (R81, R83, R84, R112): whatever the values and the flags, a store writes as many bytes as the check
of its operation takes its range for. -/

namespace Sys2Proof.Machine

/-! ### Flagged computations -/

/-- Whatever flags are set before, the value of the computation meets `P`. -/
def Yields {α : Type} (x : Flg α) (P : α → Prop) : Prop := ∀ g, P (x.run g).run.1

section
variable {α β : Type} {P : α → Prop} {Q : β → Prop}

theorem Yields.pure {a : α} (h : P a) : Yields (pure a) P := fun _ => h

theorem Yields.trivial (x : Flg α) : Yields x (fun _ => True) := fun _ => True.intro

theorem Yields.bind {x : Flg α} {f : α → Flg β} (hx : Yields x P) (hf : ∀ a, P a → Yields (f a) Q) : Yields (x >>= f) Q :=
  fun g => hf _ (hx g) _

/-- What is computed before does not matter where the rest meets `Q` from every value. -/
theorem Yields.after {x : Flg α} {f : α → Flg β} (hf : ∀ a, Yields (f a) Q) : Yields (x >>= f) Q :=
  (Yields.trivial x).bind fun a _ => hf a

theorem Yields.mapM {l : List α} {f : α → Flg β} (h : ∀ a, Yields (f a) Q) :
    Yields (l.mapM f) (fun r => r.length = l.length ∧ ∀ b, b ∈ r → Q b) := by
  induction l with
  | nil => exact Yields.pure ⟨rfl, fun b hb => absurd hb List.not_mem_nil⟩
  | cons a l ih =>
    rw [List.mapM_cons]
    refine (h a).bind fun b hb => ih.bind fun r hr => Yields.pure ?_
    obtain ⟨hlen, hall⟩ := hr
    exact ⟨congrArg Nat.succ hlen, List.forall_mem_cons.mpr ⟨hb, hall⟩⟩

theorem Yields.mapM_length (l : List α) (f : α → Flg β) : Yields (l.mapM f) (fun r => r.length = l.length) :=
  fun g => (Yields.mapM (fun a => Yields.trivial (f a)) g).1

theorem Yields.runFlg {x : Flg α} (hx : Yields x P) : P (runFlg x).1 := hx 0

theorem Yields.ite {c : Prop} [Decidable c] {x y : Flg α} (hx : Yields x P) (hy : Yields y P) : Yields (if c then x else y) P := by
  split
  · exact hx
  · exact hy

end

/-! ### Stores -/

theorem length_flatten_of_forall {α : Type} {l : List (List α)} {n : Nat} (h : ∀ x, x ∈ l → x.length = n) :
    l.flatten.length = l.length * n := by
  rw [List.length_flatten, List.sum_eq_card_nsmul _ n (List.forall_mem_map.mpr h), List.length_map, smul_eq_mul]

theorem length_flatten_map {α β : Type} {f : α → List β} {n : Nat} (h : ∀ x, (f x).length = n) (l : List α) :
    (l.map f).flatten.length = l.length * n := by
  rw [length_flatten_of_forall (List.forall_mem_map.mpr fun x _ => h x), List.length_map]

/-- Tiles of `n` bytes each, by rows of tiles. -/
theorem yields_tiles_length {r c n : Nat} {f : Nat → Nat → Flg (List Byte)} (h : ∀ i j, Yields (f i j) (fun l => l.length = n)) :
    Yields (do let tiles ← (List.range r).mapM (fun i => (List.range c).mapM (fun j => f i j)); pure tiles.flatten.flatten)
      (fun l => l.length = r * c * n) := by
  refine (Yields.mapM fun i => Yields.mapM fun j => h i j).bind fun tiles htiles => Yields.pure ?_
  obtain ⟨hlen, hrows⟩ := htiles
  rw [List.length_range] at hlen
  have hflat : tiles.flatten.length = r * c := by
    rw [length_flatten_of_forall fun x hx => (hrows x hx).1, hlen, List.length_range]
  rw [length_flatten_of_forall (n := n), hflat]
  intro t ht
  obtain ⟨x, hx, htx⟩ := List.mem_flatten.mp ht
  exact (hrows x hx).2 t htx

/-- The elements of a tile fill whole bytes, 32 to a row. -/
theorem tileElemBytes_eq (f : Nat) : tileElemBytes f = tileRows f * (4 * fmtBits f) := by
  have h : tileRows f * 32 * fmtBits f = 8 * (tileRows f * (4 * fmtBits f)) := by ring
  rw [tileElemBytes, h, Nat.mul_div_cancel_left _ (by decide)]

/-- One scale byte to a row, of a microscaled format alone. -/
theorem length_scales {α : Type} (f : Nat) (g : α → Byte) {l : List α} (h : l.length = tileRows f) :
    (if fmtMx f then l.map g else []).length = tileFooter f := by
  unfold tileFooter
  split
  · rw [List.length_map, h]
  · rfl

theorem yields_tileStore_length (f : Nat) (ieee : Bool) (rs cs : Nat) (m : List (List Val)) :
    Yields (tileStore f ieee rs cs m) (fun l => l.length = matBytes f false rs cs) := by
  refine yields_tiles_length fun i j => (Yields.mapM_length _ _).bind fun blocks hblocks => Yields.pure ?_
  rw [List.length_range] at hblocks
  simp only [List.length_append, length_flatten_map fun _ => toBytes_length _ _, length_scales f _ hblocks, hblocks, tileBytes,
    tileElemBytes_eq, Bool.false_eq_true, if_false]

theorem yields_sparseStore_length (f : Nat) (ieee : Bool) (rs cs : Nat) (m : List (List Val)) :
    Yields (sparseStore f ieee rs cs m) (fun l => l.length = matBytes f true rs cs) := by
  refine yields_tiles_length fun i j => (Yields.mapM_length _ _).bind fun rows hrows => Yields.pure ?_
  rw [List.length_range] at hrows
  have hhalf : tileRows f * (4 * fmtBits f) = 2 * (tileRows f * (2 * fmtBits f)) := by ring
  simp only [List.length_append, length_flatten_map fun _ => toBytes_length _ _, length_scales f _ hrows, hrows, tileBytes,
    tileElemBytes_eq, hhalf, Nat.mul_div_cancel_left _ (by decide : 0 < 2), if_true, Nat.mul_comm (tileRows f) 4]

theorem yields_linStore_length (f : Nat) (ieee : Bool) (l : List Val) :
    Yields (linStore f ieee l) (fun b => b.length = linBytes f l.length) :=
  Yields.after fun _ => Yields.pure (toBytes_length _ _)

/-- Loads of a vector unit keep the number of elements. -/
theorem yields_vxeInAll_length (ieee : Bool) (f : Nat) (l : List Val) :
    Yields (vxeInAll ieee f l) (fun r => r.length = l.length) := Yields.mapM_length l _

end Sys2Proof.Machine
end

section
/-! Dense operations (R85–R112), what they change: free values, memory within the ranges that their check granted for writing, and
the counters of sparse metadata and gather indices. -/

namespace Sys2Proof.Machine

/-! ### What the effect of an operation may change -/

/-- From `s` to `t` an operation has changed free values, memory and dictionary alone: no entry but those of `ks`, and no byte
outside the locations of `W`. -/
structure OpEffect (ks : List Nat) (W : Set Nat) (s t : State) : Prop where
  frame : ∃ k m q, t = { s with free := k, mem := m, dict := q }
  od : SameOd ks s t
  interleaved : t.interleaved = s.interleaved
  bytes : ∀ b, isRegSpace b = false → (∀ a, a ∈ W → s.loc a ≠ s.loc b) → t.byteAt b = s.byteAt b

/-- The addresses of the ranges granted for writing. -/
def writable (rs : List Rng) : Set Nat := { a | ∃ g, g ∈ rs ∧ g.wr = true ∧ g.a ≤ a ∧ a < g.a + g.n }

theorem mem_writable {rs : List Rng} {a n x : Nat} {tile : Bool} (hg : ⟨a, n, true, tile⟩ ∈ rs) (hlo : a ≤ x) (hhi : x < a + n) :
    x ∈ writable rs := ⟨_, hg, rfl, hlo, hhi⟩

namespace OpEffect

variable {ks : List Nat} {W : Set Nat} {rs : List Rng} {s t : State}

theorem refl (s : State) : OpEffect ks W s s := ⟨⟨_, _, _, rfl⟩, fun _ _ _ _ => rfl, rfl, fun _ _ _ => rfl⟩

theorem free (h : OpEffect ks W s t) (k : Nat) : OpEffect ks W s { t with free := k } := by
  obtain ⟨⟨_, _, _, rfl⟩, hod, hil, hbytes⟩ := h
  exact ⟨⟨_, _, _, rfl⟩, hod, hil, hbytes⟩

theorem draw (h : OpEffect ks W s t) : OpEffect ks W s t.draw.2 := h.free _

theorem wr (h : OpEffect ks W s t) {a : Nat} {l : List Byte} (hl : ∀ i, i < l.length → a + i ∈ W) : OpEffect ks W s (t.wr a l) := by
  have hout : ∀ b, isRegSpace b = false → (∀ a, a ∈ W → s.loc a ≠ s.loc b) → (t.wr a l).byteAt b = s.byteAt b := by
    intro b hb hW
    rw [wr_byteAt_out t a b l hb, h.bytes b hb hW]
    intro i hi
    rw [loc_congr h.interleaved, loc_congr h.interleaved]
    exact hW _ (hl i hi)
  obtain ⟨⟨k, m, q, rfl⟩, hod, hil, _⟩ := h
  obtain ⟨m', hwr⟩ := wr_frame { s with free := k, mem := m, dict := q } a l
  rw [hwr] at hout ⊢
  exact ⟨⟨k, m', q, rfl⟩, hod, hil, hout⟩

/-- A write from the start of a range granted for writing. -/
theorem wrRng (h : OpEffect ks (writable rs) s t) {a n : Nat} {tile : Bool} (hg : ⟨a, n, true, tile⟩ ∈ rs) {l : List Byte}
    (hl : l.length ≤ n) : OpEffect ks (writable rs) s (t.wr a l) :=
  h.wr fun _ hi => mem_writable hg (Nat.le_add_right _ _) (Nat.add_lt_add_left (Nat.lt_of_lt_of_le hi hl) a)

/-- A store that fills a range granted for writing. -/
theorem store (h : OpEffect ks (writable rs) s t) {a n : Nat} {tile : Bool} (hg : ⟨a, n, true, tile⟩ ∈ rs) {x : Flg (List Byte)}
    (hx : Yields x (fun l => l.length = n)) : OpEffect ks (writable rs) s (t.wr a (runFlg x).1) :=
  h.wrRng hg hx.runFlg.le

theorem foldl_wr {α : Type} {a : α → Nat} {b : α → List Byte} {l : List α} (h : OpEffect ks W s t)
    (hl : ∀ x, x ∈ l → ∀ i, i < (b x).length → a x + i ∈ W) : OpEffect ks W s (l.foldl (fun u x => u.wr (a x) (b x)) t) :=
  List.foldlRecOn l _ h fun _ hu x hx => hu.wr (hl x hx)

theorem scribble (h : OpEffect ks W s t) {a n : Nat} (hn : ∀ i, i < n → a + i ∈ W) : OpEffect ks W s (t.scribble a n) :=
  h.draw.wr fun i hi => hn i (by rwa [List.length_map, List.length_range] at hi)

theorem bumpOd (h : OpEffect ks W s t) {i j : Nat} (n : Nat) (hk : odKey i j 0 ∈ ks) (hne : odKey i j 0 ≠ odKey 0x2000 0x10 0) :
    OpEffect ks W s (t.bumpOd i j n) := by
  have hil : (t.bumpOd i j n).interleaved = t.interleaved := by
    unfold State.interleaved
    rw [State.bumpOd_od_ne t n 32 hne]
  have hbytes : SameBytes t (t.bumpOd i j n) := SameBytes.of_mem rfl hil rfl
  obtain ⟨⟨_, _, _, rfl⟩, hod, hil', hbytes'⟩ := h
  exact ⟨⟨_, _, _, rfl⟩, hod.bumpOd i j n 32 0 hk, hil.trans hil',
    fun b hb hW => (hbytes.1 b hb).trans (hbytes' b hb hW)⟩

end OpEffect

/-- The entries that count sparse metadata and gather indices of a die. -/
def denseKeys (die : Nat) : List Nat := [odKey (0x4200 + die) 0x21 0, odKey (0x4200 + die) 0x22 0]

theorem odKey_die_ne_interleave (die j : Nat) : odKey (0x4200 + die) j 0 ≠ odKey 0x2000 0x10 0 := by
  unfold odKey
  omega

/-! ### The operations one by one -/

section
variable (s : State) (d : Desc)

theorem gemmRun_effect : OpEffect (denseKeys d.die) (writable (gemmInfo s d).rngs) s (gemmRun s d).1 := by
  have hout : wrTile (d.f 36 6) (matBytes d.outF false (d.f 48 4) (d.f 52 4)) ∈ (gemmInfo s d).rngs := by simp [gemmInfo]
  unfold gemmRun
  dsimp only
  split
  · exact ((OpEffect.refl s).scribble fun i hi => mem_writable hout (Nat.le_add_right _ _) (Nat.add_lt_add_left hi _)).bumpOd 1
      (by simp [denseKeys]) (odKey_die_ne_interleave _ _)
  · exact (OpEffect.refl s).draw.store hout (Yields.after fun m => yields_tileStore_length _ _ _ _ m)

theorem elementwiseRun_effect : OpEffect (denseKeys d.die) (writable (elementwiseInfo s d).rngs) s (elementwiseRun s d).1 := by
  have hout : wrTile (d.f 42 6) (matBytes d.outF false (d.f 48 4) (d.f 52 4)) ∈ (elementwiseInfo s d).rngs := by simp [elementwiseInfo]
  exact (OpEffect.refl s).store hout (Yields.after fun m => yields_tileStore_length _ _ _ _ m)

theorem normaliseRun_effect : OpEffect (denseKeys d.die) (writable (normaliseInfo s d).rngs) s (normaliseRun s d).1 := by
  have hout : wrTile (d.f 30 6) (matBytes d.outF false (d.f 48 4) (d.f 52 4)) ∈ (normaliseInfo s d).rngs := by simp [normaliseInfo]
  unfold normaliseRun
  dsimp only
  refine (OpEffect.refl s).draw.store hout (Yields.after fun m => Yields.ite (.after fun _ => .after fun g => ?_) (.after fun g => ?_))
  all_goals
    exact Yields.ite (.after fun _ => .after fun b => .after fun m => yields_tileStore_length _ _ _ _ m)
      (.after fun b => .after fun m => yields_tileStore_length _ _ _ _ m)

theorem poolRun_effect : OpEffect (denseKeys d.die) (writable (poolInfo s d).rngs) s (poolRun s d).1 := by
  have hout : wrTile (d.f 30 6) (matBytes d.outF false (d.f 36 2 * (poolOutH d).getD 0 * (poolOutW d).getD 0) (d.f 42 4)) ∈
      (poolInfo s d).rngs := by simp [poolInfo]
  unfold poolRun
  dsimp only
  exact (OpEffect.refl s).draw.store hout (Yields.after fun m => Yields.ite (.after fun _ => .after fun m => yields_tileStore_length _ _ _ _ m)
    (.after fun _ => .after fun m => yields_tileStore_length _ _ _ _ m))

theorem gatherRun_effect : OpEffect (denseKeys d.die) (writable (gatherInfo s d).rngs) s (gatherRun s d).1 := by
  have hout : wrTile (d.f 36 6) (matBytes d.outF false (d.f 50 4) (d.f 46 4)) ∈ (gatherInfo s d).rngs := by simp [gatherInfo]
  have hcount : OpEffect (denseKeys d.die) (writable (gatherInfo s d).rngs) s
      (if gatherBad s d = 0 then s else s.bumpOd (0x4200 + d.die) 0x22 (gatherBad s d)) := by
    split
    · exact OpEffect.refl s
    · exact (OpEffect.refl s).bumpOd _ (by simp [denseKeys]) (odKey_die_ne_interleave _ _)
  exact hcount.store hout (Yields.after fun m => yields_tileStore_length _ _ _ _ m)

/-- FP32 elements of a linear operand are four bytes each. -/
theorem linBytes_fp32 (n : Nat) : linBytes 2 n = 4 * n := by
  have hbits : fmtBits 2 = 32 := rfl
  unfold linBytes ceilDiv
  rw [hbits]
  omega

theorem argMaxRun_effect : OpEffect (denseKeys d.die) (writable (argMaxInfo s d).rngs) s (argMaxRun s d).1 := by
  have hidx : wrLin (d.f 30 6) (linBytes d.outF (d.f 42 4)) ∈ (argMaxInfo s d).rngs := by simp [argMaxInfo]
  have hval : (d.f 50 1).testBit 0 = true → wrLin (d.f 36 6) (4 * d.f 42 4) ∈ (argMaxInfo s d).rngs := by
    intro h
    simp [argMaxInfo, h]
  unfold argMaxRun
  dsimp only
  generalize hx : (s.loadMat d.inF (d.f 24 6) (d.f 42 4) (d.f 46 4) >>= _) = x
  have hlen : Yields x (fun p => p.1.length = linBytes d.outF (d.f 42 4) ∧ p.2.length = 4 * d.f 42 4) := by
    rw [← hx]
    refine Yields.after fun m => Yields.ite (.after fun m => ?_) (.after fun m => ?_)
    all_goals
      refine (yields_linStore_length _ _ _).bind fun ib hi => (yields_linStore_length _ _ _).bind fun vb hv => Yields.pure ?_
      simp only [List.length_map, List.length_range, linBytes_fp32] at hi hv
      exact ⟨hi, hv⟩
  obtain ⟨hi, hv⟩ := hlen.runFlg
  split
  · rename_i hbit
    exact ((OpEffect.refl s).draw.wrRng hidx hi.le).wrRng (hval hbit) hv.le
  · exact (OpEffect.refl s).draw.wrRng hidx hi.le

theorem boxRecord_length (c : Cand) : (boxRecord c).length = 32 := by
  simp only [boxRecord, List.length_append, toBytes_length]

theorem boxRun_effect : OpEffect (denseKeys d.die) (writable (boxInfo s d).rngs) s (boxRun s d).1 := by
  have hout : wrLin (d.f 42 6) (32 + 32 * d.f 82 2) ∈ (boxInfo s d).rngs := by simp [boxInfo]
  refine OpEffect.wrRng (OpEffect.wr (OpEffect.refl s) fun i hi => ?_) hout ?_
  · rw [length_flatten_map boxRecord_length, List.length_take] at hi
    exact mem_writable hout (by omega) (by omega)
  · simp only [List.length_append, toBytes_length]
    omega

theorem samplingRun_effect : OpEffect (denseKeys d.die) (writable (samplingInfo s d).rngs) s (samplingRun s d).1 := by
  have htok : wrLin (d.f 30 6) (4 * d.f 42 4) ∈ (samplingInfo s d).rngs := by simp [samplingInfo]
  have hlog : (d.f 52 1).testBit 0 = true → wrLin (d.f 36 6) (4 * d.f 42 4) ∈ (samplingInfo s d).rngs := by
    intro h
    simp [samplingInfo, h]
  unfold samplingRun
  dsimp only
  generalize hx : List.mapM (m := Flg) (β := Nat × Val) _ (List.range (d.f 42 4)) = x
  have hlen : (runFlg x).1.length = d.f 42 4 := by
    rw [← hx, (Yields.mapM_length _ _).runFlg, List.length_range]
  have hbytes (w : Nat × Val → Nat) : ((runFlg x).1.map (fun p => toBytes 4 (w p))).flatten.length ≤ 4 * d.f 42 4 := by
    rw [length_flatten_map fun _ => toBytes_length 4 _, hlen, Nat.mul_comm]
  split
  · rename_i hbit
    exact ((OpEffect.refl s).draw.wrRng htok (hbytes _)).wrRng (hlog hbit) (hbytes _)
  · exact (OpEffect.refl s).draw.wrRng htok (hbytes _)

/-- Rows of a linear side that lie `pitch` apart end where the last one does. -/
theorem packLin_row {f rows cols pitch r i : Nat} (hr : r < rows) (hi : i < linBytes f cols) : r * pitch + i < packLin f rows cols pitch := by
  have hpitch : r * pitch ≤ (rows - 1) * pitch := Nat.mul_le_mul_right _ (by omega)
  unfold packLin packRowBytes
  omega

theorem packRun_effect : OpEffect (denseKeys d.die) (writable (packInfo s d).rngs) s (packRun s d).1 := by
  unfold packRun
  dsimp only
  split
  · rename_i hdir
    have hout : wrTile (d.f 30 6) (matBytes d.outF ((d.f 50 1).testBit 0) (d.f 36 4) (d.f 40 4)) ∈ (packInfo s d).rngs := by
      simp [packInfo, hdir]
    refine (OpEffect.refl s).store hout (Yields.after fun m => ?_)
    split
    · rename_i hsp
      rw [hsp]
      exact yields_sparseStore_length _ _ _ _ m
    · rename_i hsp
      rw [Bool.eq_false_of_not_eq_true hsp]
      exact yields_tileStore_length _ _ _ _ m
  · rename_i hdir
    have hout : wrLin (d.f 30 6) (packLin d.outF (d.f 36 4) (d.f 40 4) (d.f 44 4)) ∈ (packInfo s d).rngs := by
      simp [packInfo, hdir]
    refine (OpEffect.refl s).foldl_wr fun p hp i hi => ?_
    obtain ⟨hrow, hbytes⟩ := List.of_mem_zip hp
    have hlen : p.2.length = linBytes d.outF (d.f 40 4) := by
      refine (Yields.mapM (Q := fun l => l.length = linBytes d.outF (d.f 40 4)) fun r => ?_).runFlg.2 p.2 hbytes
      refine (Yields.mapM_length _ _).bind fun l hl => ?_
      rw [List.length_range] at hl
      exact Yields.ite ((Yields.pure (P := fun l => l.length = d.f 40 4) hl).bind fun l hl => hl ▸ yields_linStore_length _ _ l)
        (((yields_vxeInAll_length _ _ _).bind fun l' hl' => (hl'.trans hl) ▸ yields_linStore_length _ _ l'))
    have hin := packLin_row (pitch := d.f 44 4) (List.mem_range.mp hrow) (hlen ▸ hi)
    exact mem_writable hout (by omega) (by omega)

/-- A chain counts sparse metadata alone; where it writes is left open. -/
theorem convRun_effect : OpEffect [odKey (0x4200 + d.die) 0x21 0] Set.univ s (convRun s d).1 := by
  unfold convRun
  dsimp only
  split
  · exact ((OpEffect.refl s).scribble fun i _ => Set.mem_univ _).bumpOd 1 (List.mem_singleton.mpr rfl) (odKey_die_ne_interleave _ _)
  · exact (((OpEffect.refl s).free _).foldl_wr fun _ _ _ _ => Set.mem_univ _).wr fun _ _ => Set.mem_univ _

end

end Sys2Proof.Machine
end

section
/-! Dense operations and convolution chains complete (R20, R85–R112, R283, R320): what the command of an operation answers, from the
effect of the operation, and what it makes of register reads. -/

namespace Sys2Proof.Machine

/-! ### Reads of register pages (R320) -/

theorem foldl_regs_frame {α : Type} {f : State → α → State} (hf : ∀ u x, ∃ r, f u x = { u with regs := r }) (l : List α) (s : State) :
    ∃ r, l.foldl f s = { s with regs := r } := by
  refine List.foldlRecOn (b := s) (motive := fun u => ∃ r, u = { s with regs := r }) l f ⟨_, rfl⟩ (fun u hu x _ => ?_)
  obtain ⟨r, rfl⟩ := hu
  obtain ⟨r', h⟩ := hf { s with regs := r } x
  exact ⟨r', h⟩

theorem readRC_frame (s : State) (a : Nat) : ∃ r, s.readRC a = { s with regs := r } := by
  unfold State.readRC
  dsimp only
  repeat' split
  all_goals exact ⟨_, rfl⟩

theorem clearReads_frame (s : State) (d : Desc) : ∃ r, s.clearReads d = { s with regs := r } :=
  foldl_regs_frame (fun u a => readRC_frame u a) _ s

theorem showRegs_frame (s : State) (d : Desc) : ∃ r, s.showRegs d = { s with regs := r } := by
  unfold State.showRegs
  split
  · exact ⟨_, rfl⟩
  · exact foldl_regs_frame (fun _ _ => ⟨_, rfl⟩) _ s

/-- Registers that change leave entries, bytes and locations as they are. -/
theorem regs_frame_same {s t : State} (h : ∃ r, t = { s with regs := r }) :
    (∀ ks, SameOd ks s t) ∧ SameBytes s t ∧ ∀ a, t.loc a = s.loc a := by
  obtain ⟨r, rfl⟩ := h
  exact ⟨fun ks => SameOd.of_dict ks rfl, SameBytes.of_dict rfl rfl rfl, fun _ => rfl⟩

/-- The effect of an operation beside its reads of register pages. -/
theorem OpEffect.with_registers {s u : State} {d : Desc} {ks : List Nat} {W : Set Nat} (h : OpEffect ks W (s.showRegs d) u) :
    (∃ k m q r, u.clearReads d = { s with free := k, mem := m, dict := q, regs := r }) ∧ SameOd ks s (u.clearReads d) ∧
    ∀ b, isRegSpace b = false → (∀ a, a ∈ W → s.loc a ≠ s.loc b) → (u.clearReads d).byteAt b = s.byteAt b := by
  obtain ⟨hshowOd, hshowBytes, hloc⟩ := regs_frame_same (showRegs_frame s d)
  obtain ⟨hclearOd, hclearBytes, _⟩ := regs_frame_same (clearReads_frame u d)
  refine ⟨?_, ((hshowOd ks).trans h.od).trans (hclearOd ks), fun b hb hW => ?_⟩
  · obtain ⟨r, hshow⟩ := showRegs_frame s d
    obtain ⟨r', hclear⟩ := clearReads_frame u d
    obtain ⟨k, m, q, hu⟩ := h.frame
    exact ⟨k, m, q, r', by rw [hclear, hu, hshow]⟩
  · calc (u.clearReads d).byteAt b = u.byteAt b := hclearBytes.1 b hb
      _ = (s.showRegs d).byteAt b := h.bytes b hb fun a ha => by rw [hloc, hloc]; exact hW a ha
      _ = s.byteAt b := hshowBytes.1 b hb

theorem showRegs_of_no_reads {s : State} {d : Desc} (h : s.regReads d = []) : s.showRegs d = s := by
  unfold State.showRegs
  rw [h]
  rfl

theorem clearReads_of_no_reads {s : State} {d : Desc} (h : s.regReads d = []) : s.clearReads d = s := by
  unfold State.clearReads
  rw [h]
  rfl

theorem regReads_congr {s t : State} {d : Desc} (h : t.rngsOf d = s.rngsOf d) : t.regReads d = s.regReads d := by
  unfold State.regReads
  rw [h]

/-! ### The end of a running operation -/

section
variable {s : State} {id : Nat} {d : Desc} (hd : s.desc? id = some d) (hst : d.st = .running) (hres : d.result = none)
include hd hst hres

theorem runOp_of_unstopped (hstop : s.stopOf d = none) (f : State → Desc → State × Nat × Nat) :
    s.runOp id d.op anyDesc f = ((f (s.showRegs d) d).1.clearReads d).finish id (f (s.showRegs d) d).2.1 (f (s.showRegs d) d).2.2 := by
  have hon : s.opOn id d.op = some d := by simp [State.opOn, hd, hst, hres]
  have hany : (!anyDesc d) = false := rfl
  simp only [State.runOp, hon, hany, hstop, Bool.false_eq_true, if_false]

/-- An operation that its accesses end has their status and a fault's outcome (R20, R283). -/
theorem done_runOp_of_stopped {st : Nat} (hstop : s.stopOf d = some st) (f : State → Desc → State × Nat × Nat) :
    ∃ t e, s.done (s.runOp id d.op anyDesc f) = .next t ∧ t.desc? id = some e ∧
      e.result = some { status := st, outcome := 9, flags := 0 } := by
  have hend : (s.endDesc id st 0x09).desc? id = some (d.ended st 0x09) := by rw [endDesc_desc, if_pos rfl, hd]; rfl
  rw [runOp_of_stopped hd hst hres hstop]
  exact ⟨_, _, rfl, hend, by simp [Desc.ended, hres]⟩

/-- An operation that no access ends gives its descriptor a result with its status, and changes beside it no more than its effect
does; where it reads no register none changes. -/
theorem done_runOp_of_effect (hs : Invariant s) (hstop : s.stopOf d = none) {f : State → Desc → State × Nat × Nat} {ks : List Nat}
    {W : Set Nat} (heff : ∀ u, OpEffect ks W u (f u d).1) (hrngs : ∀ u : State, u.rngsOf d = s.rngsOf d) :
    ∃ t r, s.done (s.runOp id d.op anyDesc f) = .next t ∧
      t = { s with free := t.free, mem := t.mem, dict := t.dict, regs := t.regs, descs := t.descs } ∧ SameOd ks s t ∧
      t.desc? id = some { d with result := some r } ∧ r.outcome = 0 ∧ (∀ j, j ≠ id → t.desc? j = s.desc? j) ∧
      (∀ b, isRegSpace b = false → (∀ a, a ∈ W → s.loc a ≠ s.loc b) → t.byteAt b = s.byteAt b) ∧
      (s.regReads d = [] → t.regs = s.regs ∧ r.status = (f s d).2.1) := by
  have hquiet : s.regReads d = [] → ((f (s.showRegs d) d).1.clearReads d).regs = s.regs ∧ (f (s.showRegs d) d).2.1 = (f s d).2.1 := by
    intro hreg
    obtain ⟨k, m, q, hframe⟩ := (heff s).frame
    rw [showRegs_of_no_reads hreg, clearReads_of_no_reads ((regReads_congr (hrngs _)).trans hreg), hframe]
    exact ⟨rfl, rfl⟩
  obtain ⟨⟨k, m, q, r, hframe⟩, hod, hbytes⟩ := (heff (s.showRegs d)).with_registers
  rw [runOp_of_unstopped hd hst hres hstop]
  generalize (f (s.showRegs d) d).1.clearReads d = u at hquiet hframe hod hbytes ⊢
  have hdesc (j : Nat) : u.desc? j = s.desc? j := by rw [hframe]; rfl
  have hflash : u.flash = s.flash := by rw [hframe]
  have hpending : u.pending = s.pending := by rw [hframe]
  refine ⟨_, _, State.done_of_flash hs hpending hflash, ?_, hod.trans (SameOd.of_dict ks rfl),
    (State.updDesc_desc u id id _).trans ((if_pos rfl).trans (congrArg (Option.map _) ((hdesc id).trans hd))), rfl,
    fun j hj => ((State.updDesc_desc u id j _).trans (if_neg (Ne.symm hj))).trans (hdesc j), fun b hb hW => ?_, hquiet⟩
  · rw [hframe]; rfl
  · rw [canon_byteAt, ← hbytes b hb hW]; rfl

end

/-! ### The arms -/

/-- The status that a dense operation ends with (R84, R106). -/
def denseStatus (s : State) (d : Desc) : Nat :=
  if d.op = 0x0001 then
    (if (d.f 61 1).testBit 1 = true ∧ s.sparseOk (d.f 60 1) (d.f 30 6) (d.f 52 4) (d.f 56 4) = false then 0x0541 else 0)
  else if d.op = 0x0040 then (if gatherBad s d = 0 then 0 else 0x0121) else 0

/-- Command `i` runs operation `f` of descriptor `id`, whose effect stays within the ranges that its check grants for writing. -/
structure DenseArm (i : Instr) (id : Nat) (d : Desc) (f : State → Desc → State × Nat × Nat) : Prop where
  exec_eq : ∀ s, exec i s = s.done (s.runOp id d.op anyDesc f)
  rngsOf_eq : ∀ s u : State, u.rngsOf d = s.rngsOf d
  effect : ∀ s : State, OpEffect (denseKeys d.die) (writable (s.rngsOf d)) s (f s d).1
  status : ∀ s, (f s d).2.1 = denseStatus s d

/-- Such a command from its parts, where its check grants ranges by the descriptor alone. -/
theorem DenseArm.of_info {i : Instr} {id : Nat} {d : Desc} {f : State → Desc → State × Nat × Nat} {info : State → Desc → OpInfo}
    (hexec : ∀ s, exec i s = s.done (s.runOp id d.op anyDesc f)) (hinfo : ∀ s, opInfo s d = some (info s d))
    (hsame : ∀ s u, info u d = info s d) (heff : ∀ s, OpEffect (denseKeys d.die) (writable (info s d).rngs) s (f s d).1)
    (hstatus : ∀ s, (f s d).2.1 = denseStatus s d) : DenseArm i id d f := by
  have hrngs (s : State) : s.rngsOf d = (info s d).rngs := by
    unfold State.rngsOf
    rw [hinfo]
  exact ⟨hexec, fun s u => by rw [hrngs, hrngs, hsame s u], fun s => hrngs s ▸ heff s, hstatus⟩

theorem denseStatus_of_other {s : State} {d : Desc} (h : d.op ≠ 0x0001) (h' : d.op ≠ 0x0040) : denseStatus s d = 0 := by
  rw [denseStatus, if_neg h, if_neg h']

theorem gemmRun_status (s : State) (d : Desc) : (gemmRun s d).2.1 =
    if (d.f 61 1).testBit 1 = true ∧ s.sparseOk (d.f 60 1) (d.f 30 6) (d.f 52 4) (d.f 56 4) = false then 0x0541 else 0 := by
  simp only [← Bool.not_eq_true']
  simp only [← Bool.and_eq_true]
  unfold gemmRun
  dsimp only
  split <;> rfl

theorem packRun_status (s : State) (d : Desc) : (packRun s d).2.1 = 0 := by
  unfold packRun
  dsimp only
  split <;> rfl

theorem convRun_status (s : State) (d : Desc) : (convRun s d).2.1 =
    if convSparseOk s d.tbl = false then 0x0541 else if d.stage = 1 then 0x0120 else 0 := by
  unfold convRun
  dsimp only
  cases convSparseOk s d.tbl <;> rfl

section
variable (id : Nat) {d : Desc}

theorem denseArm_gemm (h : d.op = 0x0001) : DenseArm (.gemm id) id d gemmRun :=
  .of_info (fun s => by rw [h]; rfl) (fun s => by simp [opInfo, h]) (fun _ _ => rfl) (fun s => gemmRun_effect s d)
    (fun s => (gemmRun_status s d).trans (if_pos h).symm)

theorem denseArm_gatherRows (h : d.op = 0x0040) : DenseArm (.gatherRows id) id d gatherRun :=
  .of_info (fun s => by rw [h]; rfl) (fun s => by simp [opInfo, h]) (fun _ _ => rfl) (fun s => gatherRun_effect s d)
    (fun s => by rw [denseStatus, if_neg (by omega), if_pos h]; rfl)

theorem denseArm_elementwise (h : d.op = 0x0010) : DenseArm (.elementwise id) id d elementwiseRun :=
  .of_info (fun s => by rw [h]; rfl) (fun s => by simp [opInfo, h]) (fun _ _ => rfl) (fun s => elementwiseRun_effect s d)
    (fun s => Eq.trans rfl (denseStatus_of_other (by omega) (by omega)).symm)

theorem denseArm_normalise (h : d.op = 0x0018) : DenseArm (.normalise id) id d normaliseRun :=
  .of_info (fun s => by rw [h]; rfl) (fun s => by simp [opInfo, h]) (fun _ _ => rfl) (fun s => normaliseRun_effect s d)
    (fun s => Eq.trans rfl (denseStatus_of_other (by omega) (by omega)).symm)

theorem denseArm_pool (h : d.op = 0x0020) : DenseArm (.pool id) id d poolRun :=
  .of_info (fun s => by rw [h]; rfl) (fun s => by simp [opInfo, h]) (fun _ _ => rfl) (fun s => poolRun_effect s d)
    (fun s => Eq.trans rfl (denseStatus_of_other (by omega) (by omega)).symm)

theorem denseArm_channelArgMax (h : d.op = 0x0050) : DenseArm (.channelArgMax id) id d argMaxRun :=
  .of_info (fun s => by rw [h]; rfl) (fun s => by simp [opInfo, h]) (fun _ _ => rfl) (fun s => argMaxRun_effect s d)
    (fun s => Eq.trans rfl (denseStatus_of_other (by omega) (by omega)).symm)

theorem denseArm_boxDecode (h : d.op = 0x0058) : DenseArm (.boxDecode id) id d boxRun :=
  .of_info (fun s => by rw [h]; rfl) (fun s => by simp [opInfo, h]) (fun _ _ => rfl) (fun s => boxRun_effect s d)
    (fun s => Eq.trans rfl (denseStatus_of_other (by omega) (by omega)).symm)

theorem denseArm_tokenSampling (h : d.op = 0x0060) : DenseArm (.tokenSampling id) id d samplingRun :=
  .of_info (fun s => by rw [h]; rfl) (fun s => by simp [opInfo, h]) (fun _ _ => rfl) (fun s => samplingRun_effect s d)
    (fun s => Eq.trans rfl (denseStatus_of_other (by omega) (by omega)).symm)

theorem denseArm_tilePack (h : d.op = 0x0070) : DenseArm (.tilePack id) id d packRun :=
  .of_info (fun s => by rw [h]; rfl) (fun s => by simp [opInfo, h]) (fun _ _ => rfl) (fun s => packRun_effect s d)
    (fun s => Eq.trans (packRun_status s d) (denseStatus_of_other (by omega) (by omega)).symm)

/-- Every dense operation is such a command. -/
theorem exists_denseArm {i : Instr}
    (h : (i = .gemm id ∧ d.op = 0x0001) ∨ (i = .elementwise id ∧ d.op = 0x0010) ∨ (i = .normalise id ∧ d.op = 0x0018) ∨
      (i = .pool id ∧ d.op = 0x0020) ∨ (i = .gatherRows id ∧ d.op = 0x0040) ∨ (i = .channelArgMax id ∧ d.op = 0x0050) ∨
      (i = .boxDecode id ∧ d.op = 0x0058) ∨ (i = .tokenSampling id ∧ d.op = 0x0060) ∨ (i = .tilePack id ∧ d.op = 0x0070)) :
    ∃ f, DenseArm i id d f := by
  obtain ⟨rfl, h⟩ | ⟨rfl, h⟩ | ⟨rfl, h⟩ | ⟨rfl, h⟩ | ⟨rfl, h⟩ | ⟨rfl, h⟩ | ⟨rfl, h⟩ | ⟨rfl, h⟩ | ⟨rfl, h⟩ := h
  · exact ⟨_, denseArm_gemm id h⟩
  · exact ⟨_, denseArm_elementwise id h⟩
  · exact ⟨_, denseArm_normalise id h⟩
  · exact ⟨_, denseArm_pool id h⟩
  · exact ⟨_, denseArm_gatherRows id h⟩
  · exact ⟨_, denseArm_channelArgMax id h⟩
  · exact ⟨_, denseArm_boxDecode id h⟩
  · exact ⟨_, denseArm_tokenSampling id h⟩
  · exact ⟨_, denseArm_tilePack id h⟩

end

end Sys2Proof.Machine

namespace Sys2Proof

open Sys2Proof.Machine

section
variable {s : State} {id : Nat} {d : Desc} (hs : Invariant s) (hd : s.desc? id = some d) (hst : d.st = .running) (hres : d.result = none)
include hs hd hst hres

/-- A dense operation that no access ends completes within its grants. -/
theorem exec_dense {i : Instr} {f : State → Desc → State × Nat × Nat} (ha : DenseArm i id d f) (hstop : s.stopOf d = none) :
    ∃ t r, exec i s = .next t ∧
      t = { s with free := t.free, mem := t.mem, dict := t.dict, regs := t.regs, descs := t.descs } ∧ SameOd (denseKeys d.die) s t ∧
      t.desc? id = some { d with result := some r } ∧ r.outcome = 0 ∧ (∀ j, j ≠ id → t.desc? j = s.desc? j) ∧
      (∀ b, isRegSpace b = false → (∀ g, g ∈ s.rngsOf d → g.wr = true → ∀ k, k < g.n → s.loc (g.a + k) ≠ s.loc b) →
        t.byteAt b = s.byteAt b) ∧
      (s.regReads d = [] → t.regs = s.regs ∧ r.status = denseStatus s d) := by
  obtain ⟨t, r, hnext, hframe, hod, hdesc, hout, hother, hbytes, hquiet⟩ := done_runOp_of_effect hd hst hres hs hstop
    (W := writable (s.rngsOf d)) (fun u => ha.rngsOf_eq s u ▸ ha.effect u) (ha.rngsOf_eq s)
  refine ⟨t, r, (ha.exec_eq s).trans hnext, hframe, hod, hdesc, hout, hother, fun b hb hW => hbytes b hb ?_, ha.status s ▸ hquiet⟩
  rintro a ⟨g, hg, hw, hlo, hhi⟩
  rw [← Nat.add_sub_cancel' hlo]
  exact hW g hg hw _ (by omega)

/-- A convolution chain that no access ends completes. -/
theorem exec_convolutionChain (hop : d.op = 0x0030) (hstop : s.stopOf d = none) :
    ∃ t r, exec (.convolutionChain id) s = .next t ∧
      t = { s with free := t.free, mem := t.mem, dict := t.dict, regs := t.regs, descs := t.descs } ∧
      t.desc? id = some { d with result := some r } ∧ r.outcome = 0 ∧ (∀ j, j ≠ id → t.desc? j = s.desc? j) ∧
      SameOd [odKey (0x4200 + d.die) 0x21 0] s t ∧
      (s.regReads d = [] → t.regs = s.regs ∧
        r.status = (if convSparseOk s d.tbl = false then 0x0541 else if d.stage = 1 then 0x0120 else 0)) := by
  have hrngs (u : State) : u.rngsOf d = (convInfo u d).rngs := by simp [State.rngsOf, opInfo, hop]
  have hexec : exec (.convolutionChain id) s = s.done (s.runOp id d.op anyDesc convRun) := by rw [hop]; rfl
  obtain ⟨t, r, hnext, hframe, hod, hdesc, hout, hother, _, hquiet⟩ := done_runOp_of_effect hd hst hres hs hstop
    (fun u => convRun_effect u d) (fun u => by rw [hrngs, hrngs]; rfl)
  exact ⟨t, r, hexec.trans hnext, hframe, hdesc, hout, hother, hod, convRun_status s d ▸ hquiet⟩

/-- A wait for row flags of over 100 µs is counted and noticed. -/
theorem exec_haloFlagWaitEnd_long {ns : Nat} (hop : d.op = 0x0030) (hex : d.f 53 1 % 2 = 1) (hns : 100000 < ns) :
    ∃ t, exec (.haloFlagWaitEnd id ns) s = .next t ∧ t = { s with dict := t.dict, descs := t.descs } ∧ SameBytes s t ∧
      SameOd [odKey (0x4200 + d.die) 0x20 0] s t ∧
      t.od (0x4200 + d.die) 0x20 = (s.od (0x4200 + d.die) 0x20 + 1) % 2 ^ 32 ∧
      t.desc? id = some { d with stage := 1 } ∧ ∀ j, j ≠ id → t.desc? j = s.desc? j := by
  have hon : s.opOn id 0x0030 = some d := by simp [State.opOn, hd, hst, hres, hop]
  have hwait : s.haloWait id ns = (s.bumpOd (0x4200 + d.die) 0x20).updDesc id (fun d => { d with stage := 1 }) := by
    simp only [State.haloWait, hon, hex, hns, and_self, if_true]
  have hexec : exec (.haloFlagWaitEnd id ns) s = s.done (s.haloWait id ns) := rfl
  have heff : OpEffect [odKey (0x4200 + d.die) 0x20 0] ∅ s (s.bumpOd (0x4200 + d.die) 0x20) :=
    (OpEffect.refl s).bumpOd 1 (List.mem_singleton.mpr rfl) (odKey_die_ne_interleave _ _)
  rw [hexec, hwait]
  exact ⟨_, State.done_of_same hs rfl rfl rfl, rfl, SameBytes.of_mem rfl heff.interleaved rfl, heff.od.trans (SameOd.of_dict _ rfl),
    State.bumpOd_od_self s _ _ 1 32 0, (State.updDesc_desc _ id id _).trans ((if_pos rfl).trans (congrArg (Option.map _) hd)),
    fun j hj => (State.updDesc_desc _ id j _).trans (if_neg (Ne.symm hj))⟩

/-- A shorter one leaves no trace. -/
theorem exec_haloFlagWaitEnd_short {ns : Nat} (hop : d.op = 0x0030) (hns : ns ≤ 100000) : exec (.haloFlagWaitEnd id ns) s = .next s := by
  have hon : s.opOn id 0x0030 = some d := by simp [State.opOn, hd, hst, hres, hop]
  have hwait : s.haloWait id ns = s := by
    simp only [State.haloWait, hon, not_lt.mpr hns, and_false, if_false]
  have hexec : exec (.haloFlagWaitEnd id ns) s = s.done (s.haloWait id ns) := rfl
  rw [hexec, hwait]
  exact State.done_of_same hs rfl rfl rfl

end

/-- Settles O27. Each dense operation writes as many bytes as the check of its descriptor takes its output ranges for, whatever the
operands; register reads touch register pages alone, and the result comes with the status of the operation. -/
theorem denseOperations : Obligations.DenseOperations := by
  unfold Obligations.DenseOperations
  refine ⟨fun s id d i hs hd hst hres hi => ?_, fun s id ns d hs hd hst hres hop hstop => ⟨?_, fun hex => ⟨fun hns => ?_, fun hns => ?_⟩⟩⟩
  · obtain ⟨f, ha⟩ := exists_denseArm id hi
    refine ⟨fun st hstop => ?_, fun hstop => exec_dense hs hd hst hres ha hstop⟩
    rw [ha.exec_eq s]
    exact done_runOp_of_stopped hd hst hres hstop f
  · exact exec_convolutionChain hs hd hst hres hop hstop
  · exact exec_haloFlagWaitEnd_long hs hd hst hres hop hex hns
  · exact exec_haloFlagWaitEnd_short hs hd hst hres hop hns

end Sys2Proof
end

section
/-! Fused attention and the partial merge (R120, R126–R132): what they write, what they count, and which pages become as old as the
read. -/

namespace Sys2Proof.Machine

/-! ### The end of a command that finishes a descriptor -/

/-- A descriptor that finishes in state `u` has its result there, and nothing else changes but that memory is in canonical form. -/
theorem done_finish {s u : State} (hs : Invariant s) (hp : u.pending = s.pending) (hf : u.flash = s.flash) {id : Nat} {d : Desc}
    (hd : u.desc? id = some d) (st fl : Nat) :
    ∃ t, s.done (u.finish id st fl) = .next t ∧ t = { u with mem := t.mem, descs := t.descs } ∧
      t.desc? id = some { d with result := some { status := st, outcome := 0, flags := fl } } ∧
      (∀ j, j ≠ id → t.desc? j = u.desc? j) ∧ ∀ b, t.byteAt b = u.byteAt b :=
  ⟨_, State.done_of_flash hs hp hf, rfl, (State.updDesc_desc u id id _).trans ((if_pos rfl).trans (congrArg (Option.map _) hd)),
    fun j hj => (State.updDesc_desc u id j _).trans (if_neg (Ne.symm hj)), fun b => canon_byteAt (u.finish id st fl) b⟩

/-! ### Bytes of records and rows (R129, R131) -/

theorem yields_loadMat_length (s : State) (f a rs cs : Nat) : Yields (s.loadMat f a rs cs) (fun m => m.length = rs) := by
  have h := Yields.mapM_length (List.range rs) (fun r => (List.range cs).mapM (fun c => s.elemAt f a cs r c))
  rwa [List.length_range] at h

theorem yields_attnRows_length (s : State) (d : Desc) (k seg : Nat) : Yields (attnRows s d k seg) (fun l => l.length = attnR d) := by
  refine Yields.after fun c2 => (yields_loadMat_length s _ _ _ _).bind fun qs hqs => ?_
  have hlen : ((List.range (attnR d)).zip qs).length = attnR d := by rw [List.length_zip, List.length_range, hqs, min_self]
  have h := Yields.mapM_length (β := AttnRow) ((List.range (attnR d)).zip qs)
  rw [hlen] at h
  exact h _

/-- A segment record is as long as the stride of its rows. -/
theorem yields_segRecord_length (rows : List AttnRow) {hd : Nat} (h : hd % 32 = 0) :
    Yields (segRecord rows hd) (fun l => l.length = segStride rows.length hd) := by
  refine (yields_tileStore_length 2 true rows.length hd _).bind fun o ho => Yields.pure ?_
  have hpair (r : AttnRow) : (toBytes 4 (bits32 r.m) ++ toBytes 4 (bits32 r.l)).length = 8 := by
    rw [List.length_append, toBytes_length, toBytes_length]
  have hmat : matBytes 2 false rows.length hd = ceilDiv rows.length 32 * (hd / 32) * 4096 := by
    have hcols : ceilDiv hd 32 = hd / 32 := by unfold ceilDiv; omega
    unfold matBytes
    rw [hcols]
    rfl
  have hpad : rows.length * 8 ≤ roundUp (8 * rows.length) 64 := by unfold roundUp; omega
  rw [hmat] at ho
  simp only [List.length_append, length_flatten_map hpair, List.length_replicate, ho, segStride]
  omega

/-! ### What a read of pages marks (R120) -/

theorem touchPages_frame (s : State) (hs : List Nat) : ∃ p, s.touchPages hs = { s with pages := p } := by
  refine List.foldlRecOn (b := s) (motive := fun u => ∃ p, u = { s with pages := p }) _ _ ⟨_, rfl⟩ (fun u hu h _ => ?_)
  obtain ⟨p, rfl⟩ := hu
  split <;> exact ⟨_, rfl⟩

/-- Pages that are read and not Free are as old as the moment. -/
theorem touchPages_page (s : State) (hs : List Nat) (h : Nat) : (s.touchPages hs).page h =
    if h ∈ hs ∧ (s.page h).st ≠ .free then { s.page h with stamp := s.carTime } else s.page h := by
  induction hs generalizing s with
  | nil => simp [State.touchPages]
  | cons x hs ih =>
    have hstep : s.touchPages (x :: hs) =
        (if (s.page x).st = .free then s else s.setPage x { s.page x with stamp := s.carTime }).touchPages hs := rfl
    rw [hstep, ih]
    by_cases hfree : (s.page x).st = .free
    · rw [if_pos hfree]
      by_cases hx : h = x
      · subst hx
        simp [hfree]
      · simp [hx]
    · have htime : (s.setPage x { s.page x with stamp := s.carTime }).carTime = s.carTime := rfl
      rw [if_neg hfree, htime, State.setPage_page]
      by_cases hx : x = h
      · subst hx
        simp [hfree]
      · simp [hx, Ne.symm hx]

theorem baseCAR_not_mem_viewRegs : baseCAR ∉ viewRegs := by decide +kernel

theorem syncRegs_carTime (s : State) : s.syncRegs.carTime = s.carTime := by
  refine List.foldlRecOn (motive := fun (u : State) => u.carTime = s.carTime) viewRegs _ rfl (fun u hu a ha => ?_)
  have hne : a ≠ baseCAR := fun e => baseCAR_not_mem_viewRegs (e ▸ ha)
  exact ((State.setReg_reg u a _ baseCAR).trans (if_neg hne)).trans hu

theorem showRegs_carTime (s : State) (d : Desc) : (s.showRegs d).carTime = s.carTime := by
  unfold State.showRegs
  split
  · rfl
  · exact syncRegs_carTime s

theorem showRegs_page (s : State) (d : Desc) (h : Nat) : (s.showRegs d).page h = s.page h := by
  obtain ⟨r, hr⟩ := showRegs_frame s d
  rw [hr]
  rfl

/-! ### What the rows leave (R129–R132) -/

/-- An operation on query rows ends 0x0000 and counts nothing, or it ends 0x0130 and counts the rows that see no position; it writes
within `W`. -/
def CountsEmpty (die : Nat) (W : Set Nat) (s : State) (r : State × Nat × Nat) : Prop :=
  (r.2.1 = 0 ∧ OpEffect [] W s r.1) ∨ (r.2.1 = 0x0130 ∧ OpEffect [odKey (0x4200 + die) 0x30 0] W s r.1)

/-- The rows that see no position are counted and the output is stored. -/
theorem countsEmpty_store (s : State) (die e fl : Nat) {rs : List Rng} {a n : Nat} {tile : Bool} (hg : ⟨a, n, true, tile⟩ ∈ rs)
    {l : List Byte} (hl : l.length ≤ n) :
    CountsEmpty die (writable rs) s
      ((if e = 0 then s else s.bumpOd (0x4200 + die) 0x30 e).wr a l, if e = 0 then 0x0000 else 0x0130, fl) := by
  by_cases he : e = 0
  · refine Or.inl ⟨if_pos he, ?_⟩
    rw [if_pos he]
    exact (OpEffect.refl s).wrRng hg hl
  · refine Or.inr ⟨if_neg he, ?_⟩
    rw [if_neg he]
    exact ((OpEffect.refl s).bumpOd e (List.mem_singleton.mpr rfl) (odKey_die_ne_interleave _ _)).wrRng hg hl

theorem attnRun_effect (s : State) {d : Desc} (hhd : (attnGeom d).hd % 32 = 0) :
    CountsEmpty d.die (writable (attnInfo s d).rngs) (s.draw.2.touchPages d.pages) (attnRun s d) := by
  unfold attnRun
  dsimp only
  split
  · rename_i hsplit
    have hout : wrTile (d.f 42 6 + d.f 89 1 * segStride (attnR d) (attnGeom d).hd) (d.f 88 1 * segStride (attnR d) (attnGeom d).hd) ∈
        (attnInfo s d).rngs := by simp [attnInfo, hsplit]
    refine Or.inl ⟨rfl, (OpEffect.refl _).foldl_wr fun p hp i hi => ?_⟩
    obtain ⟨hseg, hrec⟩ := List.of_mem_zip hp
    have hlen : p.2.length = segStride (attnR d) (attnGeom d).hd := by
      refine (Yields.mapM (Q := fun l => l.length = segStride (attnR d) (attnGeom d).hd) fun seg => ?_).runFlg.2 p.2 hrec
      exact (yields_attnRows_length s d _ seg).bind fun rows hrows => hrows ▸ yields_segRecord_length rows hhd
    have hlast : (p.1 + 1) * segStride (attnR d) (attnGeom d).hd ≤ d.f 88 1 * segStride (attnR d) (attnGeom d).hd :=
      Nat.mul_le_mul_right _ (List.mem_range.mp hseg)
    rw [Nat.add_mul, Nat.one_mul] at hlast
    rw [Nat.add_mul]
    exact mem_writable hout (by omega) (by omega)
  · rename_i hsplit
    have hout : wrTile (d.f 30 6) (matBytes d.outF false (attnR d) (attnGeom d).hd) ∈ (attnInfo s d).rngs := by
      simp [attnInfo, hsplit]
    generalize hx : (attnRows s d s.draw.1 0 >>= _) = x
    have hlen : Yields x (fun p => p.1.length = matBytes d.outF false (attnR d) (attnGeom d).hd) := by
      rw [← hx]
      exact .after fun rows => .after fun out => (yields_tileStore_length _ _ _ _ out).bind fun b hb => Yields.pure hb
    exact countsEmpty_store _ d.die _ _ hout hlen.runFlg.le

theorem mergeRun_effect (s : State) (d : Desc) : CountsEmpty d.die (writable (mergeInfo s d).rngs) s (mergeRun s d) := by
  have hout : wrTile (d.f 30 6) (matBytes d.outF false (d.f 36 4) (d.f 40 2)) ∈ (mergeInfo s d).rngs := by simp [mergeInfo]
  unfold mergeRun
  dsimp only
  generalize hx : (List.mapM (m := Flg) (β := Option (List Val)) _ (List.range (d.f 36 4)) >>= _) = x
  have hlen : Yields x (fun p => p.1.length = matBytes d.outF false (d.f 36 4) (d.f 40 2)) := by
    rw [← hx]
    exact .after fun rows => (yields_tileStore_length _ _ _ _ _).bind fun b hb => Yields.pure hb
  exact countsEmpty_store s d.die _ _ hout hlen.runFlg.le

/-! ### What holds where memory and dictionary are the same -/

theorem interleaved_of_dict {s t : State} (hd : t.dict = s.dict) : t.interleaved = s.interleaved := by
  simp only [State.interleaved, State.od, hd]

theorem byteAt_of_mem {s t : State} (hm : t.mem = s.mem) (hd : t.dict = s.dict) {b : Nat} (hb : isRegSpace b = false) :
    t.byteAt b = s.byteAt b := by
  simp only [State.byteAt, hb, loc_congr (interleaved_of_dict hd), hm, Bool.false_eq_true, if_false]

/-- The effect of an operation, between states with the memory and the entries of its ends. -/
theorem OpEffect.between {ks : List Nat} {W : Set Nat} {s v x y : State} (h : OpEffect ks W v x) (hvm : v.mem = s.mem)
    (hvd : v.dict = s.dict) (hym : y.mem = x.mem) (hyd : y.dict = x.dict) :
    SameOd ks s y ∧ ∀ b, isRegSpace b = false → (∀ a, a ∈ W → s.loc a ≠ s.loc b) → y.byteAt b = s.byteAt b := by
  refine ⟨((SameOd.of_dict ks hvd).trans h.od).trans (SameOd.of_dict ks hyd), fun b hb hW => ?_⟩
  have hloc (a : Nat) : v.loc a = s.loc a := loc_congr (interleaved_of_dict hvd) a
  calc y.byteAt b = x.byteAt b := byteAt_of_mem hym hyd hb
    _ = v.byteAt b := h.bytes b hb fun a ha => by rw [hloc, hloc]; exact hW a ha
    _ = s.byteAt b := byteAt_of_mem hvm hvd hb

theorem CountsEmpty.effect {die : Nat} {W : Set Nat} {s : State} {r : State × Nat × Nat} (h : CountsEmpty die W s r) :
    (r.2.1 = 0 ∨ r.2.1 = 0x0130) ∧ OpEffect [odKey (0x4200 + die) 0x30 0] W s r.1 := by
  obtain ⟨hst, hframe, hod, hil, hbytes⟩ | ⟨hst, heff⟩ := h
  · exact ⟨Or.inl hst, hframe, fun i j k _ => hod i j k List.not_mem_nil, hil, hbytes⟩
  · exact ⟨Or.inr hst, heff⟩

theorem CountsEmpty.od_of_status {die : Nat} {W : Set Nat} {s : State} {r : State × Nat × Nat} (h : CountsEmpty die W s r)
    (hst : r.2.1 = 0) : r.1.od (0x4200 + die) 0x30 = s.od (0x4200 + die) 0x30 := by
  obtain ⟨_, heff⟩ | ⟨hst', _⟩ := h
  · exact heff.od _ _ _ List.not_mem_nil
  · omega

end Sys2Proof.Machine

namespace Sys2Proof

open Sys2Proof.Machine

section
variable {s : State} {id : Nat} {d : Desc} (hs : Invariant s) (hd : s.desc? id = some d) (hst : d.st = .running) (hres : d.result = none)
  (hstop : s.stopOf d = none)
include hs hd hst hres hstop

/-- An operation on query rows whose pages are read completes within its grants. `w` is the state in which it has read them. -/
theorem exec_rows {i : Instr} {f : State → Desc → State × Nat × Nat} {w : State} (hexec : exec i s = s.done (s.runOp id d.op anyDesc f))
    (hrngs : ∀ u : State, u.rngsOf d = s.rngsOf d) (hw : ∃ k p, w = { s.showRegs d with free := k, pages := p }) {pg : Nat → Page}
    (hpg : ∀ h, w.page h = pg h) (hf : CountsEmpty d.die (writable (s.rngsOf d)) w (f (s.showRegs d) d)) :
    ∃ t r, exec i s = .next t ∧
      t = { s with free := t.free, mem := t.mem, dict := t.dict, regs := t.regs, descs := t.descs, pages := t.pages } ∧
      (∀ h, t.page h = pg h) ∧ t.desc? id = some { d with result := some r } ∧ r.outcome = 0 ∧ (r.status = 0 ∨ r.status = 0x0130) ∧
      (∀ j, j ≠ id → t.desc? j = s.desc? j) ∧ SameOd [odKey (0x4200 + d.die) 0x30 0] s t ∧
      (r.status = 0 → t.od (0x4200 + d.die) 0x30 = s.od (0x4200 + d.die) 0x30) ∧ (s.regReads d = [] → t.regs = s.regs) ∧
      (∀ b, isRegSpace b = false →
        (∀ g, g ∈ s.rngsOf d → g.wr = true → ∀ k, k < g.n → s.loc (g.a + k) ≠ s.loc b) → t.byteAt b = s.byteAt b) := by
  obtain ⟨hstatus, heff⟩ := hf.effect
  have hcount := hf.od_of_status
  rw [hexec, runOp_of_unstopped hd hst hres hstop]
  generalize f (s.showRegs d) d = r at hstatus heff hcount ⊢
  obtain ⟨k, p, rfl⟩ := hw
  have hpages : ∀ h, AMap.getD h Page.zero p = pg h := hpg
  obtain ⟨c, hclear⟩ := clearReads_frame r.1 d
  obtain ⟨c', hshow⟩ := showRegs_frame s d
  obtain ⟨k', m, q, hr⟩ := heff.frame
  have hframe : r.1.clearReads d = { s with free := k', mem := m, dict := q, regs := c, pages := p } := by
    rw [hclear, hr, hshow]
  have hquiet : s.regReads d = [] → (r.1.clearReads d).regs = s.regs := fun hreg => by
    rw [clearReads_of_no_reads ((regReads_congr (hrngs _)).trans hreg), hr, showRegs_of_no_reads hreg]
  obtain ⟨hod, hbytes⟩ := heff.between (s := s) (y := r.1.clearReads d) (by rw [hshow]) (by rw [hshow]) (by rw [hclear]) (by rw [hclear])
  have hcount' : r.2.1 = 0 → (r.1.clearReads d).od (0x4200 + d.die) 0x30 = s.od (0x4200 + d.die) 0x30 := fun h => by
    rw [hclear]
    refine (hcount h).trans ?_
    rw [hshow]
    rfl
  generalize r.1.clearReads d = u at hframe hquiet hod hbytes hcount' ⊢
  obtain ⟨t, hnext, ht, hdesc, hother, hsame⟩ := done_finish hs (u := u) (by rw [hframe]) (by rw [hframe]) (id := id) (d := d)
    (by rw [hframe]; exact hd) r.2.1 r.2.2
  have htd : t.dict = u.dict := by rw [ht]
  refine ⟨t, _, hnext, ?_, fun h => ?_, hdesc, rfl, hstatus, fun j hj => (hother j hj).trans ?_, hod.trans (SameOd.of_dict _ htd), fun h => ?_,
    fun h => ?_, fun b hb hW => (hsame b).trans (hbytes b hb ?_)⟩
  · rw [ht, hframe]
  · rw [← hpages h, State.page, ht, hframe]
  · rw [hframe]
    rfl
  · rw [← hcount' h, State.od, State.od, htd]
  · rw [ht]
    exact hquiet h
  · rintro a ⟨g, hg, hwr, hlo, hhi⟩
    rw [← Nat.add_sub_cancel' hlo]
    exact hW g hg hwr _ (by omega)

end

/-- Settles O29. Every segment record and every output has the length that its check granted; only the rows that see no position are
counted, and they make the status 0x0130. -/
theorem attentionAndMerge : Obligations.AttentionAndMerge := by
  unfold Obligations.AttentionAndMerge
  intro s id d i hs hd hst hres hstop hi
  obtain ⟨rfl, hop, hhd⟩ | ⟨rfl, hop⟩ := hi
  · have hrngs (u : State) : u.rngsOf d = (attnInfo u d).rngs := by simp [State.rngsOf, opInfo, hop]
    have hpage (h : Nat) := touchPages_page (s.showRegs d).draw.2 d.pages h
    obtain ⟨p, hp⟩ := touchPages_frame (s.showRegs d).draw.2 d.pages
    have hshow (h : Nat) : (s.showRegs d).draw.2.page h = s.page h := showRegs_page s d h
    have htime : (s.showRegs d).draw.2.carTime = s.carTime := showRegs_carTime s d
    simp only [hshow, htime] at hpage
    simpa only [true_and] using exec_rows hs hd hst hres hstop (i := .fusedAttention id) (by rw [hop]; rfl)
      (fun u => by rw [hrngs, hrngs]; rfl) ⟨_, p, hp⟩ hpage (by rw [hrngs]; exact attnRun_effect (s.showRegs d) hhd)
  · have hrngs (u : State) : u.rngsOf d = (mergeInfo u d).rngs := by simp [State.rngsOf, opInfo, hop]
    simpa only [reduceCtorEq, false_and, if_false] using exec_rows hs hd hst hres hstop (i := .partialMerge id) (by rw [hop]; rfl)
      (fun u => by rw [hrngs, hrngs]; rfl) ⟨_, _, rfl⟩ (showRegs_page s d) (by rw [hrngs]; exact mergeRun_effect (s.showRegs d) d)

end Sys2Proof
end

section
/-! Pages one after another (R123–R125, R135, R136): what a pass over distinct pages does to each, and page backing, which no module
address names. -/

namespace Sys2Proof.Machine

/-- A step of a pass keeps `I`, and takes the page of its key, one that meets `P`, to one that `R` relates to it; no other page
changes. -/
def PageStep {σ ι : Type} (pg : σ → Nat → Page) (f : σ → ι → σ) (key : ι → Nat) (I : σ → Prop) (P : ι → Page → Prop)
    (R : ι → Page → Page → Prop) : Prop :=
  ∀ u x, I u → P x (pg u (key x)) →
    I (f u x) ∧ R x (pg u (key x)) (pg (f u x) (key x)) ∧ ∀ h, h ≠ key x → pg (f u x) h = pg u h

/-- A pass over distinct keys does to each of their pages what its step does, and nothing to another page. -/
theorem PageStep.foldl {σ ι : Type} {pg : σ → Nat → Page} {f : σ → ι → σ} {key : ι → Nat} {I : σ → Prop} {P : ι → Page → Prop}
    {R : ι → Page → Page → Prop} (hf : PageStep pg f key I P R) {l : List ι} (hl : (l.map key).Nodup) {s : σ} (hs : I s)
    (hp : ∀ x, x ∈ l → P x (pg s (key x))) :
    I (l.foldl f s) ∧ (∀ x, x ∈ l → R x (pg s (key x)) (pg (l.foldl f s) (key x))) ∧
      ∀ h, (∀ x, x ∈ l → h ≠ key x) → pg (l.foldl f s) h = pg s h := by
  induction l generalizing s with
  | nil => exact ⟨hs, nofun, fun _ _ => rfl⟩
  | cons x l ih =>
    rw [List.map_cons, List.nodup_cons] at hl
    obtain ⟨hx, hnodup⟩ := hl
    have hne (y : ι) (hy : y ∈ l) : key y ≠ key x := fun e => hx (e ▸ List.mem_map_of_mem hy)
    obtain ⟨hI, hR, hother⟩ := hf s x hs (hp x List.mem_cons_self)
    obtain ⟨hI', hR', hother'⟩ := ih hnodup hI fun y hy => by
      rw [hother _ (hne y hy)]
      exact hp y (List.mem_cons_of_mem x hy)
    refine ⟨hI', fun y hy => ?_, fun h hh => ?_⟩
    · obtain rfl | hy := List.mem_cons.mp hy
      · rw [List.foldl_cons, hother' _ fun z hz => (hne z hz).symm]
        exact hR
      · have hrel := hR' y hy
        rwa [hother _ (hne y hy)] at hrel
    · exact (hother' h fun y hy => hh y (List.mem_cons_of_mem x hy)).trans (hother h (hh x List.mem_cons_self))

/-! ### Page backing (R116) -/

/-- A module address names a location below all page backing. -/
theorem loc_lt_kvBase (s : State) {b : Nat} (hb : b < 2 ^ 48) : s.loc b < kvBase := by
  unfold State.loc unalias dramDie dramOff kvBase
  split
  · split <;> omega
  · split <;> omega

theorem cellGet_cellClear_of_lt {k lo : Nat} (h : k < lo) (n : Nat) (m : List Host.Cell) :
    cellGet 0 k (cellClear lo n m) = cellGet 0 k m := by
  have hkeep : (!decide (lo ≤ k ∧ k < lo + n)) = true := by simp; omega
  unfold cellGet cellClear AMap.getD
  rw [AMap.get?_keep k (fun a => !decide (lo ≤ a ∧ a < lo + n)), if_pos hkeep]

/-- From `s` to `t` pages and their backing alone have changed. -/
structure PagesOnly (s t : State) : Prop where
  frame : t = { s with mem := t.mem, pages := t.pages }
  cells : ∀ a, a < kvBase → cellGet 0 a t.mem = cellGet 0 a s.mem

namespace PagesOnly

variable {s t u : State}

theorem refl (s : State) : PagesOnly s s := ⟨rfl, fun _ _ => rfl⟩

theorem trans (h : PagesOnly s t) (k : PagesOnly t u) : PagesOnly s u :=
  ⟨k.frame.trans (by rw [h.frame]), fun a ha => (k.cells a ha).trans (h.cells a ha)⟩

theorem setPage (h : PagesOnly s t) (n : Nat) (p : Page) : PagesOnly s (t.setPage n p) := h.trans ⟨rfl, fun _ _ => rfl⟩

theorem freePage (h : PagesOnly s t) (n : Nat) : PagesOnly s (t.freePage n) :=
  h.trans ⟨rfl, fun _ ha => cellGet_cellClear_of_lt (Nat.lt_of_lt_of_le ha (Nat.le_add_right _ _)) kib64 t.mem⟩

theorem foldl {ι : Type} {f : State → ι → State} (hf : ∀ u x, PagesOnly u (f u x)) (l : List ι) (s : State) : PagesOnly s (l.foldl f s) :=
  List.foldlRecOn (motive := PagesOnly s) l f (refl s) fun u hu x _ => hu.trans (hf u x)

theorem byteAt (h : PagesOnly s t) {b : Nat} (hb : b < 2 ^ 48) (hreg : isRegSpace b = false) : t.byteAt b = s.byteAt b := by
  have hdict : t.dict = s.dict := by rw [h.frame]
  simp only [State.byteAt, hreg, loc_congr (interleaved_of_dict hdict), h.cells _ (loc_lt_kvBase s hb), Bool.false_eq_true, if_false]

end PagesOnly

@[simp] theorem freePage_page (s : State) (h k : Nat) : (s.freePage h).page k = if h = k then Page.zero else s.page k :=
  State.setPage_page s h k Page.zero

/-! ### Lists of records -/

/-- The pieces of a list of equally long records. -/
theorem slice_flatten_map {α β : Type} {f : α → List β} {L : Nat} (hL : ∀ x, (f x).length = L) {l : List α} {i : Nat}
    (hi : i < l.length) : ((l.map f).flatten.drop (L * i)).take L = f l[i] := by
  induction l generalizing i with
  | nil => exact absurd hi (Nat.not_lt_zero i)
  | cons x l ih =>
    rw [List.map_cons, List.flatten_cons]
    cases i with
    | zero => rw [Nat.mul_zero, List.drop_zero, List.take_left' (hL x)]; rfl
    | succ i =>
      rw [Nat.mul_succ, Nat.add_comm, ← List.drop_drop, List.drop_left' (hL x)]
      exact ih (Nat.lt_of_succ_lt_succ hi)

/-- A list of words written to DRAM reads back word by word. -/
theorem rd_wr_words (s : State) {a i : Nat} {l : List Nat} (ha : a + 4 * l.length ≤ 2 ^ 36) (hi : i < l.length) (hw : l[i] < 2 ^ 32) :
    (s.wr a (l.map (fun w => toBytes 4 w)).flatten).rd (a + 4 * i) 4 = l.getD i 0 := by
  have hlen : (l.map (fun w => toBytes 4 w)).flatten.length = 4 * l.length := by
    rw [length_flatten_map fun _ => toBytes_length 4 _, Nat.mul_comm]
  have hread := rd_wr_dram s a (l.map (fun w => toBytes 4 w)).flatten (by omega) (k := 4 * i) (by omega)
    (slice_flatten_map (fun _ => toBytes_length 4 _) hi)
  rw [List.getD_eq_getElem l 0 hi, hread]
  exact Nat.mod_eq_of_lt hw

theorem rdBytes_getD (s : State) (a : Nat) {n k : Nat} (hk : k < n) : (s.rdBytes a n).getD k 0 = s.byteAt (a + k) := by
  induction n generalizing a k with
  | zero => exact absurd hk (Nat.not_lt_zero k)
  | succ n ih =>
    cases k with
    | zero => rfl
    | succ k =>
      rw [State.rdBytes, List.getD_cons_succ, ih (a + 1) (Nat.lt_of_succ_lt_succ hk), Nat.add_right_comm, Nat.add_assoc]

end Sys2Proof.Machine
end

section
/-! Pages for an operation (R124, R137, R280): room is made by dropping pages that nobody has claimed, and the new pages of an
operation are distinct, were Free, and stay claimed until it ends. -/

namespace Sys2Proof.Machine

/-! ### What making room does to pages (R137, R280) -/

/-- From `s` to `t` some pages that were Present and unclaimed have been dropped, and no other has changed. -/
def OnlyDrops (s t : State) : Prop :=
  ∀ h, t.page h = s.page h ∨ ((s.page h).st = .present ∧ (s.page h).claim = none ∧ (t.page h).st = .absent)

theorem OnlyDrops.of_pages {s t : State} (h : t.pages = s.pages) : OnlyDrops s t := fun k => Or.inl (by rw [State.page, State.page, h])

theorem OnlyDrops.refl (s : State) : OnlyDrops s s := OnlyDrops.of_pages rfl

theorem OnlyDrops.trans {s t u : State} (h : OnlyDrops s t) (k : OnlyDrops t u) : OnlyDrops s u := by
  intro n
  obtain hn | ⟨hpresent, hclaim, habsent⟩ := h n
  · rw [← hn]
    exact k n
  · obtain hn' | ⟨hpresent', _⟩ := k n
    · exact Or.inr ⟨hpresent, hclaim, hn' ▸ habsent⟩
    · rw [habsent] at hpresent'
      cases hpresent'

theorem evictNotice_pages (s : State) (h st trig owner : Nat) : (s.evictNotice h st trig owner).pages = s.pages := by
  unfold State.evictNotice State.wrHub
  dsimp only
  split
  · rfl
  · rw [State.wrN, wr_eq, wr_eq (State.setReg s _ _)]
    rfl

theorem OnlyDrops.dropPage {s : State} {h : Nat} (hdrop : s.dropable h = true) (trig : Nat) : OnlyDrops s (s.dropPage h trig) := by
  simp only [State.dropable, Bool.and_eq_true, decide_eq_true_eq, Option.isNone_iff_eq_none] at hdrop
  obtain ⟨⟨⟨⟨hpresent, _⟩, hclaim⟩, _⟩, _⟩ := hdrop
  intro k
  have hpage : (s.dropPage h trig).page k = (s.setPage h { s.page h with st := .absent, goal := (s.page h).fill }).page k := by
    unfold State.dropPage State.page
    rw [evictNotice_pages]
    rfl
  rw [hpage, State.setPage_page]
  split
  · rename_i hk
    rw [← hk]
    exact Or.inr ⟨hpresent, hclaim, rfl⟩
  · exact Or.inl rfl

theorem OnlyDrops.evictObj (s : State) (h trig : Nat) (cold : Bool) : OnlyDrops s (s.evictObj h trig cold) :=
  OnlyDrops.of_pages (evictNotice_pages _ _ _ _ _)

theorem oldest_mem {l : List (Nat × Nat)} {k : Nat} (h : oldest l = some k) : ∃ p, p ∈ l ∧ p.1 = k := by
  unfold oldest at h
  rw [Option.map_eq_some_iff] at h
  obtain ⟨p, hp, rfl⟩ := h
  refine ⟨p, ?_, rfl⟩
  refine List.foldlRecOn (motive := fun (b : Option (Nat × Nat)) => ∀ p, b = some p → p ∈ l) l _ (fun _ h => by cases h) (fun b hb q hq => ?_) p hp
  intro p hp
  split at hp
  · exact Option.some.inj hp ▸ hq
  · split at hp
    · exact Option.some.inj hp ▸ hq
    · exact hb p hp

theorem pass1_dropable {s : State} {d k : Nat} (h : s.pass1 d = some k) (hk : k % 2 ≠ 0) : s.dropable (k / 2) = true := by
  obtain ⟨p, hp, rfl⟩ := oldest_mem h
  rw [List.mem_append, List.mem_filterMap, List.mem_filterMap] at hp
  obtain ⟨q, _, hq⟩ | ⟨q, _, hq⟩ := hp
  · split at hq
    · obtain rfl := Option.some.inj hq
      dsimp only at hk
      omega
    · cases hq
  · split at hq
    · rename_i hcond
      obtain rfl := Option.some.inj hq
      simp only [Bool.and_eq_true] at hcond
      have hhalf : (2 * q.1 + 1) / 2 = q.1 := by omega
      rw [hhalf]
      exact hcond.1.1
    · cases hq

theorem pass2_dropable {s : State} {d k : Nat} (h : s.pass2 d = some k) : s.dropable (k / 2) = true := by
  unfold State.pass2 at h
  split at h
  · obtain ⟨p, hp, rfl⟩ := oldest_mem h
    obtain ⟨q, _, hq⟩ := List.mem_filterMap.mp hp
    split at hq
    · rename_i hcond
      obtain rfl := Option.some.inj hq
      simp only [Bool.and_eq_true] at hcond
      have hhalf : (2 * q.1 + 1) / 2 = q.1 := by omega
      rw [hhalf]
      exact hcond.1
    · cases hq
  · cases h

theorem OnlyDrops.evictOne {s t : State} {d trig : Nat} (h : s.evictOne d trig = some t) : OnlyDrops s t := by
  unfold State.evictOne at h
  split at h
  · rename_i k hk
    cases h
    split
    · exact OnlyDrops.evictObj s _ _ _
    · rename_i hodd
      exact OnlyDrops.dropPage (pass1_dropable hk hodd) trig
  · split at h
    · rename_i k hk
      cases h
      exact OnlyDrops.dropPage (pass2_dropable hk) trig
    · cases h

theorem OnlyDrops.evictUntil (d trig : Nat) (goal : State → Bool) (n : Nat) (s : State) : OnlyDrops s (evictUntil d trig goal n s) := by
  induction n generalizing s with
  | zero => exact OnlyDrops.refl s
  | succ n ih =>
    unfold Machine.evictUntil
    split
    · exact OnlyDrops.refl s
    · split
      · rename_i t ht
        exact (OnlyDrops.evictOne ht).trans (ih t)
      · exact OnlyDrops.refl s

theorem OnlyDrops.pageRoom (c : Nat) (l : List Nat) (s : State) : OnlyDrops s (State.pageRoom c l s).2 := by
  induction l generalizing s with
  | nil => exact OnlyDrops.refl s
  | cons d l ih =>
    have hevict := OnlyDrops.evictUntil d 1 (fun s => s.roomFor c d kib64) s.evictFuel s
    rw [State.pageRoom]
    generalize Machine.evictUntil d 1 (fun s => s.roomFor c d kib64) s.evictFuel s = u at hevict ⊢
    split
    · exact hevict
    · exact hevict.trans (ih u)

theorem OnlyDrops.pageDie (s : State) (c hint : Nat) : OnlyDrops s (s.pageDie c hint).2 := by
  unfold State.pageDie
  split
  · exact OnlyDrops.refl s
  · exact OnlyDrops.pageRoom c _ s

/-! ### New pages (R124) -/

/-- A page that an operation of context `c` has just made, and still claims. -/
structure NewPage (c : Nat) (p : Page) : Prop where
  st : p.st = .present
  refs : p.refs = 1
  fill : p.fill = 0
  owner : p.owner = c
  claim : p.claim ≠ none

theorem freeHandles_mem {s : State} {h n fuel k : Nat} (hh : h ∈ s.freeHandles n fuel k) :
    h < 1048576 ∧ s.page h = Page.zero := by
  induction fuel generalizing n k with
  | zero => cases hh
  | succ fuel ih =>
    unfold State.freeHandles at hh
    split at hh
    · cases hh
    · rename_i hlt
      split at hh
      · rename_i hfree
        obtain rfl | hh := List.mem_cons.mp hh
        · rw [State.page, AMap.getD, Option.isNone_iff_eq_none.mp hfree.1]
          exact ⟨by omega, rfl⟩
        · exact ih hh
      · exact ih hh

theorem newPage_page (s : State) (c d h first k : Nat) : (s.newPage c d h first).page k =
    if h = k then { Page.zero with st := .present, refs := 1, first := first, die := d, owner := c, stamp := s.carTime, claim := some 0 }
    else s.page k := by
  rw [← State.setPage_page]
  rfl

/-- The pages that an allocation for context `c` makes between `s` and `t`. -/
structure Allocates (c : Nat) (s t : State) (hs : List Nat) : Prop where
  nodup : hs.Nodup
  lt : ∀ h, h ∈ hs → h < 1048576
  free : ∀ h, h ∈ hs → (s.page h).st = .free
  new : ∀ h, h ∈ hs → NewPage c (t.page h)
  claimed : ∀ h, (s.page h).claim ≠ none → t.page h = s.page h

/-- One page more, for which room was made. -/
theorem Allocates.cons {c d h first : Nat} {s u t : State} {hs : List Nat} (hlt : h < 1048576) (hzero : s.page h = Page.zero)
    (hroom : OnlyDrops s u) (hrest : Allocates c (u.newPage c d h first) t hs) : Allocates c s t (h :: hs) := by
  have hpage (k : Nat) := newPage_page u c d h first k
  have hself := (hpage h).trans (if_pos rfl)
  have hnew : NewPage c (t.page h) := by
    rw [hrest.claimed h (by rw [hself]; exact nofun), hself]
    exact ⟨rfl, rfl, rfl, rfl, nofun⟩
  have hother (k : Nat) (hk : k ∈ hs) : h ≠ k ∧ (u.page k).st = .free := by
    have hfree := hrest.free k hk
    have hne : h ≠ k := fun e => by
      rw [← e, hself] at hfree
      cases hfree
    exact ⟨hne, by rwa [hpage, if_neg hne] at hfree⟩
  refine ⟨List.nodup_cons.mpr ⟨fun hmem => (hother h hmem).1 rfl, hrest.nodup⟩, List.forall_mem_cons.mpr ⟨hlt, hrest.lt⟩,
    List.forall_mem_cons.mpr ⟨by rw [hzero]; rfl, fun k hk => ?_⟩, List.forall_mem_cons.mpr ⟨hnew, hrest.new⟩, fun k hk => ?_⟩
  · obtain hsame | ⟨_, _, habsent⟩ := hroom k
    · exact hsame ▸ (hother k hk).2
    · rw [(hother k hk).2] at habsent
      cases habsent
  · have hne : h ≠ k := fun e => hk (by rw [← e, hzero]; rfl)
    obtain hsame | ⟨_, hclaim, _⟩ := hroom k
    · have hk' := (hpage k).trans ((if_neg hne).trans hsame)
      exact (hrest.claimed k (by rwa [hk'])).trans hk'
    · exact absurd hclaim hk

theorem allocPages_some {c hint : Nat} {l : List Nat} {s t : State} {hs : List Nat} (h : allocPages c hint l s = (some hs, t)) :
    hs.length = l.length ∧ Allocates c s t hs := by
  induction l generalizing s hs with
  | nil =>
    unfold allocPages at h
    cases h
    exact ⟨rfl, List.nodup_nil, nofun, nofun, nofun, fun _ _ => rfl⟩
  | cons f l ih =>
    unfold allocPages at h
    split at h
    · cases h
    rename_i n ns hfree
    obtain ⟨hlt, hzero⟩ := freeHandles_mem (s := s) (h := n) (hfree ▸ List.mem_cons_self)
    split at h
    · have hroom := OnlyDrops.pageDie s c hint
      split at h
      · cases h
      rename_i d u hdie
      rw [hdie] at hroom
      split at h
      · rename_i hs' t' hrest
        cases h
        obtain ⟨hlen, hrest⟩ := ih hrest
        exact ⟨congrArg Nat.succ hlen, hrest.cons hlt hzero hroom⟩
      · cases h
    · cases h

end Sys2Proof.Machine
end

section
/-! Page handle operations (R115, R121, R124, R125, R281): how the command of one ends, and what each operation makes of its pages. -/

namespace Sys2Proof.Machine

/-! ### The end of an operation that keeps memory canonical -/

theorem Invariant.of_mem {s t : State} (hs : Invariant s) (hm : t.mem = s.mem) (hf : t.flash = s.flash) : Invariant t := by
  unfold Invariant
  rw [hm, hf]
  exact hs

theorem MakesRoom.invariant {s t : State} (h : MakesRoom s t) (hs : Invariant s) : Invariant t := by
  refine ⟨h.wf hs.1, ?_⟩
  rw [h.frame]
  exact hs.2

/-- A descriptor that finishes in a canonical state has its result there, and nothing else changes. -/
theorem done_finish_of_wf {s u : State} (hu : Invariant u) (hp : u.pending = s.pending) {id : Nat} {d : Desc}
    (hd : u.desc? id = some d) (st fl : Nat) :
    ∃ t, s.done (u.finish id st fl) = .next t ∧ t = { u with descs := t.descs } ∧
      t.desc? id = some { d with result := some { status := st, outcome := 0, flags := fl } } ∧
      ∀ j, j ≠ id → t.desc? j = u.desc? j :=
  ⟨_, State.done_of_wf hp hu, rfl, (State.updDesc_desc u id id _).trans ((if_pos rfl).trans (congrArg (Option.map _) hd)),
    fun j hj => (State.updDesc_desc u id j _).trans (if_neg (Ne.symm hj))⟩

/-! ### Waits for a spill (R281) -/

theorem spillWaited_desc {s : State} {id : Nat} {d : Desc} (hd : s.desc? id = some d) :
    (∃ p q, (s.spillWaited id).desc? id = some { d with stopAt := p, delays := q }) ∧
      ∀ j, j ≠ id → (s.spillWaited id).desc? j = s.desc? j := by
  refine ⟨?_, fun j hj => (State.updDesc_desc s id j _).trans (if_neg (Ne.symm hj))⟩
  have h := (State.updDesc_desc s id id (fun d => if d.stopAt = 0 then d else
    { d with stopAt := 0, delays := AMap.put 0 0x0A (AMap.getD 0x0A 0 d.delays + (s.dspTime d.die + 1 - d.stopAt)) d.delays })).trans
    ((if_pos rfl).trans (congrArg (Option.map _) hd))
  rw [Option.map_some] at h
  split at h
  · exact ⟨d.stopAt, d.delays, h⟩
  · exact ⟨_, _, h⟩

theorem spillWait_desc {s : State} {id : Nat} {d : Desc} (hd : s.desc? id = some d) :
    ∃ p w, (s.spillWait id).desc? id = some { d with stopAt := p, waited := w } := by
  have h := (State.updDesc_desc s id id (fun d => if d.stopAt = 0 then { d with stopAt := s.dspTime d.die + 1, waited := true } else d)).trans
    ((if_pos rfl).trans (congrArg (Option.map _) hd))
  rw [Option.map_some] at h
  split at h
  · exact ⟨_, _, h⟩
  · exact ⟨d.stopAt, d.waited, h⟩

/-- An operation that begins to wait for a spill has no result. -/
theorem done_spillWait {s u : State} (hu : Invariant u) (hp : u.pending = s.pending) {id : Nat} {d : Desc} (hd : u.desc? id = some d)
    (hres : d.result = none) :
    ∃ t e, s.done (u.spillWait id) = .next t ∧ t = { u with descs := t.descs } ∧ t.desc? id = some e ∧ e.result = none := by
  obtain ⟨p, w, hdesc⟩ := spillWait_desc hd
  exact ⟨_, _, State.done_of_wf hp hu, rfl, hdesc, hres⟩

/-! ### Shares and releases, handle by handle (R125) -/

section
variable {s : State} {h : Nat} (n : Nat)

theorem refOne_of_missing (b : Bool) (hm : h ≥ 1048576 ∨ (s.page h).st = .free) : refOne b (s, n) h = (s, minNotice n 0x0133) := if_pos hm

theorem refOne_of_pinned (b : Bool) (hm : ¬ (h ≥ 1048576 ∨ (s.page h).st = .free)) (hp : (s.page h).refs = 65535) :
    refOne b (s, n) h = (s, minNotice n 0x0132) := (if_neg hm).trans (if_pos hp)

theorem refOne_share (hm : ¬ (h ≥ 1048576 ∨ (s.page h).st = .free)) (hp : (s.page h).refs ≠ 65535) :
    refOne true (s, n) h = (s.setPage h { s.page h with refs := (s.page h).refs + 1 },
      if (s.page h).refs + 1 = 65535 then minNotice n 0x0131 else n) := (if_neg hm).trans ((if_neg hp).trans (if_pos rfl))

/-- The share that takes a handle to the pin is noticed. -/
theorem refOne_share_last (hm : ¬ (h ≥ 1048576 ∨ (s.page h).st = .free)) (hp : (s.page h).refs = 65534) :
    refOne true (s, n) h = (s.setPage h { s.page h with refs := 65535 }, minNotice n 0x0131) := by
  rw [refOne_share n hm (by omega), hp, if_pos rfl]

theorem refOne_release (hm : ¬ (h ≥ 1048576 ∨ (s.page h).st = .free)) (hp : (s.page h).refs ≠ 65535) :
    refOne false (s, n) h = (if (s.page h).refs ≤ 1 ∧ ¬ s.pageHeld h then (s.freePage h, n)
      else (s.setPage h { s.page h with refs := (s.page h).refs - 1 }, n)) :=
  (if_neg hm).trans ((if_neg hp).trans (if_neg Bool.false_ne_true))

end

/-- A page that a share or release counts: a live handle that is not pinned, and stays unpinned with `n` references more. -/
def Counted (n h : Nat) (p : Page) : Prop := h < 1048576 ∧ p.st ≠ .free ∧ p.refs + n < 65535

theorem Counted.not_missing {n h : Nat} {p : Page} (hc : Counted n h p) : ¬ (h ≥ 1048576 ∨ p.st = .free) :=
  not_or.mpr ⟨not_le.mpr hc.1, hc.2.1⟩

theorem Counted.refs_ne {n h : Nat} {p : Page} (hc : Counted n h p) : p.refs + n ≠ 65535 := hc.2.2.ne

theorem pageStep_share (s : State) : PageStep (fun (r : State × Nat) => r.1.page) (refOne true) id
    (fun r => r.2 = 0 ∧ r.1 = { s with pages := r.1.pages }) (Counted 1) (fun _ p p' => p' = { p with refs := p.refs + 1 }) := by
  rintro ⟨u, n⟩ h ⟨rfl, hu⟩ hc
  replace hc : Counted 1 h (u.page h) := hc
  have hne := hc.refs_ne
  rw [refOne_share 0 hc.not_missing (by have := hc.2.2; omega), if_neg hne]
  refine ⟨⟨rfl, ?_⟩, (State.setPage_page _ h h _).trans (if_pos rfl), fun k hk => (State.setPage_page _ h k _).trans (if_neg (Ne.symm hk))⟩
  exact (congrArg (State.setPage · h _) hu).trans rfl

/-- Distinct counted handles each gain a reference. -/
theorem foldl_share (s : State) {l : List Nat} (hl : l.Nodup) (hlive : ∀ h, h ∈ l → Counted 1 h (s.page h)) :
    ∃ p, l.foldl (refOne true) (s, 0) = ({ s with pages := p }, 0) ∧
      ∀ h, AMap.getD h Page.zero p = if h ∈ l then { s.page h with refs := (s.page h).refs + 1 } else s.page h := by
  obtain ⟨⟨hnotice, hframe⟩, hin, hout⟩ := (pageStep_share s).foldl (by rwa [List.map_id]) (s := (s, 0)) ⟨rfl, rfl⟩ hlive
  refine ⟨_, Prod.ext hframe hnotice, fun h => ?_⟩
  split
  · exact hin h ‹_›
  · exact hout h fun x hx e => ‹h ∉ l› (e ▸ hx)

/-- What a release makes of a page. -/
def Released (held : Bool) (p p' : Page) : Prop :=
  (2 ≤ p.refs → p'.refs = p.refs - 1) ∧ (p.refs = 1 → held = false → p' = Page.zero)

theorem pageStep_release (s : State) : PageStep (fun (r : State × Nat) => r.1.page) (refOne false) id
    (fun r => r.2 = 0 ∧ PagesOnly s r.1) (Counted 0) (fun h p p' => Released (s.pageHeld h) p p') := by
  rintro ⟨u, n⟩ h ⟨rfl, honly⟩ hc
  replace hc : Counted 0 h (u.page h) := hc
  replace honly : PagesOnly s u := honly
  have hheld : u.pageHeld h = s.pageHeld h := by rw [honly.frame]; rfl
  have hpos := hc.2.2
  rw [refOne_release 0 hc.not_missing hc.refs_ne, hheld]
  split
  · rename_i hlast
    exact ⟨⟨rfl, honly.freePage h⟩, ⟨fun (h2 : 2 ≤ (u.page h).refs) => absurd hlast.1 (by omega), fun _ _ => (freePage_page u h h).trans (if_pos rfl)⟩,
      fun k hk => (freePage_page u h k).trans (if_neg (Ne.symm hk))⟩
  · rename_i hmore
    have hself := (State.setPage_page u h h { u.page h with refs := (u.page h).refs - 1 }).trans (if_pos rfl)
    exact ⟨⟨rfl, honly.setPage h _⟩, ⟨fun _ => congrArg Page.refs hself, fun h1 hfree => absurd ⟨h1.le, by simp [hfree]⟩ hmore⟩,
      fun k hk => (State.setPage_page u h k _).trans (if_neg (Ne.symm hk))⟩

/-- Distinct counted handles each lose a reference. -/
theorem foldl_release (s : State) {l : List Nat} (hl : l.Nodup) (hlive : ∀ h, h ∈ l → Counted 0 h (s.page h)) :
    ∃ u, l.foldl (refOne false) (s, 0) = (u, 0) ∧ PagesOnly s u ∧ (∀ h, h ∈ l → Released (s.pageHeld h) (s.page h) (u.page h)) ∧
      ∀ h, h ∉ l → u.page h = s.page h := by
  obtain ⟨⟨hnotice, honly⟩, hin, hout⟩ := (pageStep_release s).foldl (by rwa [List.map_id]) (s := (s, 0)) ⟨rfl, PagesOnly.refl s⟩ hlive
  exact ⟨_, Prod.ext rfl hnotice, honly, hin, fun h hh => hout h fun x hx e => hh (e ▸ hx)⟩

/-! ### Allocation (R124) -/

theorem pageStep_unclaim (s : State) : PageStep State.page (fun s h => s.setPage h { s.page h with claim := none }) id
    (fun u => ∃ p, u = { s with pages := p }) (fun _ _ => True) (fun _ p p' => p' = { p with claim := none }) := by
  rintro _ h ⟨p, rfl⟩ _
  exact ⟨⟨_, rfl⟩, (State.setPage_page _ h h _).trans (if_pos rfl), fun k hk => (State.setPage_page _ h k _).trans (if_neg (Ne.symm hk))⟩

/-- The claims of an operation on its new pages end with it. -/
theorem foldl_unclaim (s : State) {l : List Nat} (hl : l.Nodup) :
    ∃ p, l.foldl (fun s h => s.setPage h { s.page h with claim := none }) s = { s with pages := p } ∧
      ∀ h, h ∈ l → AMap.getD h Page.zero p = { s.page h with claim := none } := by
  obtain ⟨⟨p, hfold⟩, hin, _⟩ := (pageStep_unclaim s).foldl (by rwa [List.map_id]) (s := s) ⟨_, rfl⟩ (fun _ _ => True.intro)
  refine ⟨p, hfold, fun h hh => ?_⟩
  rw [hfold] at hin
  exact hin h hh

section
variable {s : State} {d : Desc}

theorem makesRoom_of_alloc {c hint : Nat} {l : List Nat} {o : Option (List Nat)} {u : State} (ha : allocPages c hint l s = (o, u)) :
    MakesRoom s u := by
  have h := MakesRoom.allocPages c hint l s
  rwa [ha] at h

theorem pageAllocRun_of_no_cache (hc : s.hasCache d.ctx = false) : pageAllocRun s d = .done s 0x0545 := by
  unfold pageAllocRun
  rw [hc]
  rfl

/-- Pages were had: the handles are distinct and were Free, their pages are the operation's new ones, and the list names them. -/
theorem pageAllocRun_of_some {hs : List Nat} {u : State} (hc : s.hasCache d.ctx = true)
    (ha : allocPages d.ctx (d.f 41 1) ((List.range (d.f 36 4)).map (fun _ => 0)) s = (some hs, u))
    (hlist : d.f 24 6 + 4 * d.f 36 4 ≤ 2 ^ 36) :
    ∃ v, pageAllocRun s d = .done v 0 ∧
      v = { s with mem := v.mem, dict := v.dict, regs := v.regs, pages := v.pages, objs := v.objs } ∧
      hs.length = d.f 36 4 ∧ Allocates d.ctx s u hs ∧ (∀ h, h ∈ hs → v.page h = { u.page h with claim := none }) ∧
      ∀ i, i < d.f 36 4 → v.rd (d.f 24 6 + 4 * i) 4 = hs.getD i 0 := by
  obtain ⟨hlen, hnew⟩ := allocPages_some ha
  rw [List.length_map, List.length_range] at hlen
  obtain ⟨p, hfold, hpage⟩ := foldl_unclaim u hnew.nodup
  have hrun : pageAllocRun s d = .done (State.wr { u with pages := p } (d.f 24 6) (hs.map (fun h => toBytes 4 h)).flatten) 0 := by
    unfold pageAllocRun
    dsimp only
    rw [hc, ha, ← hfold]
    rfl
  obtain ⟨m, hwr⟩ := wr_frame { u with pages := p } (d.f 24 6) (hs.map (fun h => toBytes 4 h)).flatten
  have hframe : State.wr { u with pages := p } (d.f 24 6) (hs.map (fun h => toBytes 4 h)).flatten =
      { s with mem := m, dict := u.dict, regs := u.regs, pages := p, objs := u.objs } :=
    hwr.trans (congrArg (fun (u : State) => { u with mem := m, pages := p }) (makesRoom_of_alloc ha).frame)
  refine ⟨_, hrun, by rw [hframe], hlen, hnew, fun h hh => ?_, fun i hi => ?_⟩
  · rw [← hpage h hh, hwr]
    rfl
  · have hi' : i < hs.length := hlen ▸ hi
    have hlt := hnew.lt _ (List.getElem_mem hi')
    exact rd_wr_words _ (by omega) hi' (by omega)

theorem pageAllocRun_of_spill {u v : State} (hc : s.hasCache d.ctx = true)
    (ha : allocPages d.ctx (d.f 41 1) ((List.range (d.f 36 4)).map (fun _ => 0)) s = (none, u))
    (hspill : u.pageSpill d.ctx (d.f 41 1) (d.f 36 4) = some v) : pageAllocRun s d = .wait v := by
  unfold pageAllocRun
  dsimp only
  rw [hc, ha]
  dsimp only
  rw [hspill]
  rfl

theorem pageAllocRun_of_no_spill {u : State} (hc : s.hasCache d.ctx = true)
    (ha : allocPages d.ctx (d.f 41 1) ((List.range (d.f 36 4)).map (fun _ => 0)) s = (none, u))
    (hspill : u.pageSpill d.ctx (d.f 41 1) (d.f 36 4) = none) : pageAllocRun s d = .done u 0x0545 := by
  unfold pageAllocRun
  dsimp only
  rw [hc, ha]
  dsimp only
  rw [hspill]
  rfl

end

/-! ### The command of a page operation -/

theorem opOn_of_running {s : State} {id : Nat} {d : Desc} (hd : s.desc? id = some d) (hst : d.st = .running) (hres : d.result = none) :
    s.opOn id d.op = some d := by simp [State.opOn, hd, hst, hres]

section
variable {s : State} {id : Nat} {d : Desc} (hd : s.desc? id = some d) (hst : d.st = .running) (hres : d.result = none)
  (hop : d.op = 0x0120) (hstop : s.stopOf d = none) (hreg : s.regReads d = [])
include hop

theorem pageRngs_eq (u : State) : u.rngsOf d = s.rngsOf d := by
  have h (u : State) : u.rngsOf d = (pageInfo u d).rngs := by simp [State.rngsOf, opInfo, hop]
  rw [h, h]
  rfl

include hd hst hres hstop hreg

/-- A page operation that is done finishes its descriptor, whose wait for a spill is over. -/
theorem runCar_of_done {p : Desc → Bool} (hp : p d = true) {spills : Bool} {f : State → Desc → CRes} {t : State} {st : Nat}
    (hf : f s d = .done t st) :
    s.runCar id 0x0120 p spills f = (if spills then t.spillWaited id else t).finish id st 0 := by
  have hon : s.opOn id 0x0120 = some d := hop ▸ opOn_of_running hd hst hres
  have hclear (v : State) : v.clearReads d = v := clearReads_of_no_reads ((regReads_congr (pageRngs_eq hop v)).trans hreg)
  simp only [State.runCar, hon, hp, hstop, showRegs_of_no_reads hreg, hf, hclear, Bool.not_true, Bool.false_eq_true, if_false]

theorem runCar_of_wait {p : Desc → Bool} (hp : p d = true) {f : State → Desc → CRes} {t : State} (hf : f s d = .wait t) :
    s.runCar id 0x0120 p true f = t.spillWait id := by
  have hon : s.opOn id 0x0120 = some d := hop ▸ opOn_of_running hd hst hres
  simp only [State.runCar, hon, hp, hstop, showRegs_of_no_reads hreg, hf, Bool.not_true, Bool.false_eq_true, if_false, if_true]

end

end Sys2Proof.Machine

namespace Sys2Proof

open Sys2Proof.Machine

section
variable {s : State} {id : Nat} {d : Desc} (hs : Invariant s) (hd : s.desc? id = some d) (hst : d.st = .running) (hres : d.result = none)
  (hop : d.op = 0x0120) (hstop : s.stopOf d = none)
include hd hst hres hop hstop

/-! ### Allocate (R124, R281) -/

section
variable (hone : d.f 40 1 = 1)
include hone

omit hd hst hres hstop in
/-- The list of an allocation is written and not read. -/
theorem regReads_of_allocate : s.regReads d = [] := by
  simp [State.regReads, State.rngsOf, opInfo, hop, pageInfo, hone]

theorem exec_pageAllocate_of_done {v : State} {st : Nat} (hrun : pageAllocRun s d = .done v st) :
    exec (.pageAllocate id) s = s.done ((v.spillWaited id).finish id st 0) :=
  congrArg s.done (runCar_of_done hd hst hres hop hstop (regReads_of_allocate hop hone) (p := subOp 40 1) (spills := true)
    (by simp [subOp, hone]) hrun)

theorem exec_pageAllocate_of_wait {v : State} (hrun : pageAllocRun s d = .wait v) :
    exec (.pageAllocate id) s = s.done (v.spillWait id) :=
  congrArg s.done (runCar_of_wait hd hst hres hop hstop (regReads_of_allocate hop hone) (p := subOp 40 1) (by simp [subOp, hone]) hrun)

include hs

theorem exec_pageAllocate_some {hs' : List Nat} {u : State} (hc : s.hasCache d.ctx = true)
    (ha : allocPages d.ctx (d.f 41 1) ((List.range (d.f 36 4)).map (fun _ => 0)) s = (some hs', u)) (hlist : d.f 24 6 + 4 * d.f 36 4 ≤ 2 ^ 36) :
    ∃ (t : State) (e : Desc), exec (.pageAllocate id) s = .next t ∧
      t = { s with mem := t.mem, dict := t.dict, regs := t.regs, descs := t.descs, pages := t.pages, objs := t.objs } ∧
      t.desc? id = some e ∧ e.result = some { status := 0, outcome := 0, flags := 0 } ∧ (∀ j, j ≠ id → t.desc? j = s.desc? j) ∧
      hs'.length = d.f 36 4 ∧ hs'.Nodup ∧
      (∀ h, h ∈ hs' → (s.page h).st = .free ∧ (t.page h).st = .present ∧ (t.page h).refs = 1 ∧ (t.page h).fill = 0 ∧
        (t.page h).owner = d.ctx ∧ (t.page h).claim = none) ∧
      (∀ i, i < d.f 36 4 → t.rd (d.f 24 6 + 4 * i) 4 = hs'.getD i 0) := by
  obtain ⟨v, hrun, hframe, hlen, hnew, hpage, hread⟩ := pageAllocRun_of_some hc ha hlist
  have hexec := exec_pageAllocate_of_done hd hst hres hop hstop hone hrun
  have hvdesc (j : Nat) : v.desc? j = s.desc? j := by rw [hframe]; rfl
  have hwaited : v.spillWaited id = { v with descs := (v.spillWaited id).descs } := rfl
  obtain ⟨⟨q, r, hid⟩, hother⟩ := spillWaited_desc ((hvdesc id).trans hd)
  generalize v.spillWaited id = w at hexec hwaited hid hother
  obtain ⟨t, hnext, ht, hdesc, hrest, hsame⟩ := done_finish hs (u := w) (by rw [hwaited, hframe]) (by rw [hwaited, hframe]) hid 0 0
  refine ⟨t, _, hexec.trans hnext, ?_, hdesc, rfl, fun j hj => ((hrest j hj).trans (hother j hj)).trans (hvdesc j), hlen, hnew.nodup,
    fun h hh => ?_, fun i hi => ?_⟩
  · rw [ht, hwaited, hframe]
  · have hn := hnew.new h hh
    have htp : t.page h = v.page h := by rw [State.page, ht, hwaited]; rfl
    rw [htp, hpage h hh]
    exact ⟨hnew.free h hh, hn.st, hn.refs, hn.fill, hn.owner, rfl⟩
  · rw [rd_congr hsame, ← hread i hi, hwaited]
    rfl

theorem exec_pageAllocate_spill {u v : State} (hc : s.hasCache d.ctx = true)
    (ha : allocPages d.ctx (d.f 41 1) ((List.range (d.f 36 4)).map (fun _ => 0)) s = (none, u))
    (hspill : u.pageSpill d.ctx (d.f 41 1) (d.f 36 4) = some v) :
    ∃ t e, exec (.pageAllocate id) s = .next t ∧ t = { v with descs := t.descs } ∧ t.desc? id = some e ∧ e.result = none := by
  have hroom := makesRoom_of_alloc ha
  rw [exec_pageAllocate_of_wait hd hst hres hop hstop hone (pageAllocRun_of_spill hc ha hspill)]
  obtain ⟨q, rfl⟩ := pageSpill_frame hspill
  have hframe := hroom.frame
  have hud : u.desc? id = some d := by rw [hframe]; exact hd
  have hpending : u.pending = s.pending := by rw [hframe]
  exact done_spillWait (u := { u with spills := q }) (Invariant.of_mem (hroom.invariant hs) rfl rfl) hpending hud hres

theorem exec_pageAllocate_no_spill {u : State} (hc : s.hasCache d.ctx = true)
    (ha : allocPages d.ctx (d.f 41 1) ((List.range (d.f 36 4)).map (fun _ => 0)) s = (none, u))
    (hspill : u.pageSpill d.ctx (d.f 41 1) (d.f 36 4) = none) :
    ∃ t e, exec (.pageAllocate id) s = .next t ∧ t = { u with descs := t.descs } ∧ t.desc? id = some e ∧
      e.result = some { status := 0x0545, outcome := 0, flags := 0 } := by
  have hroom := makesRoom_of_alloc ha
  have hexec := exec_pageAllocate_of_done hd hst hres hop hstop hone (pageAllocRun_of_no_spill hc ha hspill)
  have hframe := hroom.frame
  have hud : u.desc? id = some d := by rw [hframe]; exact hd
  obtain ⟨⟨q, r, hid⟩, _⟩ := spillWaited_desc hud
  obtain ⟨t, hnext, ht, hdesc, _⟩ := done_finish_of_wf (s := s) (u := u.spillWaited id)
    (Invariant.of_mem (hroom.invariant hs) rfl rfl) (by rw [State.spillWaited, State.updDesc, hframe]) hid 0x0545 0
  exact ⟨t, _, hexec.trans hnext, ht, hdesc, rfl⟩

theorem exec_pageAllocate_no_cache (hc : s.hasCache d.ctx = false) :
    ∃ t e, exec (.pageAllocate id) s = .next t ∧ t = { s with descs := t.descs } ∧ SameBytes s t ∧ t.desc? id = some e ∧
      e.result = some { status := 0x0545, outcome := 0, flags := 0 } := by
  have hexec := exec_pageAllocate_of_done hd hst hres hop hstop hone (pageAllocRun_of_no_cache hc)
  obtain ⟨⟨q, r, hid⟩, _⟩ := spillWaited_desc hd
  obtain ⟨t, hnext, ht, hdesc, _⟩ := done_finish_of_wf (s := s) (u := s.spillWaited id) (Invariant.of_mem hs rfl rfl) rfl hid 0x0545 0
  exact ⟨t, _, hexec.trans hnext, ht, SameBytes.of_dict (by rw [ht]; rfl) (by rw [ht]; rfl) (by rw [ht]; rfl), hdesc, rfl⟩

end

/-! ### Share, release and query (R115, R121, R125) -/

section
variable (hreg : s.regReads d = [])
include hs hreg

theorem exec_pageShare (htwo : d.f 40 1 = 2) (hl : d.tbl.Nodup) (hlive : ∀ h, h ∈ d.tbl → Counted 1 h (s.page h)) :
    ∃ t, exec (.pageShare id) s = .next t ∧ t = { s with descs := t.descs, pages := t.pages } ∧ SameBytes s t ∧
      t.desc? id = some { d with result := some { status := 0, outcome := 0, flags := 0 } } ∧
      (∀ h, t.page h = if h ∈ d.tbl then { s.page h with refs := (s.page h).refs + 1 } else s.page h) := by
  obtain ⟨p, hfold, hpage⟩ := foldl_share s hl hlive
  have hrun : pageShareRun s d = .done { s with pages := p } 0 := by rw [pageShareRun, hfold]
  have hexec : exec (.pageShare id) s = s.done (s.runCar id 0x0120 (subOp 40 2) false pageShareRun) := rfl
  rw [runCar_of_done hd hst hres hop hstop hreg (by simp [subOp, htwo]) hrun] at hexec
  obtain ⟨t, hnext, ht, hdesc, _⟩ := done_finish_of_wf (s := s) (u := { s with pages := p }) (Invariant.of_mem hs rfl rfl) rfl hd 0 0
  refine ⟨t, hexec.trans hnext, by rw [ht], SameBytes.of_dict (by rw [ht]) (by rw [ht]) (by rw [ht]), hdesc, fun h => ?_⟩
  rw [← hpage h, State.page, ht]

theorem exec_pageRelease (hthree : d.f 40 1 = 3) (hl : d.tbl.Nodup) (hlive : ∀ h, h ∈ d.tbl → Counted 0 h (s.page h)) :
    ∃ t, exec (.pageRelease id) s = .next t ∧ t = { s with mem := t.mem, descs := t.descs, pages := t.pages } ∧
      (∀ b, b < 2 ^ 48 → isRegSpace b = false → t.byteAt b = s.byteAt b) ∧
      t.desc? id = some { d with result := some { status := 0, outcome := 0, flags := 0 } } ∧
      (∀ h, h ∉ d.tbl → t.page h = s.page h) ∧
      (∀ h, h ∈ d.tbl → (2 ≤ (s.page h).refs → (t.page h).refs = (s.page h).refs - 1) ∧
        ((s.page h).refs = 1 → s.pageHeld h = false → t.page h = Page.zero)) := by
  obtain ⟨u, hfold, honly, hin, hout⟩ := foldl_release s hl hlive
  have hrun : pageReleaseRun s d = .done u 0 := by rw [pageReleaseRun, hfold]
  have hexec : exec (.pageRelease id) s = s.done (s.runCar id 0x0120 (subOp 40 3) false pageReleaseRun) := rfl
  rw [runCar_of_done hd hst hres hop hstop hreg (by simp [subOp, hthree]) hrun] at hexec
  have hframe := honly.frame
  have hud : u.desc? id = some d := by rw [hframe]; exact hd
  obtain ⟨t, hnext, ht, hdesc, _, hsame⟩ := done_finish hs (u := u) (by rw [hframe]) (by rw [hframe]) hud 0 0
  have htp (h : Nat) : t.page h = u.page h := by rw [State.page, ht]; rfl
  refine ⟨t, hexec.trans hnext, ?_, fun b hb hr => (hsame b).trans (honly.byteAt hb hr), hdesc, fun h hh => (htp h).trans (hout h hh),
    fun h hh => ?_⟩
  · rw [ht, hframe]
  · rw [htp h]
    exact hin h hh

/-- A single handle that is shared up to the pin, pinned already, or not live leaves a notice. -/
theorem exec_pageNotice {i : Instr} {b : Bool} {h st refs : Nat} {p : AMap Page} (htbl : d.tbl = [h])
    (hi : (b = true ∧ d.f 40 1 = 2 ∧ i = .pageShare id) ∨ (b = false ∧ d.f 40 1 = 3 ∧ i = .pageRelease id))
    (hone : refOne b (s, 0) h = ({ s with pages := p }, st)) (hrefs : (AMap.getD h Page.zero p).refs = refs) :
    ∃ t, exec i s = .next t ∧ t = { s with descs := t.descs, pages := t.pages } ∧ SameBytes s t ∧
      t.desc? id = some { d with result := some { status := st, outcome := 0, flags := 0 } } ∧ (t.page h).refs = refs := by
  have hexec : exec i s = s.done (State.finish { s with pages := p } id st 0) := by
    obtain ⟨rfl, hsub, rfl⟩ | ⟨rfl, hsub, rfl⟩ := hi
    · have hrun : pageShareRun s d = .done { s with pages := p } st := by rw [pageShareRun, htbl, List.foldl_cons, List.foldl_nil, hone]
      exact congrArg s.done (runCar_of_done hd hst hres hop hstop hreg (p := subOp 40 2) (spills := false) (by simp [subOp, hsub]) hrun)
    · have hrun : pageReleaseRun s d = .done { s with pages := p } st := by rw [pageReleaseRun, htbl, List.foldl_cons, List.foldl_nil, hone]
      exact congrArg s.done (runCar_of_done hd hst hres hop hstop hreg (p := subOp 40 3) (spills := false) (by simp [subOp, hsub]) hrun)
  obtain ⟨t, hnext, ht, hdesc, _⟩ := done_finish_of_wf (s := s) (u := { s with pages := p }) (Invariant.of_mem hs rfl rfl) rfl hd st 0
  refine ⟨t, hexec.trans hnext, by rw [ht], SameBytes.of_dict (by rw [ht]) (by rw [ht]) (by rw [ht]), hdesc, ?_⟩
  rw [← hrefs, State.page, ht]

theorem exec_pageQuery (hfour : d.f 40 1 = 4) (hlen : d.tbl.length = d.f 36 4) (hout : d.f 30 6 + 16 * d.f 36 4 ≤ 2 ^ 36) :
    ∃ t, exec (.pageQuery id) s = .next t ∧ t = { s with mem := t.mem, descs := t.descs } ∧
      SameBytesBut (d.f 30 6) (16 * d.f 36 4) s t ∧
      t.desc? id = some { d with result := some { status := 0, outcome := 0, flags := 0 } } ∧ (∀ j, j ≠ id → t.desc? j = s.desc? j) ∧
      (∀ i k, i < d.f 36 4 → k < 16 → t.byteAt (d.f 30 6 + 16 * i + k) = (toBytes 16 (d.tbl.getD i 0)).getD k 0) := by
  have hrun : pageQueryRun s d = .done (s.wr (d.f 30 6) (d.tbl.map (toBytes 16)).flatten) 0 := rfl
  have hexec : exec (.pageQuery id) s = s.done (s.runCar id 0x0120 (subOp 40 4) false pageQueryRun) := rfl
  rw [runCar_of_done hd hst hres hop hstop hreg (by simp [subOp, hfour]) hrun] at hexec
  have hbytes : (d.tbl.map (toBytes 16)).flatten.length = 16 * d.f 36 4 := by
    rw [length_flatten_map (fun _ => toBytes_length 16 _), hlen, Nat.mul_comm]
  have hin := rdBytes_wr_dram s (d.f 30 6) (d.tbl.map (toBytes 16)).flatten (hbytes ▸ hout)
  have hother := wr_byteAt_out s (d.f 30 6) (l := (d.tbl.map (toBytes 16)).flatten)
  rw [hbytes] at hin hother
  obtain ⟨m, hwr⟩ := wr_frame s (d.f 30 6) (d.tbl.map (toBytes 16)).flatten
  generalize State.wr _ _ _ = u at hexec hin hother hwr
  have hud (j : Nat) : u.desc? j = s.desc? j := by rw [hwr]; rfl
  obtain ⟨t, hnext, ht, hdesc, hrest, hsame⟩ := done_finish hs (u := u) (by rw [hwr]) (by rw [hwr]) ((hud id).trans hd) 0 0
  refine ⟨t, hexec.trans hnext, ?_, ⟨fun b hb hloc => (hsame b).trans (hother b hb hloc), ?_⟩, hdesc, fun j hj => (hrest j hj).trans (hud j),
    fun i k hi hk => ?_⟩
  · rw [ht, hwr]
  · rw [ht, hwr]
  · have hi' : i < d.tbl.length := hlen ▸ hi
    have hrec := hin (16 * i) 16 (by omega)
    rw [slice_flatten_map (fun _ => toBytes_length 16 _) hi'] at hrec
    rw [hsame, ← rdBytes_getD u _ hk, hrec, List.getD_eq_getElem d.tbl 0 hi']

end

end

/-- Settles O31. The pages of an allocation were Free and stay claimed until it ends, so that making room for the next drops none of
them; over distinct handles a share or a release counts each page once. -/
theorem pageOperations : Obligations.PageOperations := by
  unfold Obligations.PageOperations
  rintro s id _ d _ hs hd hst hres hop hstop rfl rfl
  refine ⟨fun hone => ⟨fun hc hsome hlist => ?_, fun hc hnone u hspill => ?_, fun hc hnone hspill => ?_, fun hc => ?_⟩,
    fun hreg hl => ⟨fun htwo hlive => ?_, fun hthree hlive => ?_⟩, fun h st refs i hreg htbl hcase => ?_, fun hfour hreg hlen hout => ?_⟩
  · obtain ⟨hs', hhs⟩ := Option.isSome_iff_exists.mp hsome
    obtain ⟨t, e, hnext, ht, hdesc, hresult, hother, hlen, hnodup, hpages, hread⟩ :=
      exec_pageAllocate_some hs hd hst hres hop hstop hone hc (Prod.ext hhs rfl) hlist
    exact ⟨t, hs', e, hnext, ht, hdesc, hresult, hother, hhs, hlen, hnodup, hpages, hread⟩
  · exact exec_pageAllocate_spill hs hd hst hres hop hstop hone hc (Prod.ext hnone rfl) hspill
  · exact exec_pageAllocate_no_spill hs hd hst hres hop hstop hone hc (Prod.ext hnone rfl) hspill
  · exact exec_pageAllocate_no_cache hs hd hst hres hop hstop hone hc
  · refine exec_pageShare hs hd hst hres hop hstop hreg htwo hl fun h hh => ?_
    obtain ⟨hlt, hfree, hrefs⟩ := hlive h hh
    exact ⟨hlt, hfree, by omega⟩
  · refine exec_pageRelease hs hd hst hres hop hstop hreg hthree hl fun h hh => ?_
    obtain ⟨hlt, hfree, _, hrefs⟩ := hlive h hh
    exact ⟨hlt, hfree, hrefs⟩
  · obtain ⟨htwo, hi, hlt, hfree, hrefs, rfl, rfl⟩ | ⟨hsub, hlt, hfree, hrefs, rfl, rfl⟩ | ⟨hsub, hmissing, rfl, rfl⟩ := hcase
    · refine exec_pageNotice hs hd hst hres hop hstop hreg htbl (Or.inl ⟨rfl, htwo, hi⟩)
        (refOne_share_last 0 (not_or.mpr ⟨not_le.mpr hlt, hfree⟩) hrefs) ?_
      exact congrArg Page.refs ((State.setPage_page s h h _).trans (if_pos rfl))
    · have hpin (b : Bool) := refOne_of_pinned 0 b (not_or.mpr ⟨not_le.mpr hlt, hfree⟩) hrefs
      obtain hi | hi := hsub
      · exact exec_pageNotice hs hd hst hres hop hstop hreg htbl (Or.inl ⟨rfl, hi⟩) (hpin true) hrefs
      · exact exec_pageNotice hs hd hst hres hop hstop hreg htbl (Or.inr ⟨rfl, hi⟩) (hpin false) hrefs
    · have hskip (b : Bool) := refOne_of_missing 0 b hmissing
      obtain hi | hi := hsub
      · exact exec_pageNotice hs hd hst hres hop hstop hreg htbl (Or.inl ⟨rfl, hi⟩) (hskip true) rfl
      · exact exec_pageNotice hs hd hst hres hop hstop hreg htbl (Or.inr ⟨rfl, hi⟩) (hskip false) rfl
  · exact exec_pageQuery hs hd hst hres hop hstop hreg hfour hlen hout

end Sys2Proof
end

section
/-! Cache append and refill, what they write (R135, R136): rows into page backing alone, and for each page of the operation, group by
group, its fill. -/

namespace Sys2Proof.Machine

/-! ### Page backing (R116, R117) -/

/-- From `s` to `t` page backing alone has changed. -/
structure BackingOnly (s t : State) : Prop where
  frame : t = { s with mem := t.mem }
  cells : ∀ a, a < kvBase → cellGet 0 a t.mem = cellGet 0 a s.mem

theorem BackingOnly.trans {s t u : State} (h : BackingOnly s t) (k : BackingOnly t u) : BackingOnly s u :=
  ⟨k.frame.trans (by rw [h.frame]), fun a ha => (k.cells a ha).trans (h.cells a ha)⟩

theorem BackingOnly.foldl {ι : Type} {f : State → ι → State} (hf : ∀ u x, BackingOnly u (f u x)) (l : List ι) (s : State) :
    BackingOnly s (l.foldl f s) :=
  List.foldlRecOn (motive := BackingOnly s) l f ⟨rfl, fun _ _ => rfl⟩ fun u hu x _ => hu.trans (hf u x)

theorem BackingOnly.pagesOnly {s t : State} (h : BackingOnly s t) : PagesOnly s t := ⟨h.frame.trans (by rw [h.frame]), h.cells⟩

theorem BackingOnly.page {s t : State} (h : BackingOnly s t) (n : Nat) : t.page n = s.page n := by rw [h.frame]; rfl

theorem BackingOnly.kvWrite (s : State) (g : KvGeom) (h sl p c : Nat) (isV : Bool) (w : Nat) : BackingOnly s (kvWrite s g h sl p c isV w) := by
  refine ⟨rfl, fun a ha => ?_⟩
  unfold Machine.kvWrite tileAt KvGeom.slotAt
  refine List.foldlRecOn (motive := fun m => cellGet 0 a m = cellGet 0 a s.mem) _ _ rfl fun m hm x _ => ?_
  rw [cellGet_cellSet, if_neg (by omega), hm]

theorem BackingOnly.writeRows (s : State) (d : Desc) (g : KvGeom) (pg : Nat → Nat → Nat) (m : List (List (Nat × Nat))) :
    BackingOnly s (writeRows s d g pg m) :=
  foldl (fun u _ => foldl (fun u c => (kvWrite u g _ _ _ c false _).trans (kvWrite _ g _ _ _ c true _)) _ u) _ s

/-! ### The pages of an operation, group by group -/

theorem foldl_product {α ι κ : Type} (f : α → ι → κ → α) (l : List ι) (m : List κ) (a : α) :
    l.foldl (fun a q => m.foldl (fun a j => f a q j) a) a = (l ×ˢ m).foldl (fun a x => f a x.1 x.2) a := by
  have h : l ×ˢ m = l.flatMap (fun q => m.map (fun j => (q, j))) := rfl
  rw [h, List.foldl_flatMap]
  simp only [List.foldl_map]

/-- The groups of an operation and the pages that each writes, counted from its first. -/
def groupPages (groups per : Nat) : List (Nat × Nat) := List.range groups ×ˢ List.range per

theorem mem_groupPages {groups per : Nat} {x : Nat × Nat} : x ∈ groupPages groups per ↔ x.1 < groups ∧ x.2 < per := by
  unfold groupPages
  rw [List.mem_product, List.mem_range, List.mem_range]

theorem groupPages_index_lt {groups per : Nat} {x : Nat × Nat} (hx : x ∈ groupPages groups per) : x.1 * per + x.2 < groups * per := by
  obtain ⟨hq, hj⟩ := mem_groupPages.mp hx
  calc x.1 * per + x.2 < x.1 * per + per := Nat.add_lt_add_left hj _
    _ = (x.1 + 1) * per := (Nat.succ_mul _ _).symm
    _ ≤ groups * per := Nat.mul_le_mul_right per hq

/-- The handle of page `x.2` of group `x.1`. -/
def groupHandle (hs : List Nat) (per : Nat) (x : Nat × Nat) : Nat := hs.getD (x.1 * per + x.2) 0

section
variable {hs : List Nat} {groups per : Nat} (hlen : hs.length = groups * per)
include hlen

theorem groupHandle_mem {x : Nat × Nat} (hx : x ∈ groupPages groups per) : groupHandle hs per x ∈ hs := by
  have hlt := groupPages_index_lt hx
  rw [← hlen] at hlt
  rw [groupHandle, List.getD_eq_getElem hs 0 hlt]
  exact List.getElem_mem hlt

theorem nodup_groupHandles (hs' : hs.Nodup) : ((groupPages groups per).map (groupHandle hs per)).Nodup := by
  refine List.Nodup.map_on (fun x hx y hy hxy => ?_) (List.nodup_range.product List.nodup_range)
  have hxlt := groupPages_index_lt hx
  have hylt := groupPages_index_lt hy
  rw [← hlen] at hxlt hylt
  rw [groupHandle, groupHandle, List.getD_eq_getElem hs 0 hxlt, List.getD_eq_getElem hs 0 hylt, hs'.getElem_inj_iff] at hxy
  obtain ⟨_, hxj⟩ := mem_groupPages.mp hx
  obtain ⟨_, hyj⟩ := mem_groupPages.mp hy
  have hj : x.2 = y.2 := by
    have hmod := congrArg (· % per) hxy
    simpa [Nat.mod_eq_of_lt hxj, Nat.mod_eq_of_lt hyj] using hmod
  have hq : x.1 * per = y.1 * per := by omega
  exact Prod.ext (Nat.eq_of_mul_eq_mul_right (Nat.zero_lt_of_lt hxj) hq) hj

end

/-! ### Append (R135, steps 6 and 7) -/

/-- The new rows, written into the pages `hs` of an operation that begins at page `i0` of its list. -/
def rowsWritten (s : State) (d : Desc) (hs : List Nat) (i0 : Nat) : State :=
  writeRows s d (appGeom d) (fun q i => groupHandle hs (d.aux.getD 2 0) (q, i - i0)) (runFlg (appendBits s d (appGeom d))).1

theorem BackingOnly.rowsWritten (s : State) (d : Desc) (hs : List Nat) (i0 : Nat) : BackingOnly s (rowsWritten s d hs i0) :=
  BackingOnly.writeRows s d (appGeom d) _ _

/-- The fill of page `i` of a list whose positions end at `fin`. -/
def pageFill (d : Desc) (i : Nat) : Nat := min (appGeom d).pt (d.f 48 4 + d.f 52 4 - i * (appGeom d).pt)

/-- An append completes page `x.2` of group `x.1`: the page has its fill, and the list names it where it is new. -/
def appendPage (d : Desc) (hs : List Nat) (i0 : Nat) (s : State) (x : Nat × Nat) : State :=
  let h := groupHandle hs (d.aux.getD 2 0) x
  let s := s.setPage h { s.page h with fill := pageFill d (i0 + x.2), claim := none, stamp := s.carTime }
  if i0 + x.2 ≥ d.aux.getD 1 0 then s.wrN (plSlot (d.f 36 6) (d.tbl.headD 0) x.1 (i0 + x.2)) 4 h else s

/-- A page as an append leaves it. -/
def Filled (d : Desc) (i0 : Nat) (x : Nat × Nat) (p p' : Page) : Prop :=
  p'.fill = pageFill d (i0 + x.2) ∧ p'.claim = none ∧ p'.refs = p.refs

theorem pageStep_append (s : State) (d : Desc) (hs : List Nat) (i0 : Nat) :
    PageStep State.page (appendPage d hs i0) (groupHandle hs (d.aux.getD 2 0)) (fun u => ∃ m p, u = { s with mem := m, pages := p })
      (fun _ _ => True) (Filled d i0) := by
  rintro u x hu _
  unfold appendPage
  dsimp only
  generalize hv : u.setPage (groupHandle hs (d.aux.getD 2 0) x) _ = v
  have hframe : ∃ m p, v = { s with mem := m, pages := p } := by
    obtain ⟨m, p, rfl⟩ := hu
    exact ⟨_, _, hv.symm⟩
  have hself : Filled d i0 x (u.page (groupHandle hs (d.aux.getD 2 0) x)) (v.page (groupHandle hs (d.aux.getD 2 0) x)) := by
    rw [← hv, State.setPage_page, if_pos rfl]
    exact ⟨rfl, rfl, rfl⟩
  have hother (h : Nat) (hh : h ≠ groupHandle hs (d.aux.getD 2 0) x) : v.page h = u.page h := by
    rw [← hv, State.setPage_page, if_neg (Ne.symm hh)]
  split
  · obtain ⟨m, hwr⟩ := wr_frame v (plSlot (d.f 36 6) (d.tbl.headD 0) x.1 (i0 + x.2)) (toBytes 4 (groupHandle hs (d.aux.getD 2 0) x))
    rw [State.wrN, hwr]
    refine ⟨?_, hself, hother⟩
    obtain ⟨_, p, rfl⟩ := hframe
    exact ⟨m, p, rfl⟩
  · exact ⟨hframe, hself, hother⟩

/-- An append that runs: its rows, then its pages, then the valid count. -/
theorem appendRun_eq (s : State) (d : Desc) {hs : List Nat} {i0 : Nat} (hhs : hs = d.aux.drop (4 + d.aux.getD 3 0))
    (hi0 : i0 = min (d.f 48 4 / (appGeom d).pt) (d.aux.getD 1 0)) :
    appendRun s d = (((groupPages (appGeom d).groups (d.aux.getD 2 0)).foldl (appendPage d hs i0) (rowsWritten s d hs i0)).wrN (d.f 36 6) 4
      (ceilDiv (d.f 48 4 + d.f 52 4) (appGeom d).pt), 0, (runFlg (appendBits s d (appGeom d))).2) := by
  subst hhs hi0
  unfold appendRun
  simp only [Nat.add_sub_cancel_left, foldl_product]
  rfl

theorem appendRun_spec (s : State) (d : Desc) {hs : List Nat} {i0 : Nat} (hhs : hs = d.aux.drop (4 + d.aux.getD 3 0))
    (hi0 : i0 = min (d.f 48 4 / (appGeom d).pt) (d.aux.getD 1 0)) (hnodup : hs.Nodup)
    (hlen : hs.length = (appGeom d).groups * d.aux.getD 2 0) :
    ∃ m p fl, appendRun s d = ({ s with mem := m, pages := p }, 0, fl) ∧
      (∀ h, h ∉ hs → AMap.getD h Page.zero p = s.page h) ∧
      (∀ x, x ∈ groupPages (appGeom d).groups (d.aux.getD 2 0) →
        Filled d i0 x (s.page (groupHandle hs (d.aux.getD 2 0) x)) (AMap.getD (groupHandle hs (d.aux.getD 2 0) x) Page.zero p)) ∧
      (d.f 36 6 + 4 ≤ 2 ^ 36 →
        State.rd { s with mem := m, pages := p } (d.f 36 6) 4 = ceilDiv (d.f 48 4 + d.f 52 4) (appGeom d).pt % 2 ^ 32) := by
  have hback := BackingOnly.rowsWritten s d hs i0
  have hrun := appendRun_eq s d hhs hi0
  generalize rowsWritten s d hs i0 = v at hback hrun
  obtain ⟨⟨m, p, hfold⟩, hin, hout⟩ := (pageStep_append s d hs i0).foldl (nodup_groupHandles hlen hnodup) (s := v)
    ⟨v.mem, s.pages, hback.frame⟩ (fun _ _ => True.intro)
  rw [hfold] at hrun hin hout
  obtain ⟨m', hwr⟩ := wr_frame { s with mem := m, pages := p } (d.f 36 6) (toBytes 4 (ceilDiv (d.f 48 4 + d.f 52 4) (appGeom d).pt))
  rw [State.wrN, hwr] at hrun
  refine ⟨m', p, _, hrun, fun h hh => ?_, fun x hx => ?_, fun hdram => ?_⟩
  · exact (hout h fun x hx e => hh (e ▸ groupHandle_mem hlen hx)).trans (hback.page h)
  · exact hback.page _ ▸ hin x hx
  · have hread := rd_wr_dram { s with mem := m, pages := p } (d.f 36 6) (toBytes 4 (ceilDiv (d.f 48 4 + d.f 52 4) (appGeom d).pt))
      (by rwa [toBytes_length]) (k := 0) (n := 4) (w := ceilDiv (d.f 48 4 + d.f 52 4) (appGeom d).pt) (by rw [toBytes_length])
      (by rw [List.drop_zero, List.take_of_length_le (by rw [toBytes_length])])
    rw [hwr] at hread
    exact hread

/-! ### Refill (R136) -/

/-- A refill completes page `x.2` of group `x.1`: it is Present once the fill that it had is back. -/
def refillPage (d : Desc) (hs : List Nat) (i0 : Nat) (s : State) (x : Nat × Nat) : State :=
  let h := groupHandle hs (d.aux.getD 2 0) x
  let fill := pageFill d (i0 + x.2)
  s.setPage h { s.page h with fill := fill, claim := none, stamp := s.carTime,
                              st := if (s.page h).goal ≤ fill then .present else .refilling }

/-- A page as a refill leaves it. -/
def Refilled (d : Desc) (i0 : Nat) (x : Nat × Nat) (p p' : Page) : Prop :=
  p'.fill = pageFill d (i0 + x.2) ∧ p'.claim = none ∧ p'.st = if p.goal ≤ pageFill d (i0 + x.2) then .present else .refilling

theorem pageStep_refill (s : State) (d : Desc) (hs : List Nat) (i0 : Nat) :
    PageStep State.page (refillPage d hs i0) (groupHandle hs (d.aux.getD 2 0)) (PagesOnly s) (fun _ _ => True) (Refilled d i0) := by
  rintro u x hu _
  have hpage (h : Nat) := State.setPage_page u (groupHandle hs (d.aux.getD 2 0) x) h
  refine ⟨hu.setPage _ _, ?_, fun h hh => (hpage h _).trans (if_neg (Ne.symm hh))⟩
  unfold refillPage
  dsimp only
  rw [hpage, if_pos rfl]
  exact ⟨rfl, rfl, rfl⟩

/-- A refill that runs: its rows, then its pages. -/
theorem refillRun_eq (s : State) (d : Desc) {hs : List Nat} {i0 : Nat} (hhs : hs = d.aux.drop 4) (hi0 : i0 = d.f 48 4 / (appGeom d).pt) :
    refillRun s d = ((groupPages (appGeom d).groups (d.aux.getD 2 0)).foldl (refillPage d hs i0) (rowsWritten s d hs i0), 0,
      (runFlg (appendBits s d (appGeom d))).2) := by
  subst hhs hi0
  unfold refillRun
  simp only [Nat.add_sub_cancel_left, foldl_product]
  rfl

theorem refillRun_spec (s : State) (d : Desc) {hs : List Nat} {i0 : Nat} (hhs : hs = d.aux.drop 4) (hi0 : i0 = d.f 48 4 / (appGeom d).pt)
    (hnodup : hs.Nodup) (hlen : hs.length = (appGeom d).groups * d.aux.getD 2 0) :
    ∃ v fl, refillRun s d = (v, 0, fl) ∧ PagesOnly s v ∧ (∀ h, h ∉ hs → v.page h = s.page h) ∧
      ∀ x, x ∈ groupPages (appGeom d).groups (d.aux.getD 2 0) →
        Refilled d i0 x (s.page (groupHandle hs (d.aux.getD 2 0) x)) (v.page (groupHandle hs (d.aux.getD 2 0) x)) := by
  have hback := BackingOnly.rowsWritten s d hs i0
  have hrun := refillRun_eq s d hhs hi0
  generalize rowsWritten s d hs i0 = v at hback hrun
  obtain ⟨honly, hin, hout⟩ := (pageStep_refill s d hs i0).foldl (nodup_groupHandles hlen hnodup) (s := v) hback.pagesOnly
    (fun _ _ => True.intro)
  refine ⟨_, _, hrun, honly, fun h hh => ?_, fun x hx => ?_⟩
  · exact (hout h fun x hx e => hh (e ▸ groupHandle_mem hlen hx)).trans (hback.page h)
  · exact hback.page _ ▸ hin x hx

/-! ### Backing for dropped pages (R136) -/

theorem MakesRoom.refillBack (l : List Nat) (s : State) : MakesRoom s (refillBack l s).2 := by
  induction l generalizing s with
  | nil => exact MakesRoom.refl s
  | cons h l ih =>
    unfold Machine.refillBack
    dsimp only
    split
    · exact ih s
    · have hdie := MakesRoom.pageDie s (s.page h).owner (s.page h).die
      split
      · rename_i di t ht
        rw [ht] at hdie
        exact (hdie.trans ⟨rfl, Memory.wf_cellClear (kvBase + h * kib64) kib64 t.mem⟩).trans (ih _)
      · rename_i t ht
        rw [ht] at hdie
        exact hdie

theorem refillBack_of_none_absent {l : List Nat} {s : State} (h : ∀ x, x ∈ l → (s.page x).st ≠ .absent) : refillBack l s = (0, s) := by
  induction l with
  | nil => rfl
  | cons x l ih =>
    unfold refillBack
    exact (if_pos (h x List.mem_cons_self)).trans (ih fun y hy => h y (List.mem_cons_of_mem x hy))

end Sys2Proof.Machine
end

section
/-! Cache append and refill, how their commands end (R20, R135, R136, R281). -/

namespace Sys2Proof.Machine

section
variable {s : State} {id : Nat} {d : Desc} (hd : s.desc? id = some d) (hst : d.st = .running) (hres : d.result = none)
include hd hst hres

omit hst in
/-- A descriptor that ends early has its status and outcome. -/
theorem done_endDesc (s' : State) (st oc : Nat) :
    ∃ t e, s'.done (s.endDesc id st oc) = .next t ∧ t.desc? id = some e ∧ e.result = some { status := st, outcome := oc, flags := 0 } := by
  have hend : (s.endDesc id st oc).desc? id = some (d.ended st oc) := by rw [endDesc_desc, if_pos rfl, hd]; rfl
  exact ⟨_, _, rfl, hend, by simp [Desc.ended, hres]⟩

/-- A running operation that no access ends has its effect, clears what its reads clear, and finishes. -/
theorem runOp_of_pred (hstop : s.stopOf d = none) {p : Desc → Bool} (hp : p d = true) (f : State → Desc → State × Nat × Nat) :
    s.runOp id d.op p f = ((f (s.showRegs d) d).1.clearReads d).finish id (f (s.showRegs d) d).2.1 (f (s.showRegs d) d).2.2 := by
  simp only [State.runOp, opOn_of_running hd hst hres, hp, hstop, Bool.not_true, Bool.false_eq_true, if_false]

end

/-- The list entries that an append writes at its end are granted (R20). -/
def State.entriesGranted (s : State) (d : Desc) : Bool :=
  (List.range (appGeom d).groups).all (fun q => s.grantedFor d ⟨plSlot (d.f 36 6) (d.tbl.headD 0) q (d.aux.getD 1 0),
    4 * (ceilDiv (d.f 48 4 + d.f 52 4) (appGeom d).pt - d.aux.getD 1 0), true, false⟩)

section
variable {s : State} {id : Nat} {d : Desc} (hd : s.desc? id = some d) (hst : d.st = .running) (hres : d.result = none)
  (hop : d.op = 0x0110)
include hd hst hres hop

theorem cacheAppend_of_not_granted (happ : appRefill d = false) (hg : s.entriesGranted d = false) :
    s.cacheAppend id = s.endDesc id 0x0540 0x09 := by
  have hon := opOn_of_running hd hst hres
  rw [hop] at hon
  unfold State.entriesGranted at hg
  simp only [State.cacheAppend, hon, happ, hg, Bool.not_false, Bool.and_self, if_true]

theorem cacheAppend_of_granted (happ : appRefill d = false) (hg : s.entriesGranted d = true) :
    s.cacheAppend id = s.runOp id d.op (fun d => !(appRefill d)) appendRun := by
  have hon := opOn_of_running hd hst hres
  rw [hop] at hon ⊢
  unfold State.entriesGranted at hg
  simp only [State.cacheAppend, hon, happ, hg, Bool.not_false, Bool.not_true, Bool.and_false, Bool.false_eq_true, if_false]

variable (hstop : s.stopOf d = none) (href : appRefill d = true)
include hstop href

theorem cacheRefill_of_backed {u : State} (hb : refillBack d.pages s = (0, u)) :
    s.cacheRefill id = (u.spillWaited id).runOp id d.op appRefill refillRun := by
  have hon := opOn_of_running hd hst hres
  rw [hop] at hon ⊢
  simp only [State.cacheRefill, hon, href, hstop, hb, Bool.not_true, Bool.false_eq_true, if_false]

theorem cacheRefill_of_spill {n : Nat} {u x : State} (hn : n ≠ 0) (hb : refillBack d.pages s = (n, u))
    (hspill : u.pageSpill d.ctx 4 n = some x) : s.cacheRefill id = x.spillWait id := by
  have hon := opOn_of_running hd hst hres
  rw [hop] at hon
  obtain ⟨k, rfl⟩ := Nat.exists_eq_succ_of_ne_zero hn
  simp only [State.cacheRefill, hon, href, hstop, hb, hspill, Bool.not_true, Bool.false_eq_true, if_false]

theorem cacheRefill_of_no_spill {n : Nat} {u : State} (hn : n ≠ 0) (hb : refillBack d.pages s = (n, u))
    (hspill : u.pageSpill d.ctx 4 n = none) : s.cacheRefill id = u.endDesc id 0x0545 0x09 := by
  have hon := opOn_of_running hd hst hres
  rw [hop] at hon
  obtain ⟨k, rfl⟩ := Nat.exists_eq_succ_of_ne_zero hn
  simp only [State.cacheRefill, hon, href, hstop, hb, hspill, Bool.not_true, Bool.false_eq_true, if_false]

end

theorem makesRoom_of_refillBack {l : List Nat} {n : Nat} {s u : State} (hb : refillBack l s = (n, u)) : MakesRoom s u := by
  have h := MakesRoom.refillBack l s
  rwa [hb] at h

theorem showRegs_byteAt (s : State) (d : Desc) {b : Nat} (hb : isRegSpace b = false) : (s.showRegs d).byteAt b = s.byteAt b :=
  (regs_frame_same (showRegs_frame s d)).2.1.1 b hb

/-- An operation that runs in `x` and changes memory and pages alone ends a command of `s` with its effect `v`. -/
theorem done_runOp_of_run {s x v : State} {id st fl : Nat} {d : Desc} {p : Desc → Bool} {f : State → Desc → State × Nat × Nat}
    (hs : Invariant s) (hpending : x.pending = s.pending) (hflash : x.flash = s.flash) (hd : x.desc? id = some d)
    (hst : d.st = .running) (hres : d.result = none) (hstop : x.stopOf d = none) (hp : p d = true)
    (hrun : f (x.showRegs d) d = (v, st, fl)) (hv : v = { x.showRegs d with mem := v.mem, pages := v.pages }) :
    ∃ t, s.done (x.runOp id d.op p f) = .next t ∧ t = { x with mem := t.mem, regs := t.regs, descs := t.descs, pages := t.pages } ∧
      t.desc? id = some { d with result := some { status := st, outcome := 0, flags := fl } } ∧
      (∀ j, j ≠ id → t.desc? j = x.desc? j) ∧ (∀ h, t.page h = v.page h) ∧
      ∀ b, isRegSpace b = false → t.byteAt b = v.byteAt b := by
  have hbytes (b : Nat) (hb : isRegSpace b = false) := (regs_frame_same (clearReads_frame v d)).2.1.1 b hb
  have hframe : ∃ r, v.clearReads d = { x with mem := v.mem, pages := v.pages, regs := r } := by
    obtain ⟨r, hclear⟩ := clearReads_frame v d
    obtain ⟨r', hshow⟩ := showRegs_frame x d
    exact ⟨r, by rw [hclear, hv, hshow]⟩
  rw [runOp_of_pred hd hst hres hstop hp, hrun]
  generalize v.clearReads d = u at hbytes hframe ⊢
  obtain ⟨r, hframe⟩ := hframe
  have hud (j : Nat) : u.desc? j = x.desc? j := by rw [hframe]; rfl
  obtain ⟨t, hnext, ht, hdesc, hother, hsame⟩ := done_finish hs (u := u) (by rw [hframe]; exact hpending) (by rw [hframe]; exact hflash)
    ((hud id).trans hd) st fl
  refine ⟨t, hnext, by rw [ht, hframe], hdesc, fun j hj => (hother j hj).trans (hud j), fun h => ?_, fun b hb => (hsame b).trans (hbytes b hb)⟩
  rw [State.page, ht, hframe]
  rfl

end Sys2Proof.Machine

namespace Sys2Proof

open Sys2Proof.Machine

section
variable {s : State} {id : Nat} {d : Desc} {hs : List Nat} (hinv : Invariant s) (hd : s.desc? id = some d) (hst : d.st = .running)
  (hres : d.result = none) (hop : d.op = 0x0110) (hstop : s.stopOf d = none)
include hinv hd hst hres hop hstop

/-- An append whose entries are granted writes its rows, its pages and its list. -/
theorem exec_cacheAppend {i0 : Nat} (hnodup : hs.Nodup) (hlen : hs.length = (appGeom d).groups * d.aux.getD 2 0)
    (happ : appRefill d = false) (hg : s.entriesGranted d = true) (hhs : hs = d.aux.drop (4 + d.aux.getD 3 0))
    (hi0 : i0 = min (d.f 48 4 / (appGeom d).pt) (d.aux.getD 1 0)) :
    ∃ t fl, exec (.cacheAppend id) s = .next t ∧ t = { s with mem := t.mem, regs := t.regs, descs := t.descs, pages := t.pages } ∧
      t.desc? id = some { d with result := some { status := 0, outcome := 0, flags := fl } } ∧
      (∀ j, j ≠ id → t.desc? j = s.desc? j) ∧ (∀ h, h ∉ hs → t.page h = s.page h) ∧
      (∀ x, x ∈ groupPages (appGeom d).groups (d.aux.getD 2 0) →
        Filled d i0 x (s.page (groupHandle hs (d.aux.getD 2 0) x)) (t.page (groupHandle hs (d.aux.getD 2 0) x))) ∧
      (d.f 36 6 + 4 ≤ 2 ^ 36 → t.rd (d.f 36 6) 4 = ceilDiv (d.f 48 4 + d.f 52 4) (appGeom d).pt % 2 ^ 32) := by
  obtain ⟨m, p, fl, hrun, hout, hin, hread⟩ := appendRun_spec (s.showRegs d) d hhs hi0 hnodup hlen
  simp only [showRegs_page] at hout hin
  have hexec : exec (.cacheAppend id) s = s.done (s.cacheAppend id) := rfl
  rw [cacheAppend_of_granted hd hst hres hop happ hg] at hexec
  obtain ⟨t, hnext, ht, hdesc, hother, hpage, hbytes⟩ := done_runOp_of_run hinv rfl rfl hd hst hres hstop
    (p := fun d => !(appRefill d)) (by simp [happ]) hrun rfl
  refine ⟨t, fl, hexec.trans hnext, ht, hdesc, hother, fun h hh => (hpage h).trans (hout h hh), fun x hx => hpage _ ▸ hin x hx,
    fun hdram => ?_⟩
  rw [← hread hdram]
  exact rd_congr_range fun i hi => hbytes _ (isRegSpace_of_lt (by omega))

/-- A refill whose pages have backing rewrites its rows in place, in the state `u` that has their backing. -/
theorem exec_cacheRefill_backed {i0 : Nat} {u : State} (hnodup : hs.Nodup) (hlen : hs.length = (appGeom d).groups * d.aux.getD 2 0)
    (href : appRefill d = true) (hhs : hs = d.aux.drop 4) (hi0 : i0 = d.f 48 4 / (appGeom d).pt) (hb : refillBack d.pages s = (0, u))
    (hgo : ∀ e, (u.spillWaited id).desc? id = some e → (u.spillWaited id).stopOf e = none) :
    ∃ t e fl, exec (.cacheRefill id) s = .next t ∧ t = { u with mem := t.mem, regs := t.regs, descs := t.descs, pages := t.pages } ∧
      t.desc? id = some e ∧ e.result = some { status := 0, outcome := 0, flags := fl } ∧
      (∀ j, j ≠ id → t.desc? j = s.desc? j) ∧ (∀ h, h ∉ hs → t.page h = u.page h) ∧
      (∀ b, b < 2 ^ 48 → isRegSpace b = false → t.byteAt b = u.byteAt b) ∧
      (∀ x, x ∈ groupPages (appGeom d).groups (d.aux.getD 2 0) →
        Refilled d i0 x (u.page (groupHandle hs (d.aux.getD 2 0) x)) (t.page (groupHandle hs (d.aux.getD 2 0) x))) := by
  have hroom := (makesRoom_of_refillBack hb).frame
  have hud (j : Nat) : u.desc? j = s.desc? j := by rw [hroom]; rfl
  have hpending : u.pending = s.pending := by rw [hroom]
  have hflash : u.flash = s.flash := by rw [hroom]
  have hexec : exec (.cacheRefill id) s = s.done (s.cacheRefill id) := rfl
  rw [cacheRefill_of_backed hd hst hres hop hstop href hb] at hexec
  obtain ⟨⟨q, w, hxd⟩, hxother⟩ := spillWaited_desc ((hud id).trans hd)
  have hx : u.spillWaited id = { u with descs := (u.spillWaited id).descs } := rfl
  generalize u.spillWaited id = x at hexec hgo hxd hxother hx
  have hxp (h : Nat) : x.page h = u.page h := by rw [hx]; rfl
  have hxb (b : Nat) : x.byteAt b = u.byteAt b := by rw [hx]; rfl
  obtain ⟨v, fl, hrun, honly, hout, hin⟩ := refillRun_spec (x.showRegs { d with stopAt := q, delays := w })
    { d with stopAt := q, delays := w } hhs hi0 hnodup hlen
  simp only [showRegs_page, hxp] at hout hin
  obtain ⟨t, hnext, ht, hdesc, hother, hpage, hbytes⟩ := done_runOp_of_run (x := x) hinv (by rw [hx]; exact hpending)
    (by rw [hx]; exact hflash) hxd hst hres (hgo _ hxd) (p := appRefill) href hrun honly.frame
  refine ⟨t, _, fl, hexec.trans hnext, ht.trans (by rw [hx]), hdesc, rfl,
    fun j hj => (hother j hj).trans ((hxother j hj).trans (hud j)), fun h hh => (hpage h).trans (hout h hh), fun b hb hreg => ?_,
    fun z hz => hpage _ ▸ hin z hz⟩
  calc t.byteAt b = v.byteAt b := hbytes b hreg
    _ = (x.showRegs { d with stopAt := q, delays := w }).byteAt b := honly.byteAt hb hreg
    _ = x.byteAt b := showRegs_byteAt x _ hreg
    _ = u.byteAt b := hxb b

theorem exec_cacheRefill_spill {n : Nat} {u x : State} (href : appRefill d = true) (hn : n ≠ 0) (hb : refillBack d.pages s = (n, u))
    (hspill : u.pageSpill d.ctx 4 n = some x) :
    ∃ t e, exec (.cacheRefill id) s = .next t ∧ t = { x with descs := t.descs } ∧ t.desc? id = some e ∧ e.result = none := by
  have hroom := makesRoom_of_refillBack hb
  have hframe := hroom.frame
  have hexec : exec (.cacheRefill id) s = s.done (s.cacheRefill id) := rfl
  rw [cacheRefill_of_spill hd hst hres hop hstop href hn hb hspill] at hexec
  rw [hexec]
  obtain ⟨q, rfl⟩ := pageSpill_frame hspill
  have hud : u.desc? id = some d := by rw [hframe]; exact hd
  have hpending : u.pending = s.pending := by rw [hframe]
  exact done_spillWait (u := { u with spills := q }) (Invariant.of_mem (hroom.invariant hinv) rfl rfl) hpending hud hres

omit hinv in
theorem exec_cacheRefill_no_spill {n : Nat} {u : State} (href : appRefill d = true) (hn : n ≠ 0) (hb : refillBack d.pages s = (n, u))
    (hspill : u.pageSpill d.ctx 4 n = none) :
    ∃ t e, exec (.cacheRefill id) s = .next t ∧ t.desc? id = some e ∧ e.result = some { status := 0x0545, outcome := 9, flags := 0 } := by
  have hframe := (makesRoom_of_refillBack hb).frame
  have hud : u.desc? id = some d := by rw [hframe]; exact hd
  have hexec : exec (.cacheRefill id) s = s.done (s.cacheRefill id) := rfl
  rw [cacheRefill_of_no_spill hd hst hres hop hstop href hn hb hspill] at hexec
  rw [hexec]
  exact done_endDesc hud hres s 0x0545 0x09

end

/-- Settles O30. The handles of an operation are distinct, so that its pass over groups and indices takes each page once; its rows go
to page backing, which no module address names. -/
theorem cacheAppendAndRefill : Obligations.CacheAppendAndRefill := by
  unfold Obligations.CacheAppendAndRefill
  rintro s id _ i0 _ d _ hs hinv hd hst hres hop hstop rfl rfl rfl hnodup hlen
  refine ⟨fun happ hg => ?_, fun happ hhs hi0 hg => ?_, fun href hhs hi0 => ⟨fun u _ hb hx hgo => ?_, fun n u hn hb => ⟨fun x hspill => ?_,
    fun hspill => ?_⟩⟩⟩
  · have hexec : exec (.cacheAppend id) s = s.done (s.cacheAppend id) := rfl
    rw [hexec, cacheAppend_of_not_granted hd hst hres hop happ hg]
    exact done_endDesc hd hres s 0x0540 0x09
  · obtain ⟨t, fl, hnext, ht, hdesc, hother, hout, hin, hread⟩ := exec_cacheAppend hinv hd hst hres hop hstop hnodup hlen happ hg hhs hi0
    exact ⟨t, fl, hnext, ht, hdesc, hother, hout, fun q j hq hj => hin (q, j) (mem_groupPages.mpr ⟨hq, hj⟩), hread⟩
  · subst hx
    obtain ⟨t, e, fl, hnext, ht, hdesc, hresult, hother, hout, hbytes, hin⟩ :=
      exec_cacheRefill_backed hinv hd hst hres hop hstop hnodup hlen href hhs hi0 hb hgo
    refine ⟨t, e, fl, hnext, ht, hdesc, hresult, hother, hout, hbytes, fun hp => ?_, fun q j hq hj => hin (q, j) (mem_groupPages.mpr ⟨hq, hj⟩)⟩
    rw [refillBack_of_none_absent hp] at hb
    exact (Prod.mk.inj hb).2.symm
  · exact exec_cacheRefill_spill hinv hd hst hres hop hstop href hn hb hspill
  · exact exec_cacheRefill_no_spill hd hst hres hop hstop href hn hb hspill

end Sys2Proof
end

section
/-! The ends of streams' moves (R144, R149, R151): the bytes of a state in its slots and in its backing, and what each end makes of the
stream and of what waits for it. -/

namespace Sys2Proof.Machine

/-! ### The bytes of a stream's state (R144, R145) -/

@[simp] theorem image_length (e : Strm) : e.image.length = 4 * e.data.length := by
  rw [Strm.image, length_flatten_map fun _ => toBytes_length 4 _, Nat.mul_comm]

/-- Bytes written to DRAM are there. -/
theorem wr_dram_getD (s : State) {a k : Nat} {l : List Byte} (ha : a + l.length ≤ 2 ^ 36) (hk : k < l.length) :
    (s.wr a l).byteAt (a + k) = l.getD k 0 := by
  rw [List.getD_eq_getElem l 0 hk]
  exact wr_byteAt_in s a l (fun i hi => isRegSpace_of_lt (by omega))
    (fun i j hi hj h => Nat.add_left_cancel ((dram_loc_inj s _ _ (by omega) (by omega)).mp h)) k hk

/-- A byte of a cluster's slots. -/
theorem slotAddr_add_lt {e : Strm} {n k : Nat} (hc : e.cluster < 32) (hn : e.slot * 8192 + n ≤ 0x100000) (hk : k < n) :
    2 ^ 36 ≤ e.slotAddr + k ∧ e.slotAddr + k < 0x020080000000 := by
  unfold Strm.slotAddr
  omega

/-- A state written to slots is there. -/
theorem wr_image_slots (s : State) {e : Strm} {k : Nat} (hc : e.cluster < 32) (hn : e.slot * 8192 + 4 * e.data.length ≤ 0x100000)
    (hk : k < 4 * e.data.length) : (s.wr e.slotAddr e.image).byteAt (e.slotAddr + k) = e.image.getD k 0 := by
  have hlt (i : Nat) (hi : i < e.image.length) := slotAddr_add_lt hc hn (image_length e ▸ hi)
  have hloc (i : Nat) (hi : i < e.image.length) : s.loc (e.slotAddr + i) = e.slotAddr + i := by
    obtain ⟨hlo, hhi⟩ := hlt i hi
    rw [State.loc, if_neg (by omega), unalias, if_neg (by omega)]
  rw [← image_length] at hk
  rw [List.getD_eq_getElem _ 0 hk]
  refine wr_byteAt_in s _ _ (fun i hi => isRegSpace_of_lt ((hlt i hi).2.trans (by decide))) (fun i j hi hj h => ?_) k hk
  rw [hloc i hi, hloc j hj] at h
  omega

theorem Invariant.wr {s : State} (hs : Invariant s) (a : Nat) (l : List Byte) : Invariant (s.wr a l) :=
  ⟨Memory.wf_wr s a l hs.1, by rw [wr_eq]; exact hs.2⟩

/-- A write changes memory alone, keeps it canonical, and changes no byte beside those written. -/
theorem wr_spec {s : State} (hs : Invariant s) (a : Nat) (l : List Byte) :
    ∃ m, s.wr a l = { s with mem := m } ∧ Invariant { s with mem := m } ∧ SameBytesBut a l.length s { s with mem := m } := by
  have hwf := Invariant.wr hs a l
  have hout (b : Nat) (hb : isRegSpace b = false) := wr_byteAt_out s a b l hb
  obtain ⟨m, hwr⟩ := wr_frame s a l
  rw [hwr] at hwf hout
  exact ⟨m, hwr, hwf, hout, rfl⟩

theorem laySlots_of_resident {s : State} {x : Nat} (h : (s.strm x).st = .resident) :
    s.laySlots x = s.wr (s.strm x).slotAddr (s.strm x).image := if_pos h

theorem laySlots_of_not_resident {s : State} {x : Nat} (h : (s.strm x).st ≠ .resident) : s.laySlots x = s := if_neg h

theorem layBacking_of_kind {s : State} {x : Nat} (h : (s.obj (s.strm x).obj).kind = 4) :
    s.layBacking x = s.wr (s.obj (s.strm x).obj).addr (s.strm x).image := if_pos h

theorem layBacking_of_not_kind {s : State} {x : Nat} (h : (s.obj (s.strm x).obj).kind ≠ 4) : s.layBacking x = s := if_neg h

/-- What lies in the backing of a stream changes where it has one. -/
theorem layBacking_spec {s : State} (hs : Invariant s) (x : Nat) :
    ∃ m, s.layBacking x = { s with mem := m } ∧ Invariant { s with mem := m } ∧
      ∀ b, isRegSpace b = false → ((s.obj (s.strm x).obj).kind = 4 →
        ∀ k, k < 4 * (s.strm x).data.length → s.loc ((s.obj (s.strm x).obj).addr + k) ≠ s.loc b) →
        State.byteAt { s with mem := m } b = s.byteAt b := by
  by_cases hkind : (s.obj (s.strm x).obj).kind = 4
  · obtain ⟨m, hwr, hwf, hout, _⟩ := wr_spec hs (s.obj (s.strm x).obj).addr (s.strm x).image
    rw [image_length] at hout
    exact ⟨m, (layBacking_of_kind hkind).trans hwr, hwf, fun b hb hloc => hout b hb (hloc hkind)⟩
  · exact ⟨s.mem, layBacking_of_not_kind hkind, hs, fun _ _ _ => rfl⟩

/-- A count that is not the interleave setting changes no byte. -/
theorem sameBytes_bumpOd (s : State) {i j : Nat} (n : Nat) (h : odKey i j 0 ≠ odKey 0x2000 0x10 0) : SameBytes s (s.bumpOd i j n) := by
  refine SameBytes.of_mem rfl ?_ rfl
  unfold State.interleaved
  rw [State.bumpOd_od_ne s n 32 h]

/-! ### Tier faults (R282) -/

theorem isTierFault_of_move {err : Nat} (h : err = 0x05A0 ∨ err = 0x05A2 ∨ err = 0x05A5) : isTierFault err = true := by
  obtain rfl | rfl | rfl := h <;> rfl

/-- A tier fault is counted in CAR_TIER_FAULTS and in entries from 0x2400:0B on: no byte changes, and no entry below 0x4200 but that. -/
theorem countTier_spec (s : State) (die : Nat) {err : Nat} (h : isTierFault err = true) :
    ∃ q r, s.countTier die err = { s with dict := q, regs := r } ∧ SameBytes s (s.countTier die err) ∧
      (∀ i j, odKey i j 0 ≠ odKey 0x2400 0x0B 0 ∧ odKey i j 0 < odKey 0x4200 0 0 → (s.countTier die err).od i j = s.od i j) ∧
      (s.countTier die err).reg (baseCAR + 0x30) = (s.reg (baseCAR + 0x30) + 1) % 2 ^ 64 := by
  have hdie {k : Nat} (hk : k < odKey 0x4200 0 0) : odKey (0x4200 + die) 0x62 0 ≠ k := by
    unfold odKey at hk ⊢
    omega
  have hcount : s.countTier die err = ((s.bumpReg (baseCAR + 0x30)).bumpOd 0x2400 0x0B).bumpOd (0x4200 + die) 0x62 := if_pos h
  rw [hcount]
  refine ⟨_, _, rfl, ?_, fun i j ⟨hne, hlt⟩ => ?_, (State.bumpReg_reg s _ 1 _).trans (if_pos rfl)⟩
  · have hreg : SameBytes s (s.bumpReg (baseCAR + 0x30)) := SameBytes.of_dict rfl rfl rfl
    exact (hreg.trans (sameBytes_bumpOd _ 1 (by decide))).trans (sameBytes_bumpOd _ 1 (hdie (by decide)))
  · rw [State.bumpOd_od_ne _ _ _ (hdie hlt), State.bumpOd_od_ne _ _ _ hne.symm]
    rfl

/-! ### The ends of moves (R149, R151) -/

/-- A stream whose swap-in has ended. -/
def Strm.arrived (e : Strm) : Strm := { e with st := .resident, data := if e.reset then strZeros e else e.data }

/-- A stream whose swap-out has ended. -/
def Strm.departed (e : Strm) : Strm := { e with st := .swapped, cluster := 0, slot := 0 }

/-- A stream whose state is lost. -/
def Strm.gone (e : Strm) : Strm := { e with st := .lost, cluster := 0, slot := 0, core := 0 }

theorem failMovers_desc {s : State} {x : Nat} (err i : Nat) {d : Desc} (hd : s.desc? i = some d) : (s.failMovers x err).desc? i =
    some (if d.result = none ∧ d.needsMove x = true then { d with result := some { status := err, outcome := 9, flags := 0 } } else d) := by
  refine (AMap.get?_mapV i _ s.descs).trans ?_
  rw [show AMap.get? i s.descs = some d from hd]
  simp only [Option.map_some, Bool.and_eq_true, Option.isNone_iff_eq_none]

section
variable {s : State} {x : Nat} (hst : (s.strm x).st = .moving)
include hst

theorem moveComplete_in (hin : (s.strm x).movIn = true) : moveComplete s x 0 =
    ((s.setStrm x (s.strm x).arrived).wr (s.strm x).slotAddr (s.strm x).arrived.image).bumpOd 0x2420 0x04 := by
  have hself : (s.setStrm x (s.strm x).arrived).strm x = (s.strm x).arrived := (State.setStrm_strm s x x _).trans (if_pos rfl)
  have hlay := laySlots_of_resident (s := s.setStrm x (s.strm x).arrived) (x := x) (by rw [hself]; rfl)
  rw [hself] at hlay
  unfold moveComplete
  dsimp only
  rw [if_neg (by simp [hst]), if_pos rfl, if_pos hin]
  exact congrArg (State.bumpOd · 0x2420 0x04) hlay

theorem moveComplete_out (hout : (s.strm x).movIn = false) :
    moveComplete s x 0 = (s.setStrm x (s.strm x).departed).layBacking x := by
  unfold moveComplete
  dsimp only
  rw [if_neg (by simp [hst]), if_pos rfl, if_neg (by simp [hout])]
  rfl

theorem loseStream_of_moving : s.loseStream x = (s.setStrm x (s.strm x).gone).bumpOd 0x2420 0x06 := by
  unfold State.loseStream
  dsimp only
  rw [if_neg (by simp [hst])]
  rfl

theorem moveComplete_fault {err : Nat} (herr : err = 0x05A0 ∨ err = 0x05A2 ∨ err = 0x05A5) : moveComplete s x err =
    (((s.failMovers x err).setStrm x (s.strm x).gone).bumpOd 0x2420 0x06).countTier (s.obj (s.strm x).obj).die err := by
  have hlose : (s.failMovers x err).loseStream x = ((s.failMovers x err).setStrm x (s.strm x).gone).bumpOd 0x2420 0x06 :=
    loseStream_of_moving hst
  unfold moveComplete
  dsimp only
  rw [if_neg (by simp [hst]), if_neg (by omega), if_pos herr, hlose]

end

end Sys2Proof.Machine

namespace Sys2Proof

open Sys2Proof.Machine

section
variable {s : State} {x : Nat} (hs : Invariant s) (hst : (s.strm x).st = .moving)
include hs hst

theorem exec_streamMoveComplete_in (hin : (s.strm x).movIn = true) :
    ∃ t, exec (.streamMoveComplete x 0) s = .next t ∧ t = { s with mem := t.mem, dict := t.dict, strs := t.strs } ∧
      SameBytesBut (s.strm x).slotAddr (4 * (s.strm x).arrived.data.length) s t ∧
      ((s.strm x).cluster < 32 → (s.strm x).slot * 8192 + 4 * (s.strm x).arrived.data.length ≤ 0x100000 →
        ∀ k, k < 4 * (s.strm x).arrived.data.length → t.byteAt ((s.strm x).slotAddr + k) = (s.strm x).arrived.image.getD k 0) ∧
      SameOd [odKey 0x2420 4 0] s t ∧ t.od 0x2420 4 = (s.od 0x2420 4 + 1) % 2 ^ 32 ∧
      ∀ y, t.strm y = if x = y then (s.strm x).arrived else s.strm y := by
  have hexec : exec (.streamMoveComplete x 0) s = s.done (moveComplete s x 0) := rfl
  rw [moveComplete_in hst hin] at hexec
  have himage (k : Nat) := wr_image_slots (s.setStrm x (s.strm x).arrived) (e := (s.strm x).arrived) (k := k)
  have hslot : (s.strm x).arrived.slotAddr = (s.strm x).slotAddr := rfl
  obtain ⟨m, hwr, hwf, hout, _⟩ := wr_spec (s := s.setStrm x (s.strm x).arrived) (Invariant.of_mem hs rfl rfl) (s.strm x).slotAddr
    (s.strm x).arrived.image
  rw [hslot, hwr] at himage
  rw [image_length] at hout
  rw [hwr] at hexec
  have hsame := sameBytes_bumpOd { s.setStrm x (s.strm x).arrived with mem := m } (i := 0x2420) (j := 4) 1 (by decide)
  refine ⟨_, hexec.trans (State.done_of_wf rfl (Invariant.of_mem hwf rfl rfl)), rfl,
    ⟨fun b hb hloc => (hsame.1 b hb).trans (hout b hb hloc), rfl⟩, fun hc hn k hk => ?_,
    (SameOd.of_dict _ rfl).bumpOd _ _ _ _ _ (List.mem_singleton.mpr rfl), State.bumpOd_od_self _ _ _ _ _ _,
    fun y => State.setStrm_strm s x y (s.strm x).arrived⟩
  obtain ⟨_, hlt⟩ := slotAddr_add_lt hc hn hk
  exact (hsame.1 _ (isRegSpace_of_lt (hlt.trans (by decide)))).trans (himage k hc hn hk)

theorem exec_streamMoveComplete_out (hout : (s.strm x).movIn = false) :
    ∃ t, exec (.streamMoveComplete x 0) s = .next t ∧ t = { s with mem := t.mem, strs := t.strs } ∧
      SameBytesBut (s.obj (s.strm x).obj).addr (4 * (s.strm x).data.length) s t ∧
      ((s.obj (s.strm x).obj).kind = 4 → (s.obj (s.strm x).obj).addr + 4 * (s.strm x).data.length ≤ 2 ^ 36 →
        ∀ k, k < 4 * (s.strm x).data.length → t.byteAt ((s.obj (s.strm x).obj).addr + k) = (s.strm x).image.getD k 0) ∧
      ∀ y, t.strm y = if x = y then (s.strm x).departed else s.strm y := by
  have hexec : exec (.streamMoveComplete x 0) s = s.done (moveComplete s x 0) := rfl
  rw [moveComplete_out hst hout] at hexec
  have hself : (s.setStrm x (s.strm x).departed).strm x = (s.strm x).departed := (State.setStrm_strm s x x _).trans (if_pos rfl)
  have hkindWr := layBacking_of_kind (s := s.setStrm x (s.strm x).departed) (x := x)
  obtain ⟨m, hlay, hwf, hbytes⟩ := layBacking_spec (s := s.setStrm x (s.strm x).departed) (Invariant.of_mem hs rfl rfl) x
  rw [hself] at hkindWr hbytes
  rw [hlay] at hexec hkindWr
  refine ⟨_, hexec.trans (State.done_of_wf rfl hwf), rfl, ⟨fun b hb hloc => hbytes b hb fun _ => hloc, rfl⟩, fun hkind hn k hk => ?_,
    fun y => State.setStrm_strm s x y (s.strm x).departed⟩
  rw [← image_length] at hn hk
  rw [hkindWr hkind]
  exact wr_dram_getD _ hn hk

theorem exec_streamMoveComplete_fault {err : Nat} (herr : err = 0x05A0 ∨ err = 0x05A2 ∨ err = 0x05A5) :
    ∃ t, exec (.streamMoveComplete x err) s = .next t ∧
      t = { s with dict := t.dict, regs := t.regs, descs := t.descs, cores := t.cores, strs := t.strs } ∧ SameBytes s t ∧
      (∀ y, t.strm y = if x = y then (s.strm x).gone else s.strm y) ∧ t.od 0x2420 6 = (s.od 0x2420 6 + 1) % 2 ^ 32 ∧
      t.reg (baseCAR + 0x30) = (s.reg (baseCAR + 0x30) + 1) % 2 ^ 64 ∧
      (∀ i d, s.desc? i = some d → t.desc? i = some (if d.result = none ∧ d.needsMove x = true then
        { d with result := some { status := err, outcome := 9, flags := 0 } } else d)) := by
  have hexec : exec (.streamMoveComplete x err) s = s.done (moveComplete s x err) := rfl
  rw [moveComplete_fault hst herr] at hexec
  have hlost : SameBytes s (((s.failMovers x err).setStrm x (s.strm x).gone).bumpOd 0x2420 0x06) :=
    (SameBytes.of_dict rfl rfl rfl).trans (sameBytes_bumpOd ((s.failMovers x err).setStrm x (s.strm x).gone) 1 (by decide))
  have hcount : State.od (((s.failMovers x err).setStrm x (s.strm x).gone).bumpOd 0x2420 0x06) 0x2420 6 = (s.od 0x2420 6 + 1) % 2 ^ 32 :=
    State.bumpOd_od_self ((s.failMovers x err).setStrm x (s.strm x).gone) 0x2420 6 1 32 0
  obtain ⟨q, r, htier, hbytes, hod, hreg⟩ := countTier_spec (((s.failMovers x err).setStrm x (s.strm x).gone).bumpOd 0x2420 0x06)
    (s.obj (s.strm x).obj).die (isTierFault_of_move herr)
  rw [htier] at hexec hbytes hod hreg
  exact ⟨_, hexec.trans (State.done_of_wf rfl (Invariant.of_mem hs rfl rfl)), rfl, hlost.trans hbytes,
    fun y => State.setStrm_strm s x y (s.strm x).gone, (hod 0x2420 6 (by decide)).trans hcount, hreg, fun i d hd => failMovers_desc err i hd⟩

end

/-- Settles O34. A move that ends changes the stream's entry, its bytes in slots or in backing, and the counts of the move; a tier
fault gives its status to what needed the move. -/
theorem streamMoves : Obligations.StreamMoves := by
  unfold Obligations.StreamMoves
  intro s x err hs hst
  refine ⟨?_, ?_, fun herr => ?_⟩
  · rintro rfl hin
    obtain ⟨t, hnext, ht, hout, himage, hod, hcount, hstrm⟩ := exec_streamMoveComplete_in hs hst hin
    have hself : t.strm x = (s.strm x).arrived := (hstrm x).trans (if_pos rfl)
    rw [← hself] at hout himage
    exact ⟨t, hnext, ht, hout, himage, hod, hcount, fun y hy => (hstrm y).trans (if_neg hy.symm), hself⟩
  · rintro rfl hout
    obtain ⟨t, hnext, ht, hbytes, himage, hstrm⟩ := exec_streamMoveComplete_out hs hst hout
    exact ⟨t, hnext, ht, hbytes, himage, fun y hy => (hstrm y).trans (if_neg hy.symm), (hstrm x).trans (if_pos rfl)⟩
  · obtain ⟨t, hnext, ht, hbytes, hstrm, hcount, hreg, hdesc⟩ := exec_streamMoveComplete_fault hs hst herr
    exact ⟨t, hnext, ht, hbytes, fun y hy => (hstrm y).trans (if_neg hy.symm),
      congrArg Strm.st ((hstrm x).trans (if_pos rfl)), hcount, hreg, hdesc⟩

end Sys2Proof
end

section
/-! Passes over streams, claims of slots and stream control (R148–R150, R159, R160; Table 06-5): what each operation makes of its
streams. -/

namespace Sys2Proof.Machine

/-! ### Passes over distinct streams -/

/-- A step of a pass over `l`, in a state that keeps `I`, makes of the stream of its key what `g` says, and leaves the others and `I`. -/
def StrmStep {ι : Type} (l : List ι) (f : State → ι → State) (key : ι → Nat) (I : State → Prop) (g : ι → Strm → Strm) : Prop :=
  ∀ u x, x ∈ l → I u → I (f u x) ∧ ∀ y, (f u x).strm y = if key x = y then g x (u.strm y) else u.strm y

/-- A pass over distinct streams does to each what its step does, and nothing to another. -/
theorem StrmStep.foldl {ι : Type} {l : List ι} {f : State → ι → State} {key : ι → Nat} {I : State → Prop} {g : ι → Strm → Strm}
    (hf : StrmStep l f key I g) (hl : (l.map key).Nodup) {s : State} (hs : I s) :
    I (l.foldl f s) ∧ (∀ x, x ∈ l → (l.foldl f s).strm (key x) = g x (s.strm (key x))) ∧
      ∀ y, y ∉ l.map key → (l.foldl f s).strm y = s.strm y := by
  induction l generalizing s with
  | nil => exact ⟨hs, nofun, fun _ _ => rfl⟩
  | cons x l ih =>
    rw [List.map_cons, List.nodup_cons] at hl
    obtain ⟨hx, hnodup⟩ := hl
    obtain ⟨hI, hstep⟩ := hf s x List.mem_cons_self hs
    obtain ⟨hI', hin, hout⟩ := ih (fun u y hy => hf u y (List.mem_cons_of_mem x hy)) hnodup hI
    refine ⟨hI', List.forall_mem_cons.mpr ⟨?_, fun y hy => ?_⟩, fun y hy => ?_⟩
    · rw [List.foldl_cons, hout _ hx, hstep, if_pos rfl]
    · rw [List.foldl_cons, hin y hy, hstep, if_neg fun e : key x = key y => hx (e ▸ List.mem_map_of_mem hy)]
    · rw [List.map_cons, List.mem_cons, not_or] at hy
      rw [List.foldl_cons, hout y hy.2, hstep, if_neg (Ne.symm hy.1)]

theorem StrmStep.skip {ι : Type} {l : List ι} {key : ι → Nat} {I : State → Prop} : StrmStep l (fun u _ => u) key I (fun _ e => e) :=
  fun _ _ _ hu => ⟨hu, fun _ => (ite_self _).symm⟩

/-- A step that goes by the stream's entry. -/
theorem StrmStep.ite {ι : Type} {l : List ι} {key : ι → Nat} {I : State → Prop} {v w : State → ι → State} {g h : ι → Strm → Strm}
    (p : Strm → Prop) [DecidablePred p] (hv : StrmStep l v key I g) (hw : StrmStep l w key I h) :
    StrmStep l (fun u x => if p (u.strm (key x)) then v u x else w u x) key I (fun x e => if p e then g x e else h x e) := by
  intro u x hx hu
  obtain ⟨hvI, hvstep⟩ := hv u x hx hu
  obtain ⟨hwI, hwstep⟩ := hw u x hx hu
  dsimp only
  by_cases hp : p (u.strm (key x))
  · rw [if_pos hp]
    refine ⟨hvI, fun y => (hvstep y).trans ?_⟩
    split
    · rename_i hy
      rw [← hy, if_pos hp]
    · rfl
  · rw [if_neg hp]
    refine ⟨hwI, fun y => (hwstep y).trans ?_⟩
    split
    · rename_i hy
      rw [← hy, if_neg hp]
    · rfl

/-- From `s` to `u` the stream table alone has changed. -/
def TableOnly (s u : State) : Prop := u = { s with strs := u.strs }

theorem TableOnly.setStrm {s u : State} (h : TableOnly s u) (x : Nat) (e : Strm) : TableOnly s (u.setStrm x e) := by
  unfold TableOnly at h ⊢
  rw [h]
  rfl

theorem TableOnly.carTime {s u : State} (h : TableOnly s u) : u.carTime = s.carTime := by
  unfold TableOnly at h
  rw [h]
  rfl

/-- A stream's entry when an operation has noted it. -/
def Strm.touched (e : Strm) (now seq : Nat) (changed : Bool) : Strm :=
  { e with stamp := now, lastSeq := if changed then seq else e.lastSeq }

theorem touch_strm (u : State) (x seq : Nat) (c : Bool) (y : Nat) :
    (u.touch x seq c).strm y = if x = y then (u.strm y).touched u.carTime seq c else u.strm y := by
  refine (State.setStrm_strm u x y ((u.strm x).touched u.carTime seq c)).trans ?_
  split
  · subst_vars
    rfl
  · rfl

/-- A stream that is noted after its entry alone was set. -/
theorem touch_strm_of {v : State} {x : Nat} {e : Strm} {r : Nat → Strm} (h : ∀ y, v.strm y = if x = y then e else r y) (seq : Nat)
    (c : Bool) (y : Nat) : (v.touch x seq c).strm y = if x = y then e.touched v.carTime seq c else r y := by
  rw [touch_strm, h]
  split <;> rfl

/-- A step of a pass from `s` that changes the stream table alone. -/
def Marks (s : State) (l : List Nat) (f : State → Nat → State) (g : Strm → Strm) : Prop := StrmStep l f id (TableOnly s) (fun _ => g)

section
variable {s : State} {l : List Nat} {f : State → Nat → State} {g : Strm → Strm}

/-- A pass over distinct streams that changes the table alone. -/
theorem Marks.foldl (hf : Marks s l f g) (hl : l.Nodup) :
    ∃ m, l.foldl f s = { s with strs := m } ∧
      ∀ x, AMap.getD x Strm.zero m = if x ∈ l then g (s.strm x) else s.strm x := by
  obtain ⟨hfold, hin, hout⟩ := StrmStep.foldl hf (by rwa [List.map_id]) (s := s) rfl
  rw [List.map_id] at hout
  refine ⟨_, hfold, fun x => ?_⟩
  split
  · exact hin x ‹_›
  · exact hout x ‹_›

theorem marks_set (s : State) (l : List Nat) (g : Strm → Strm) : Marks s l (fun u x => u.setStrm x (g (u.strm x))) g := by
  intro u x _ hu
  refine ⟨hu.setStrm _ _, fun y => (State.setStrm_strm u x y _).trans ?_⟩
  dsimp only [id]
  split
  · subst_vars
    rfl
  · rfl

/-- A step after which the stream is noted. -/
theorem Marks.touch (hf : Marks s l f g) (seq : Nat) (c : Strm → Bool) :
    Marks s l (fun u x => (f u x).touch x seq (c (u.strm x))) (fun e => (g e).touched s.carTime seq (c e)) := by
  intro u x hx hu
  obtain ⟨hI, hstep⟩ := hf u x hx hu
  refine ⟨hI.setStrm _ _, fun y => ?_⟩
  dsimp only [id] at hstep ⊢
  rw [touch_strm, hstep, hI.carTime]
  split
  · subst_vars
    rfl
  · rfl

/-- Streams that are noted, all as changed or all as not. -/
theorem marks_touch (s : State) (l : List Nat) (seq : Nat) (c : Bool) :
    Marks s l (fun u x => u.touch x seq c) (fun e => e.touched s.carTime seq c) :=
  Marks.touch StrmStep.skip seq fun _ => c

end

/-- What Reset makes of a stream before it is noted (R148). -/
def Strm.zeroed (e : Strm) : Strm := { e with reset := true, st := if e.st = .lost then .swapped else e.st }

theorem marks_reset (s : State) (l : List Nat) (seq : Nat) :
    Marks s l (fun u x => (u.setStrm x (u.strm x).zeroed).touch x seq true) (fun e => e.zeroed.touched s.carTime seq true) :=
  (marks_set s l Strm.zeroed).touch seq fun _ => true

/-- What Pause makes of a Resident stream before it is noted (R148). -/
def Strm.sent (e : Strm) : Strm := { e with st := .moving, movIn := false }

/-- A stream after Pause. -/
def Strm.paused (e : Strm) (now seq : Nat) : Strm :=
  (if e.st = .resident then e.sent else e).touched now seq (decide (e.st = .resident))

theorem paused_eq (e : Strm) (now seq : Nat) : e.paused now seq =
    if e.st = .resident then { e with st := .moving, movIn := false, stamp := now, lastSeq := seq } else { e with stamp := now } := by
  by_cases hres : e.st = .resident
  · rw [Strm.paused, if_pos hres, if_pos hres, decide_eq_true hres]
    rfl
  · rw [Strm.paused, if_neg hres, if_neg hres, decide_eq_false hres]
    rfl

theorem marks_pause (s : State) (l : List Nat) (seq : Nat) :
    Marks s l (fun u x => (if (u.strm x).st = .resident then u.setStrm x (u.strm x).sent else u).touch x seq
      (decide ((u.strm x).st = .resident))) (fun e => e.paused s.carTime seq) :=
  Marks.touch (StrmStep.ite (fun e => e.st = .resident) (marks_set s l Strm.sent) StrmStep.skip) seq fun e => decide (e.st = .resident)

theorem marks_query (s : State) (l : List Nat) (seq : Nat) :
    Marks s l (fun u x => if (u.strm x).st = .free then u else u.touch x seq false)
      (fun e => if e.st = .free then e else e.touched s.carTime seq false) :=
  StrmStep.ite (fun e => e.st = .free) StrmStep.skip (marks_touch s l seq false)

/-! ### The end of streams (R148) -/

theorem endStream_obj (s : State) (x h : Nat) : (s.endStream x).obj h = if (s.strm x).obj = h then Obj.zero else s.obj h := by
  obtain ⟨co, hframe⟩ := endStream_frame s x
  have hobjs : (s.endStream x).objs = AMap.del (s.strm x).obj s.objs := by rw [hframe]
  rw [State.obj, State.obj, hobjs, AMap.getD, AMap.getD, AMap.get?_del]
  split <;> rfl

/-- End of a stream that a list names, unless it is Free. -/
def State.endListed (s : State) (x : Nat) : State := if (s.strm x).st = .free then s else s.endStream x

theorem endListed_obj_free {s : State} {h : Nat} (hh : (s.obj h).st = .free) (x : Nat) : ((s.endListed x).obj h).st = .free := by
  unfold State.endListed
  split
  · exact hh
  · rw [endStream_obj]
    split
    · rfl
    · exact hh

/-- From `s` to `u` streams have ended: their entries, banks and backing alone have changed. -/
def EndsOnly (s u : State) : Prop := u = { s with cores := u.cores, objs := u.objs, strs := u.strs }

theorem EndsOnly.endStream {s u : State} (h : EndsOnly s u) (x : Nat) : EndsOnly s (u.endStream x) := by
  obtain ⟨co, hframe⟩ := endStream_frame u x
  unfold EndsOnly at h ⊢
  rw [hframe, h]

theorem strmStep_end (s : State) (l : List Nat) :
    StrmStep l State.endListed id (EndsOnly s) (fun _ e => if e.st = .free then e else Strm.zero) :=
  StrmStep.ite (fun e => e.st = .free) StrmStep.skip fun u x _ hu => ⟨EndsOnly.endStream hu x, endStream_strm u x⟩

/-- The backing of each stream that was not Free is freed. -/
theorem foldl_endListed_obj {l : List Nat} (hl : l.Nodup) {s : State} {x : Nat} (hx : x ∈ l) (hst : (s.strm x).st ≠ .free) :
    ((l.foldl State.endListed s).obj (s.strm x).obj).st = .free := by
  induction l generalizing s with
  | nil => cases hx
  | cons y l ih =>
    obtain ⟨hy, hnodup⟩ := List.nodup_cons.mp hl
    rw [List.foldl_cons]
    obtain rfl | hx := List.mem_cons.mp hx
    · refine List.foldlRecOn (motive := fun (u : State) => (u.obj (s.strm x).obj).st = .free) l _ ?_ fun u hu z _ => endListed_obj_free hu z
      rw [State.endListed, if_neg hst, endStream_obj, if_pos rfl]
      rfl
    · have hsame : (s.endListed y).strm x = s.strm x := by
        obtain ⟨_, hstep⟩ := strmStep_end s [y] s y List.mem_cons_self rfl
        exact (hstep x).trans (if_neg fun (e : y = x) => hy (e ▸ hx))
      rw [← hsame] at hst ⊢
      exact ih hnodup hx hst

/-! ### Claims of slots and swap-ins (R149, R150) -/

theorem claimSlots_at {s u : State} {die n g j : Nat} (h : s.claimSlots die n = .at_ u g j) : u = s.draw.2 := by
  unfold State.claimSlots at h
  dsimp only at h
  split at h
  · injection h with h
    exact h.symm
  · split at h <;> cases h

theorem startIn_strm (s : State) (x g j y : Nat) : (s.startIn x g j).strm y =
    if x = y then { s.strm x with st := .moving, movIn := true, cluster := g, slot := j } else s.strm y := State.setStrm_strm s x y _

/-- A stream that has found slots comes in and is awaited. -/
theorem swapInAll_at {s u : State} {home x g j : Nat} (hst : (s.strm x).st = .swapped)
    (hclaim : s.claimSlots home (s.strm x).slots = .at_ u g j) : swapInAll home [x] s = (u.startIn x g j, [x], false) := by
  simp only [swapInAll, hst, true_or, if_true, hclaim]

/-- Streams that are Resident or Pinned need no move. -/
theorem swapInAll_of_settled {s : State} (home : Nat) {l : List Nat}
    (h : ∀ x, x ∈ l → (s.strm x).st = .resident ∨ (s.strm x).st = .pinned) : swapInAll home l s = (s, [], false) := by
  induction l with
  | nil => rfl
  | cons x l ih =>
    obtain ⟨hx, hl⟩ := List.forall_mem_cons.mp h
    have hswap : ¬ ((s.strm x).st = .swapped ∨ (s.strm x).st = .lost) := by obtain hx | hx := hx <;> simp [hx]
    have hmove : (s.strm x).st ≠ .moving := by obtain hx | hx := hx <;> simp [hx]
    rw [swapInAll]
    dsimp only
    rw [if_neg hswap, if_neg hmove, ih hl]

end Sys2Proof.Machine
end

section
/-! Stream control (R148, R159, R160; Table 06-5): how the command of an operation ends. -/

namespace Sys2Proof.Machine

/-! ### A Carafe operation that reads no register -/

section
variable {s : State} {id op : Nat} {d : Desc} (hd : s.desc? id = some d) (hst : d.st = .running) (hres : d.result = none)
  (hop : d.op = op) (hstop : s.stopOf d = none) (hreg : ∀ v : State, v.regReads d = []) {p : Desc → Bool} (hp : p d = true)
include hd hst hres hop hstop hreg hp

theorem runCar_done {spills : Bool} {f : State → Desc → CRes} {t : State} {st : Nat} (hf : f s d = .done t st) :
    s.runCar id op p spills f = (if spills then t.spillWaited id else t).finish id st 0 := by
  have hon : s.opOn id op = some d := hop ▸ opOn_of_running hd hst hres
  simp only [State.runCar, hon, hp, hstop, showRegs_of_no_reads (hreg s), hf, clearReads_of_no_reads (hreg _), Bool.not_true,
    Bool.false_eq_true, if_false]

theorem runCar_waits {f : State → Desc → CRes} {t : State} (hf : f s d = .wait t) : s.runCar id op p false f = t := by
  have hon : s.opOn id op = some d := hop ▸ opOn_of_running hd hst hres
  simp only [State.runCar, hon, hp, hstop, showRegs_of_no_reads (hreg s), hf, Bool.not_true, Bool.false_eq_true, if_false]

end

theorem finish_desc {s : State} {id : Nat} {d : Desc} (hd : s.desc? id = some d) (st fl : Nat) :
    (s.finish id st fl).desc? id = some { d with result := some { status := st, outcome := 0, flags := fl } } :=
  (State.updDesc_desc s id id _).trans ((if_pos rfl).trans (congrArg (Option.map _) hd))

theorem updDesc_desc_self {s : State} {id : Nat} {d : Desc} (hd : s.desc? id = some d) (f : Desc → Desc) :
    (s.updDesc id f).desc? id = some (f d) :=
  (State.updDesc_desc s id id f).trans ((if_pos rfl).trans (congrArg (Option.map f) hd))

/-- The list of a stream operation is read, whatever the state. -/
theorem streamRegReads {s : State} {d : Desc} (hop : d.op = 0x0200) (hreg : s.regReads d = []) (v : State) : v.regReads d = [] := by
  have hrngs (u : State) : u.rngsOf d = (streamInfo u d).rngs := by simp [State.rngsOf, opInfo, hop]
  refine (regReads_congr ?_).trans hreg
  rw [hrngs, hrngs]
  rfl

/-! ### Pin, unpin and resume, by the state of the stream (R148, R159, R160) -/

theorem any_moving_of_still {s : State} {l : List Nat} (h : ∀ x, x ∈ l → (s.strm x).st ≠ .moving) :
    l.any (fun x => decide ((s.strm x).st = .moving)) = false := by
  rw [List.any_eq_false]
  exact fun x hx => by simpa using h x hx

/-- A stream that takes the bank of core `c`. -/
def State.pinTo (s : State) (x c seq : Nat) : State :=
  ((s.setStrm x { s.strm x with st := .pinned, core := c, cluster := 0, slot := 0 }).setCore c
    { s.core c with pinned := some x }).touch x seq true

theorem pinTo_strm (s : State) (x c seq y : Nat) : (s.pinTo x c seq).strm y = if x = y then
    { s.strm x with st := .pinned, core := c, cluster := 0, slot := 0, stamp := s.carTime, lastSeq := seq } else s.strm y := by
  have hset : ∀ y, ((s.setStrm x { s.strm x with st := .pinned, core := c, cluster := 0, slot := 0 }).setCore c
      { s.core c with pinned := some x }).strm y = if x = y then { s.strm x with st := .pinned, core := c, cluster := 0, slot := 0 }
      else s.strm y := fun y => State.setStrm_strm s x y { s.strm x with st := .pinned, core := c, cluster := 0, slot := 0 }
  exact touch_strm_of hset seq true y

theorem pinTo_core (s : State) (x c seq n : Nat) :
    (s.pinTo x c seq).core n = if c = n then { s.core c with pinned := some x } else s.core n := State.setCore_core s c n _

/-- A stream that leaves its bank for slots from `j` on of cluster `g`. -/
def State.unpinned (s : State) (x g j seq : Nat) : State :=
  ((s.setCore (s.strm x).core { s.core (s.strm x).core with pinned := none }).setStrm x
    { s.strm x with st := .resident, cluster := g, slot := j, core := 0 }).touch x seq true

theorem unpinned_strm (s : State) (x g j seq y : Nat) : (s.unpinned x g j seq).strm y = if x = y then
    { s.strm x with st := .resident, cluster := g, slot := j, core := 0, stamp := s.carTime, lastSeq := seq } else s.strm y :=
  touch_strm_of (fun y => State.setStrm_strm (s.setCore _ _) x y _) seq true y

theorem unpinned_core (s : State) (x g j seq : Nat) : ((s.unpinned x g j seq).core (s.strm x).core).pinned = none :=
  congrArg Core.pinned ((State.setCore_core s _ (s.strm x).core _).trans (if_pos rfl))

theorem unpinned_frame (s : State) (x g j seq : Nat) : ∃ co m, s.unpinned x g j seq = { s with cores := co, strs := m } := ⟨_, _, rfl⟩

/-- A descriptor whose operation has begun and keeps `aux`. -/
def Desc.staged (aux : List Nat) (d : Desc) : Desc := { d with stage := 1, aux := aux }

section
variable {s : State} {id : Nat} {d : Desc} {x : Nat}

theorem staged_eq (aux : List Nat) : (fun y : Desc => { y with stage := 1, aux := aux }) = Desc.staged aux := rfl

/-- Pin onto a core that holds another stream. -/
theorem streamPinRun_taken {y : Nat} (hx : d.strs = [x]) (hpin : (s.core (d.f 46 1)).pinned = some y) (hy : y ≠ x) :
    streamPinRun s id d = .done s 0x0554 := by
  simp [streamPinRun, hx, hpin, hy]

section
variable (hx : d.strs = [x]) (hpin : (s.core (d.f 46 1)).pinned = none ∨ (s.core (d.f 46 1)).pinned = some x)
include hx hpin

/-- A Swapped stream comes in before it is pinned. -/
theorem streamPinRun_swapped {u : State} {g j : Nat} (hst : (s.strm x).st = .swapped)
    (hclaim : s.claimSlots d.die (s.strm x).slots = .at_ u g j) : streamPinRun s id d = .wait ((u.startIn x g j).awaits id [x]) := by
  have hin : d.strs.filter (fun x => decide ((s.strm x).st = .swapped ∨ (s.strm x).st = .moving)) = [x] := by simp [hx, hst]
  unfold streamPinRun
  dsimp only
  rw [if_neg (by obtain hpin | hpin := hpin <;> simp [hpin, hx]), hin, swapInAll_at hst hclaim]
  rfl

theorem streamPinRun_settled (hst : (s.strm x).st = .resident ∨ (s.strm x).st = .pinned) : streamPinRun s id d =
    if (s.strm x).st = .pinned then .done (s.touch x d.seq false) 0x0140
    else .done (s.pinTo x (d.f 46 1) d.seq) 0 := by
  have hin : d.strs.filter (fun x => decide ((s.strm x).st = .swapped ∨ (s.strm x).st = .moving)) = [] := by
    obtain hst | hst := hst <;> simp [hx, hst]
  unfold streamPinRun
  dsimp only
  rw [if_neg (by obtain hpin | hpin := hpin <;> simp [hpin, hx]), hin, hx]
  dsimp only [swapInAll, List.foldl]
  by_cases hp : (s.strm x).st = .pinned
  · rw [if_pos hp, if_pos hp]
    rfl
  · rw [if_neg hp, if_neg hp]
    rfl

end

theorem streamUnpinRun_at {u : State} {g j : Nat} (hx : d.strs = [x]) (hstage : d.stage = 0) (hst : (s.strm x).st = .pinned)
    (hclaim : (s.updDesc id (Desc.staged [0])).claimSlots d.die (s.strm x).slots = .at_ u g j) :
    streamUnpinRun s id d = .done (((u.unpinned x g j d.seq).laySlots x).layBacking x) 0 := by
  have hu := claimSlots_at hclaim
  have hself : u.strm x = s.strm x := by rw [hu]; rfl
  have hskip : d.strs.any (fun x => decide ((s.strm x).st ≠ .pinned)) = false := by simp [hx, hst]
  have hmove : d.strs.any (fun x => decide ((s.strm x).st = .moving)) = false := any_moving_of_still (by simp [hx, hst])
  have hstrm : (s.updDesc id (fun y => { y with stage := 1, aux := [b2n false] })).strm x = s.strm x := rfl
  have hclaim' : (s.updDesc id (fun y => { y with stage := 1, aux := [b2n false] })).claimSlots d.die (s.strm x).slots = .at_ u g j := hclaim
  unfold streamUnpinRun
  rw [hmove, if_neg Bool.false_ne_true]
  dsimp only
  rw [if_pos hstage, hskip, hx, unpinAll]
  dsimp only
  rw [hstrm, if_pos hst, hclaim', State.unpinned, hself]
  rfl

/-- Resume of streams that are where they should be. -/
theorem streamResumeRun_settled (hstage : d.stage = 0) (hne : d.strs ≠ [])
    (hst : ∀ x, x ∈ d.strs → (s.strm x).st = .resident ∨ (s.strm x).st = .pinned) :
    streamResumeRun s id d = .done (d.strs.foldl (fun u x => u.touch x d.seq false)
      (s.updDesc id (Desc.staged d.strs))) 0x0140 := by
  have hskip : d.strs.filter (fun x => decide ((s.strm x).st = .resident ∨ (s.strm x).st = .pinned)) = d.strs := by
    rw [List.filter_eq_self]
    exact fun x hx => decide_eq_true (hst x hx)
  have hswap := swapInAll_of_settled (s := s.updDesc id (Desc.staged d.strs)) d.die
    (l := d.strs.filter (fun x => decide ((s.strm x).st ≠ .lost))) fun x hx => hst x (List.mem_of_mem_filter hx)
  have hempty : d.strs.isEmpty = false := by rw [List.isEmpty_eq_false_iff]; exact hne
  have htouch (v : State) : d.strs.foldl (fun u x => u.touch x d.seq (!(d.strs.contains x))) v =
      d.strs.foldl (fun u x => u.touch x d.seq false) v := by
    refine List.foldl_ext _ _ v fun u x hx => ?_
    rw [List.contains_iff_mem.mpr hx]
    rfl
  unfold streamResumeRun
  dsimp only
  rw [if_pos hstage, hskip, staged_eq, hswap, hempty]
  exact congrArg (CRes.done · 0x0140) (htouch _)

theorem streamResumeRun_at {u : State} {g j : Nat} (hx : d.strs = [x]) (hstage : d.stage = 0) (hst : (s.strm x).st = .swapped)
    (hclaim : (s.updDesc id (Desc.staged [])).claimSlots d.die (s.strm x).slots = .at_ u g j) :
    streamResumeRun s id d = .wait ((u.startIn x g j).awaits id [x]) := by
  have hskip : d.strs.filter (fun x => decide ((s.strm x).st = .resident ∨ (s.strm x).st = .pinned)) = [] := by simp [hx, hst]
  have hin : d.strs.filter (fun x => decide ((s.strm x).st ≠ .lost)) = [x] := by simp [hx, hst]
  have hswap := swapInAll_at (s := s.updDesc id (Desc.staged [])) hst hclaim
  unfold streamResumeRun
  dsimp only
  rw [if_pos hstage, hskip, staged_eq, hin, hswap]
  rfl

/-! ### Pause (R148) -/

theorem paused_moving {e : Strm} {now seq : Nat} (h : e.st ≠ .moving) : (e.paused now seq).st = .moving ↔ e.st = .resident := by
  by_cases hres : e.st = .resident <;> simp [Strm.paused, Strm.touched, Strm.sent, hres, h]

/-- Pause sends Resident streams out and waits for them; where there is none it is done. -/
theorem streamPauseRun_begins (hl : d.strs.Nodup) (hstage : d.stage = 0) (hstill : ∀ x, x ∈ d.strs → (s.strm x).st ≠ .moving) :
    ∃ m aux, (∀ x, AMap.getD x Strm.zero m = if x ∈ d.strs then (s.strm x).paused s.carTime d.seq else s.strm x) ∧
      streamPauseRun s id d =
        if d.strs.any (fun x => (s.strm x).st == .resident) then
          .wait (State.updDesc { s with strs := m } id (Desc.staged aux))
        else .done (State.updDesc { s with strs := m } id (Desc.staged aux)) (if d.strs = [] then 0 else 0x0140) := by
  obtain ⟨m, hfold, hstrm⟩ := (marks_pause s d.strs d.seq).foldl hl
  have hany : d.strs.any (fun x => decide ((State.strm { s with strs := m } x).st = .moving)) =
      d.strs.any (fun x => (s.strm x).st == .resident) := by
    rw [Bool.eq_iff_iff, List.any_eq_true, List.any_eq_true]
    refine exists_congr fun x => and_congr_right fun hx => ?_
    have hself : State.strm { s with strs := m } x = (s.strm x).paused s.carTime d.seq := (hstrm x).trans (if_pos hx)
    rw [decide_eq_true_iff, beq_iff_eq, hself]
    exact paused_moving (hstill x hx)
  refine ⟨m, [b2n (d.strs.any (fun x => decide ((s.strm x).st ≠ .resident)))], hstrm, ?_⟩
  have hrun : streamPauseRun s id d =
      if d.strs.any (fun x => decide ((State.strm { s with strs := m } x).st = .moving)) then
        .wait (State.updDesc { s with strs := m } id
          (fun y => { y with stage := 1, aux := [b2n (d.strs.any (fun x => decide ((s.strm x).st ≠ .resident)))] }))
      else .done (State.updDesc { s with strs := m } id
          (fun y => { y with stage := 1, aux := [b2n (d.strs.any (fun x => decide ((s.strm x).st ≠ .resident)))] }))
        (skipSt (d.strs.any (fun x => decide ((s.strm x).st ≠ .resident)))) := by
    unfold streamPauseRun
    rw [if_pos hstage, any_moving_of_still hstill, if_neg Bool.false_ne_true, ← hfold]
    rfl
  rw [hrun, hany]
  split
  · rfl
  · rename_i hnone
    refine congrArg (CRes.done _) ?_
    cases hstrs : d.strs with
    | nil => rfl
    | cons x l =>
      have hx : (s.strm x).st ≠ .resident := fun h => hnone (by simp [hstrs, h])
      simp [skipSt, hx]

theorem streamPauseRun_ends (hstage : d.stage ≠ 0) (hstill : ∀ x, x ∈ d.strs → (s.strm x).st ≠ .moving) :
    streamPauseRun s id d = .done s (if d.aux.headD 0 = 1 then 0x0140 else 0) := by
  unfold streamPauseRun
  rw [if_neg hstage, any_moving_of_still hstill, if_neg Bool.false_ne_true, skipSt]
  simp only [beq_iff_eq]

/-! ### Query and copy-out (R148) -/

theorem strRecord_length (s : State) (x : Nat) : (strRecord s x).length = 32 := by
  unfold strRecord
  dsimp only
  split <;> simp only [List.length_append, toBytes_length]

/-- A copy-out changes memory alone. -/
theorem copyOutAll_frame (hs : Invariant s) (l : List Nat) (a : Nat) :
    ∃ m, copyOutAll l a s = { s with mem := m } ∧ Invariant { s with mem := m } := by
  induction l generalizing s a with
  | nil => exact ⟨s.mem, rfl, hs⟩
  | cons x l ih =>
    obtain ⟨m, hwr, hwf, _⟩ := wr_spec hs a (s.strm x).image
    rw [copyOutAll]
    rw [hwr]
    exact ih hwf _

/-- The words of a state read back where its image is written. -/
theorem rd_wr_image (s : State) {a k : Nat} {e : Strm} (ha : a + 4 * e.data.length ≤ 2 ^ 36) (hk : k < e.data.length) :
    (s.wr a e.image).rd (a + 4 * k) 4 = e.data.getD k 0 % 2 ^ 32 := by
  rw [← image_length] at ha
  rw [List.getD_eq_getElem _ 0 hk]
  exact rd_wr_dram s a e.image ha (by rw [image_length]; omega) (slice_flatten_map (fun _ => toBytes_length 4 _) hk)

end

end Sys2Proof.Machine

namespace Sys2Proof

open Sys2Proof.Machine

section
variable {s : State} {id : Nat} {d : Desc} (hs : Invariant s) (hd : s.desc? id = some d) (hst : d.st = .running) (hres : d.result = none)
  (hop : d.op = 0x0200) (hstop : s.stopOf d = none) (hreg : s.regReads d = [])
include hd hst hres hop hstop hreg

/-! ### How the command of a stream operation ends -/

theorem exec_stream_done {i : Instr} {sub st : Nat} {f : State → Desc → CRes} {u : State}
    (hexec : exec i s = s.done (s.runCar id 0x0200 (subOp 38 sub) false f)) (hsub : d.f 38 1 = sub) (hrun : f s d = .done u st)
    (hu : Invariant u) (hp : u.pending = s.pending) : exec i s = .next (u.finish id st 0) := by
  rw [hexec, runCar_done hd hst hres hop hstop (streamRegReads hop hreg) (by simp [subOp, hsub]) hrun]
  exact State.done_of_wf hp (Invariant.of_mem hu rfl rfl)

theorem exec_stream_wait {i : Instr} {sub : Nat} {f : State → Desc → CRes} {u : State}
    (hexec : exec i s = s.done (s.runCar id 0x0200 (subOp 38 sub) false f)) (hsub : d.f 38 1 = sub) (hrun : f s d = .wait u)
    (hu : Invariant u) (hp : u.pending = s.pending) : exec i s = .next u := by
  rw [hexec, runCar_waits hd hst hres hop hstop (streamRegReads hop hreg) (by simp [subOp, hsub]) hrun]
  exact State.done_of_wf hp hu

include hs

/-! ### Reset and End (R148) -/

theorem exec_streamReset (hl : d.strs.Nodup) (hsub : d.f 38 1 = 2) :
    ∃ t, exec (.streamReset id) s = .next t ∧ t = { s with descs := t.descs, strs := t.strs } ∧ SameBytes s t ∧
      t.desc? id = some { d with result := some { status := 0, outcome := 0, flags := 0 } } ∧
      (∀ x, t.strm x = if x ∈ d.strs then (s.strm x).zeroed.touched s.carTime d.seq true else s.strm x) := by
  obtain ⟨m, hfold, hstrm⟩ := (marks_reset s d.strs d.seq).foldl hl
  have hrun : streamResetRun s d = .done { s with strs := m } 0 := by
    rw [← hfold]
    rfl
  exact ⟨_, exec_stream_done hd hst hres hop hstop hreg rfl hsub hrun (Invariant.of_mem hs rfl rfl) rfl, rfl,
    SameBytes.of_dict rfl rfl rfl, finish_desc (s := { s with strs := m }) hd 0 0, hstrm⟩

theorem exec_streamEnd (hl : d.strs.Nodup) (hsub : d.f 38 1 = 5) (hstill : ∀ x, x ∈ d.strs → (s.strm x).st ≠ .moving) :
    ∃ t, exec (.streamEnd id) s = .next t ∧
      t = { s with descs := t.descs, strs := t.strs, objs := t.objs, cores := t.cores } ∧ SameBytes s t ∧
      t.desc? id = some { d with result := some { status := 0, outcome := 0, flags := 0 } } ∧
      (∀ x, x ∈ d.strs → (t.strm x).st = .free ∧ ((s.strm x).st ≠ .free → (t.obj (s.strm x).obj).st = .free)) ∧
      (∀ x, x ∉ d.strs → t.strm x = s.strm x) := by
  have hrun : streamEndRun s d = .done (d.strs.foldl State.endListed s) 0 := by
    unfold streamEndRun
    rw [any_moving_of_still hstill, if_neg Bool.false_ne_true]
    rfl
  have hobj (x : Nat) (hx : x ∈ d.strs) := foldl_endListed_obj hl (s := s) hx
  obtain ⟨hends, hin, hout⟩ := (strmStep_end s d.strs).foldl (by rwa [List.map_id]) (s := s) rfl
  rw [List.map_id] at hout
  generalize d.strs.foldl State.endListed s = u at hrun hobj hends hin hout
  obtain ⟨co, os, m, rfl⟩ : ∃ co os m, u = { s with cores := co, objs := os, strs := m } := ⟨_, _, _, hends⟩
  refine ⟨_, exec_stream_done hd hst hres hop hstop hreg rfl hsub hrun (Invariant.of_mem hs rfl rfl) rfl, rfl,
    SameBytes.of_dict rfl rfl rfl, finish_desc (s := { s with cores := co, objs := os, strs := m }) hd 0 0, fun x hx => ⟨?_, hobj x hx⟩, hout⟩
  refine (congrArg Strm.st (hin x hx)).trans ?_
  split
  · assumption
  · rfl

/-! ### Pin and Unpin (R159, R160) -/

theorem exec_streamPin_taken {x y : Nat} (hsub : d.f 38 1 = 6) (hx : d.strs = [x]) (hpin : (s.core (d.f 46 1)).pinned = some y)
    (hy : y ≠ x) :
    ∃ t, exec (.streamPin id) s = .next t ∧ t = { s with descs := t.descs } ∧ SameBytes s t ∧
      t.desc? id = some { d with result := some { status := 0x0554, outcome := 0, flags := 0 } } :=
  ⟨_, exec_stream_done hd hst hres hop hstop hreg rfl hsub (streamPinRun_taken hx hpin hy) hs rfl, rfl, SameBytes.of_dict rfl rfl rfl,
    finish_desc hd _ 0⟩

section
variable {x : Nat} (hsub : d.f 38 1 = 6) (hx : d.strs = [x])
  (hpin : (s.core (d.f 46 1)).pinned = none ∨ (s.core (d.f 46 1)).pinned = some x)
include hsub hx hpin

theorem exec_streamPin_swapped {u : State} {g j : Nat} (hswap : (s.strm x).st = .swapped)
    (hclaim : s.claimSlots d.die (s.strm x).slots = .at_ u g j) :
    ∃ t e, exec (.streamPin id) s = .next t ∧ t = { s with free := t.free, descs := t.descs, strs := t.strs } ∧ SameBytes s t ∧
      t.desc? id = some e ∧ e.result = none ∧ e.tbl = [x] ∧
      ∀ y, t.strm y = if x = y then { s.strm x with st := .moving, movIn := true, cluster := g, slot := j } else s.strm y := by
  have hrun := streamPinRun_swapped (id := id) hx hpin hswap hclaim
  obtain rfl := claimSlots_at hclaim
  exact ⟨_, _, exec_stream_wait hd hst hres hop hstop hreg rfl hsub hrun (Invariant.of_mem hs rfl rfl) rfl, rfl,
    SameBytes.of_dict rfl rfl rfl, updDesc_desc_self (s := State.startIn _ x g j) hd _, hres, rfl, startIn_strm s.draw.2 x g j⟩

theorem exec_streamPin_resident (hin : (s.strm x).st = .resident) :
    ∃ t, exec (.streamPin id) s = .next t ∧ t = { s with descs := t.descs, strs := t.strs, cores := t.cores } ∧ SameBytes s t ∧
      t.desc? id = some { d with result := some { status := 0, outcome := 0, flags := 0 } } ∧
      (∀ y, t.strm y = if x = y then
        { s.strm x with st := .pinned, core := d.f 46 1, cluster := 0, slot := 0, stamp := s.carTime, lastSeq := d.seq } else s.strm y) ∧
      ∀ n, t.core n = if d.f 46 1 = n then { s.core (d.f 46 1) with pinned := some x } else s.core n := by
  have hrun := (streamPinRun_settled (id := id) hx hpin (.inl hin)).trans (if_neg (by simp [hin]))
  exact ⟨_, exec_stream_done hd hst hres hop hstop hreg rfl hsub hrun (Invariant.of_mem hs rfl rfl) rfl, rfl,
    SameBytes.of_dict rfl rfl rfl, finish_desc (s := s.pinTo x (d.f 46 1) d.seq) hd 0 0, pinTo_strm s x (d.f 46 1) d.seq,
    pinTo_core s x (d.f 46 1) d.seq⟩

theorem exec_streamPin_pinned (hin : (s.strm x).st = .pinned) :
    ∃ t, exec (.streamPin id) s = .next t ∧ t = { s with descs := t.descs, strs := t.strs } ∧ SameBytes s t ∧
      t.desc? id = some { d with result := some { status := 0x0140, outcome := 0, flags := 0 } } ∧
      t.strm x = { s.strm x with stamp := s.carTime } := by
  have hrun := (streamPinRun_settled (id := id) hx hpin (.inr hin)).trans (if_pos hin)
  exact ⟨_, exec_stream_done hd hst hres hop hstop hreg rfl hsub hrun (Invariant.of_mem hs rfl rfl) rfl, rfl,
    SameBytes.of_dict rfl rfl rfl, finish_desc (s := State.touch _ x d.seq false) hd 0x0140 0, (touch_strm s x d.seq false x).trans (if_pos rfl)⟩

end

theorem exec_streamUnpin {x : Nat} {u : State} {g j : Nat} (hsub : d.f 38 1 = 7) (hx : d.strs = [x]) (hstage : d.stage = 0)
    (hpinned : (s.strm x).st = .pinned)
    (hclaim : (s.updDesc id (Desc.staged [0])).claimSlots d.die (s.strm x).slots = .at_ u g j) :
    ∃ t e, exec (.streamUnpin id) s = .next t ∧
      t = { s with free := t.free, mem := t.mem, descs := t.descs, strs := t.strs, cores := t.cores } ∧
      (∀ b, isRegSpace b = false → (∀ k, k < 4 * (s.strm x).data.length → s.loc ((t.strm x).slotAddr + k) ≠ s.loc b) →
        ((s.obj (s.strm x).obj).kind = 4 →
          ∀ k, k < 4 * (s.strm x).data.length → s.loc ((s.obj (s.strm x).obj).addr + k) ≠ s.loc b) → t.byteAt b = s.byteAt b) ∧
      t.desc? id = some e ∧ e.result = some { status := 0, outcome := 0, flags := 0 } ∧
      (∀ y, t.strm y = if x = y then
        { s.strm x with st := .resident, cluster := g, slot := j, core := 0, stamp := s.carTime, lastSeq := d.seq } else s.strm y) ∧
      (t.core (s.strm x).core).pinned = none := by
  have hrun := streamUnpinRun_at hx hstage hpinned hclaim
  obtain rfl := claimSlots_at hclaim
  have hdesc := updDesc_desc_self hd (Desc.staged [0])
  have hstrm := unpinned_strm (s.updDesc id (Desc.staged [0])).draw.2 x g j d.seq
  have hcore := unpinned_core (s.updDesc id (Desc.staged [0])).draw.2 x g j d.seq
  obtain ⟨co, q, hv⟩ := unpinned_frame (s.updDesc id (Desc.staged [0])).draw.2 x g j d.seq
  rw [hv] at hrun hstrm hcore
  have hself := (hstrm x).trans (if_pos rfl)
  obtain ⟨m, hslots, hwf, hout, _⟩ := wr_spec (s := { (s.updDesc id (Desc.staged [0])).draw.2 with cores := co, strs := q })
    (Invariant.of_mem hs rfl rfl) (State.strm { (s.updDesc id (Desc.staged [0])).draw.2 with cores := co, strs := q } x).slotAddr
    (State.strm { (s.updDesc id (Desc.staged [0])).draw.2 with cores := co, strs := q } x).image
  obtain ⟨m', hback, hwf', hout'⟩ := layBacking_spec hwf x
  have hself' : State.strm { (s.updDesc id (Desc.staged [0])).draw.2 with cores := co, strs := q, mem := m } x = _ := hself
  rw [laySlots_of_resident (by rw [hself]), hslots, hback] at hrun
  have hlen := congrArg (fun e => e.data.length) hself
  dsimp only at hlen
  rw [image_length, hlen] at hout
  rw [hself'] at hout'
  refine ⟨_, _, exec_stream_done hd hst hres hop hstop hreg rfl hsub hrun (Invariant.of_mem hwf' rfl rfl) rfl, rfl,
    fun b hb hin hin' => (hout' b hb hin').trans (hout b hb hin), finish_desc (s := (s.updDesc id (Desc.staged [0])).draw.2) hdesc 0 0,
    rfl, hstrm, hcore⟩

/-! ### Pause and Resume (R148) -/

theorem exec_streamPause_begins (hl : d.strs.Nodup) (hsub : d.f 38 1 = 3) (hstage : d.stage = 0)
    (hstill : ∀ x, x ∈ d.strs → (s.strm x).st ≠ .moving) :
    ∃ t e, exec (.streamPause id) s = .next t ∧ t = { s with descs := t.descs, strs := t.strs } ∧ SameBytes s t ∧
      (∀ x, t.strm x = if x ∈ d.strs then (s.strm x).paused s.carTime d.seq else s.strm x) ∧
      t.desc? id = some e ∧ e.stage = 1 ∧
      e.result = (if d.strs.any (fun x => (s.strm x).st == .resident) then none
        else some { status := if d.strs = [] then 0 else 0x0140, outcome := 0, flags := 0 }) := by
  obtain ⟨m, aux, hstrm, hrun⟩ := streamPauseRun_begins (id := id) hl hstage hstill
  have hdesc := updDesc_desc_self (s := { s with strs := m }) hd (Desc.staged aux)
  by_cases hany : d.strs.any (fun x => (s.strm x).st == .resident) = true
  · rw [if_pos hany] at hrun
    exact ⟨_, _, exec_stream_wait hd hst hres hop hstop hreg rfl hsub hrun (Invariant.of_mem hs rfl rfl) rfl, rfl,
      SameBytes.of_dict rfl rfl rfl, hstrm, hdesc, rfl, hres.trans (if_pos hany).symm⟩
  · rw [if_neg hany] at hrun
    exact ⟨_, _, exec_stream_done hd hst hres hop hstop hreg rfl hsub hrun (Invariant.of_mem hs rfl rfl) rfl, rfl,
      SameBytes.of_dict rfl rfl rfl, hstrm, finish_desc hdesc _ 0, rfl, (if_neg hany).symm⟩

theorem exec_streamPause_ends (hsub : d.f 38 1 = 3) (hstage : d.stage ≠ 0) (hstill : ∀ x, x ∈ d.strs → (s.strm x).st ≠ .moving) :
    ∃ t, exec (.streamPause id) s = .next t ∧ t = { s with descs := t.descs } ∧ SameBytes s t ∧
      t.desc? id = some { d with result := some { status := if d.aux.headD 0 = 1 then 0x0140 else 0, outcome := 0, flags := 0 } } :=
  ⟨_, exec_stream_done hd hst hres hop hstop hreg rfl hsub (streamPauseRun_ends hstage hstill) hs rfl, rfl, SameBytes.of_dict rfl rfl rfl,
    finish_desc hd _ 0⟩

theorem exec_streamResume_settled (hl : d.strs.Nodup) (hsub : d.f 38 1 = 4) (hstage : d.stage = 0) (hne : d.strs ≠ [])
    (hsettled : ∀ x, x ∈ d.strs → (s.strm x).st = .resident ∨ (s.strm x).st = .pinned) :
    ∃ t e, exec (.streamResume id) s = .next t ∧ t = { s with descs := t.descs, strs := t.strs } ∧ SameBytes s t ∧
      t.desc? id = some e ∧ e.result = some { status := 0x0140, outcome := 0, flags := 0 } ∧
      (∀ x, t.strm x = if x ∈ d.strs then { s.strm x with stamp := s.carTime } else s.strm x) := by
  have hdesc := updDesc_desc_self hd (Desc.staged d.strs)
  obtain ⟨m, hfold, hstrm⟩ := (marks_touch (s.updDesc id (Desc.staged d.strs)) d.strs d.seq false).foldl hl
  have hrun := streamResumeRun_settled (id := id) hstage hne hsettled
  rw [hfold] at hrun
  exact ⟨_, _, exec_stream_done hd hst hres hop hstop hreg rfl hsub hrun (Invariant.of_mem hs rfl rfl) rfl, rfl,
    SameBytes.of_dict rfl rfl rfl, finish_desc (s := { s.updDesc id _ with strs := m }) hdesc _ 0, rfl, hstrm⟩

theorem exec_streamResume_at {x : Nat} {u : State} {g j : Nat} (hsub : d.f 38 1 = 4) (hstage : d.stage = 0) (hx : d.strs = [x])
    (hswap : (s.strm x).st = .swapped)
    (hclaim : (s.updDesc id (Desc.staged [])).claimSlots d.die (s.strm x).slots = .at_ u g j) :
    ∃ t e, exec (.streamResume id) s = .next t ∧ t = { s with free := t.free, descs := t.descs, strs := t.strs } ∧ SameBytes s t ∧
      t.desc? id = some e ∧ e.result = none ∧ e.stage = 1 ∧ e.tbl = [x] ∧
      ∀ y, t.strm y = if x = y then { s.strm x with st := .moving, movIn := true, cluster := g, slot := j } else s.strm y := by
  have hrun := streamResumeRun_at hx hstage hswap hclaim
  obtain rfl := claimSlots_at hclaim
  have hdesc : (State.startIn (s.updDesc id (Desc.staged [])).draw.2 x g j).desc? id = some (d.staged []) := updDesc_desc_self hd _
  exact ⟨_, _, exec_stream_wait hd hst hres hop hstop hreg rfl hsub hrun (Invariant.of_mem hs rfl rfl) rfl, rfl,
    SameBytes.of_dict rfl rfl rfl, updDesc_desc_self hdesc _, hres, rfl, rfl,
    startIn_strm (s.updDesc id (Desc.staged [])).draw.2 x g j⟩

/-! ### Query and copy-out (R148) -/

theorem exec_streamQuery (hl : d.strs.Nodup) (hsub : d.f 38 1 = 8) :
    ∃ t, exec (.streamQuery id) s = .next t ∧ t = { s with mem := t.mem, descs := t.descs, strs := t.strs } ∧
      t.desc? id = some { d with result := some { status := 0, outcome := 0, flags := 0 } } ∧
      SameBytesBut (d.f 30 6) (32 * d.strs.length) s t ∧
      (∀ x, t.strm x = if x ∈ d.strs then (if (s.strm x).st = .free then s.strm x else { s.strm x with stamp := s.carTime }) else s.strm x) ∧
      (d.f 30 6 + 32 * d.strs.length ≤ 2 ^ 36 → ∀ i k, i < d.strs.length → k < 32 →
        t.byteAt (d.f 30 6 + 32 * i + k) = (strRecord s (d.strs.getD i 0)).getD k 0) := by
  have hlen : (d.strs.map (strRecord s)).flatten.length = 32 * d.strs.length := by
    rw [length_flatten_map (strRecord_length s), Nat.mul_comm]
  have hin := rdBytes_wr_dram s (d.f 30 6) (d.strs.map (strRecord s)).flatten
  obtain ⟨m, hwr, hwf, hout⟩ := wr_spec hs (d.f 30 6) (d.strs.map (strRecord s)).flatten
  obtain ⟨q, hfold, hstrm⟩ := (marks_query { s with mem := m } d.strs d.seq).foldl hl
  rw [hlen] at hin hout
  rw [hwr] at hin
  have hrun : streamQueryRun s d = .done { s with mem := m, strs := q } 0 := by
    unfold streamQueryRun
    rw [hwr]
    exact congrArg (CRes.done · 0) hfold
  refine ⟨_, exec_stream_done hd hst hres hop hstop hreg rfl hsub hrun (Invariant.of_mem hwf rfl rfl) rfl, rfl,
    finish_desc (s := { s with mem := m, strs := q }) hd 0 0, hout, hstrm, fun h i k hi hk => ?_⟩
  have hrec := hin h (32 * i) 32 (by omega)
  rw [slice_flatten_map (strRecord_length s) hi] at hrec
  rw [List.getD_eq_getElem d.strs 0 hi, ← hrec]
  exact (rdBytes_getD { s with mem := m } _ hk).symm

theorem exec_streamCopyOut (hl : d.strs.Nodup) (hsub : d.f 38 1 = 9) (hstill : ∀ x, x ∈ d.strs → (s.strm x).st ≠ .moving) :
    ∃ t, exec (.streamCopyOut id) s = .next t ∧ t = { s with mem := t.mem, descs := t.descs, strs := t.strs } ∧
      t.desc? id = some { d with result := some { status := 0, outcome := 0, flags := 0 } } ∧
      (∀ x, t.strm x = if x ∈ d.strs then { s.strm x with stamp := s.carTime } else s.strm x) ∧
      (∀ x, d.strs = [x] → SameBytesBut (d.f 30 6) (4 * (s.strm x).data.length) s t ∧
        (d.f 30 6 + 4 * (s.strm x).data.length ≤ 2 ^ 36 →
          ∀ k, k < (s.strm x).data.length → t.rd (d.f 30 6 + 4 * k) 4 = (s.strm x).data.getD k 0 % 2 ^ 32)) := by
  obtain ⟨m, hcopy, hwf⟩ := copyOutAll_frame hs d.strs (d.f 30 6)
  obtain ⟨q, hfold, hstrm⟩ := (marks_touch { s with mem := m } d.strs d.seq false).foldl hl
  have hrun : streamCopyOutRun s d = .done { s with mem := m, strs := q } 0 := by
    unfold streamCopyOutRun
    rw [any_moving_of_still hstill, if_neg Bool.false_ne_true, hcopy]
    exact congrArg (CRes.done · 0) hfold
  refine ⟨_, exec_stream_done hd hst hres hop hstop hreg rfl hsub hrun (Invariant.of_mem hwf rfl rfl) rfl, rfl,
    finish_desc (s := { s with mem := m, strs := q }) hd 0 0, hstrm, fun x hx => ?_⟩
  have hone : s.wr (d.f 30 6) (s.strm x).image = { s with mem := m } := by
    rw [← hcopy, hx]
    rfl
  have hout (b : Nat) := wr_byteAt_out s (d.f 30 6) b (s.strm x).image
  have hread (k : Nat) := rd_wr_image s (a := d.f 30 6) (k := k) (e := s.strm x)
  rw [image_length, hone] at hout
  rw [hone] at hread
  exact ⟨⟨hout, rfl⟩, fun ha k hk => hread k ha hk⟩

end

/-- Settles O32. Over distinct streams each operation notes every stream once; a stream that needs slots waits in them for its move, and
one that leaves its bank is laid in its slots and in its backing. -/
theorem streamControl : Obligations.StreamControl := by
  unfold Obligations.StreamControl
  intro s id d hs hd hst hres hop hstop hreg hl
  refine ⟨fun hsub => exec_streamReset hs hd hst hres hop hstop hreg hl hsub,
    fun hstill => ⟨fun hsub => exec_streamEnd hs hd hst hres hop hstop hreg hl hsub hstill,
      fun x y hsub hx hpin hy => exec_streamPin_taken hs hd hst hres hop hstop hreg hsub hx hpin hy,
      fun x u g j hsub hx hswap hpin hclaim => ?_, fun x hsub hx hin hpin => ?_,
      fun x hsub hx hin hpin => exec_streamPin_pinned hs hd hst hres hop hstop hreg hsub hx hpin hin,
      fun x u g j hsub hx hstage hin hclaim => ?_,
      fun hsub hstage => ?_,
      fun hsub hstage => exec_streamPause_ends hs hd hst hres hop hstop hreg hsub hstage hstill,
      fun hsub hstage hne hsettled => exec_streamResume_settled hs hd hst hres hop hstop hreg hl hsub hstage hne hsettled,
      fun hsub => exec_streamCopyOut hs hd hst hres hop hstop hreg hl hsub hstill⟩,
    fun x u g j hsub hstage hx hswap hclaim => ?_, fun hsub => ?_⟩
  · obtain ⟨t, e, hnext, ht, hbytes, hdesc, hnone, htbl, hstrm⟩ :=
      exec_streamPin_swapped hs hd hst hres hop hstop hreg hsub hx hpin hswap hclaim
    exact ⟨t, e, hnext, ht, hbytes, hdesc, hnone, htbl, (hstrm x).trans (if_pos rfl), fun y hy => (hstrm y).trans (if_neg hy.symm)⟩
  · obtain ⟨t, hnext, ht, hbytes, hdesc, hstrm, hcore⟩ := exec_streamPin_resident hs hd hst hres hop hstop hreg hsub hx hpin hin
    exact ⟨t, hnext, ht, hbytes, hdesc, (hstrm x).trans (if_pos rfl), congrArg Core.pinned ((hcore _).trans (if_pos rfl)),
      fun y hy => (hstrm y).trans (if_neg hy.symm), fun n hn => (hcore n).trans (if_neg hn.symm)⟩
  · obtain ⟨t, e, hnext, ht, hbytes, hdesc, hresult, hstrm, hcore⟩ :=
      exec_streamUnpin hs hd hst hres hop hstop hreg hsub hx hstage hin hclaim
    exact ⟨t, e, hnext, ht, hbytes, hdesc, hresult, (hstrm x).trans (if_pos rfl), hcore, fun y hy => (hstrm y).trans (if_neg hy.symm)⟩
  · obtain ⟨t, e, hnext, ht, hbytes, hstrm, hdesc, hbegun, hresult⟩ :=
      exec_streamPause_begins hs hd hst hres hop hstop hreg hl hsub hstage hstill
    exact ⟨t, e, hnext, ht, hbytes, fun x => by rw [hstrm x, paused_eq], hdesc, hbegun, hresult⟩
  · obtain ⟨t, e, hnext, ht, hbytes, hdesc, hnone, hbegun, htbl, hstrm⟩ :=
      exec_streamResume_at hs hd hst hres hop hstop hreg hsub hstage hx hswap hclaim
    exact ⟨t, e, hnext, ht, hbytes, hdesc, hnone, hbegun, htbl, (hstrm x).trans (if_pos rfl), fun y hy => (hstrm y).trans (if_neg hy.symm)⟩
  · obtain ⟨t, hnext, ht, hdesc, hbytes, hstrm, hread⟩ := exec_streamQuery hs hd hst hres hop hstop hreg hl hsub
    refine ⟨t, hnext, ht, hdesc, hbytes, fun x => (hstrm x).trans ?_, hread⟩
    by_cases hx : x ∈ d.strs <;> by_cases hfree : (s.strm x).st = .free <;> simp [hx, hfree]

end Sys2Proof
end

section
/-! Chunks of recurrent cells and linear scans, what they change (R147, R153, R156): output within the range that the check granted, and
of each stream its entry and its slots. -/

namespace Sys2Proof.Machine

/-! ### Final states written back (R147) -/

/-- A stream's entry after a chunk that leaves it the state `l`. -/
def Strm.ran (e : Strm) (l : List Nat) (now seq : Nat) : Strm :=
  { e with data := l, reset := false, chunks := e.chunks + 1, stamp := now, lastSeq := seq }

/-- The write-back of one stream's final state. -/
def State.putChunk (s : State) (seq : Nat) (p : Nat × List Nat) : State :=
  (s.setStrm p.1 ((s.strm p.1).ran p.2 s.carTime seq)).laySlots p.1

theorem finishChunk_eq (s : State) (id : Nat) (d : Desc) (data : List (List Nat)) : finishChunk s id d data =
    (d.strs.zip data).foldl (fun u p => u.putChunk d.seq p) (if d.cls = 0 then s.updDesc id (fun y =>
      { y with aux := (d.strs.map (fun x => (s.strm x).keep)).flatten }) else s) := rfl

theorem laySlots_frame (s : State) (x : Nat) : ∃ m, s.laySlots x = { s with mem := m } := by
  unfold State.laySlots
  dsimp only
  split
  · exact wr_frame s _ _
  · exact ⟨_, rfl⟩

theorem laySlots_strm (s : State) (x y : Nat) : (s.laySlots x).strm y = s.strm y := by
  obtain ⟨m, h⟩ := laySlots_frame s x
  rw [h]
  rfl

/-- A byte outside the slots of stream `x`, where it is Resident, stays. -/
theorem laySlots_byteAt_out {s : State} {x b : Nat} (hb : isRegSpace b = false)
    (h : (s.strm x).st = .resident → ∀ k, k < 4 * (s.strm x).data.length → s.loc ((s.strm x).slotAddr + k) ≠ s.loc b) :
    (s.laySlots x).byteAt b = s.byteAt b := by
  by_cases hres : (s.strm x).st = .resident
  · rw [laySlots_of_resident hres]
    refine wr_byteAt_out s _ b _ hb ?_
    rw [image_length]
    exact h hres
  · rw [laySlots_of_not_resident hres]

/-- From `s` to `u` final states from `ps` have been written back: memory and the stream table alone have changed, every stream is where
it was, and no byte outside the slots of the Resident streams of `ps` has changed. -/
structure WritesBack (ps : List (Nat × List Nat)) (s u : State) : Prop where
  frame : u = { s with mem := u.mem, strs := u.strs }
  st : ∀ y, (u.strm y).st = (s.strm y).st
  slots : ∀ y, (u.strm y).slotAddr = (s.strm y).slotAddr
  bytes : ∀ b, isRegSpace b = false → (∀ p, p ∈ ps → (s.strm p.1).st = .resident →
    ∀ k, k < 4 * p.2.length → s.loc ((s.strm p.1).slotAddr + k) ≠ s.loc b) → u.byteAt b = s.byteAt b

theorem strmStep_putChunk (ps : List (Nat × List Nat)) (s : State) (seq : Nat) :
    StrmStep ps (fun u p => u.putChunk seq p) Prod.fst (WritesBack ps s) (fun p e => e.ran p.2 s.carTime seq) := by
  intro u p hp hu
  have htime : u.carTime = s.carTime := by rw [hu.frame]; rfl
  have hloc (a : Nat) : u.loc a = s.loc a := by rw [hu.frame]; rfl
  have hset : ∀ y, (u.setStrm p.1 ((u.strm p.1).ran p.2 u.carTime seq)).strm y =
      if p.1 = y then (u.strm y).ran p.2 s.carTime seq else u.strm y := by
    intro y
    rw [State.setStrm_strm, htime]
    split
    · rename_i hy
      rw [hy]
    · rfl
  have hstep (y : Nat) := (laySlots_strm (u.setStrm p.1 ((u.strm p.1).ran p.2 u.carTime seq)) p.1 y).trans (hset y)
  have hself := (hset p.1).trans (if_pos rfl)
  refine ⟨⟨?_, fun y => ?_, fun y => ?_, fun b hb h => ?_⟩, hstep⟩
  · obtain ⟨m, hlay⟩ := laySlots_frame (u.setStrm p.1 ((u.strm p.1).ran p.2 u.carTime seq)) p.1
    dsimp only
    rw [State.putChunk, hlay, hu.frame]
    rfl
  · refine (congrArg Strm.st (hstep y)).trans ?_
    rw [← hu.st y]
    split <;> rfl
  · refine (congrArg Strm.slotAddr (hstep y)).trans ?_
    rw [← hu.slots y]
    split <;> rfl
  · refine Eq.trans (laySlots_byteAt_out hb fun hres k hk => ?_) (hu.bytes b hb h)
    rw [hself] at hres hk ⊢
    have hslot : ((u.strm p.1).ran p.2 s.carTime seq).slotAddr = (s.strm p.1).slotAddr := hu.slots p.1
    rw [hslot]
    intro e
    exact h p hp ((hu.st p.1).symm.trans hres) k hk ((hloc _).symm.trans (e.trans (hloc b)))

/-- What a pass over distinct streams, with as many final states, leaves. -/
theorem foldl_putChunk {l : List Nat} {data : List (List Nat)} (hl : l.Nodup) (hlen : data.length = l.length) (s : State) (seq : Nat) :
    WritesBack (l.zip data) s ((l.zip data).foldl (fun u p => u.putChunk seq p) s) ∧
      (∀ p, p ∈ l.zip data → ((l.zip data).foldl (fun u p => u.putChunk seq p) s).strm p.1 = (s.strm p.1).ran p.2 s.carTime seq) ∧
      ∀ y, y ∉ l → ((l.zip data).foldl (fun u p => u.putChunk seq p) s).strm y = s.strm y := by
  have hkeys : (l.zip data).map Prod.fst = l := List.map_fst_zip hlen.ge
  have h := (strmStep_putChunk (l.zip data) s seq).foldl (by rwa [hkeys]) (s := s)
    ⟨rfl, fun _ => rfl, fun _ => rfl, fun _ _ _ => rfl⟩
  rwa [hkeys] at h

/-- From `s` to `t` a chunk has run that writes within `W`: each of its streams has one chunk more and its new state, which stands in
its slots where it is Resident. -/
structure EndsChunk (W : Set Nat) (id : Nat) (d : Desc) (s t : State) : Prop where
  frame : ∃ k m r ds q, t = { s with free := k, mem := m, regs := r, descs := ds, strs := q }
  desc : ∀ j, t.desc? j = if id = j ∧ d.cls = 0 then
    (s.desc? j).map (fun y => { y with aux := (d.strs.map (fun x => (s.strm x).keep)).flatten }) else s.desc? j
  other : ∀ x, x ∉ d.strs → t.strm x = s.strm x
  ran : ∀ x, x ∈ d.strs → ∃ l now, t.strm x = (s.strm x).ran l now d.seq
  bytes : ∀ b, isRegSpace b = false → (∀ a, a ∈ W → s.loc a ≠ s.loc b) → (∀ x, x ∈ d.strs → (s.strm x).st = .resident →
    ∀ k, k < 4 * (t.strm x).data.length → s.loc ((s.strm x).slotAddr + k) ≠ s.loc b) → t.byteAt b = s.byteAt b
  image : ∀ x, d.strs = [x] → (s.strm x).st = .resident → (s.strm x).cluster < 32 →
    (s.strm x).slot * 8192 + 4 * (t.strm x).data.length ≤ 0x100000 →
    ∀ k, k < 4 * (t.strm x).data.length → t.byteAt ((s.strm x).slotAddr + k) = (t.strm x).image.getD k 0

theorem putChunk_image {s : State} {x : Nat} {l : List Nat} {seq : Nat} (hres : (s.strm x).st = .resident) (hc : (s.strm x).cluster < 32)
    (hn : (s.strm x).slot * 8192 + 4 * l.length ≤ 0x100000) {k : Nat} (hk : k < 4 * l.length) :
    (s.putChunk seq (x, l)).byteAt ((s.strm x).slotAddr + k) = ((s.strm x).ran l s.carTime seq).image.getD k 0 := by
  have hself : (s.setStrm x ((s.strm x).ran l s.carTime seq)).strm x = (s.strm x).ran l s.carTime seq :=
    (State.setStrm_strm s x x _).trans (if_pos rfl)
  have hlay := laySlots_of_resident (s := s.setStrm x ((s.strm x).ran l s.carTime seq)) (x := x) (by rw [hself]; exact hres)
  rw [hself] at hlay
  rw [State.putChunk, hlay]
  exact wr_image_slots _ (e := (s.strm x).ran l s.carTime seq) hc hn hk

/-- What a pass over the streams of a descriptor leaves, told of each stream. -/
theorem foldl_putChunk_ends {d : Desc} {data : List (List Nat)} (hl : d.strs.Nodup) (hlen : data.length = d.strs.length)
    {s w t : State} {id : Nat} (hframe : w = { s with descs := w.descs })
    (hdesc : ∀ j, w.desc? j = if id = j ∧ d.cls = 0 then
      (s.desc? j).map (fun y => { y with aux := (d.strs.map (fun x => (s.strm x).keep)).flatten }) else s.desc? j)
    (ht : (d.strs.zip data).foldl (fun u p => u.putChunk d.seq p) w = t) : EndsChunk ∅ id d s t := by
  obtain ⟨hback, hran, hother⟩ := foldl_putChunk hl hlen w d.seq
  rw [ht] at hback hran hother
  have hstrm (y : Nat) : w.strm y = s.strm y := by rw [hframe]; rfl
  have hbyte (b : Nat) : w.byteAt b = s.byteAt b := by rw [hframe]; rfl
  have hloc (b : Nat) : w.loc b = s.loc b := by rw [hframe]; rfl
  have hpair (x : Nat) (hx : x ∈ d.strs) : ∃ l, (x, l) ∈ d.strs.zip data := by
    rw [← List.map_fst_zip hlen.ge] at hx
    obtain ⟨p, hp, rfl⟩ := List.mem_map.mp hx
    exact ⟨p.2, hp⟩
  have hmem (p : Nat × List Nat) (hp : p ∈ d.strs.zip data) : p.1 ∈ d.strs := (List.of_mem_zip hp).1
  refine ⟨?_, fun j => ?_, fun x hx => (hother x hx).trans (hstrm x), fun x hx => ?_, fun b hb _ h => ?_, fun x hx hres hc hn k hk => ?_⟩
  · have hf := hback.frame
    rw [hframe] at hf
    exact ⟨_, _, _, _, _, hf⟩
  · have hf := hback.frame
    rw [← hdesc j, hf]
    rfl
  · obtain ⟨l, hp⟩ := hpair x hx
    exact ⟨l, w.carTime, by rw [← hstrm x]; exact hran (x, l) hp⟩
  · refine (hback.bytes b hb fun p hp hres k hk => ?_).trans (hbyte b)
    rw [hstrm] at hres
    rw [hstrm, hloc, hloc]
    refine h p.1 (hmem p hp) hres k ?_
    rw [hran p hp]
    exact hk
  · obtain ⟨l, hp⟩ := hpair x (by rw [hx]; exact List.mem_singleton_self x)
    obtain ⟨l', rfl⟩ := List.length_eq_one_iff.mp (hlen.trans (congrArg List.length hx))
    rw [hx] at hp ht
    obtain rfl : l = l' := congrArg Prod.snd (List.mem_singleton.mp hp)
    have hlast := hran (x, l) (by rw [hx]; exact hp)
    rw [← hstrm x] at hres hc hn ⊢
    rw [hlast] at hn hk ⊢
    rw [← ht]
    exact putChunk_image hres hc hn hk

theorem finishChunk_ends {d : Desc} {data : List (List Nat)} (hl : d.strs.Nodup) (hlen : data.length = d.strs.length) (s : State)
    (id : Nat) : EndsChunk ∅ id d s (finishChunk s id d data) := by
  rw [finishChunk_eq]
  by_cases h : d.cls = 0
  · rw [if_pos h]
    refine foldl_putChunk_ends hl hlen rfl (fun j => ?_) rfl
    rw [State.updDesc_desc]
    simp [h]
  · rw [if_neg h]
    exact foldl_putChunk_ends hl hlen rfl (fun j => by simp [h]) rfl


/-! ### What the chunks write (R153, R156) -/

/-- `r` is the end of a chunk that has drawn free values, written bytes within the ranges `rs` granted for writing, and formed a final
state of each of its streams. -/
def RunsChunk (rs : List Rng) (id : Nat) (d : Desc) (s : State) (r : State × Nat × Nat) : Prop :=
  ∃ k a l data, r.1 = finishChunk (State.wr { s with free := k } a l) id d data ∧ r.2.1 = 0 ∧ data.length = d.strs.length ∧
    ∀ i, i < l.length → a + i ∈ writable rs

/-- Bytes that fill a range granted for writing lie within it. -/
theorem add_mem_writable {rs : List Rng} {a : Nat} {l : List Byte} (hg : wrTile a l.length ∈ rs) (i : Nat) (hi : i < l.length) :
    a + i ∈ writable rs := mem_writable hg (Nat.le_add_right a i) (Nat.add_lt_add_left hi a)

theorem Yields.foldlM {α β : Type} {P : α → Prop} {f : α → β → Flg α} (hf : ∀ a b, P a → Yields (f a b) P) (l : List β) {a : α}
    (ha : P a) : Yields (l.foldlM f a) P := by
  induction l generalizing a with
  | nil => exact Yields.pure ha
  | cons b l ih =>
    rw [List.foldlM_cons]
    exact (hf a b ha).bind fun c hc => ih hc

/-- What an optional step computes does not matter where the rest meets `Q` from every value. -/
theorem Yields.after_ite {α β : Type} {Q : β → Prop} {c : Prop} [Decidable c] {x y : Flg α} {f : α → Flg β} (hf : ∀ a, Yields (f a) Q) :
    Yields (if c then x >>= f else y >>= f) Q := .ite (.after hf) (.after hf)

/-- The steps of a chunk keep one cell for each of its streams. -/
theorem yields_cellSteps_length {d : Desc} (hlen : d.strs.length = d.f 63 1) (s : State) (k : Nat) :
    Yields (cellSteps s d k) (fun r => r.1.length = d.strs.length) := by
  refine .after fun m => .after fun gx => .after fun w => .after_ite fun bias => ?_
  refine Yields.foldlM (fun r t hr => (Yields.mapM_length _ _).bind fun cs hcs => Yields.pure (hcs.trans ?_)) _
    (by rw [List.length_map, List.length_map])
  simp [hr, hlen]

theorem cellRun_runs {d : Desc} (hlen : d.strs.length = d.f 63 1) (id : Nat) (s : State) :
    RunsChunk (cellInfo s d).rngs id d s (cellRun id s d) := by
  have hout : wrTile (d.f 48 6) (matBytes d.outF false (if (d.f 69 1).testBit 1 then d.f 64 4 * d.f 63 1 else d.f 63 1) (d.f 60 2)) ∈
      (cellInfo s d).rngs := by simp [cellInfo]
  unfold cellRun
  dsimp only
  generalize hx : (cellSteps s d _ >>= _) = x
  have hres : Yields x (fun p => p.1.length = d.strs.length ∧ p.2.length =
      matBytes d.outF false (if (d.f 69 1).testBit 1 then d.f 64 4 * d.f 63 1 else d.f 63 1) (d.f 60 2)) := by
    rw [← hx]
    refine (yields_cellSteps_length hlen s _).bind fun r hr => (yields_tileStore_length _ _ _ _ _).bind fun b hb => Yields.pure ⟨?_, hb⟩
    simp [hr]
  obtain ⟨hdata, hbytes⟩ := hres.runFlg
  exact ⟨_, _, _, _, rfl, rfl, hdata, add_mem_writable (hbytes ▸ hout)⟩

/-- What a scan writes: its outputs by its output mode. -/
def scanBytes (d : Desc) : Nat :=
  if d.f 70 1 = 0 then matBytes d.outF false (d.f 28 4) (d.f 64 4)
  else if d.f 70 1 = 1 then matBytes d.outF false (d.f 28 4) (d.f 64 4 * d.f 68 1)
  else 0

theorem scanBytes_mem {d : Desc} (s : State) (h : scanBytes d ≠ 0) : wrTile (d.f 50 6) (scanBytes d) ∈ (scanInfo s d).rngs := by
  unfold scanBytes at h ⊢
  split at h
  · rename_i hom
    simp [scanInfo, hom]
  split at h
  · rename_i hom
    simp [scanInfo, hom]
  · exact absurd rfl h

theorem scanRun_runs {d : Desc} (hlen : d.strs.length = 1) (id : Nat) (s : State) :
    RunsChunk (scanInfo s d).rngs id d s (scanRun id s d) := by
  unfold scanRun
  dsimp only
  generalize hx : (State.loadMat s d.inF _ _ _ >>= _) = x
  have hbytes : Yields x (fun p => p.2.length = scanBytes d) := by
    rw [← hx]
    refine .after fun _ => .after fun _ => .after fun _ => .after fun _ => .after_ite fun _ => .after fun _ => ?_
    unfold scanBytes
    split
    · exact .after fun _ => .after fun _ => .after fun ys => (yields_tileStore_length _ _ _ _ ys).bind fun b hb => Yields.pure hb
    split
    · exact (yields_tileStore_length _ _ _ _ _).bind fun b hb => Yields.pure hb
    · exact Yields.pure rfl
  have hl : (if d.f 70 1 = 2 then [] else (runFlg x).1.2).length ≤ scanBytes d := by
    split
    · exact Nat.zero_le _
    · exact hbytes.runFlg.le
  refine ⟨s.free + 1, d.f 50 6, if d.f 70 1 = 2 then [] else (runFlg x).1.2, [(runFlg x).1.1], ?_, rfl, hlen.symm, fun i hi => ?_⟩
  · split <;> rfl
  · exact mem_writable (scanBytes_mem s (by omega)) (Nat.le_add_right _ i) (by omega)


/-! ### A chunk that runs (R147) -/

/-- What is written within `W` before a chunk's streams are written back is part of what it changes. -/
theorem EndsChunk.after {W : Set Nat} {id : Nat} {d : Desc} {s w t : State} (h : EndsChunk ∅ id d w t)
    (hw : ∃ k m r, w = { s with free := k, mem := m, regs := r })
    (hbytes : ∀ b, isRegSpace b = false → (∀ a, a ∈ W → s.loc a ≠ s.loc b) → w.byteAt b = s.byteAt b) : EndsChunk W id d s t := by
  obtain ⟨⟨k, m, r, ds, q, hframe⟩, hdesc, hother, hran, hout, himage⟩ := h
  obtain ⟨k', m', r', rfl⟩ := hw
  exact ⟨⟨k, m, r, ds, q, hframe⟩, hdesc, hother, hran,
    fun b hb hW hslots => (hout b hb (fun _ ha => absurd ha (Set.notMem_empty _)) hslots).trans (hbytes b hb hW), himage⟩

/-- Reads of registers that clear them come after what a chunk changes. -/
theorem EndsChunk.clearReads {W : Set Nat} {id : Nat} {d : Desc} {s t : State} (h : EndsChunk W id d s t) (e : Desc) :
    EndsChunk W id d s (t.clearReads e) := by
  obtain ⟨⟨k, m, r, ds, q, hframe⟩, hdesc, hother, hran, hout, himage⟩ := h
  obtain ⟨r', hclear⟩ := clearReads_frame t e
  have hbyte {b : Nat} (hb : isRegSpace b = false) : (t.clearReads e).byteAt b = t.byteAt b := byteAt_of_mem (by rw [hclear]) (by rw [hclear]) hb
  have hstrm (x : Nat) : (t.clearReads e).strm x = t.strm x := by rw [hclear]; rfl
  refine ⟨⟨k, m, r', ds, q, by rw [hclear, hframe]⟩, fun j => ?_, fun x hx => (hstrm x).trans (hother x hx), fun x hx => ?_,
    fun b hb hW hslots => (hbyte hb).trans (hout b hb hW ?_), fun x hx hres hc hn k hk => ?_⟩
  · rw [← hdesc j, hclear]
    rfl
  · rw [hstrm]
    exact hran x hx
  · simpa only [hstrm] using hslots
  · rw [hstrm] at hn hk ⊢
    have hlt := slotAddr_add_lt hc hn hk
    exact (hbyte (isRegSpace_of_lt (hlt.2.trans (by decide)))).trans (himage x hx hres hc hn k hk)

theorem RunsChunk.ends {rs : List Rng} {id : Nat} {d : Desc} {s w : State} {r : State × Nat × Nat} (h : RunsChunk rs id d w r)
    (hl : d.strs.Nodup) (hw : ∃ c, w = { s with regs := c }) : r.2.1 = 0 ∧ EndsChunk (writable rs) id d s r.1 := by
  obtain ⟨k, a, l, data, hr, hst, hlen, hin⟩ := h
  obtain ⟨c, rfl⟩ := hw
  rw [hr]
  obtain ⟨m, hm⟩ := wr_frame { s with free := k, regs := c } a l
  refine ⟨hst, (finishChunk_ends hl hlen _ id).after ⟨k, m, c, hm⟩ fun b hb hW => ?_⟩
  exact (wr_byteAt_out { s with free := k, regs := c } a b l hb fun i hi => hW _ (hin i hi)).trans (byteAt_of_mem (by rfl) (by rfl) hb)

section
variable {s : State} {id : Nat} {d : Desc} (hs : Invariant s) (hd : s.desc? id = some d) (hst : d.st = .running) (hres : d.result = none)
  (hstop : s.stopOf d = none)
include hs hd hst hres hstop

/-- A chunk that runs completes, and changes beside its result what it changes in its streams and its output. -/
theorem exec_chunk (hl : d.strs.Nodup) {i : Instr} {f : State → Desc → State × Nat × Nat}
    (hexec : exec i s = s.done (s.runOp id d.op anyDesc f)) (hrun : ∀ u, RunsChunk (s.rngsOf d) id d u (f u d)) :
    ∃ t u e fl, exec i s = .next t ∧ EndsChunk (writable (s.rngsOf d)) id d s u ∧ t = { u with mem := t.mem, descs := t.descs } ∧
      (∀ b, t.byteAt b = u.byteAt b) ∧ u.desc? id = some e ∧
      t.desc? id = some { e with result := some { status := 0, outcome := 0, flags := fl } } ∧
      ∀ j, j ≠ id → t.desc? j = u.desc? j := by
  rw [hexec, runOp_of_unstopped hd hst hres hstop]
  obtain ⟨hzero, hend⟩ := (hrun (s.showRegs d)).ends hl (showRegs_frame s d)
  rw [hzero]
  generalize f (s.showRegs d) d = r at hend ⊢
  have hclear := hend.clearReads d
  generalize r.1.clearReads d = u at hclear ⊢
  obtain ⟨k, m, c, ds, q, hframe⟩ := hclear.frame
  obtain ⟨e, he⟩ : ∃ e, u.desc? id = some e := by
    rw [hclear.desc id, hd]
    split
    · exact ⟨_, rfl⟩
    · exact ⟨_, rfl⟩
  obtain ⟨t, hnext, ht, hdesc, hother, hsame⟩ := done_finish hs (u := u) (by rw [hframe]) (by rw [hframe]) he 0 r.2.2
  exact ⟨t, u, e, r.2.2, hnext, hclear, ht, hsame, he, hdesc, hother⟩

/-- The outcome of a chunk, told of the state before it (R147). -/
theorem chunk_completes (hl : d.strs.Nodup) {i : Instr} {f : State → Desc → State × Nat × Nat}
    (hexec : exec i s = s.done (s.runOp id d.op anyDesc f)) (hrun : ∀ u, RunsChunk (s.rngsOf d) id d u (f u d)) :
    ∃ t e fl, exec i s = .next t ∧
      t = { s with free := t.free, mem := t.mem, regs := t.regs, descs := t.descs, strs := t.strs } ∧
      t.desc? id = some e ∧ e.result = some { status := 0, outcome := 0, flags := fl } ∧
      (d.cls ≠ 0 → e = { d with result := some { status := 0, outcome := 0, flags := fl } }) ∧
      (d.cls = 0 → e.aux = (d.strs.map (fun x => (s.strm x).keep)).flatten) ∧ (∀ j, j ≠ id → t.desc? j = s.desc? j) ∧
      (∀ x, x ∉ d.strs → t.strm x = s.strm x) ∧
      (∀ x, x ∈ d.strs → (t.strm x).chunks = (s.strm x).chunks + 1 ∧ (t.strm x).reset = false ∧ (t.strm x).lastSeq = d.seq ∧
        (t.strm x).st = (s.strm x).st) ∧
      (∀ b, isRegSpace b = false →
        (∀ g, g ∈ s.rngsOf d → g.wr = true → ∀ k, k < g.n → s.loc (g.a + k) ≠ s.loc b) →
        (∀ x, x ∈ d.strs → (s.strm x).st = .resident → ∀ k, k < 4 * (t.strm x).data.length → s.loc ((s.strm x).slotAddr + k) ≠ s.loc b) →
        t.byteAt b = s.byteAt b) ∧
      (∀ x, d.strs = [x] → (s.strm x).st = .resident → (s.strm x).cluster < 32 →
        (s.strm x).slot * 8192 + 4 * (t.strm x).data.length ≤ 0x100000 →
        ∀ k, k < 4 * (t.strm x).data.length → t.byteAt ((s.strm x).slotAddr + k) = (t.strm x).image.getD k 0) := by
  obtain ⟨t, u, e, fl, hnext, hend, ht, hsame, he, hdesc, hother⟩ := exec_chunk hs hd hst hres hstop hl hexec hrun
  have hstrm (x : Nat) : t.strm x = u.strm x := by rw [ht]; rfl
  rw [hend.desc id, hd] at he
  obtain ⟨k, m, c, ds, q, hframe⟩ := hend.frame
  refine ⟨t, _, fl, hnext, ?_, hdesc, rfl, fun h => ?_, fun h => ?_, fun j hj => ?_, fun x hx => ?_, fun x hx => ?_, fun b hb hW hslots => ?_, ?_⟩
  · rw [ht, hframe]
  · simp only [h, and_false, if_false, Option.some.injEq] at he
    rw [he]
  · simp only [h, and_true, if_true, Option.map_some, Option.some.injEq] at he
    rw [← he]
  · rw [hother j hj, hend.desc j, if_neg fun h => hj h.1.symm]
  · rw [hstrm]
    exact hend.other x hx
  · obtain ⟨l, now, hl⟩ := hend.ran x hx
    rw [hstrm, hl]
    exact ⟨rfl, rfl, rfl, rfl⟩
  · simp only [hstrm] at hslots
    refine (hsame b).trans (hend.bytes b hb ?_ hslots)
    rintro a ⟨g, hg, hwr, hlo, hhi⟩
    rw [← Nat.add_sub_cancel' hlo]
    exact hW g hg hwr _ (by omega)
  · simp only [hstrm, hsame]
    exact hend.image

end

theorem cell_rngsOf {d : Desc} (hop : d.op = 0x0210) (s u : State) : s.rngsOf d = (cellInfo u d).rngs := by
  simp [State.rngsOf, opInfo, hop]
  rfl

theorem scan_rngsOf {d : Desc} (hop : d.op = 0x0220) (s u : State) : s.rngsOf d = (scanInfo u d).rngs := by
  simp [State.rngsOf, opInfo, hop]
  rfl

end Sys2Proof.Machine
end

section
/-! Opening streams (R142–R144, R148), and the statement about opens and chunks. -/

namespace Sys2Proof.Machine

theorem makeRoom_makesRoom {s u : State} {c die n : Nat} (h : s.makeRoom c die n = .ok u) : MakesRoom s u := by
  unfold State.makeRoom at h
  dsimp only at h
  split at h
  · obtain rfl := Room.ok.inj h
    exact MakesRoom.evictUntil _ _ _ _ s
  · generalize spillUntil die 1 _ _ _ = w at h
    split at h
    · cases h
    · cases h

/-- The bytes of the state that an Open gives a stream. -/
def openBytes (d : Desc) : Nat := strBytes (d.f 39 1) (d.f 40 4) (if d.f 39 1 = 3 then d.f 44 1 else 1) ((d.f 45 1).testBit 0)

/-- The entry of a stream just opened, with the backing object `h`. -/
def openedStrm (d : Desc) (h now : Nat) : Strm :=
  { Strm.zero with st := .swapped, owner := d.ctx, kind := d.f 39 1, size := d.f 40 4, states := if d.f 39 1 = 3 then d.f 44 1 else 1,
                   comp := (d.f 45 1).testBit 0, reset := true, obj := h, stamp := now, lastSeq := d.seq,
                   data := List.replicate (openBytes d / 4) 0 }

theorem streamOpenRun_of_taken {s : State} {d : Desc} (h : d.strs.any (fun y => decide ((s.strm y).st ≠ .free)) = true) :
    streamOpenRun s d = .done s 0x0551 := if_pos h

/-- Streams that are Free pass the check of R148. -/
theorem not_any_taken {s : State} {l : List Nat} (h : ∀ y, y ∈ l → (s.strm y).st = .free) :
    ¬ l.any (fun y => decide ((s.strm y).st ≠ .free)) = true := by
  simpa using h

theorem streamOpenRun_of_over {s : State} {d : Desc} (hfree : ∀ y, y ∈ d.strs → (s.strm y).st = .free)
    (hquota : s.quotaOk d.ctx (d.strs.length * roundUp (openBytes d) 8192) = false) : streamOpenRun s d = .done s 0x0552 :=
  (if_neg (not_any_taken hfree)).trans (if_pos (by rw [Bool.not_eq_true']; exact hquota))

theorem streamOpenRun_of_room {s u v : State} {d : Desc} {x h : Nat} (hx : d.strs = [x]) (hfree : (s.strm x).st = .free)
    (hquota : s.quotaOk d.ctx (roundUp (openBytes d) 8192) = true)
    (hroom : s.makeRoom d.ctx d.die (roundUp (roundUp (openBytes d) 8192) 65536) = .ok u)
    (hobj : u.makeObj 4 d.ctx d.die (openBytes d) (roundUp (openBytes d) 8192) true = some (h, v)) :
    streamOpenRun s d = .done (v.setStrm x (openedStrm d h u.carTime)) 0 := by
  unfold openBytes at hquota hroom hobj
  unfold streamOpenRun
  simp [-Nat.testBit_zero, hx, hfree, hquota, kib64, hroom, hobj, openedStrm, openBytes]

end Sys2Proof.Machine

namespace Sys2Proof

open Sys2Proof.Machine

section
variable {s : State} {id : Nat} {d : Desc} (hs : Invariant s) (hd : s.desc? id = some d) (hst : d.st = .running) (hres : d.result = none)
  (hop : d.op = 0x0200) (hstop : s.stopOf d = none) (hreg : s.regReads d = []) (hsub : d.f 38 1 = 1)
include hd hst hres hop hstop hreg hsub

theorem exec_streamOpen {u : State} {st : Nat} (hrun : streamOpenRun s d = .done u st) (hu : Invariant u) (hp : u.pending = s.pending)
    (hdesc : u.desc? id = some d) : ∃ t e, exec (.streamOpen id) s = .next t ∧ t = { u with descs := t.descs } ∧ t.desc? id = some e ∧
      e.result = some { status := st, outcome := 0, flags := 0 } := by
  obtain ⟨⟨p, q, hwait⟩, _⟩ := spillWaited_desc hdesc
  refine ⟨(u.spillWaited id).finish id st 0, _, ?_, rfl, finish_desc hwait st 0, rfl⟩
  have hexec : exec (.streamOpen id) s = s.done (s.runCar id 0x0200 (subOp 38 1) true streamOpenRun) := rfl
  rw [hexec, runCar_done hd hst hres hop hstop (streamRegReads hop hreg) (by simp [subOp, hsub]) hrun]
  exact State.done_of_wf hp (Invariant.of_mem hu rfl rfl)

include hs

/-- An Open that opens nothing changes its descriptor alone. -/
theorem exec_streamOpen_refused {st : Nat} (hrun : streamOpenRun s d = .done s st) :
    ∃ t e, exec (.streamOpen id) s = .next t ∧ t = { s with descs := t.descs } ∧ SameBytes s t ∧ t.desc? id = some e ∧
      e.result = some { status := st, outcome := 0, flags := 0 } := by
  obtain ⟨t, e, hnext, ht, hdesc, hresult⟩ := exec_streamOpen hd hst hres hop hstop hreg hsub hrun hs rfl hd
  exact ⟨t, e, hnext, ht, SameBytes.of_dict (by rw [ht]) (by rw [ht]) (by rw [ht]), hdesc, hresult⟩

theorem exec_streamOpen_opened {u v : State} {x h : Nat} (hx : d.strs = [x]) (hfree : (s.strm x).st = .free)
    (hquota : s.quotaOk d.ctx (roundUp (openBytes d) 8192) = true)
    (hroom : s.makeRoom d.ctx d.die (roundUp (roundUp (openBytes d) 8192) 65536) = .ok u)
    (hobj : u.makeObj 4 d.ctx d.die (openBytes d) (roundUp (openBytes d) 8192) true = some (h, v)) :
    ∃ t e, exec (.streamOpen id) s = .next t ∧ t = { v with strs := t.strs, descs := t.descs } ∧ t.desc? id = some e ∧
      e.result = some { status := 0, outcome := 0, flags := 0 } ∧ (∀ y, y ≠ x → t.strm y = v.strm y) ∧
      t.strm x = openedStrm d h u.carTime ∧ (t.obj h).st = .present ∧ (t.obj h).kind = 4 ∧ (t.obj h).owner = d.ctx := by
  obtain ⟨w, o, hevict, hv, hpresent, hkind, howner⟩ := makeObj_spec hobj
  have hmakes := (makeRoom_makesRoom hroom).trans hevict
  have hwf := hmakes.invariant hs
  have hframe := hmakes.frame
  obtain ⟨t, e, hnext, ht, hdesc, hresult⟩ := exec_streamOpen hd hst hres hop hstop hreg hsub
    (streamOpenRun_of_room hx hfree hquota hroom hobj) (Invariant.of_mem hwf (by rw [hv]; rfl) (by rw [hv]; rfl))
    (by rw [hv]; exact (congrArg State.pending hframe).trans rfl)
    (by rw [hv]; exact (congrArg (fun z => State.desc? z id) hframe).trans hd)
  have hstrm (y : Nat) : t.strm y = if x = y then openedStrm d h u.carTime else v.strm y := by
    rw [← State.setStrm_strm v x y, ht]
    rfl
  have hobjs : t.obj h = o := by
    have hput : t.obj h = v.obj h := by rw [ht]; rfl
    rw [hput, hv, State.setObj_obj, if_pos rfl]
  refine ⟨t, e, hnext, ?_, hdesc, hresult, fun y hy => (hstrm y).trans (if_neg (Ne.symm hy)), (hstrm x).trans (if_pos rfl), ?_⟩
  · rw [ht]
    rfl
  · rw [hobjs]
    exact ⟨hpresent, hkind, howner⟩

end

/-- Settles O33. An Open ends by the three cases of its checks; a chunk is its output, within the range granted for it, and the write-back
of its streams one by one. -/
theorem streamOpensAndChunks : Obligations.StreamOpensAndChunks := by
  unfold Obligations.StreamOpensAndChunks
  refine ⟨fun s u v id x h states bytes foot d hs hd hst hres hop hstop hreg hsub hstates hbytes hfoot => ?_,
    fun s id d i hs hd hst hres hstop hl hchunk => ?_⟩
  · subst hstates
    obtain rfl : bytes = openBytes d := hbytes
    subst hfoot
    refine ⟨fun hx hfree hquota hroom hobj => ?_, fun htaken => ?_, fun hfree hquota => ?_⟩
    · obtain ⟨t, e, hnext, ht, hdesc, hresult, hother, hself, hpresent, hkind, howner⟩ :=
        exec_streamOpen_opened hs hd hst hres hop hstop hreg hsub hx hfree hquota hroom hobj
      refine ⟨t, e, hnext, ht, hdesc, hresult, hother, ?_⟩
      rw [hself]
      exact ⟨rfl, rfl, rfl, rfl, rfl, rfl, rfl, rfl, hpresent, hkind, howner⟩
    · exact exec_streamOpen_refused hs hd hst hres hop hstop hreg hsub (streamOpenRun_of_taken htaken)
    · exact exec_streamOpen_refused hs hd hst hres hop hstop hreg hsub (streamOpenRun_of_over hfree hquota)
  · obtain ⟨rfl, hop, hlen⟩ | ⟨rfl, hop, hlen⟩ := hchunk
    · refine chunk_completes hs hd hst hres hstop hl (f := cellRun id) (by rw [hop]; rfl) fun u => ?_
      rw [cell_rngsOf hop s u]
      exact cellRun_runs hlen id u
    · refine chunk_completes hs hd hst hres hstop hl (f := scanRun id) (by rw [hop]; rfl) fun u => ?_
      rw [scan_rngsOf hop s u]
      exact scanRun_runs hlen id u

end Sys2Proof
end

section
/-! Lengths of what the solver engines compute (R171–R177): whatever the values, the flags and the order of the reductions, a record
fits the space that the check of its descriptor takes for it. -/

namespace Sys2Proof.Machine

/-! ### Computations that number their choices of order (R44) -/

/-- Whatever choices of order and flags come before, the value of the computation meets `P`. -/
def SlvYields {α : Type} (x : Slv α) (P : α → Prop) : Prop := ∀ o, Yields (x.run o) (fun p => P p.1)

section
variable {α β : Type} {P : α → Prop} {Q : β → Prop}

theorem SlvYields.pure {a : α} (h : P a) : SlvYields (pure a) P := fun _ => Yields.pure h

theorem SlvYields.bind {x : Slv α} {f : α → Slv β} (hx : SlvYields x P) (hf : ∀ a, P a → SlvYields (f a) Q) : SlvYields (x >>= f) Q :=
  fun o => (hx o).bind fun p hp => hf p.1 hp p.2

theorem SlvYields.pure_bind {a : α} {f : α → Slv β} (h : SlvYields (f a) Q) : SlvYields (Pure.pure a >>= f) Q := h

/-- What is computed before does not matter where the rest meets `Q` from every value. -/
theorem SlvYields.after {x : Slv α} {f : α → Slv β} (hf : ∀ a, SlvYields (f a) Q) : SlvYields (x >>= f) Q :=
  SlvYields.bind (P := fun _ => True) (fun _ _ => True.intro) fun a _ => hf a

theorem SlvYields.imp {P' : α → Prop} {x : Slv α} (hx : SlvYields x P) (h : ∀ a, P a → P' a) : SlvYields x P' :=
  fun o g => h _ (hx o g)

theorem SlvYields.ite {c : Prop} [Decidable c] {x y : Slv α} (hx : c → SlvYields x P) (hy : ¬ c → SlvYields y P) :
    SlvYields (if c then x else y) P := by
  split
  · exact hx ‹c›
  · exact hy ‹¬ c›

/-- A computation that makes no choice of order. -/
theorem SlvYields.lift {x : Flg α} (hx : Yields x P) : SlvYields (liftM x) P :=
  fun _ => hx.bind fun _ ha => Yields.pure ha

theorem SlvYields.mapM {l : List α} {f : α → Slv β} (h : ∀ a, SlvYields (f a) Q) :
    SlvYields (l.mapM f) (fun r => r.length = l.length ∧ ∀ b, b ∈ r → Q b) := by
  induction l with
  | nil => exact .pure ⟨rfl, fun b hb => absurd hb List.not_mem_nil⟩
  | cons a l ih =>
    rw [List.mapM_cons]
    refine (h a).bind fun b hb => ih.bind fun r hr => .pure ?_
    obtain ⟨hlen, hall⟩ := hr
    exact ⟨congrArg Nat.succ hlen, List.forall_mem_cons.mpr ⟨hb, hall⟩⟩

theorem SlvYields.mapM_length (l : List α) (f : α → Slv β) : SlvYields (l.mapM f) (fun r => r.length = l.length) :=
  (SlvYields.mapM (Q := fun _ => True) fun _ _ _ => True.intro).imp fun _ h => h.1

/-- What each step of a pass carries on, told by the number of steps made. -/
theorem SlvYields.foldlM {S : Nat → α → Prop} {f : α → β → Slv α} {l : List β}
    (hf : ∀ n a b, b ∈ l → S n a → SlvYields (f a b) (S (n + 1))) {n : Nat} {a : α} (ha : S n a) :
    SlvYields (l.foldlM f a) (S (n + l.length)) := by
  induction l generalizing n a with
  | nil => exact .pure ha
  | cons b l ih =>
    rw [List.foldlM_cons]
    refine (hf n a b List.mem_cons_self ha).bind fun c hc => ?_
    rw [List.length_cons, Nat.add_comm l.length, ← Nat.add_assoc]
    exact ih (fun n a b hb => hf n a b (List.mem_cons_of_mem _ hb)) hc

theorem SlvYields.runFlg {x : Slv α} (hx : SlvYields x P) (o : Nat × Nat) : P (runFlg (x.run o)).1.1 := (hx o).runFlg

end

/-! ### Factors (R171) -/

theorem slvLoad_length (s : State) (f a n : Nat) : (slvLoad s f a n).length = n :=
  (Yields.mapM_length _ _).runFlg.trans List.length_range

theorem triN_succ (n : Nat) : triN (n + 1) = triN n + (n + 1) := by
  have h : (n + 1) * (n + 1 + 1) = n * (n + 1) + (n + 1) * 2 := by ring
  rw [triN, triN, h, Nat.add_mul_div_right _ _ (by decide)]

theorem packed_length (x : Fact) (kind n : Nat) : (x.packed kind n).length = triN n := by
  unfold Fact.packed
  induction n with
  | zero => rfl
  | succ n ih =>
    rw [List.range_succ, List.map_append, List.flatten_append, List.length_append, ih, triN_succ]
    simp

theorem rowsOfCols_length (c : List (List Val)) (m : Nat) : (rowsOfCols c m).length = m * c.length := by
  rw [rowsOfCols, length_flatten_map fun _ => List.length_map _, List.length_range]

/-- A column more, and all the columns as before (R171). -/
theorem yields_qrColumn_fits (p : Pivots) {n k : Nat} {x : QrF} {j : Nat} (hj : j < n) (hx : x.cols.length = n ∧ x.taus.length ≤ k) :
    SlvYields (qrColumn p x j) (fun y => y.cols.length = n ∧ y.taus.length ≤ k + 1) := by
  obtain ⟨hcols, htaus⟩ := hx
  unfold qrColumn
  refine .ite (fun _ => .pure ⟨hcols, Nat.le_succ_of_le htaus⟩) fun _ => ?_
  dsimp only
  refine .after fun t2 => .after fun n2 => .after fun nrm => .after fun sign => .after fun v0 => .after fun vs => .after fun tau => ?_
  refine .ite (fun _ => .pure ⟨hcols, Nat.le_succ_of_le htaus⟩) fun _ => (SlvYields.mapM_length _ _).bind fun rest hrest => .pure ?_
  simp only [List.length_append, List.length_take, List.length_singleton, hrest, List.length_drop]
  omega

theorem yields_factQr_fits (p : Pivots) (cols : List (List Val)) :
    SlvYields (factQr p cols) (fun x => x.cols.length = cols.length ∧ x.taus.length ≤ cols.length) := by
  refine (SlvYields.foldlM (S := fun k x => x.cols.length = cols.length ∧ x.taus.length ≤ k) (n := 0)
    (fun k x j hj => yields_qrColumn_fits p (List.mem_range.mp hj)) ⟨rfl, le_rfl⟩).imp fun x hx => ?_
  rwa [List.length_range, Nat.zero_add] at hx

/-- A pass that adds one value for each index. -/
theorem yields_grown_length (n : Nat) {f : List Val → Nat → Slv (List Val)}
    (hf : ∀ t r, SlvYields (f t r) (fun u => u.length = t.length + 1)) :
    SlvYields ((List.range n).foldlM f []) (fun t => t.length = n) := by
  refine (SlvYields.foldlM (S := fun k (t : List Val) => t.length = k) (n := 0)
    (fun k t r _ ht => (hf t r).imp fun u hu => hu.trans (congrArg Nat.succ ht)) rfl).imp fun t ht => ?_
  rwa [List.length_range, Nat.zero_add] at ht

theorem yields_solveQr_length (f n : Nat) (x : QrF) (b : List Val) : SlvYields (solveQr f n x b) (fun t => t.length = n) :=
  .after fun _ => yields_grown_length n fun _ _ => .after fun _ => .after fun _ => .pure List.length_cons

theorem yields_solveSym_length (f kind n : Nat) (x : Fact) (b : List Val) :
    SlvYields (solveSym f kind n x b) (fun t => t.length = n) :=
  .after fun _ => .after fun _ => yields_grown_length n fun _ _ => .after fun _ => .after fun _ => .pure List.length_cons

/-! ### One factor-and-solve problem (R171) -/

/-- Solutions, where the operation solves: as many values as unknowns for each of its right-hand sides at most. -/
structure FacSolved (d : Desc) (xs : List (List Val)) : Prop where
  solves : xs ≠ [] → d.f 79 1 ≠ 0
  count : xs.length ≤ d.f 82 1
  length : ∀ x, x ∈ xs → x.length = d.f 74 2

/-- What a problem leaves to be written fits its records; a stored factor is left alone. -/
structure FacFits (d : Desc) (o : FacOut) : Prop where
  factor : ∀ l, o.factor = some l → d.f 79 1 ≠ 2 ∧ l.length = if d.f 78 1 = 3 then d.f 76 2 * d.f 74 2 else triN (d.f 74 2)
  taus : o.taus.length ≤ d.f 74 2
  failed : o.outcome = 2 → d.f 79 1 ≠ 2
  solved : FacSolved d o.xs

theorem FacSolved.nil (d : Desc) : FacSolved d [] := ⟨fun h => absurd rfl h, Nat.zero_le _, fun _ h => absurd h List.not_mem_nil⟩

/-- A problem that ends without a factor and a solution. -/
theorem FacFits.of_failed {d : Desc} {o : FacOut} (hf : o.factor = none) (ht : o.taus = []) (hx : o.xs = [])
    (ho : o.outcome = 2 → d.f 79 1 ≠ 2) : FacFits d o :=
  ⟨fun l h => absurd (hf.symm.trans h) (Option.some_ne_none l).symm, by simp [ht], ho, by rw [hx]; exact FacSolved.nil d⟩

/-- One with outcome 0 or 1, whose factor is stored unless it was read. -/
theorem FacFits.of_solved {d : Desc} {o : FacOut} {l : List Val} {n : Nat} (hf : o.factor = if d.f 79 1 = 2 then none else some l)
    (hl : l.length = if d.f 78 1 = 3 then d.f 76 2 * d.f 74 2 else triN (d.f 74 2)) (ht : o.taus.length ≤ d.f 74 2)
    (ho : o.outcome = if n = 0 then 0 else 1) (hx : FacSolved d o.xs) : FacFits d o := by
  refine ⟨fun l' h => ?_, ht, fun h => ?_, hx⟩
  · rw [hf] at h
    split at h
    · cases h
    · cases h
      exact ⟨‹_›, hl⟩
  · rw [ho] at h
    split at h <;> cases h

/-- The rest of a problem sees solutions of all its right-hand sides, or none. -/
theorem yields_of_solved {d : Desc} {bs : List (List Val)} (hbs : bs.length = d.f 82 1) {solve : List Val → Slv (List Val)}
    (hsolve : ∀ b, SlvYields (solve b) (fun t => t.length = d.f 74 2)) {α : Type} {P : α → Prop} {rest : List (List Val) → Slv α}
    (hrest : ∀ xs, FacSolved d xs → SlvYields (rest xs) P) :
    SlvYields (if d.f 79 1 = 0 then pure [] >>= rest else bs.mapM solve >>= rest) P :=
  .ite (fun _ => (SlvYields.pure (FacSolved.nil d)).bind hrest) fun hop =>
    (SlvYields.mapM hsolve).bind fun xs hxs => hrest xs ⟨fun _ => hop, by rw [hxs.1, hbs], hxs.2⟩

theorem facProblem_fits (s : State) (d : Desc) (i : Nat) : SlvYields (facProblem s d i) (FacFits d) := by
  unfold facProblem
  extract_lets f e n m kind op rhs len bs a sf st diagA dmax amax _ _ afterQr _ afterSym afterScale
  have hbs : bs.length = d.f 82 1 := (List.length_map _).trans List.length_range
  have hqr (hkind : kind = 3) (x : QrF) (hcols : x.cols.length = n) (htaus : x.taus.length ≤ n) (hend : op = 2 → x.ended = 0) :
      SlvYields (afterQr x) (FacFits d) := by
    refine .ite (fun h => .pure (.of_failed rfl rfl rfl fun _ hop => h (hend hop))) fun _ => ?_
    refine yields_of_solved hbs (fun b => yields_solveQr_length f n x b) fun xs hxs => .after fun ratio => ?_
    refine .ite (fun _ => .after fun _ => .after fun res => ?_) fun _ => .after fun res => ?_
    all_goals exact .pure (.of_solved rfl (by rw [rowsOfCols_length, hcols, if_pos hkind]) htaus rfl hxs)
  have hsym (hkind : ¬ kind = 3) (x : Fact) (hend : op = 2 → x.ended = 0) : SlvYields (afterSym x) (FacFits d) := by
    refine .ite (fun h => .pure (.of_failed rfl rfl rfl fun _ hop => h (hend hop))) fun _ => ?_
    refine yields_of_solved hbs (fun b => yields_solveSym_length f kind n x b) fun xs hxs => .after fun pivots => .after fun ratio => ?_
    refine .ite (fun _ => .after fun _ => .after fun res => ?_) fun _ => .after fun res => ?_
    all_goals exact .pure (.of_solved rfl (by rw [packed_length, if_neg hkind]) (Nat.zero_le _) rfl hxs)
  have hscaled (sc : Val) : SlvYields (afterScale sc) (FacFits d) := by
    have hcols (l : List Val) : (colsOf l m n).length = n := (List.length_map _).trans List.length_range
    refine .after fun tauS => .after fun deltaS => .ite (fun hkind => ?_) fun hkind => ?_
    · refine .ite (fun hop => ?_) fun hop => ?_
      · have hst : st = slvLoad s f (d.f 30 6 + i * d.f 58 4 + align64 (e * m * n)) n := if_pos ⟨hop, hkind⟩
        exact .pure_bind (hqr hkind _ (hcols sf) (by rw [hst, slvLoad_length]) fun _ => rfl)
      · refine (yields_factQr_fits _ _).bind fun x hx => ?_
        rw [hcols] at hx
        exact hqr hkind x hx.1 hx.2 fun h => absurd h hop
    · refine .ite (fun hop => .pure_bind (hsym hkind _ fun _ => rfl)) fun hop => .after fun x => hsym hkind x fun h => absurd h hop
  refine .ite (fun _ => .after fun _ => .pure (.of_failed rfl rfl rfl fun h => by cases h)) fun _ => ?_
  exact .ite (fun _ => .after fun ns => .after hscaled) fun _ => .after hscaled

/-! ### One quadratic program (R173–R177) -/

/-- An iterate fits its result record. -/
structure Iter.Fits (c : QpSet) (it : Iter) : Prop where
  x : it.x.length ≤ c.n
  z : it.z.length ≤ c.m
  y : it.y.length ≤ c.m

/-- Measuring an iterate leaves it as it is (R174). -/
theorem yields_qpMeasure_fits {c : QpSet} {q : QpIn} {rho : Val} {k : Nat} {x z y : List Val} (hx : x.length ≤ c.n)
    (hz : z.length ≤ c.m) (hy : y.length ≤ c.m) : SlvYields (qpMeasure c q rho k x z y) (Iter.Fits c) := by
  unfold qpMeasure
  refine .after fun ax => .after fun px => .after fun aty => .after fun dp => .after fun dd => ?_
  exact .after fun ep => .after fun ed => .after fun merit => .after fun sug => .pure ⟨hx, hz, hy⟩

theorem yields_qpStep_fits {c : QpSet} {q : QpIn} {ws : List Val} {fac : Fact} {it : Iter} (hit : it.Fits c) :
    SlvYields (qpStep c q ws fac it) (fun p => p.1.length ≤ c.n ∧ p.2.1.length ≤ c.m ∧ p.2.2.length ≤ c.m) := by
  unfold qpStep
  refine .after fun wz => .after fun aty => .after fun rhs => .after fun xt => .after fun zt => .after fun oma => ?_
  refine (SlvYields.mapM_length _ _).bind fun x1 hx1 => .after fun v => (SlvYields.lift (Yields.mapM_length _ _)).bind fun zy hzy => ?_
  rw [List.length_range] at hzy
  refine .pure ⟨?_, ?_, ?_⟩
  · rw [hx1, List.length_zip]
    exact (Nat.min_le_right _ _).trans hit.x
  · rw [List.length_map, hzy]
  · rw [List.length_map, hzy]

theorem yields_subAll_length (f : Nat) (a b : List Val) : Yields (subAll f a b) (fun l => l.length ≤ a.length) :=
  fun g => ((Yields.mapM_length _ _) g).trans_le (List.length_zip ▸ Nat.min_le_left _ _)

theorem qpLoop_fits {c : QpSet} {q : QpIn} {stop : Option StopAt} {fuel : Nat} {rho : Val} {ws : List Val} {fac : Fact} {nf nr : Nat}
    {it best : Iter} (hit : it.Fits c) (hbest : best.Fits c) :
    SlvYields (qpLoop c q stop fuel rho ws fac nf nr it best) (fun o => o.it.Fits c) := by
  induction fuel generalizing rho ws fac nf nr it best with
  | zero => exact .pure hbest
  | succ fuel ih =>
    unfold qpLoop
    refine .ite (fun _ => .pure hbest) fun _ => (yields_qpStep_fits hit).bind fun p hp => ?_
    obtain ⟨hx, hz, hy⟩ := hp
    refine (yields_qpMeasure_fits hx hz hy).bind fun it' hit' => ?_
    extract_lets best' fin
    have hbest' : best'.Fits c := by
      unfold best'
      split
      · exact hit'
      · exact hbest
    refine .ite (fun _ => .pure hit') fun _ => (SlvYields.lift (yields_subAll_length _ _ _)).bind fun dy hdy =>
      (SlvYields.lift (yields_subAll_length _ _ _)).bind fun dx hdx => .after fun primal => ?_
    refine .ite (fun _ => (SlvYields.lift (Yields.mapM_length _ _)).bind fun yc hyc => .pure ⟨hit'.x, hit'.z, ?_⟩) fun _ => ?_
    · exact hyc.trans_le (hdy.trans hit'.y)
    refine .after fun dual => ?_
    refine .ite (fun _ => (SlvYields.lift (Yields.mapM_length _ _)).bind fun xc hxc => .pure ⟨?_, hit'.z, hit'.y⟩) fun _ => ?_
    · exact hxc.trans_le (hdx.trans hit'.x)
    refine .ite (fun _ => .pure hbest') fun _ => .after fun ratio => .ite (fun _ => ih hit' hbest') fun _ => ?_
    refine .ite (fun _ => .pure hit') fun _ => .after fun ws' => .after fun fac' => ?_
    exact .ite (fun _ => .pure hbest') fun _ => ih hit' hbest'

theorem qpSolve_fits {c : QpSet} {q : QpIn} {stop : Option StopAt} {rho : Val} {x z y : List Val} (hx : x.length ≤ c.n)
    (hz : z.length ≤ c.m) (hy : y.length ≤ c.m) : SlvYields (qpSolve c q stop rho x z y) (fun o => o.it.Fits c) := by
  unfold qpSolve
  refine (yields_qpMeasure_fits hx hz hy).bind fun it hit => ?_
  refine .ite (fun _ => .pure hit) fun _ => .ite (fun _ => .pure hit) fun _ => .after fun ws => .after fun fac => ?_
  exact .ite (fun _ => .pure hit) fun _ => qpLoop_fits hit hit

/-- A start point fits, the warm one and the cold one (R177). -/
theorem qpStart_fits (s : State) (d : Desc) (i : Nat) : (qpStart s d i (qpSet d) (qpRead s d i)).1.length ≤ (qpSet d).n ∧
    (qpStart s d i (qpSet d) (qpRead s d i)).2.1.length ≤ (qpSet d).m ∧
    (qpStart s d i (qpSet d) (qpRead s d i)).2.2.1.length ≤ (qpSet d).m := by
  unfold qpStart
  dsimp only
  split
  · simp [slvLoad_length]
  · simp [zerosV]

end Sys2Proof.Machine
end

section
/-! Problems of the solver engines (R164, R171–R180): what one problem writes and counts, what a pass over the problems of an engine
leaves, and what the engines of a gang leave. -/

namespace Sys2Proof.Machine

/-! ### What the engines may change -/

/-- The entries that count what solver problems come to (Table 07-16). -/
def solverKeys : List Nat := [odKey 0x2900 0x10 0, odKey 0x2900 0x11 0, odKey 0x2900 0x12 0, odKey 0x2900 0x13 0]

/-- The counting registers of the engine of cluster `g` (Table 07-15). -/
def engineRegs (g : Nat) : List Nat := [baseSLV g + 8, baseSLV g + 0x10, baseSLV g + 0x18, baseSLV g + 0x20]

/-- From `s` to `t` solver engines have changed free values, memory, dictionary and registers alone: no entry but their counters, no
register outside `R`, no byte outside the locations of `W`. -/
structure SolverEffect (W R : Set Nat) (s t : State) : Prop where
  frame : ∃ k m q r, t = { s with free := k, mem := m, dict := q, regs := r }
  od : SameOd solverKeys s t
  regs : ∀ a, a ∉ R → t.reg a = s.reg a
  bytes : ∀ b, isRegSpace b = false → (∀ a, a ∈ W → s.loc a ≠ s.loc b) → t.byteAt b = s.byteAt b

namespace SolverEffect

variable {W W' R R' : Set Nat} {s t u : State}

theorem interleaved (h : SolverEffect W R s t) : t.interleaved = s.interleaved := h.od.interleaved (by decide)

theorem mono (h : SolverEffect W R s t) (hW : W ⊆ W') (hR : R ⊆ R') : SolverEffect W' R' s t :=
  ⟨h.frame, h.od, fun a ha => h.regs a fun hr => ha (hR hr), fun b hb hout => h.bytes b hb fun a ha => hout a (hW ha)⟩

theorem of_op (h : OpEffect solverKeys W s t) : SolverEffect W R s t := by
  obtain ⟨⟨k, m, q, rfl⟩, hod, _, hbytes⟩ := h
  exact ⟨⟨k, m, q, _, rfl⟩, hod, fun _ _ => rfl, hbytes⟩

theorem of_regs (h : ∃ r, t = { s with regs := r }) : SolverEffect W Set.univ s t := by
  obtain ⟨hod, hbytes, _⟩ := regs_frame_same h
  obtain ⟨r, rfl⟩ := h
  exact ⟨⟨_, _, _, r, rfl⟩, hod _, fun a ha => absurd (Set.mem_univ a) ha, fun b hb _ => hbytes.1 b hb⟩

theorem refl (s : State) : SolverEffect W R s s := of_op (OpEffect.refl s)

theorem trans (h : SolverEffect W R s t) (k : SolverEffect W R t u) : SolverEffect W R s u := by
  have hbytes (b : Nat) (hb : isRegSpace b = false) (hout : ∀ a, a ∈ W → s.loc a ≠ s.loc b) : u.byteAt b = s.byteAt b := by
    refine (k.bytes b hb fun a ha => ?_).trans (h.bytes b hb hout)
    rw [loc_congr h.interleaved, loc_congr h.interleaved]
    exact hout a ha
  refine ⟨?_, h.od.trans k.od, fun a ha => (k.regs a ha).trans (h.regs a ha), hbytes⟩
  obtain ⟨_, _, _, _, rfl⟩ := h.frame
  exact k.frame

theorem foldl {α : Type} {f : State → α → State} {l : List α} (hf : ∀ x, x ∈ l → ∀ u, SolverEffect W R u (f u x)) (s : State) :
    SolverEffect W R s (l.foldl f s) :=
  List.foldlRecOn l f (refl s) fun u hu x hx => hu.trans (hf x hx u)

theorem bumpReg {a : Nat} (ha : a ∈ R) (n : Nat) : SolverEffect W R s (s.bumpReg a n) := by
  have hregs (b : Nat) (hb : b ∉ R) : (s.bumpReg a n).reg b = s.reg b := by
    rw [State.bumpReg_reg, if_neg (ne_of_mem_of_not_mem ha hb)]
  have hbytes : SameBytes s (s.bumpReg a n) := SameBytes.of_dict rfl rfl rfl
  exact ⟨⟨_, _, _, _, rfl⟩, SameOd.of_dict _ rfl, hregs, fun b hb _ => hbytes.1 b hb⟩

theorem bumpOd {i : Nat} (hi : odKey 0x2900 i 0 ∈ solverKeys) (n : Nat) : SolverEffect W R s (s.bumpOd 0x2900 i n) :=
  of_op ((OpEffect.refl s).bumpOd n hi (by unfold odKey; omega))

end SolverEffect

/-! ### The end of one problem (Tables 07-15, 07-16) -/

/-- The notices that solver problems leave; 0 stands for none (R180). -/
def solverNotices : List Nat := [0, 0x0150, 0x0151, 0x0152, 0x0153]

theorem minNotice_mem {a b : Nat} (ha : a ∈ solverNotices) (hb : b ∈ solverNotices) : minNotice a b ∈ solverNotices := by
  unfold minNotice
  split
  · exact hb
  split
  · exact ha
  · obtain h | h := min_choice a b
    · rwa [h]
    · rwa [h]

theorem ite_mem_solverNotices {c : Prop} [Decidable c] {n : Nat} (h : n ∈ solverNotices) : (if c then n else 0) ∈ solverNotices := by
  split
  · exact h
  · decide

theorem problemNotice_mem (outcome regs : Nat) (discarded : Bool) : problemNotice outcome regs discarded ∈ solverNotices := by
  have hregs : (if regs = 0 then 0 else 0x0152) ∈ solverNotices := by split <;> decide
  exact minNotice_mem (ite_mem_solverNotices (by decide)) (minNotice_mem (ite_mem_solverNotices (by decide))
    (minNotice_mem hregs (ite_mem_solverNotices (by decide))))

section
variable {W : Set Nat} (s : State) (g outcome regs : Nat) (discarded : Bool)

theorem countProblem_effect : SolverEffect W {a | a ∈ engineRegs g} s (countProblem s g outcome regs discarded) := by
  have hreg {u : State} {a : Nat} (n : Nat) (ha : a ∈ engineRegs g) :
      SolverEffect W {a | a ∈ engineRegs g} u (u.bumpReg a n) := .bumpReg ha n
  have hod {u : State} {i : Nat} (n : Nat) (hi : odKey 0x2900 i 0 ∈ solverKeys) :
      SolverEffect W {a | a ∈ engineRegs g} u (u.bumpOd 0x2900 i n) := .bumpOd hi n
  unfold countProblem
  extract_lets s1 s2 s3 s4
  have h1 : SolverEffect W {a | a ∈ engineRegs g} s s1 := hreg 1 (by simp [engineRegs])
  have h2 : SolverEffect W {a | a ∈ engineRegs g} s s2 := by
    unfold s2
    split
    · exact h1
    · exact (h1.trans (hreg regs (by simp [engineRegs]))).trans (hod regs (by decide))
  have h3 : SolverEffect W {a | a ∈ engineRegs g} s s3 := by
    unfold s3
    split
    · exact (h2.trans (hreg 1 (by simp [engineRegs]))).trans (hod 1 (by decide))
    · exact h2
  have h4 : SolverEffect W {a | a ∈ engineRegs g} s s4 := by
    unfold s4
    split
    · exact h3.trans (hod 1 (by decide))
    · exact h3
  split
  · exact h4.trans (hod 1 (by decide))
  · exact h4

/-- A problem counts once on its engine. -/
theorem countProblem_reg : (countProblem s g outcome regs discarded).reg (baseSLV g + 0x10) = (s.reg (baseSLV g + 0x10) + 1) % 2 ^ 64 := by
  have hod (u : State) (i n a : Nat) : (u.bumpOd 0x2900 i n).reg a = u.reg a := rfl
  unfold countProblem
  dsimp only
  repeat' split
  all_goals simp [hod]

end

/-- From `r` to `r'` the engine of cluster `g` has ended `n` problems, and has written within `W`. -/
structure EndsProblems (W : Set Nat) (g n : Nat) (r r' : State × Nat × Nat) : Prop where
  effect : SolverEffect W {a | a ∈ engineRegs g} r.1 r'.1
  count : r'.1.reg (baseSLV g + 0x10) % 2 ^ 64 = (r.1.reg (baseSLV g + 0x10) + n) % 2 ^ 64
  notice : r.2.1 ∈ solverNotices → r'.2.1 ∈ solverNotices

section
variable {W : Set Nat} {g : Nat}

theorem EndsProblems.refl (r : State × Nat × Nat) : EndsProblems W g 0 r r := ⟨.refl _, rfl, id⟩

theorem EndsProblems.trans {n m : Nat} {r r' r'' : State × Nat × Nat} (h : EndsProblems W g n r r') (k : EndsProblems W g m r' r'') :
    EndsProblems W g (n + m) r r'' :=
  ⟨h.effect.trans k.effect, by rw [k.count, Nat.add_mod, h.count, ← Nat.add_mod, Nat.add_assoc], fun hr => k.notice (h.notice hr)⟩

theorem EndsProblems.foldl {α : Type} {f : State × Nat × Nat → α → State × Nat × Nat} {l : List α}
    (hf : ∀ x, x ∈ l → ∀ r, EndsProblems W g 1 r (f r x)) (r : State × Nat × Nat) : EndsProblems W g l.length r (l.foldl f r) := by
  induction l generalizing r with
  | nil => exact .refl r
  | cons x l ih =>
    rw [List.length_cons, Nat.add_comm]
    exact (hf x List.mem_cons_self r).trans (ih (fun y hy => hf y (List.mem_cons_of_mem x hy)) _)

/-- A problem whose records are written and which is counted has ended. -/
theorem EndsProblems.of_counted {s u : State} {st fl fl' outcome regs n : Nat} {discarded : Bool} (hu : OpEffect solverKeys W s u)
    (hn : n ∈ solverNotices) : EndsProblems W g 1 (s, st, fl) (countProblem u g outcome regs discarded, minNotice st n, fl') := by
  have hreg : u.reg (baseSLV g + 0x10) = s.reg (baseSLV g + 0x10) := by
    obtain ⟨k, m, q, rfl⟩ := hu.frame
    rfl
  refine ⟨(SolverEffect.of_op hu).trans (countProblem_effect u g outcome regs discarded), ?_, fun hst => minNotice_mem hst hn⟩
  exact (congrArg (· % 2 ^ 64) (countProblem_reg u g outcome regs discarded)).trans ((Nat.mod_mod _ _).trans (by rw [hreg]))

end

/-! ### Records of factor-and-solve problems (R169; Tables 07-4, 07-6) -/

theorem le_align64 (n : Nat) : n ≤ align64 n := by
  unfold align64 roundUp
  omega

theorem OpEffect.slvStore {ks : List Nat} {W : Set Nat} {s t : State} (h : OpEffect ks W s t) {f a : Nat} {l : List Val}
    (hl : ∀ k, k < esize f * l.length → a + k ∈ W) : OpEffect ks W s (slvStore t f a l) :=
  h.wr fun k hk => hl k (by rwa [length_flatten_map fun _ => toBytes_length _ _, Nat.mul_comm] at hk)

/-- The records of factor-and-solve problem `i` lie within `W`: its report, the factor where one is stored, the solutions where the
operation solves. -/
structure FacGrants (d : Desc) (i : Nat) (W : Set Nat) : Prop where
  report : ∀ k, k < 32 → d.f 48 6 + 32 * i + k ∈ W
  factor : d.f 79 1 ≠ 2 → ∀ k, k < facRec d → d.f 30 6 + i * d.f 58 4 + k ∈ W
  solution : d.f 79 1 ≠ 0 → ∀ k, k < d.f 82 1 * align64 (esize d.inF * d.f 74 2) → d.f 42 6 + i * d.f 66 4 + k ∈ W

section
variable {d : Desc} {i : Nat} {W : Set Nat} (hW : FacGrants d i W)
include hW

theorem facWrite_effect {o : FacOut} (ho : FacFits d o) (s : State) : OpEffect solverKeys W s (facWrite s d i o) := by
  unfold facWrite
  extract_lets f e n m fa s1 s2
  have hfac : OpEffect solverKeys W s s1 := by
    unfold s1
    split
    · rename_i l hl
      obtain ⟨hop, hlen⟩ := ho.factor l hl
      have hin := hW.factor hop
      unfold facRec at hin
      dsimp only at hin
      split
      · rename_i hkind
        rw [if_pos hkind] at hlen hin
        have hbody := le_align64 (esize d.inF * d.f 76 2 * d.f 74 2)
        have htaus := (Nat.mul_le_mul_left (esize d.inF) ho.taus).trans (le_align64 (esize d.inF * d.f 74 2))
        refine ((OpEffect.refl s).slvStore fun k hk => hin k ?_).slvStore fun k hk => ?_
        · rw [hlen, ← Nat.mul_assoc] at hk
          exact hk.trans_le (hbody.trans (Nat.le_add_right _ _))
        · rw [Nat.add_assoc]
          exact hin _ (Nat.add_lt_add_left (hk.trans_le htaus) _)
      · rename_i hkind
        rw [if_neg hkind] at hlen hin
        exact (OpEffect.refl s).slvStore fun k hk => hin k ((hlen ▸ hk).trans_le (le_align64 _))
    · split
      · exact (OpEffect.refl s).scribble (hW.factor (ho.failed ‹_›))
      · exact OpEffect.refl s
  have hxs : OpEffect solverKeys W s s2 := by
    refine List.foldlRecOn (motive := OpEffect solverKeys W s) _ _ hfac fun u hu p hp => hu.slvStore fun k hk => ?_
    obtain ⟨hrow, hx⟩ := List.of_mem_zip hp
    rw [ho.solved.length _ hx] at hk
    have hlast : (p.1 + 1) * align64 (e * n) ≤ d.f 82 1 * align64 (e * n) :=
      Nat.mul_le_mul_right _ ((List.mem_range.mp hrow).trans_le ho.solved.count)
    rw [Nat.add_assoc]
    refine hW.solution (ho.solved.solves (List.ne_nil_of_mem hx)) _ ?_
    calc p.1 * align64 (e * n) + k < p.1 * align64 (e * n) + align64 (e * n) := Nat.add_lt_add_left (hk.trans_le (le_align64 _)) _
      _ = (p.1 + 1) * align64 (e * n) := (Nat.succ_mul _ _).symm
      _ ≤ _ := hlast
  exact hxs.wr fun k hk => hW.report k (by simpa using hk)

theorem facOne_ends (g k : Nat) (r : State × Nat × Nat) : EndsProblems W g 1 r (facOne d g k r i) :=
  .of_counted (facWrite_effect hW ((facProblem_fits r.1 d i).runFlg (ordFrom d k i)) r.1) (problemNotice_mem _ _ _)

theorem facStopped_ends (g : Nat) (r : State × Nat × Nat) : EndsProblems W g 1 r (facStopped d g r i) := by
  unfold facStopped
  extract_lets s1 s2 s3
  have hfac : OpEffect solverKeys W r.1 s1 := by
    unfold s1
    split
    · exact (OpEffect.refl r.1).scribble (hW.factor (by omega))
    · exact OpEffect.refl r.1
  have hxs : OpEffect solverKeys W r.1 s2 := by
    unfold s2
    split
    · exact hfac
    · exact hfac.scribble (hW.solution ‹_›)
  have hreport : OpEffect solverKeys W r.1 s3 :=
    (hxs.scribble hW.report).wr fun k hk => hW.report k (hk.trans (by decide))
  exact .of_counted hreport (by decide)

end

/-! ### Result records of quadratic programs (Table 07-10) -/

/-- The result record of quadratic program `i` lies within `W`. -/
def QpGrants (d : Desc) (i : Nat) (W : Set Nat) : Prop :=
  ∀ k, k < qpRes (esize d.inF) (d.f 52 2) (d.f 54 2) → d.f 36 6 + i * d.f 46 4 + k ∈ W

theorem yields_qpRun_fits {c : QpSet} {q : QpIn} {stop : Option StopAt} {rho : Val} {x z y : List Val} (hx : x.length ≤ c.n)
    (hz : z.length ≤ c.m) (hy : y.length ≤ c.m) :
    SlvYields (do
      let o ← qpSolve c q stop rho x z y
      let obj ← objective c q o.it.x
      pure (o, obj)) (fun p => p.1.it.Fits c) :=
  (qpSolve_fits hx hz hy).bind fun _ ho => .after fun _ => .pure ho

section
variable {d : Desc} {i : Nat} {W : Set Nat} (hW : QpGrants d i W)
include hW

theorem qpWrite_effect {o : QpOut} (ho : o.it.Fits (qpSet d)) (s : State) (sig fl : Nat) (obj : Val) (cycles : Nat) :
    OpEffect solverKeys W s (qpWrite s d i sig fl o obj cycles) := by
  obtain ⟨hx, hz, hy⟩ := ho
  have hx := (Nat.mul_le_mul_left (esize d.inF) hx).trans (le_align64 _)
  have hz := (Nat.mul_le_mul_left (esize d.inF) hz).trans (le_align64 _)
  have hy := (Nat.mul_le_mul_left (esize d.inF) hy).trans (le_align64 _)
  simp only [qpSet] at hx hz hy
  have hin (a k : Nat) (h : a + k < qpRes (esize d.inF) (d.f 52 2) (d.f 54 2)) : d.f 36 6 + i * d.f 46 4 + a + k ∈ W := by
    rw [Nat.add_assoc]
    exact hW _ h
  simp only [qpRes, qpOffY, qpOffZ] at hin
  unfold qpWrite
  refine ((((OpEffect.refl s).wr fun k hk => hin 0 k ?_).slvStore fun k hk => hin _ k ?_).slvStore fun k hk => hin _ k ?_).slvStore
    fun k hk => hin _ k ?_
  all_goals simp only [List.length_append, toBytes_length, qpSet, qpOffY, qpOffZ] at hk ⊢
  all_goals omega

theorem qpOne_ends (g k : Nat) (stop : Option StopAt) (r : State × Nat × Nat) : EndsProblems W g 1 r (qpOne d g k stop r i) := by
  obtain ⟨hx, hz, hy⟩ := qpStart_fits r.1 d i
  unfold qpOne
  dsimp only
  generalize qpStart r.1 d i (qpSet d) (qpRead r.1 d i) = p at hx hz hy ⊢
  split
  · exact .of_counted (qpWrite_effect hW ⟨hx, hz, hy⟩ _ _ _ _ _) (problemNotice_mem _ _ _)
  split
  · have hzero (n : Nat) : (zerosV n).length ≤ n := List.length_replicate.le
    exact .of_counted (qpWrite_effect hW ⟨hzero _, hzero _, hzero _⟩ _ _ _ _ _) (by decide)
  · have hfits := (yields_qpRun_fits (q := qpRead r.1 d i) (stop := stop) (rho := p.2.2.2.1) hx hz hy).runFlg (ordFrom d k i)
    generalize runFlg _ = x at hfits ⊢
    exact .of_counted (qpWrite_effect hW hfits _ _ _ _ _) (problemNotice_mem _ _ _)

end

end Sys2Proof.Machine
end

section
/-! Gangs of solver engines (R164, R178–R180): what they leave when their problems end by themselves, and when a stop instant ends
those of one engine. -/

namespace Sys2Proof.Machine

/-- The records of problem `i` lie within `W`. -/
structure ProblemGrants (d : Desc) (i : Nat) (W : Set Nat) : Prop where
  fac : d.op = 0x0300 → FacGrants d i W
  qp : d.op ≠ 0x0300 → QpGrants d i W

theorem ProblemGrants.univ (d : Desc) (i : Nat) : ProblemGrants d i Set.univ :=
  ⟨fun _ => ⟨fun _ _ => trivial, fun _ _ _ => trivial, fun _ _ _ => trivial⟩, fun _ _ _ => trivial⟩

/-! ### The engines (R164) -/

theorem busy_ends {W : Set Nat} (k : Nat) (d : Desc) (ps : List Nat) (g : Nat) (r : State × Nat × Nat) :
    EndsProblems W g 0 r (busy k d ps r.1 g, r.2) := by
  have hne : baseSLV g + 8 ≠ baseSLV g + 0x10 := by omega
  refine ⟨.bumpReg (by simp [engineRegs]) _, ?_, id⟩
  exact congrArg (· % 2 ^ 64) ((State.bumpReg_reg _ _ _ _).trans (if_neg hne))

/-- Engine `e` runs what is left of its problems. -/
def engineRun (d : Desc) (k : Nat) (r : State × Nat × Nat) (e : Nat) : State × Nat × Nat :=
  let g := (engines d).getD e 0
  let r := (engineLeft d e).foldl (if d.op = 0x0300 then facOne d g k else qpOne d g k none) r
  (busy k d (engineLeft d e) r.1 g, r.2)

/-- What engines begin with: a draw of free values, the notice and the flags of the engines that have stopped. -/
def gangStart (s : State) (d : Desc) : State × Nat × Nat := (s.draw.2, d.aux.getD (slvGang d) 0, d.aux.getD (slvGang d + 1) 0)

theorem solverRun_eq (s : State) (d : Desc) : solverRun s d =
    (slvEnd ((List.range (slvGang d)).foldl (engineRun d s.free) (gangStart s d)).1 d,
      ((List.range (slvGang d)).foldl (engineRun d s.free) (gangStart s d)).2) := rfl

theorem gangStart_effect {W R : Set Nat} (s : State) (d : Desc) : SolverEffect W R s (gangStart s d).1 := .of_op (OpEffect.refl s).draw

theorem lt_batch_of_mem_problemsOf {d : Desc} {e i : Nat} (h : i ∈ problemsOf d e) : i < slvBatch d :=
  List.mem_range.mp (List.mem_filter.mp h).1

theorem lt_batch_of_mem_engineLeft {d : Desc} {e i : Nat} (h : i ∈ engineLeft d e) : i < slvBatch d := by
  unfold engineLeft at h
  split at h
  · exact absurd h List.not_mem_nil
  · exact lt_batch_of_mem_problemsOf h

/-- Work areas are written alone (R168). -/
theorem slvEnd_effect {W R : Set Nat} {d : Desc} (hwork : ∀ g, g ∈ engines d → ∀ k, k < workSize d → workBase d g + k ∈ W) (s : State) :
    SolverEffect W R s (slvEnd s d) :=
  .foldl (fun g hg u => .of_op ((OpEffect.refl u).scribble (hwork g hg))) s

/-- The registers of the engines of a gang. -/
def gangRegs (d : Desc) : List Nat := (engines d ++ [0]).flatMap engineRegs

theorem engineRegs_subset_gangRegs (d : Desc) (e : Nat) : {a | a ∈ engineRegs ((engines d).getD e 0)} ⊆ {a | a ∈ gangRegs d} := by
  intro a ha
  refine List.mem_flatMap.mpr ⟨_, ?_, ha⟩
  by_cases he : e < (engines d).length
  · rw [List.getD_eq_getElem _ _ he]
    exact List.mem_append_left _ (List.getElem_mem he)
  · rw [List.getD_eq_default _ _ (not_lt.mp he)]
    exact List.mem_append_right _ (List.mem_singleton_self 0)

section
variable {d : Desc} {W : Set Nat} (hW : ∀ i, i < slvBatch d → ProblemGrants d i W)
include hW

theorem engineRun_ends (k : Nat) (r : State × Nat × Nat) (e : Nat) :
    EndsProblems W ((engines d).getD e 0) (engineLeft d e).length r (engineRun d k r e) := by
  refine (EndsProblems.foldl (fun i hi r => ?_) r).trans (busy_ends k d _ _ _)
  have hgrants := hW i (lt_batch_of_mem_engineLeft hi)
  split
  · exact facOne_ends (hgrants.fac ‹_›) _ k r
  · exact qpOne_ends (hgrants.qp ‹_›) _ k none r

theorem gangRun_effect (k n : Nat) (r : State × Nat × Nat) :
    SolverEffect W {a | a ∈ gangRegs d} r.1 ((List.range n).foldl (engineRun d k) r).1 ∧
      (r.2.1 ∈ solverNotices → ((List.range n).foldl (engineRun d k) r).2.1 ∈ solverNotices) := by
  refine List.foldlRecOn (motive := fun r' : State × Nat × Nat => SolverEffect W {a | a ∈ gangRegs d} r.1 r'.1 ∧
    (r.2.1 ∈ solverNotices → r'.2.1 ∈ solverNotices)) _ _ ⟨.refl _, id⟩ fun r' hr' e _ => ?_
  obtain ⟨heffect, hnotice⟩ := hr'
  have hends := engineRun_ends hW k r' e
  exact ⟨heffect.trans (hends.effect.mono subset_rfl (engineRegs_subset_gangRegs d e)), fun h => hends.notice (hnotice h)⟩

variable (hwork : ∀ g, g ∈ engines d → ∀ k, k < workSize d → workBase d g + k ∈ W)
include hwork

theorem solverRun_effect (s : State) : SolverEffect W {a | a ∈ gangRegs d} s (solverRun s d).1 := by
  rw [solverRun_eq]
  exact ((gangStart_effect s d).trans (gangRun_effect hW _ _ _).1).trans (slvEnd_effect hwork _)

omit hwork in
theorem solverRun_notice (s : State) (h : d.aux.getD (slvGang d) 0 = 0) : (solverRun s d).2.1 ∈ solverNotices := by
  rw [solverRun_eq]
  refine (gangRun_effect hW _ _ _).2 ?_
  rw [gangStart, h]
  exact List.mem_cons_self

/-- An engine that is alone in its gang counts the problems it ran. -/
theorem solverRun_count (s : State) (h : slvGang d = 1) :
    (solverRun s d).1.reg (baseSLV ((engines d).getD 0 0) + 0x10) % 2 ^ 64 =
      (s.reg (baseSLV ((engines d).getD 0 0) + 0x10) + (engineLeft d 0).length) % 2 ^ 64 := by
  rw [solverRun_eq, h, (slvEnd_effect (R := ∅) hwork _).regs _ (Set.notMem_empty _)]
  exact (engineRun_ends hW _ _ 0).count

end

/-! ### What the check of a solver descriptor grants (R169) -/

/-- The areas of a descriptor's work in the clusters of its engines (R168). -/
def workAreas (d : Desc) : Set Nat := {a | ∃ g, g ∈ engines d ∧ ∃ k, k < workSize d ∧ a = workBase d g + k}

/-- Record `i` of a batch lies within the batch's range. -/
theorem record_lt_span {batch stride size i k : Nat} (hi : i < batch) (hk : k < size) : i * stride + k < span batch stride size := by
  have h : i * stride ≤ (batch - 1) * stride := Nat.mul_le_mul_right _ (by omega)
  unfold span
  omega

theorem facGrants_writable {d : Desc} {i : Nat} (hop : d.f 79 1 ≤ 2) (hi : i < d.f 70 4) (s : State) :
    FacGrants d i (writable (factorInfo s d).rngs) := by
  have hreport : wrLin (d.f 48 6) (32 * d.f 70 4) ∈ (factorInfo s d).rngs := by
    by_cases h : d.f 79 1 = 0 <;> simp [factorInfo, h]
  have hfactor : d.f 79 1 ≠ 2 → wrLin (d.f 30 6) (span (d.f 70 4) (d.f 58 4) (facRec d)) ∈ (factorInfo s d).rngs := by
    intro h
    have hstored : d.f 79 1 ≤ 1 := by omega
    by_cases h0 : d.f 79 1 = 0 <;> simp [factorInfo, wrLin, hstored, h0]
  have hsolution : d.f 79 1 ≠ 0 →
      wrLin (d.f 42 6) (span (d.f 70 4) (d.f 66 4) (d.f 82 1 * align64 (esize d.inF * d.f 74 2))) ∈ (factorInfo s d).rngs := by
    intro h
    simp [factorInfo, h]
  refine ⟨fun k hk => mem_writable hreport (by omega) (by omega), fun h k hk => mem_writable (hfactor h) (by omega) ?_,
    fun h k hk => mem_writable (hsolution h) (by omega) ?_⟩
  all_goals
    rw [Nat.add_assoc]
    exact Nat.add_lt_add_left (record_lt_span hi hk) _

theorem qpGrants_writable {d : Desc} {i : Nat} (hi : i < d.f 50 2) (s : State) : QpGrants d i (writable (qpInfo s d).rngs) := by
  have hout : wrLin (d.f 36 6) (span (d.f 50 2) (d.f 46 4) (qpRes (esize d.inF) (d.f 52 2) (d.f 54 2))) ∈ (qpInfo s d).rngs := by
    simp [qpInfo]
  intro k hk
  refine mem_writable hout (by omega) ?_
  rw [Nat.add_assoc]
  exact Nat.add_lt_add_left (record_lt_span hi hk) _

theorem rngsOf_factor {d : Desc} (h : d.op = 0x0300) (s u : State) : s.rngsOf d = (factorInfo u d).rngs := by
  simp [State.rngsOf, opInfo, h]
  rfl

theorem rngsOf_qp {d : Desc} (h : d.op = 0x0310) (s u : State) : s.rngsOf d = (qpInfo u d).rngs := by
  simp [State.rngsOf, opInfo, h]
  rfl

/-! ### The end of a solver descriptor -/

/-- A command of a solver descriptor: an operation of the factorization, or a quadratic program. -/
def SolverOp (d : Desc) : Prop := (d.op = 0x0300 ∧ d.f 79 1 ≤ 2) ∨ d.op = 0x0310

theorem SolverOp.rngsOf {d : Desc} (h : SolverOp d) (s u : State) : u.rngsOf d = s.rngsOf d := by
  obtain ⟨h, _⟩ | h := h
  · rw [rngsOf_factor h u s, rngsOf_factor h s s]
  · rw [rngsOf_qp h u s, rngsOf_qp h s s]

theorem SolverOp.grants {d : Desc} (h : SolverOp d) (s : State) {i : Nat} (hi : i < slvBatch d) :
    ProblemGrants d i (writable (s.rngsOf d) ∪ workAreas d) := by
  unfold slvBatch at hi
  obtain ⟨h, hsub⟩ | h := h
  · rw [if_pos h] at hi
    obtain ⟨hreport, hfactor, hsolution⟩ := facGrants_writable hsub hi s
    rw [rngsOf_factor h s s]
    exact ⟨fun _ => ⟨fun k hk => .inl (hreport k hk), fun ho k hk => .inl (hfactor ho k hk), fun ho k hk => .inl (hsolution ho k hk)⟩,
      fun hne => absurd h hne⟩
  · have hne : d.op ≠ 0x0300 := by omega
    rw [if_neg hne] at hi
    rw [rngsOf_qp h s s]
    exact ⟨fun h => absurd h hne, fun _ k hk => .inl (qpGrants_writable hi s k hk)⟩

theorem workArea_mem (d : Desc) (W : Set Nat) (g : Nat) (hg : g ∈ engines d) (k : Nat) (hk : k < workSize d) :
    workBase d g + k ∈ W ∪ workAreas d := .inr ⟨g, hg, k, hk, rfl⟩

section
variable {s : State} {id : Nat} {d : Desc} (hd : s.desc? id = some d)
include hd

theorem solve_of_inTime (h : solverInTime s d = true) (op : Nat) (p : Desc → Bool) : s.solve id op p = s.runOp id op p solverRun := by
  simp only [State.solve, hd, h, if_true]

theorem solve_of_late (h : solverInTime s d = false) (op : Nat) (p : Desc → Bool) : s.solve id op p = s := by
  simp only [State.solve, hd, h, Bool.false_eq_true, if_false]

variable (hst : d.st = .running) (hres : d.result = none) (hs : Invariant s)
include hst hres hs

/-- A solver descriptor whose problems end by themselves completes, and changes beside its result no more than its engines do. -/
theorem done_solve (hop : SolverOp d) {p : Desc → Bool} (hp : p d = true) (hstop : s.stopOf d = none) (htime : solverInTime s d = true) :
    ∃ t r, s.done (s.solve id d.op p) = .next t ∧
      t = { s with free := t.free, mem := t.mem, dict := t.dict, regs := t.regs, descs := t.descs } ∧
      t.desc? id = some { d with result := some r } ∧ r.outcome = 0 ∧ (∀ j, j ≠ id → t.desc? j = s.desc? j) ∧
      (d.aux.getD (slvGang d) 0 = 0 → r.status ∈ solverNotices) ∧ SameOd solverKeys s t ∧
      (s.regReads d = [] → SameRegs (gangRegs d) s t ∧
        (slvGang d = 1 → t.reg (baseSLV ((engines d).getD 0 0) + 0x10) % 2 ^ 64 =
          (s.reg (baseSLV ((engines d).getD 0 0) + 0x10) + (engineLeft d 0).length) % 2 ^ 64)) ∧
      (∀ b, isRegSpace b = false → (∀ a, a ∈ writable (s.rngsOf d) ∪ workAreas d → s.loc a ≠ s.loc b) → t.byteAt b = s.byteAt b) := by
  have hgrants (i : Nat) (hi : i < slvBatch d) := hop.grants s hi
  have hwork := workArea_mem d (writable (s.rngsOf d))
  have hrun := solverRun_effect hgrants hwork (s.showRegs d)
  have hquiet : s.regReads d = [] → ((solverRun (s.showRegs d) d).1.clearReads d) = (solverRun s d).1 := by
    intro hreg
    rw [showRegs_of_no_reads hreg, clearReads_of_no_reads ((regReads_congr (hop.rngsOf _ _)).trans hreg)]
  have heffect : SolverEffect (writable (s.rngsOf d) ∪ workAreas d) Set.univ s ((solverRun (s.showRegs d) d).1.clearReads d) :=
    ((SolverEffect.of_regs (showRegs_frame s d)).trans (hrun.mono subset_rfl (Set.subset_univ _))).trans (.of_regs (clearReads_frame _ d))
  rw [solve_of_inTime hd htime, runOp_of_pred hd hst hres hstop hp]
  generalize (solverRun (s.showRegs d) d).1.clearReads d = u at hquiet heffect ⊢
  obtain ⟨⟨k, m, q, r, hframe⟩, hod, _, hbytes⟩ := heffect
  have hdesc (j : Nat) : u.desc? j = s.desc? j := by rw [hframe]; rfl
  obtain ⟨t, hnext, ht, hself, hother, hsame⟩ := done_finish hs (u := u) (by rw [hframe]) (by rw [hframe]) ((hdesc id).trans hd)
    (solverRun (s.showRegs d) d).2.1 (solverRun (s.showRegs d) d).2.2
  have hreg (a : Nat) : t.reg a = u.reg a := by rw [ht]; rfl
  refine ⟨t, _, hnext, by rw [ht, hframe], hself, rfl, fun j hj => (hother j hj).trans (hdesc j), solverRun_notice hgrants _,
    hod.trans (SameOd.of_dict _ (by rw [ht])), fun hreads => ⟨fun a ha => ?_, fun hgang => ?_⟩,
    fun b hb hout => (hsame b).trans (hbytes b hb hout)⟩
  · rw [hreg, hquiet hreads]
    exact (solverRun_effect hgrants hwork s).regs a ha
  · rw [hreg, hquiet hreads]
    exact solverRun_count hgrants hwork s hgang

end

/-! ### Stop instants (R178, R179) -/

/-- The problems of engine `e` with where its stop instant finds each. -/
def stoppedAt (d : Desc) (e : Nat) (prog : List StopAt) : List (Nat × StopAt) :=
  (problemsOf d e).zip (progFrom (if slvWide d then 1 else 16) (prog ++ List.replicate (problemsOf d e).length (4, 0)) 0)

/-- One problem, ended where its engine's stop instant finds it. -/
def stopProblem (d : Desc) (g k : Nat) (r : State × Nat × Nat) (p : Nat × StopAt) : State × Nat × Nat :=
  if d.op = 0x0300 then (if p.2.1 = 3 then facOne d g k r p.1 else facStopped d g r p.1)
  else qpOne d g k (if p.2.1 = 3 then none else some p.2) r p.1

/-- Have all engines of the gang stopped once engine `e` has? -/
def allStopped (d : Desc) (e : Nat) : Bool := decide ((d.stage ||| 2 ^ e) % 2 ^ slvGang d = 2 ^ slvGang d - 1)

/-- Descriptor `x`, which is `d`, once engine `e` has stopped with notice and flags `r`. -/
def Desc.engineStopped (x d : Desc) (e : Nat) (r : Nat × Nat) : Desc :=
  { x with stage := d.stage ||| 2 ^ e, aux := d.aux.take (slvGang d) ++ [r.1, r.2]
           result := if allStopped d e then some (okResult r.1 r.2) else none }

/-- The problems of engine `e`, ended by its stop instant. -/
def engineStop (s : State) (d : Desc) (e : Nat) (prog : List StopAt) : State × Nat × Nat :=
  let r := (stoppedAt d e prog).foldl (stopProblem d ((engines d).getD e 0) s.free)
    (gangStart s d)
  (busy s.free d (problemsOf d e) r.1 ((engines d).getD e 0), r.2)

theorem progFrom_length (cap : Nat) (l : List StopAt) (n : Nat) : (progFrom cap l n).length = l.length := by
  induction l generalizing n with
  | nil => rfl
  | cons p l ih =>
    unfold progFrom
    split
    · simp
    · rw [List.length_cons, ih, List.length_cons]

theorem progFrom_replicate (cap n k : Nat) : progFrom cap (List.replicate n (4, 0)) k = List.replicate n (4, 0) := by
  cases n with
  | zero => rfl
  | succ n => simp [List.replicate_succ, progFrom]

theorem stoppedAt_length (d : Desc) (e : Nat) (prog : List StopAt) : (stoppedAt d e prog).length = (problemsOf d e).length := by
  rw [stoppedAt, List.length_zip, progFrom_length, List.length_append, List.length_replicate]
  omega

theorem stopProblem_ends (d : Desc) (g k : Nat) (r : State × Nat × Nat) (p : Nat × StopAt) :
    EndsProblems Set.univ g 1 r (stopProblem d g k r p) := by
  have hgrants := ProblemGrants.univ d p.1
  unfold stopProblem
  split
  · split
    · exact facOne_ends (hgrants.fac ‹_›) g k r
    · exact facStopped_ends (hgrants.fac ‹_›) g r
  · exact qpOne_ends (hgrants.qp ‹_›) g k _ r

theorem engineStop_ends (s : State) (d : Desc) (e : Nat) (prog : List StopAt) : EndsProblems Set.univ ((engines d).getD e 0)
    (problemsOf d e).length (gangStart s d) (engineStop s d e prog) := by
  rw [← stoppedAt_length d e prog]
  exact (EndsProblems.foldl (fun p _ r => stopProblem_ends d _ _ r p) _).trans (busy_ends _ d _ _ _)

/-- A problem that had not begun when its engine stopped leaves notice 0x0150, or a lower one before it. -/
theorem stopProblem_notice (d : Desc) (g k : Nat) (r : State × Nat × Nat) {p : Nat × StopAt} (hp : p.2 = (4, 0)) :
    1 ≤ (stopProblem d g k r p).2.1 ∧ (stopProblem d g k r p).2.1 ≤ 0x0150 := by
  have hmin (a b : Nat) : 1 ≤ minNotice a (minNotice 0x0150 b) ∧ minNotice a (minNotice 0x0150 b) ≤ 0x0150 := by
    have hb : 1 ≤ minNotice 0x0150 b ∧ minNotice 0x0150 b ≤ 0x0150 := by
      unfold minNotice
      rw [if_neg (by decide)]
      split <;> omega
    generalize minNotice 0x0150 b = c at hb ⊢
    unfold minNotice
    split
    · exact hb
    · rw [if_neg (by omega)]
      omega
  obtain ⟨i, w⟩ := p
  obtain rfl : w = (4, 0) := hp
  unfold stopProblem
  split
  · exact hmin r.2.1 0
  · exact hmin r.2.1 _

/-- What every step of a pass brings about holds after a pass that is not empty. -/
theorem foldl_of_step {α β : Type} {P : β → Prop} {f : β → α → β} {l : List α} (hl : l ≠ []) (hf : ∀ b x, x ∈ l → P (f b x)) (b : β) :
    P (l.foldl f b) := by
  obtain ⟨l, x, rfl⟩ := (List.eq_nil_or_concat l).resolve_left hl
  rw [List.concat_eq_append] at hf ⊢
  rw [List.foldl_concat]
  exact hf _ x (by simp)

theorem engineStop_notice (s : State) (d : Desc) (e : Nat) (h : problemsOf d e ≠ []) :
    1 ≤ (engineStop s d e []).2.1 ∧ (engineStop s d e []).2.1 ≤ 0x0150 := by
  have hne : stoppedAt d e [] ≠ [] := by
    rw [← List.length_pos_iff, stoppedAt_length]
    exact List.length_pos_iff.mpr h
  refine foldl_of_step (P := fun r : State × Nat × Nat => 1 ≤ r.2.1 ∧ r.2.1 ≤ 0x0150) hne (fun r p hp => ?_) _
  refine stopProblem_notice d _ _ r ?_
  rw [stoppedAt, List.nil_append, progFrom_replicate] at hp
  exact List.eq_of_mem_replicate (List.of_mem_zip hp).2

section
variable {s : State} {id : Nat} {d : Desc} (hd : s.desc? id = some d)
include hd

theorem solverStopped_of_op (hop : d.op = 0x0300 ∨ d.op = 0x0310) (e : Nat) (prog : List StopAt) :
    s.solverStopped id e prog = solverStop s id d e prog := by
  simp only [State.solverStopped, hd, hop, if_true]

omit hd in
theorem solverStop_of_not_due {e : Nat}
    (h : slvGang d ≤ e ∨ d.aux.getD e 0 = 0 ∨ s.dspTime d.die < d.aux.getD e 0 ∨ d.stage.testBit e = true) (prog : List StopAt) :
    solverStop s id d e prog = s := if_pos (.inr (.inr h))

variable (hst : d.st = .running) (hres : d.result = none) {e : Nat} (he : e < slvGang d) (haux : d.aux.getD e 0 ≠ 0)
  (htime : d.aux.getD e 0 ≤ s.dspTime d.die) (hstage : d.stage.testBit e = false)
include hst hres he haux htime hstage

omit hd in
theorem solverStop_of_due (prog : List StopAt) : solverStop s id d e prog =
    (if allStopped d e then slvEnd (engineStop s d e prog).1 d else (engineStop s d e prog).1).updDesc id
      (fun x => x.engineStopped d e (engineStop s d e prog).2) := by
  refine if_neg ?_
  rintro (h | h | h | h | h | h)
  · exact h hst
  · rw [hres] at h
    cases h
  · omega
  · exact haux h
  · omega
  · rw [hstage] at h
    cases h

/-- A stop instant that has come ends the problems of its engine, and the descriptor once every engine has stopped. -/
theorem done_solverStop (hs : Invariant s) (hlen : slvGang d ≤ d.aux.length) (prog : List StopAt) :
    ∃ t x r, s.done (solverStop s id d e prog) = .next t ∧
      t = { s with free := t.free, mem := t.mem, dict := t.dict, regs := t.regs, descs := t.descs } ∧
      t.desc? id = some { d with stage := d.stage ||| 2 ^ e, aux := x, result := r } ∧
      r = (if (d.stage ||| 2 ^ e) % 2 ^ slvGang d = 2 ^ slvGang d - 1
        then some (okResult (x.getD (slvGang d) 0) (x.getD (slvGang d + 1) 0)) else none) ∧
      (∀ j, j ≠ id → t.desc? j = s.desc? j) ∧ x.getD (slvGang d) 0 = (engineStop s d e prog).2.1 ∧
      t.reg (baseSLV ((engines d).getD e 0) + 0x10) % 2 ^ 64 =
        (s.reg (baseSLV ((engines d).getD e 0) + 0x10) + (problemsOf d e).length) % 2 ^ 64 := by
  have hends := engineStop_ends s d e prog
  rw [solverStop_of_due hst hres he haux htime hstage]
  generalize engineStop s d e prog = r at hends ⊢
  obtain ⟨heffect, hcount, _⟩ := hends
  have hlast : SolverEffect Set.univ ∅ r.1 (if allStopped d e then slvEnd r.1 d else r.1) := by
    split
    · exact slvEnd_effect (fun _ _ _ _ => Set.mem_univ _) _
    · exact .refl _
  obtain ⟨k, m, q, c, hframe⟩ := (((gangStart_effect s d).trans heffect).trans (hlast.mono subset_rfl (Set.empty_subset _))).frame
  have hreg := hlast.regs (baseSLV ((engines d).getD e 0) + 0x10) (Set.notMem_empty _)
  generalize (if allStopped d e then slvEnd r.1 d else r.1) = u at hframe hreg ⊢
  have hdesc (j : Nat) : u.desc? j = s.desc? j := by rw [hframe]; rfl
  have hnotice (n : Nat) : (d.aux.take (slvGang d) ++ [r.2.1, r.2.2]).getD (slvGang d + n) 0 = [r.2.1, r.2.2].getD n 0 := by
    rw [List.getD_append_right _ _ _ _ (by rw [List.length_take]; omega), List.length_take, Nat.min_eq_left hlen, Nat.add_sub_cancel_left]
  have hresult : (if allStopped d e then some (okResult r.2.1 r.2.2) else none) =
      if (d.stage ||| 2 ^ e) % 2 ^ slvGang d = 2 ^ slvGang d - 1 then
        some (okResult ([r.2.1, r.2.2].getD 0 0) ([r.2.1, r.2.2].getD 1 0)) else none := by
    simp only [allStopped, decide_eq_true_eq]
    rfl
  rw [← hnotice 0, ← hnotice 1] at hresult
  refine ⟨_, _, _, State.done_of_flash hs (by rw [hframe]; rfl) (by rw [hframe]; rfl), by rw [hframe]; rfl,
    (State.updDesc_desc u id id _).trans ((if_pos rfl).trans (congrArg (Option.map _) ((hdesc id).trans hd))), hresult,
    fun j hj => ((State.updDesc_desc u id j _).trans (if_neg (Ne.symm hj))).trans (hdesc j), hnotice 0, ?_⟩
  exact (congrArg (· % 2 ^ 64) hreg).trans hcount

end

end Sys2Proof.Machine

namespace Sys2Proof

open Sys2Proof.Machine

/-- Every command of a solver descriptor runs its operation where its stop instants leave the time. -/
theorem exec_solver {i : Instr} {id : Nat} {d : Desc}
    (h : (i = .solverFactor id ∧ d.op = 0x0300 ∧ d.f 79 1 = 0) ∨ (i = .solverFactorAndSolve id ∧ d.op = 0x0300 ∧ d.f 79 1 = 1) ∨
      (i = .solverSolveStored id ∧ d.op = 0x0300 ∧ d.f 79 1 = 2) ∨ (i = .quadraticProgram id ∧ d.op = 0x0310)) :
    SolverOp d ∧ ∃ p, p d = true ∧ ∀ s, exec i s = s.done (s.solve id d.op p) := by
  have hfac {m : Nat} (hop : d.op = 0x0300) (hsub : d.f 79 1 = m) (hm : m ≤ 2)
      (hexec : ∀ s, exec i s = s.done (s.solve id 0x0300 (subOp 79 m))) :
      SolverOp d ∧ ∃ p, p d = true ∧ ∀ s, exec i s = s.done (s.solve id d.op p) :=
    ⟨.inl ⟨hop, hsub ▸ hm⟩, subOp 79 m, beq_iff_eq.mpr hsub, fun s => hop ▸ hexec s⟩
  obtain ⟨rfl, hop, hsub⟩ | ⟨rfl, hop, hsub⟩ | ⟨rfl, hop, hsub⟩ | ⟨rfl, hop⟩ := h
  · exact hfac hop hsub (by decide) fun _ => rfl
  · exact hfac hop hsub (by decide) fun _ => rfl
  · exact hfac hop hsub (by decide) fun _ => rfl
  · exact ⟨.inr hop, anyDesc, rfl, fun s => hop ▸ rfl⟩

/-- Settles O35. A problem writes within its records whatever it computes, since the lengths of what it writes do not depend on the
values, and its end counts it on its engine; what a gang leaves is what its engines leave one after another. -/
theorem solverOperations : Obligations.SolverOperations := by
  unfold Obligations.SolverOperations
  refine fun s id d hs hd hst hres => ⟨fun i hstop htime hi => ?_, fun hlate => ?_, fun e prog hop => ⟨?_, fun hnot => ?_⟩⟩
  · obtain ⟨hop, p, hp, hexec⟩ := exec_solver hi
    obtain ⟨t, r, hnext, hframe, hself, hout, hother, hstatus, hod, hquiet, hbytes⟩ := done_solve hd hst hres hs hop hp hstop htime
    refine ⟨t, r, (hexec s).trans hnext, hframe, hself, hout, hother, hstatus, hod, hquiet, fun b hb hrngs hwork => hbytes b hb ?_⟩
    rintro a (⟨g, hg, hwr, hlo, hhi⟩ | ⟨g, hg, k, hk, rfl⟩)
    · rw [← Nat.add_sub_cancel' hlo]
      exact hrngs g hg hwr _ (by omega)
    · exact hwork g hg k hk
  · have hsame (op : Nat) (p : Desc → Bool) : s.done (s.solve id op p) = .next s := by
      rw [solve_of_late hd hlate]
      exact State.done_of_same hs rfl rfl rfl
    exact ⟨hsame _ _, hsame _ _, hsame _ _, hsame _ _⟩
  · intro he haux htime hstage hlen
    obtain ⟨t, x, r, hnext, hframe, hself, hr, hother, hnotice, hcount⟩ :=
      done_solverStop hd hst hres he haux htime hstage hs hlen prog
    have hexec : exec (.solverStopInstant id e prog) s = s.done (s.solverStopped id e prog) := rfl
    rw [hexec, solverStopped_of_op hd hop]
    refine ⟨t, x, r, hnext, hframe, hself, hr, hother, ?_, hcount⟩
    rintro rfl hsome
    obtain ⟨hlo, hhi⟩ := engineStop_notice s d e hsome
    rw [hnotice]
    exact ⟨hlo, hhi.trans (by decide)⟩
  · have hexec : exec (.solverStopInstant id e prog) s = s.done (s.solverStopped id e prog) := rfl
    rw [hexec, solverStopped_of_op hd hop, solverStop_of_not_due hnot]
    exact State.done_of_same hs rfl rfl rfl

end Sys2Proof
end

section
/-! Clearance descriptors (R188, R192–R200): how the commands of an operation run, and what a copy of memory changes. -/

namespace Sys2Proof.Machine

/-! ### The command of an operation -/

/-- What the check of a map control or of a path check grants follows from the descriptor alone. -/
theorem cleRngs_eq {d : Desc} (hop : d.op = 0x0400 ∨ d.op = 0x0410) (s u : State) : u.rngsOf d = s.rngsOf d := by
  obtain hop | hop := hop
  · have h (v : State) : v.rngsOf d = (mapInfo v d).rngs := by simp [State.rngsOf, opInfo, hop]
    rw [h, h]
    rfl
  · have h (v : State) : v.rngsOf d = (checkInfo v d).rngs := by simp [State.rngsOf, opInfo, hop]
    rw [h, h]
    rfl

/-- A clearance operation that no access ends and that reads no register has its effect. -/
theorem runCle_of_running {s : State} {id op : Nat} {d : Desc} (hd : s.desc? id = some d) (hst : d.st = .running)
    (hres : d.result = none) (hop : d.op = op) (hcle : op = 0x0400 ∨ op = 0x0410) (hstop : s.stopOf d = none)
    (hreg : s.regReads d = []) {p : Desc → Bool} (hp : p d = true) (f : State → Desc → State) : s.runCle id op p f = f s d := by
  have hon : s.opOn id op = some d := hop ▸ opOn_of_running hd hst hres
  have hclear (v : State) : v.clearReads d = v :=
    clearReads_of_no_reads ((regReads_congr (cleRngs_eq (hop ▸ hcle) s v)).trans hreg)
  simp only [State.runCle, hon, hp, hstop, showRegs_of_no_reads hreg, hclear, Bool.not_true, Bool.false_eq_true, if_false]

/-- A descriptor that finishes where nothing else changes. -/
theorem done_finish_alone {s : State} {id : Nat} {d : Desc} (hs : Invariant s) (hd : s.desc? id = some d) (st : Nat) :
    ∃ t, s.done (s.finish id st 0) = .next t ∧ t = { s with descs := t.descs } ∧ SameBytes s t ∧
      t.desc? id = some { d with result := some (okResult st 0) } ∧ ∀ j, j ≠ id → t.desc? j = s.desc? j := by
  obtain ⟨t, hnext, ht, hself, hother⟩ := done_finish_of_wf hs rfl hd st 0
  exact ⟨t, hnext, ht, SameBytes.of_dict (by rw [ht]) (by rw [ht]) (by rw [ht]), hself, hother⟩

/-! ### What writes to memory change -/

/-- From `s` to `t` memory alone has changed, and no byte outside the locations of `W`. -/
structure MemOnly (W : Set Nat) (s t : State) : Prop where
  frame : ∃ m, t = { s with mem := m }
  bytes : ∀ b, isRegSpace b = false → (∀ a, a ∈ W → s.loc a ≠ s.loc b) → t.byteAt b = s.byteAt b

namespace MemOnly

variable {W V : Set Nat} {s t u : State}

theorem refl (s : State) : MemOnly W s s := ⟨⟨_, rfl⟩, fun _ _ _ => rfl⟩

theorem loc (h : MemOnly W s t) (a : Nat) : t.loc a = s.loc a := by
  obtain ⟨m, rfl⟩ := h.frame
  rfl

theorem mono (h : MemOnly W s t) (hWV : W ⊆ V) : MemOnly V s t := ⟨h.frame, fun b hb hout => h.bytes b hb fun a ha => hout a (hWV ha)⟩

theorem trans (h : MemOnly W s t) (k : MemOnly W t u) : MemOnly W s u := by
  refine ⟨?_, fun b hb hout => (k.bytes b hb fun a ha => ?_).trans (h.bytes b hb hout)⟩
  · obtain ⟨m, rfl⟩ := h.frame
    exact k.frame
  · rw [h.loc, h.loc]
    exact hout a ha

theorem foldl {α : Type} {f : State → α → State} {l : List α} (hf : ∀ x, x ∈ l → ∀ u, MemOnly W u (f u x)) (s : State) :
    MemOnly W s (l.foldl f s) :=
  List.foldlRecOn l f (refl s) fun u hu x hx => hu.trans (hf x hx u)

theorem wr (s : State) (a : Nat) (l : List Byte) : MemOnly (Set.Ico a (a + l.length)) s (s.wr a l) :=
  ⟨wr_frame s a l, fun b hb hout => wr_byteAt_out s a b l hb fun i hi => hout (a + i) ⟨Nat.le_add_right a i, by omega⟩⟩

/-- Registering a map on both sides changes no byte of either (R192). -/
theorem setMap (h : MemOnly W s t) (n : Nat) (m : SdMap) : MemOnly W (s.setMap n m) (t.setMap n m) := by
  obtain ⟨⟨x, rfl⟩, hbytes⟩ := h
  exact ⟨⟨x, rfl⟩, hbytes⟩

theorem sameBytesBut {a n : Nat} (h : MemOnly (Set.Ico a (a + n)) s t) : SameBytesBut a n s t := by
  refine ⟨fun b hb hout => h.bytes b hb fun x hx => ?_, ?_⟩
  · obtain ⟨hlo, hhi⟩ := Set.mem_Ico.mp hx
    obtain ⟨i, rfl⟩ := Nat.exists_eq_add_of_le hlo
    exact hout i (Nat.lt_of_add_lt_add_left hhi)
  · obtain ⟨m, rfl⟩ := h.frame
    rfl

end MemOnly

theorem slice_lt {s : State} {a n : Nat} {c : Host.Cell} (hc : c ∈ s.slice a n) : c.1 < n := by
  unfold State.slice at hc
  split at hc
  · obtain ⟨i, hi, hcell⟩ := List.mem_filterMap.mp hc
    dsimp only at hcell
    split at hcell
    · cases hcell
    · cases hcell
      exact List.mem_range.mp hi
  · obtain ⟨x, hx, rfl⟩ := List.mem_map.mp hc
    have hin := of_decide_eq_true (List.mem_filter.mp hx).2
    dsimp only
    omega

theorem cellGet_cellClear_of_not_mem {k lo n : Nat} (h : ∀ i, i < n → lo + i ≠ k) (m : List Host.Cell) :
    cellGet 0 k (cellClear lo n m) = cellGet 0 k m := by
  have hout : ¬ (lo ≤ k ∧ k < lo + n) := fun hk => h (k - lo) (by omega) (by omega)
  unfold cellGet cellClear AMap.getD
  rw [AMap.get?_keep k (fun a => !decide (lo ≤ a ∧ a < lo + n)), if_pos (by rw [decide_eq_false hout]; rfl)]

theorem cellGet_cellPaste_of_not_mem {k lo : Nat} {cs : List Host.Cell} (h : ∀ c, c ∈ cs → lo + c.1 ≠ k) (m : List Host.Cell) :
    cellGet 0 k (cellPaste 0 lo cs m) = cellGet 0 k m :=
  List.foldlRecOn (motive := fun u => cellGet 0 k u = cellGet 0 k m) cs _ rfl fun u hu c hc =>
    (cellGet_cellSet 0 0 k (lo + c.1) c.2 u).trans ((if_neg (h c hc)).trans hu)

/-- Without interleave a range of DRAM lies in locations one after another. -/
theorem dram_loc_add {s : State} {a n i : Nat} (hil : s.interleaved = false) (ha : a + n ≤ 2 ^ 36) (hi : i < n) :
    s.loc (a + i) = s.loc a + i := by
  rw [dram_loc s (a + i) (by omega), dram_loc s a (by omega), hil]
  simp only [dramDie, dramOff, Bool.false_eq_true, if_false]
  omega

/-- A copy into DRAM changes no byte beside those it is made of. -/
theorem MemOnly.copyMem (s : State) (src : Nat) {a n : Nat} (ha : a + n ≤ 2 ^ 36) :
    MemOnly (Set.Ico a (a + n)) s (s.copyMem src a n) := by
  have hbyte (u : State) (i : Nat) (b : Byte) (hi : i < n) : MemOnly (Set.Ico a (a + n)) u (u.wrByte (a + i) b) := by
    refine (MemOnly.wr u (a + i) [b]).mono fun x hx => ?_
    rw [Set.mem_Ico, List.length_singleton] at hx
    exact ⟨by omega, by omega⟩
  unfold State.copyMem State.paste
  split
  · exact (MemOnly.foldl (fun i hi u => hbyte u i 0 (List.mem_range.mp hi)) s).trans
      (MemOnly.foldl (fun c hc u => hbyte u c.1 c.2 (slice_lt hc)) _)
  · rename_i hflat
    refine ⟨⟨_, rfl⟩, fun b hb hout => ?_⟩
    have hloc (i : Nat) (hi : i < n) : s.loc a + i ≠ s.loc b := by
      have hil : s.interleaved = false := by
        rw [← Bool.not_eq_true]
        exact fun h => hflat ⟨by omega, h⟩
      rw [← dram_loc_add hil ha hi]
      exact hout (a + i) ⟨Nat.le_add_right a i, by omega⟩
    have hcells : cellGet 0 (s.loc b) (cellPaste 0 (s.loc a) (s.slice src n) (cellClear (s.loc a) n s.mem)) =
        cellGet 0 (s.loc b) s.mem :=
      (cellGet_cellPaste_of_not_mem (fun c hc => hloc c.1 (slice_lt hc)) _).trans (cellGet_cellClear_of_not_mem hloc _)
    simp only [State.byteAt, hb, Bool.false_eq_true, if_false]
    exact hcells

end Sys2Proof.Machine
end

section
/-! Map control (R192): what a define writes, and how the commands of map control end. -/

namespace Sys2Proof.Machine

/-! ### The pool of a map (R190, R191) -/

/-- The addresses of the table of a map. -/
def SdMap.tableArea (m : SdMap) : Set Nat := Set.Ico m.pool (m.pool + 16 * m.bricks)

/-- The addresses of its first `n` slots. -/
def SdMap.slotArea (m : SdMap) (n : Nat) : Set Nat := Set.Ico m.slot0 (m.slot0 + 1024 * n)

/-- The addresses of its pool with `n` spare slots. -/
def SdMap.poolArea (m : SdMap) (n : Nat) : Set Nat := Set.Ico m.pool (m.pool + poolBytes m.bricks n)

section
variable (m : SdMap) (n : Nat)

theorem table_le_slot0 : m.pool + 16 * m.bricks ≤ m.slot0 := by
  unfold SdMap.slot0 align1024 roundUp
  omega

theorem slot0_add_eq : m.slot0 + 1024 * (m.bricks + n) = m.pool + poolBytes m.bricks n := by
  unfold SdMap.slot0 poolBytes
  omega

theorem tableArea_subset : m.tableArea ⊆ m.poolArea n := by
  have hend := slot0_add_eq m n
  have htable := table_le_slot0 m
  exact Set.Ico_subset_Ico_right (by omega)

theorem slotArea_subset : m.slotArea (m.bricks + n) ⊆ m.poolArea n := by
  have hend := slot0_add_eq m n
  have htable := table_le_slot0 m
  exact Set.Ico_subset_Ico (by omega) (by omega)

end

theorem entryBytes_length (cur prev gen : Nat) (valid : Bool) :
    (toBytes 4 cur ++ toBytes 4 prev ++ toBytes 8 (gen % 2 ^ 63 + if valid then 2 ^ 63 else 0)).length = 16 := by
  simp only [List.length_append, toBytes_length]

theorem wrEntry_memOnly {m : SdMap} {b : Nat} (hb : b < m.bricks) (s : State) (cur prev gen : Nat) (valid : Bool) :
    MemOnly m.tableArea s (wrEntry s m b cur prev gen valid) := by
  refine (MemOnly.wr s (m.entry b) _).mono ?_
  rw [entryBytes_length]
  exact Set.Ico_subset_Ico (Nat.le_add_right _ _) (by unfold SdMap.entry; omega)

/-! ### Define (R192) -/

/-- The map that a define makes. -/
def definedMap (d : Desc) : SdMap :=
  { SdMap.zero with
    st := .defined, nx := d.f 28 2, ny := d.f 30 2, nz := d.f 32 2, um := d.f 36 4, ox := d.f 40 4, oy := d.f 44 4,
    oz := d.f 48 4, unkFree := (d.f 26 1).testBit 1, outFree := (d.f 26 1).testBit 2, pool := d.f 52 6, spare := d.f 64 4,
    owner := d.ctx }

/-- Voxels of `n` bricks, all of them unknown. -/
def unknownVoxels (n : Nat) : List Byte := ((List.range (512 * n)).map (fun _ => toBytes 2 0x8000)).flatten

/-- The voxels of the new map `m`: the data that is given, or every voxel unknown. -/
def State.putVoxels (s : State) (d : Desc) (m : SdMap) : State :=
  if (d.f 26 1).testBit 0 then s.copyMem (d.f 58 6) m.slot0 (1024 * m.bricks) else s.wr m.slot0 (unknownVoxels m.bricks)

/-- The table of a new map: brick `b` in slot `b`. -/
def State.putTable (s : State) (m : SdMap) : State := (List.range m.bricks).foldl (fun s b => wrEntry s m b b 0 0 false) s

/-- What a define of map `m` makes of the state. -/
def State.withMap (s : State) (d : Desc) (m : SdMap) : State := ((s.putVoxels d m).setMap (d.f 25 1) m).putTable m

theorem mapDefineRun_of_undef {s : State} {d : Desc} (h : (s.sdMap (d.f 25 1)).st = .undef) :
    mapDefineRun s d = (s.withMap d (definedMap d), 0) := if_neg (not_not_intro h)

theorem mapDefineRun_of_defined {s : State} {d : Desc} (h : (s.sdMap (d.f 25 1)).st ≠ .undef) : mapDefineRun s d = (s, 0x0571) :=
  if_pos h

theorem unknownVoxels_length (n : Nat) : (unknownVoxels n).length = 1024 * n := by
  rw [unknownVoxels, length_flatten_map fun _ => toBytes_length 2 _, List.length_range]
  omega

section
variable (s : State) (d : Desc) (m : SdMap)

theorem putTable_memOnly : MemOnly m.tableArea s (s.putTable m) :=
  .foldl (fun _ hb u => wrEntry_memOnly (List.mem_range.mp hb) u _ 0 0 false) s

theorem withMap_frame : ∃ x, s.withMap d m = { s with mem := x, maps := (s.setMap (d.f 25 1) m).maps } := by
  have hvox : ∃ x, s.putVoxels d m = { s with mem := x } := by
    unfold State.putVoxels
    split
    · exact paste_frame s _ _ _
    · exact wr_frame s _ _
  obtain ⟨x, hvox⟩ := hvox
  obtain ⟨y, htable⟩ := (putTable_memOnly ((s.putVoxels d m).setMap (d.f 25 1) m) m).frame
  exact ⟨y, by rw [State.withMap, htable, hvox]; rfl⟩

variable {m} (h : m.pool + poolBytes m.bricks 0 ≤ 2 ^ 36)
include h

theorem putVoxels_memOnly : MemOnly (m.slotArea (m.bricks + 0)) s (s.putVoxels d m) := by
  have hend := slot0_add_eq m 0
  unfold State.putVoxels
  split
  · exact .copyMem s _ (by omega)
  · have hwr := MemOnly.wr s m.slot0 (unknownVoxels m.bricks)
    rwa [unknownVoxels_length] at hwr

/-- A define in DRAM writes within the pool of its map. -/
theorem withMap_memOnly : MemOnly (m.poolArea 0) (s.setMap (d.f 25 1) m) (s.withMap d m) :=
  (((putVoxels_memOnly s d h).mono (slotArea_subset m 0)).setMap _ m).trans ((putTable_memOnly _ m).mono (tableArea_subset m 0))

/-- Every voxel of a new map without data is unknown: no entry of the table lies where a voxel does. -/
theorem withMap_voxel {i : Nat} (hdata : (d.f 26 1).testBit 0 = false) (hi : i < 512 * m.bricks) :
    (s.withMap d m).rd (m.slot0 + 2 * i) 2 = 0x8000 := by
  have hend := slot0_add_eq m 0
  have htable := table_le_slot0 m
  have hvox : s.putVoxels d m = s.wr m.slot0 (unknownVoxels m.bricks) := if_neg (by rw [hdata]; decide)
  have hkept (k : Nat) (hk : k < 2) : (s.withMap d m).byteAt (m.slot0 + 2 * i + k) = (s.putVoxels d m).byteAt (m.slot0 + 2 * i + k) := by
    refine (putTable_memOnly _ m).bytes _ (isRegSpace_of_lt (by omega)) fun a ha hloc => ?_
    obtain ⟨_, hhi⟩ := Set.mem_Ico.mp ha
    have heq := (dram_loc_inj _ _ _ (by omega) (by omega)).mp hloc
    omega
  have hlen := unknownVoxels_length m.bricks
  rw [rd_congr_range hkept, hvox]
  exact rd_wr_dram s m.slot0 (unknownVoxels m.bricks) (by omega) (by omega)
    (slice_flatten_map (fun _ => toBytes_length 2 _) (by rwa [List.length_range]))

end

theorem mapRecord_length (s : State) (n : Nat) : (mapRecord s n).length = 64 := by
  simp only [mapRecord, List.length_append, toBytes_length]

/-! ### Retire, and the end of a retiring map (R192) -/

theorem mapRetire_of_owned {s : State} {d : Desc} (id : Nat) (hlive : (s.sdMap (d.f 25 1)).live = true)
    (howner : (s.sdMap (d.f 25 1)).owner = d.ctx) : mapRetire s id d =
    (s.setMap (d.f 25 1) { s.sdMap (d.f 25 1) with st := .retiring, retire := some id }).updDesc id (fun x => { x with stage := 1 }) := by
  simp [mapRetire, hlive, howner]

theorem mapRetire_of_refused {s : State} {d : Desc} (id : Nat)
    (h : (s.sdMap (d.f 25 1)).live = false ∨ (s.sdMap (d.f 25 1)).owner ≠ d.ctx) :
    mapRetire s id d = s.finish id (if (s.sdMap (d.f 25 1)).live then 0x0572 else 0x0570) 0 := by
  cases hlive : (s.sdMap (d.f 25 1)).live with
  | false => simp [mapRetire, hlive]
  | true => simp [mapRetire, hlive, h.resolve_left (by simp [hlive])]

/-- May map `n` be freed? -/
def State.freeable (s : State) (n : Nat) : Prop :=
  (s.sdMap n).st = .retiring ∧ ¬ s.updating n ∧ (s.sdMap n).update = none ∧ ¬ s.pinned n

theorem mapRetireFree_of_not_freeable {s : State} {n : Nat} (h : ¬ s.freeable n) : mapRetireFree s n = s := if_neg h

/-- A map that is freed ends the retire that waits for it, and no other descriptor. -/
theorem mapRetireFree_of_freeable {s : State} {n : Nat} (h : s.freeable n) :
    ∃ ds, mapRetireFree s n = { s.setMap n SdMap.zero with descs := ds } ∧
      (∀ id d, (s.sdMap n).retire = some id → s.desc? id = some d → d.result = none →
        AMap.get? id ds = some { d with result := some { status := 0, outcome := 0, flags := 0 } }) ∧
      ∀ j, (s.sdMap n).retire ≠ some j → AMap.get? j ds = s.desc? j := by
  have hfree : mapRetireFree s n = match (s.sdMap n).retire with
      | some id => if ((s.setMap n SdMap.zero).desc? id).any (fun x => x.result.isNone) then (s.setMap n SdMap.zero).finish id 0 0
        else s.setMap n SdMap.zero
      | none => s.setMap n SdMap.zero := if_pos h
  rw [hfree]
  cases hret : (s.sdMap n).retire with
  | none => exact ⟨_, rfl, fun _ _ h => (nomatch h), fun _ _ => rfl⟩
  | some k =>
    dsimp only
    split
    · refine ⟨_, rfl, fun id d hid hd _ => ?_, fun j hj => ?_⟩
      · cases hid
        exact finish_desc hd 0 0
      · exact (State.updDesc_desc _ k j _).trans (if_neg fun h => hj (congrArg some h))
    · rename_i hresult
      refine ⟨_, rfl, fun id d hid hd hres => ?_, fun _ _ => rfl⟩
      cases hid
      have hd' : (s.setMap n SdMap.zero).desc? k = some d := hd
      exact absurd (by rw [hd', Option.any_some, hres]; rfl) hresult

end Sys2Proof.Machine

namespace Sys2Proof

open Sys2Proof.Machine

/-! ### How the commands of map control end (R192) -/

section
variable {s : State} {id : Nat} {d : Desc} (hs : Invariant s) (hd : s.desc? id = some d) (hst : d.st = .running)
  (hres : d.result = none) (hop : d.op = 0x0400) (hstop : s.stopOf d = none) (hreg : s.regReads d = [])
include hd hst hres hop hstop hreg

theorem exec_mapDefine (hsub : d.f 24 1 = 1) : exec (.mapDefine id) s =
    s.done ((mapDefineRun s d).1.finish id (mapDefineRun s d).2 0) :=
  congrArg s.done (runCle_of_running hd hst hres hop (.inl rfl) hstop hreg (p := subOp 24 1) (beq_iff_eq.mpr hsub) _)

theorem exec_mapRetire (hsub : d.f 24 1 = 2) (hstage : d.stage = 0) : exec (.mapRetire id) s = s.done (mapRetire s id d) := by
  have hp : (subOp 24 2 d && d.stage == 0) = true := by simp [subOp, hsub, hstage]
  exact congrArg s.done (runCle_of_running hd hst hres hop (.inl rfl) hstop hreg (p := fun d => subOp 24 2 d && d.stage == 0) hp _)

theorem exec_mapQuery (hsub : d.f 24 1 = 3) : exec (.mapQuery id) s =
    s.done ((s.wr (d.f 58 6) (mapRecord s (d.f 25 1))).finish id 0 0) :=
  congrArg s.done (runCle_of_running hd hst hres hop (.inl rfl) hstop hreg (p := subOp 24 3) (beq_iff_eq.mpr hsub) _)

include hs

theorem exec_mapDefine_undef (hsub : d.f 24 1 = 1) {m : SdMap} (hm : m = definedMap d) (hundef : (s.sdMap (d.f 25 1)).st = .undef) :
    ∃ t, exec (.mapDefine id) s = .next t ∧ t = { s with mem := t.mem, maps := t.maps, descs := t.descs } ∧
      t.desc? id = some { d with result := some { status := 0, outcome := 0, flags := 0 } } ∧ (∀ j, j ≠ id → t.desc? j = s.desc? j) ∧
      (m.pool + poolBytes m.bricks 0 ≤ 2 ^ 36 → SameBytesBut m.pool (poolBytes m.bricks 0) s t) ∧
      (∀ k, t.sdMap k = if d.f 25 1 = k then m else s.sdMap k) ∧
      (m.pool + poolBytes m.bricks 0 ≤ 2 ^ 36 → (d.f 26 1).testBit 0 = false →
        ∀ i, i < 512 * m.bricks → t.rd (m.slot0 + 2 * i) 2 = 0x8000) := by
  subst hm
  rw [exec_mapDefine hd hst hres hop hstop hreg hsub, mapDefineRun_of_undef hundef]
  have hpool := fun h => withMap_memOnly s d (m := definedMap d) h
  have hvoxel := fun h i hdata hi => withMap_voxel s d (m := definedMap d) (i := i) h hdata hi
  obtain ⟨x, hframe⟩ := withMap_frame s d (definedMap d)
  generalize s.withMap d (definedMap d) = u at hframe hpool hvoxel ⊢
  obtain ⟨t, hnext, ht, hself, hother, hbytes⟩ := done_finish hs (u := u) (by rw [hframe]) (by rw [hframe])
    (id := id) (d := d) (by rw [hframe]; exact hd) 0 0
  refine ⟨t, hnext, by rw [ht, hframe], hself, fun j hj => (hother j hj).trans (by rw [hframe]; rfl), fun h => ?_, fun k => ?_,
    fun h hdata i hi => (rd_congr hbytes _ 2).trans (hvoxel h i hdata hi)⟩
  · obtain ⟨hsame, _⟩ := (hpool h).sameBytesBut
    exact ⟨fun b hb hout => (hbytes b).trans (hsame b hb hout), by rw [ht, hframe]⟩
  · rw [← State.setMap_sdMap, ht, hframe]
    rfl

theorem exec_mapDefine_defined (hsub : d.f 24 1 = 1) (h : (s.sdMap (d.f 25 1)).st ≠ .undef) :
    ∃ t, exec (.mapDefine id) s = .next t ∧ t = { s with descs := t.descs } ∧ SameBytes s t ∧
      t.desc? id = some { d with result := some (okResult 0x0571 0) } ∧ ∀ j, j ≠ id → t.desc? j = s.desc? j := by
  rw [exec_mapDefine hd hst hres hop hstop hreg hsub, mapDefineRun_of_defined h]
  exact done_finish_alone hs hd 0x0571

theorem exec_mapRetire_owned (hsub : d.f 24 1 = 2) (hstage : d.stage = 0) {m : SdMap} (hm : m = s.sdMap (d.f 25 1))
    (hlive : m.live = true) (howner : m.owner = d.ctx) :
    ∃ t, exec (.mapRetire id) s = .next t ∧ t = { s with maps := t.maps, descs := t.descs } ∧
      (∀ k, t.sdMap k = if d.f 25 1 = k then { m with st := .retiring, retire := some id } else s.sdMap k) ∧
      (∀ j, j ≠ id → t.desc? j = s.desc? j) ∧ t.desc? id = some { d with stage := 1 } := by
  subst hm
  rw [exec_mapRetire hd hst hres hop hstop hreg hsub hstage, mapRetire_of_owned id hlive howner]
  exact ⟨_, State.done_of_same hs rfl rfl rfl, rfl,
    fun k => State.setMap_sdMap s (d.f 25 1) k { s.sdMap (d.f 25 1) with st := .retiring, retire := some id },
    fun j hj => (State.updDesc_desc _ id j _).trans (if_neg (Ne.symm hj)), updDesc_desc_self (id := id) (d := d) hd _⟩

theorem exec_mapRetire_refused (hsub : d.f 24 1 = 2) (hstage : d.stage = 0) {m : SdMap} (hm : m = s.sdMap (d.f 25 1))
    (h : m.live = false ∨ m.owner ≠ d.ctx) :
    ∃ t, exec (.mapRetire id) s = .next t ∧ t = { s with descs := t.descs } ∧
      t.desc? id = some { d with result := some (okResult (if m.live then 0x0572 else 0x0570) 0) } ∧
      ∀ j, j ≠ id → t.desc? j = s.desc? j := by
  subst hm
  rw [exec_mapRetire hd hst hres hop hstop hreg hsub hstage, mapRetire_of_refused id h]
  obtain ⟨t, hnext, ht, _, hself, hother⟩ := done_finish_alone hs hd (if (s.sdMap (d.f 25 1)).live then 0x0572 else 0x0570)
  exact ⟨t, hnext, ht, hself, hother⟩

theorem exec_mapQuery_record (hsub : d.f 24 1 = 3) (hrec : d.f 58 6 + 64 ≤ 2 ^ 36) :
    ∃ t, exec (.mapQuery id) s = .next t ∧ t = { s with mem := t.mem, descs := t.descs } ∧ SameBytesBut (d.f 58 6) 64 s t ∧
      t.desc? id = some { d with result := some { status := 0, outcome := 0, flags := 0 } } ∧ (∀ j, j ≠ id → t.desc? j = s.desc? j) ∧
      ∀ i, i < 64 → t.byteAt (d.f 58 6 + i) = (mapRecord s (d.f 25 1)).getD i 0 := by
  have hlen := mapRecord_length s (d.f 25 1)
  have hread (i : Nat) (hi : i < 64) := wr_dram_getD s (a := d.f 58 6) (l := mapRecord s (d.f 25 1)) (k := i) (by omega) (by omega)
  have hwr := MemOnly.wr s (d.f 58 6) (mapRecord s (d.f 25 1))
  rw [hlen] at hwr
  obtain ⟨hsame, _⟩ := hwr.sameBytesBut
  rw [exec_mapQuery hd hst hres hop hstop hreg hsub]
  obtain ⟨x, hframe⟩ := hwr.frame
  generalize s.wr (d.f 58 6) (mapRecord s (d.f 25 1)) = u at hframe hread hsame ⊢
  obtain ⟨t, hnext, ht, hself, hother, hbytes⟩ := done_finish hs (u := u) (by rw [hframe]) (by rw [hframe])
    (id := id) (d := d) (by rw [hframe]; exact hd) 0 0
  exact ⟨t, hnext, by rw [ht, hframe], ⟨fun b hb hout => (hbytes b).trans (hsame b hb hout), by rw [ht, hframe]⟩, hself,
    fun j hj => (hother j hj).trans (by rw [hframe]; rfl), fun i hi => (hbytes _).trans (hread i hi)⟩

end

/-- Settles O36. A define writes within the pool of its map, where no entry of the table lies on a voxel; a retire and a query do what
their branches say; a map is freed under the condition that the statement names. -/
theorem mapControl : Obligations.MapControl := by
  unfold Obligations.MapControl
  refine ⟨fun s id n d m hs hd hst hres hop hstop hreg hn hm => ⟨fun hsub hundef => ?_, fun hsub hdef => ?_, fun hsub hstage => ?_,
    fun hsub hrec => ?_⟩, fun s n hs => ⟨fun hst hupd hupdate hpin => ?_, fun hnot => ?_⟩⟩
  · obtain ⟨t, hnext, ht, hself, hother, hsame, hmaps, hvoxel⟩ :=
      exec_mapDefine_undef hs hd hst hres hop hstop hreg hsub rfl (hn ▸ hm ▸ hundef)
    have hmap : t.sdMap n = definedMap d := (hmaps n).trans (if_pos hn.symm)
    refine ⟨t, hnext, ht, hself, hother, ?_⟩
    rw [hmap]
    exact ⟨hsame, fun k hk => (hmaps k).trans (if_neg fun h => hk (h.symm.trans hn.symm)), rfl, hvoxel⟩
  · exact exec_mapDefine_defined hs hd hst hres hop hstop hreg hsub (hn ▸ hm ▸ hdef)
  · subst hn
    by_cases howned : m.live = true ∧ m.owner = d.ctx
    · obtain ⟨t, hnext, ht, hmaps, hother, hself⟩ :=
        exec_mapRetire_owned hs hd hst hres hop hstop hreg hsub hstage hm howned.1 howned.2
      exact ⟨t, hnext, ht, SameBytes.of_dict (by rw [ht]) (by rw [ht]) (by rw [ht]), fun k hk => (hmaps k).trans (if_neg (Ne.symm hk)),
        hother, fun _ => ⟨(hmaps _).trans (if_pos rfl), hself⟩, fun h => absurd howned (by simpa [imp_iff_not_or] using h)⟩
    · have hrefused : m.live = false ∨ m.owner ≠ d.ctx := by simpa [imp_iff_not_or] using howned
      obtain ⟨t, hnext, ht, hself, hother⟩ := exec_mapRetire_refused hs hd hst hres hop hstop hreg hsub hstage hm hrefused
      exact ⟨t, hnext, by rw [ht], SameBytes.of_dict (by rw [ht]) (by rw [ht]) (by rw [ht]), fun k _ => by rw [ht]; rfl, hother,
        fun h => absurd h howned, fun _ => ⟨by rw [ht], hself⟩⟩
  · subst hn
    exact exec_mapQuery_record hs hd hst hres hop hstop hreg hsub hrec
  · have hexec : exec (.mapRetireFree n) s = s.done (mapRetireFree s n) := rfl
    have hfree : s.freeable n := ⟨hst, by simp [hupd], hupdate, by simp [hpin]⟩
    obtain ⟨ds, hrun, hended, hkept⟩ := mapRetireFree_of_freeable hfree
    rw [hexec, hrun]
    exact ⟨_, State.done_of_same hs rfl rfl rfl, rfl, SameBytes.of_dict rfl rfl rfl,
      (State.setMap_sdMap s n n SdMap.zero).trans (if_pos rfl), fun k hk => (State.setMap_sdMap s n k SdMap.zero).trans (if_neg (Ne.symm hk)), hended, hkept⟩
  · have hexec : exec (.mapRetireFree n) s = s.done (mapRetireFree s n) := rfl
    have hkept : ¬ s.freeable n := by
      rintro ⟨hst, hupd, hupdate, hpin⟩
      obtain h | h | h | h := hnot
      · exact h hst
      · exact hupd h
      · exact h hupdate
      · exact hpin h
    rw [hexec, mapRetireFree_of_not_freeable hkept]
    exact State.done_of_same hs rfl rfl rfl

end Sys2Proof
end

section
/-! A third statement that a state outside the module's own runs refutes: `Invariant` does not say that the descriptor table lists a
number once, so that a check may yield in an update's place (R195). -/

namespace Sys2Proof.Machine

/-- A running update of map 0 whose list is empty; it names the epoch by its low 16 bits, 0. -/
def updateOfMap0 : Desc := { State.reset.mkDesc 0 0x0408 with st := .running, cls := 2 }

/-- A check of class D that its engine runs and that pins epoch 65535 of map 0. -/
def checkOfMap0 : Desc := { State.reset.mkDesc 0 0x0410 with st := .running, cls := 3, pins := [(0, 65535)] }

/-- The update and, under the same number, the check; map 0 stands at epoch 65536. -/
def sharedNumber : State :=
  { State.reset with
    descs := [(0, updateOfMap0), (0, checkOfMap0)]
    maps := [(0, { SdMap.zero with st := .defined, gen := 65536, owner := updateOfMap0.ctx })] }

/-- The start of an update, as its command runs it. -/
def State.mapUpdated (s : State) (id : Nat) : State := s.runCle id 0x0408 (fun d => d.stage == 0) (fun s d => updateStart s id d)

/-- What the check does as it yields is done to the first entry of its number, which is the update. -/
theorem sharedNumber_stage : ((sharedNumber.mapUpdated 0).desc? 0).map (·.stage) = some 9 := by decide +kernel

end Sys2Proof.Machine

namespace Sys2Proof

open Sys2Proof.Machine

/-- Refutes O37: where the descriptor table lists the number of an update a second time for a check that pins the previous epoch, it
is the update's entry that yields, and the update is not in its step 1. -/
theorem not_mapUpdates : ¬ Obligations.MapUpdates := by
  unfold Obligations.MapUpdates
  intro h
  have hinv : Invariant sharedNumber := ⟨rfl, rfl⟩
  obtain ⟨hstart, _⟩ := h sharedNumber 0 0 updateOfMap0 (sharedNumber.sdMap 0) hinv rfl rfl rfl rfl (by decide +kernel)
    (by decide +kernel) (by decide +kernel) rfl
  obtain ⟨hjudged, _⟩ := hstart rfl
  obtain ⟨_, hyield⟩ := hjudged rfl rfl (by decide +kernel)
  obtain ⟨t, e, hnext, _, hself, hstage, _⟩ := hyield (by decide)
  have hexec : exec (.mapUpdate 0) sharedNumber = sharedNumber.done (sharedNumber.mapUpdated 0) := rfl
  have ht : t.desc? 0 = (sharedNumber.mapUpdated 0).desc? 0 := by
    rw [hexec] at hnext
    cases hnext
    rfl
  have hnine := sharedNumber_stage
  rw [← ht, hself, Option.map_some, hstage] at hnine
  cases hnine

end Sys2Proof
end

section
/-! The examination of paths (R187, R196–R199): how many results it has and how long their profiles are, whatever the distances and the
flags; and what it comes to where no group may be examined. -/

namespace Sys2Proof.Machine

/-! ### The paths (R187) -/

theorem pairUp_length (l : List Nat) : (pairUp l).length = l.length / 2 := by
  induction l using pairUp.induct with
  | case1 a b t ih =>
    simp only [pairUp, List.length_cons, ih]
    omega
  | case2 l h =>
    rcases l with _ | ⟨a, _ | ⟨b, t⟩⟩
    · rfl
    · simp [pairUp]
    · exact absurd rfl (h a b t)

theorem splitBy_length (ns l : List Nat) : (splitBy ns l).length = ns.length := by
  induction ns generalizing l with
  | nil => rfl
  | cons n ns ih => exact congrArg Nat.succ (ih _)

/-- A check has as many paths as records, once placement has read them. -/
theorem checkPaths_length {d : Desc} {n : Nat} (h : d.aux.length = 2 * n + 1) : (checkPaths d).length = n := by
  rw [checkPaths, splitBy_length, List.length_map, pairUp_length, List.length_drop, h]
  omega

/-! ### Profiles (R197) -/

/-- A result with a profile is of a check that asks for profiles, and has at most 256 values. -/
def PathRes.Profiled (d : Desc) (r : PathRes) : Prop := r.prof = true → (d.f 46 1).testBit 0 = true ∧ r.vals.length ≤ 256

theorem profiled_unexamined (d : Desc) : PathRes.unexamined.Profiled d := fun h => nomatch h

/-- A path of `n` samples has no more values than samples. -/
theorem yields_examGroups_vals (s : State) (pins : List (Nat × Nat)) (margin : Val) (ws : List Nat) (n : Nat) (large : Bool)
    (fuel g : Nat) (budget : Option Nat) {r : PathRes} (hit : Bool) (hr : r.vals.length ≤ min n (32 * g)) :
    Yields (examGroups s pins margin ws n large fuel g budget r hit) (fun p => p.1.vals.length ≤ n) := by
  induction fuel generalizing g r hit with
  | zero => exact Yields.pure (hr.trans (min_le_left _ _))
  | succ fuel ih =>
    unfold examGroups
    split
    · exact Yields.pure (hr.trans (min_le_left _ _))
    · refine (Yields.mapM_length _ _).bind fun ds hds => ih (g + 1) _ ?_
      rw [List.length_map, List.length_range] at hds
      simp only [List.length_append, List.length_map, hds]
      omega

theorem yields_examPath_profiled (s : State) (d : Desc) (ws : List Nat) (budget : Option Nat) :
    Yields (examPath s d ws budget) (fun p => p.1.Profiled d) := by
  refine (yields_examGroups_vals s d.pins _ ws ws.length _ _ 0 budget false (Nat.zero_le _)).bind fun p hp => Yields.pure ?_
  intro hprof
  simp only [Bool.and_eq_true, Bool.not_eq_true', decide_eq_false_iff_not] at hprof
  obtain ⟨⟨hsmall, _⟩, hbit⟩ := hprof
  exact ⟨hbit, hp.trans (not_lt.mp hsmall)⟩

/-- A result for each path. -/
theorem yields_examPaths (s : State) (d : Desc) (ps : List (List Nat)) (budget : Option Nat) (ovr cut : Bool) :
    Yields (examPaths s d ps budget ovr cut) (fun q => q.1.length = ps.length ∧ ∀ r, r ∈ q.1 → r.Profiled d) := by
  induction ps generalizing budget ovr cut with
  | nil => exact Yields.pure ⟨rfl, fun r hr => absurd hr List.not_mem_nil⟩
  | cons p ps ih =>
    have hcons {r : PathRes} {l : List PathRes} (hr : r.Profiled d) (hl : l.length = ps.length ∧ ∀ r, r ∈ l → r.Profiled d) :
        (r :: l).length = (p :: ps).length ∧ ∀ x, x ∈ r :: l → x.Profiled d :=
      ⟨congrArg Nat.succ hl.1, List.forall_mem_cons.mpr ⟨hr, hl.2⟩⟩
    unfold examPaths
    split
    · exact (ih budget ovr cut).bind fun q hq => Yields.pure (hcons (profiled_unexamined d) hq)
    · split
      · exact (ih budget true true).bind fun q hq => Yields.pure (hcons (profiled_unexamined d) hq)
      · exact (yields_examPath_profiled s d p budget).bind fun x hx => (ih _ _ _).bind fun q hq => Yields.pure (hcons hx hq)

/-! ### Nothing examined -/

theorem yields_examPaths_unexamined (s : State) (d : Desc) (ps : List (List Nat)) (ovr cut : Bool) :
    Yields (examPaths s d ps (some 0) ovr cut) (fun q => ∀ r, r ∈ q.1 → r = PathRes.unexamined) := by
  induction ps generalizing ovr cut with
  | nil => exact Yields.pure fun r hr => absurd hr List.not_mem_nil
  | cons p ps ih =>
    unfold examPaths
    split
    · exact (ih ovr cut).bind fun q hq => Yields.pure (List.forall_mem_cons.mpr ⟨rfl, hq⟩)
    · rw [if_pos rfl]
      exact (ih true true).bind fun q hq => Yields.pure (List.forall_mem_cons.mpr ⟨rfl, hq⟩)

end Sys2Proof.Machine
end

section
/-! Path checks (R188, R196–R200, R204): what the end of a check writes and counts, and how the commands that end one answer. -/

namespace Sys2Proof.Machine

/-! ### The status of a check (R198–R200) -/

/-- The free path that a check selects: in mode 1 the first, else the one of greatest least clearance. -/
def freePath (d : Desc) (rs : List PathRes) : Option Nat :=
  if d.f 45 1 == 1 then ((List.range rs.length).zip rs).findSome? (fun p => if p.2.outcome = 0 then some p.1 else none)
  else bestPath rs (fun r => r.outcome == 0)

/-- The path that a check selects: a free one, or else the best of those that hit or were cut. -/
def chosenPath (d : Desc) (rs : List PathRes) : Option Nat :=
  match freePath d rs with
  | some i => some i
  | none => bestPath rs (fun r => decide (1 ≤ r.outcome ∧ r.outcome ≤ 3))

/-- The outcome of a check whose results are `rs`, cut short or not. -/
def checkOutcome (d : Desc) (rs : List PathRes) (cut : Bool) : Nat :=
  if (freePath d rs).isSome then (if cut then 2 else 0) else if (chosenPath d rs).isSome then (if cut then 3 else 1) else 4

/-- Its status. -/
def checkStatus (d : Desc) (rs : List PathRes) (cut : Bool) : Nat :=
  if checkOutcome d rs cut = 1 ∨ checkOutcome d rs cut = 3 then 0x0160
  else if checkOutcome d rs cut = 2 ∨ checkOutcome d rs cut = 4 then 0x0161
  else if rs.any (fun r => r.unk) ∨ rs.any (fun r => r.out) then 0x0162 else 0

theorem checkStatus_mem (d : Desc) (rs : List PathRes) (cut : Bool) : checkStatus d rs cut ∈ [0, 0x0160, 0x0161, 0x0162] := by
  unfold checkStatus
  repeat' split
  all_goals decide

theorem bestPath_eq_none {rs : List PathRes} {ok : PathRes → Bool} (h : ∀ r, r ∈ rs → ok r = false) : bestPath rs ok = none := by
  refine congrArg (Option.map _) (List.foldlRecOn (motive := fun b => b = none) _ _ rfl fun b hb p hp => ?_)
  rw [if_neg (by rw [h p.2 (List.of_mem_zip hp).2]; decide), hb]

/-- A check that has examined nothing selects no path. -/
theorem checkStatus_of_unexamined {d : Desc} {rs : List PathRes} (h : ∀ r, r ∈ rs → r = PathRes.unexamined) (cut : Bool) :
    checkStatus d rs cut = 0x0161 := by
  have hfree : freePath d rs = none := by
    unfold freePath
    split
    · rw [List.findSome?_eq_none_iff]
      intro p hp
      rw [h p.2 (List.of_mem_zip hp).2]
      rfl
    · exact bestPath_eq_none fun r hr => by rw [h r hr]; rfl
  have hchosen : chosenPath d rs = none := by
    unfold chosenPath
    rw [hfree]
    exact bestPath_eq_none fun r hr => by rw [h r hr]; rfl
  have houtcome : checkOutcome d rs cut = 4 := by
    rw [checkOutcome, hfree, hchosen]
    rfl
  rw [checkStatus, houtcome]
  rfl

/-! ### What a check writes and counts -/

/-- What the examination of a check comes to: its results, whether a stop cut it, and the flags. -/
def checkFound (s : State) (d : Desc) (budget : Option Nat) : (List PathRes × Bool) × Nat :=
  runFlg (examPaths s d (checkPaths d) budget false false)

/-- The profiles, the path records and the head of the result. -/
def State.putResults (s : State) (d : Desc) (rs : List PathRes) (head : List Byte) : State :=
  ((((List.range rs.length).zip rs).foldl (fun s p =>
    if p.2.prof then s.wr (d.f 36 6 + 1024 * p.1) (p.2.vals.map (fun v => toBytes 4 (bits32 v))).flatten else s) s).wr
      (d.f 30 6 + 64) (rs.map pathBytes).flatten).wr (d.f 30 6) head

/-- A check is counted, and a second time where it ends early (0x0161). -/
def State.countStatus (s : State) (st : Nat) : State :=
  if st = 0x0161 then (s.bumpOd 0x2800 0x02).bumpOd 0x2800 0x04 else s.bumpOd 0x2800 0x02

/-- A check whose bricks hold no error writes its results, is counted, and ends with its status. -/
theorem checkRun_of_sound {s : State} {d : Desc} {budget : Option Nat} {rs : List PathRes} {cut : Bool} {fl : Nat}
    (hfound : checkFound s d budget = ((rs, cut), fl)) (herr : rs.any (fun r => r.err) = false) (id : Nat) :
    ∃ head exd busy miss, head.length = 64 ∧ checkRun s id d budget =
      ((((s.draw.2.putResults d rs head).countCheck d.die exd busy miss).countStatus (checkStatus d rs cut)).updDesc id
        (fun x => { x with aux := [exd, busy] })).finish id (checkStatus d rs cut) fl := by
  unfold checkFound at hfound
  unfold checkRun
  rw [hfound]
  dsimp only
  rw [if_neg (by rw [herr]; decide)]
  refine ⟨_, _, _, _, ?_, rfl⟩
  simp only [List.length_append, toBytes_length, length_flatten_map fun _ => toBytes_length 2 _, List.length_range]

theorem checkRun_of_error {s : State} {d : Desc} {budget : Option Nat} {rs : List PathRes} {cut : Bool} {fl : Nat}
    (hfound : checkFound s d budget = ((rs, cut), fl)) (herr : rs.any (fun r => r.err) = true) (id : Nat) :
    checkRun s id d budget = cleFault s id d := by
  unfold checkFound at hfound
  unfold checkRun
  rw [hfound]
  dsimp only
  rw [if_pos herr]

/-! ### What the results cover -/

theorem pathBytes_length (r : PathRes) : (pathBytes r).length = 32 := by
  simp only [pathBytes, List.length_append, toBytes_length]

theorem profileBytes_length (l : List Val) : (l.map (fun v => toBytes 4 (bits32 v))).flatten.length = 4 * l.length := by
  rw [length_flatten_map fun _ => toBytes_length 4 _, Nat.mul_comm]

/-- The addresses that a check writes where its results are `rs`: head and records, and the profiles. -/
def resultArea (d : Desc) (rs : List PathRes) : Set Nat :=
  Set.Ico (d.f 30 6) (d.f 30 6 + (64 + 32 * rs.length)) ∪
    {a | ∃ p, p ∈ (List.range rs.length).zip rs ∧ p.2.prof = true ∧
      a ∈ Set.Ico (d.f 36 6 + 1024 * p.1) (d.f 36 6 + 1024 * p.1 + 4 * p.2.vals.length)}

theorem putResults_memOnly (s : State) (d : Desc) (rs : List PathRes) {head : List Byte} (hhead : head.length = 64) :
    MemOnly (resultArea d rs) s (s.putResults d rs head) := by
  refine (MemOnly.trans (MemOnly.foldl (fun p hp u => ?_) s) ((MemOnly.wr _ _ _).mono fun x hx => .inl ?_)).trans
    ((MemOnly.wr _ _ _).mono fun x hx => .inl ?_)
  · split
    · rename_i hprof
      have hwr := MemOnly.wr u (d.f 36 6 + 1024 * p.1) (p.2.vals.map (fun v => toBytes 4 (bits32 v))).flatten
      rw [profileBytes_length] at hwr
      exact hwr.mono fun x hx => .inr ⟨p, hp, hprof, hx⟩
    · exact .refl u
  · rw [hhead, Set.mem_Ico] at hx
    exact ⟨by omega, by omega⟩
  · rw [length_flatten_map pathBytes_length, Set.mem_Ico] at hx
    exact ⟨by omega, by omega⟩

theorem checkRngsOf {d : Desc} (hop : d.op = 0x0410) (s : State) : s.rngsOf d = (checkInfo s d).rngs := by
  simp [State.rngsOf, opInfo, hop]

/-- A result for each of the records, of paths of at most 256 values where they have a profile, lies within what the check grants. -/
theorem resultArea_subset {s : State} {d : Desc} {rs : List PathRes} (hop : d.op = 0x0410) (hlen : rs.length = d.f 42 2)
    (hprof : ∀ r, r ∈ rs → r.Profiled d) : resultArea d rs ⊆ writable (s.rngsOf d) := by
  have hout : wrLin (d.f 30 6) (64 + 32 * d.f 42 2) ∈ (checkInfo s d).rngs := by simp [checkInfo]
  rw [checkRngsOf hop]
  rintro a (⟨hlo, hhi⟩ | ⟨p, hp, hpp, hlo, hhi⟩)
  · exact mem_writable hout hlo (by omega)
  · obtain ⟨hi, hr⟩ := List.of_mem_zip hp
    have hi := List.mem_range.mp hi
    obtain ⟨hbit, hvals⟩ := hprof p.2 hr hpp
    have hprofiles : wrLin (d.f 36 6) (1024 * d.f 42 2) ∈ (checkInfo s d).rngs := by simp [checkInfo, hbit]
    exact mem_writable hprofiles (by omega) (by omega)

/-- What an error makes undefined lies within what the check grants (R204). -/
theorem cleOuts_subset {s : State} {d : Desc} (hop : d.op = 0x0410) {r : Nat × Nat} (hr : r ∈ cleOuts d) :
    wrLin r.1 r.2 ∈ s.rngsOf d := by
  rw [checkRngsOf hop]
  rw [cleOuts, if_pos hop, List.mem_cons] at hr
  obtain rfl | hr := hr
  · simp [checkInfo]
  · split at hr
    · obtain rfl := List.mem_singleton.mp hr
      simp [checkInfo, *]
    · exact absurd hr List.not_mem_nil

/-! ### What a check counts (Tables 08-11, 08-12) -/

/-- The entries that count checks, and the registers of the engine of die `die`. -/
def checkKeys (die : Nat) : List Nat := [odKey 0x2800 2 0, odKey 0x2800 3 0, odKey 0x2800 4 0, odKey (0x4200 + die) 0x50 0]
def checkRegs (die : Nat) : List Nat := [baseCLE die + 8, baseCLE die + 0x10, baseCLE die + 0x18]

theorem interleave_not_mem_checkKeys (die : Nat) : odKey 0x2000 0x10 0 ∉ checkKeys die := by
  simp only [checkKeys, odKey, List.mem_cons, List.not_mem_nil, or_false]
  omega

section
variable (s : State) (die exd busy miss st : Nat)

theorem countCheck_frame : ∃ q r, s.countCheck die exd busy miss = { s with dict := q, regs := r } := by
  unfold State.countCheck State.bumpOd State.setOd State.bumpReg State.setReg
  exact ⟨_, _, rfl⟩

theorem countCheck_od : SameOd (checkKeys die) s (s.countCheck die exd busy miss) := by
  have hregs : SameOd (checkKeys die) s
      (((s.bumpReg (baseCLE die + 8) exd).bumpReg (baseCLE die + 0x10) busy).bumpReg (baseCLE die + 0x18) miss) := SameOd.of_dict _ rfl
  exact (hregs.bumpOd _ _ _ _ _ (by simp [checkKeys])).bumpOd _ _ _ _ _ (by simp [checkKeys])

theorem countCheck_regs : SameRegs (checkRegs die) s (s.countCheck die exd busy miss) := by
  have hsame : SameRegs (checkRegs die) s s := SameRegs.of_regs _ rfl
  exact ((hsame.bumpReg (baseCLE die + 8) exd (by simp [checkRegs])).bumpReg (baseCLE die + 0x10) busy (by simp [checkRegs])).bumpReg
    (baseCLE die + 0x18) miss (by simp [checkRegs])

theorem countCheck_checks : (s.countCheck die exd busy miss).od 0x2800 0x02 = s.od 0x2800 0x02 := by
  unfold State.countCheck
  rw [State.bumpOd_od_ne _ _ _ (by decide), State.bumpOd_od_ne _ _ _ (by unfold odKey; omega)]
  rfl

theorem countStatus_frame : ∃ q, s.countStatus st = { s with dict := q } := by
  unfold State.countStatus
  split <;> exact ⟨_, rfl⟩

theorem countStatus_od : SameOd (checkKeys die) s (s.countStatus st) := by
  have hcount : SameOd (checkKeys die) s (s.bumpOd 0x2800 0x02) :=
    (SameOd.of_dict (checkKeys die) rfl).bumpOd _ _ _ _ _ (by simp [checkKeys])
  unfold State.countStatus
  split
  · exact hcount.bumpOd _ _ _ _ _ (by simp [checkKeys])
  · exact hcount

theorem countStatus_checks : (s.countStatus st).od 0x2800 0x02 = (s.od 0x2800 0x02 + 1) % 2 ^ 32 := by
  unfold State.countStatus
  split
  · exact (State.bumpOd_od_ne _ _ _ (by decide)).trans (State.bumpOd_od_self _ _ _ _ _ _)
  · exact State.bumpOd_od_self _ _ _ _ _ _

/-- The counts of a check: what they change, and that it is one check more. -/
theorem counted_spec {u : State} (hu : u = (s.countCheck die exd busy miss).countStatus st) :
    (∃ q r, u = { s with dict := q, regs := r }) ∧ SameOd (checkKeys die) s u ∧ SameRegs (checkRegs die) s u ∧
      u.od 0x2800 0x02 = (s.od 0x2800 0x02 + 1) % 2 ^ 32 := by
  subst hu
  have hod := (countCheck_od s die exd busy miss).trans (countStatus_od (s.countCheck die exd busy miss) die st)
  have hregs := countCheck_regs s die exd busy miss
  have hchecks := countStatus_checks (s.countCheck die exd busy miss) st
  rw [countCheck_checks] at hchecks
  obtain ⟨q, hstatus⟩ := countStatus_frame (s.countCheck die exd busy miss) st
  have hsame : SameRegs (checkRegs die) (s.countCheck die exd busy miss) ((s.countCheck die exd busy miss).countStatus st) :=
    SameRegs.of_regs _ (by rw [hstatus])
  refine ⟨?_, hod, hregs.trans hsame, hchecks⟩
  obtain ⟨q', r, hcount⟩ := countCheck_frame s die exd busy miss
  exact ⟨q, r, by rw [hstatus, hcount]⟩

end

end Sys2Proof.Machine
end

section
/-! Path checks (R188, R196–R200, R204): how the commands that end a check answer. -/

namespace Sys2Proof.Machine

/-! ### The end of a check -/

/-- A check that ends in state `v`, where free values, memory, dictionary, registers and its own entry have changed: what its command
answers reads the same, memory being in canonical form. -/
theorem done_of_check {s u v : State} {id : Nat} {d e : Desc} (hs : Invariant s)
    (hu : ∃ k m q r, u = { s with free := k, mem := m, dict := q, regs := r }) (hd : s.desc? id = some d)
    (hv : v = { u with descs := v.descs }) (hself : u.desc? id = some d → v.desc? id = some e)
    (hother : ∀ j, j ≠ id → v.desc? j = u.desc? j) :
    ∃ t, s.done v = .next t ∧ t = { s with free := t.free, mem := t.mem, dict := t.dict, regs := t.regs, descs := t.descs } ∧
      t.desc? id = some e ∧ (∀ j, j ≠ id → t.desc? j = s.desc? j) ∧ t.dict = u.dict ∧ t.regs = u.regs ∧
      ∀ b, t.byteAt b = u.byteAt b := by
  obtain ⟨k, m, q, r, rfl⟩ := hu
  rw [hv]
  exact ⟨_, State.done_of_flash hs rfl rfl, rfl, hself hd, hother, rfl, rfl, fun b => canon_byteAt _ b⟩

section
variable {s : State} {id : Nat} {d : Desc} (hs : Invariant s) (hd : s.desc? id = some d)
include hs hd

theorem done_checkRun_of_sound {budget : Option Nat} {rs : List PathRes} {cut : Bool} {fl : Nat}
    (hfound : checkFound s d budget = ((rs, cut), fl)) (herr : rs.any (fun r => r.err) = false) :
    ∃ t e, s.done (checkRun s id d budget) = .next t ∧
      t = { s with free := t.free, mem := t.mem, dict := t.dict, regs := t.regs, descs := t.descs } ∧
      t.desc? id = some e ∧ e.result = some { status := checkStatus d rs cut, outcome := 0, flags := fl } ∧
      (∀ j, j ≠ id → t.desc? j = s.desc? j) ∧ SameOd (checkKeys d.die) s t ∧ t.od 0x2800 0x02 = (s.od 0x2800 0x02 + 1) % 2 ^ 32 ∧
      SameRegs (checkRegs d.die) s t ∧
      ∀ b, isRegSpace b = false → (∀ a, a ∈ resultArea d rs → s.loc a ≠ s.loc b) → t.byteAt b = s.byteAt b := by
  obtain ⟨head, exd, busy, miss, hhead, hrun⟩ := checkRun_of_sound hfound herr id
  rw [hrun]
  have hput := putResults_memOnly s.draw.2 d rs hhead
  generalize s.draw.2.putResults d rs head = w at hput ⊢
  have hwdict : w.dict = s.dict := by obtain ⟨m, rfl⟩ := hput.frame; rfl
  have hwregs : w.regs = s.regs := by obtain ⟨m, rfl⟩ := hput.frame; rfl
  generalize hu : (w.countCheck d.die exd busy miss).countStatus (checkStatus d rs cut) = u
  obtain ⟨huframe, huod, huregs, hchecks⟩ := counted_spec w d.die exd busy miss (checkStatus d rs cut) hu.symm
  have humem : u.mem = w.mem := by obtain ⟨q, r, rfl⟩ := huframe; rfl
  have huflash : u.flash = w.flash := by obtain ⟨q, r, rfl⟩ := huframe; rfl
  have hframe : ∃ k m q r, u = { s with free := k, mem := m, dict := q, regs := r } := by
    obtain ⟨m, rfl⟩ := hput.frame
    obtain ⟨q, r, rfl⟩ := huframe
    exact ⟨_, m, q, r, rfl⟩
  obtain ⟨t, hnext, ht, hself, hother, hdict, hregs, hbytes⟩ := done_of_check (id := id) (d := d) hs hframe hd rfl
    (fun hu => finish_desc (updDesc_desc_self hu (fun x => { x with aux := [exd, busy] })) (checkStatus d rs cut) fl)
    (fun j hj => ((State.updDesc_desc _ id j _).trans (if_neg (Ne.symm hj))).trans
      ((State.updDesc_desc _ id j _).trans (if_neg (Ne.symm hj))))
  have hod (i j : Nat) : w.od i j = s.od i j := SameOd.of_dict [] hwdict i j 0 List.not_mem_nil
  refine ⟨t, _, hnext, ht, hself, rfl, hother, ((SameOd.of_dict _ hwdict).trans huod).trans (SameOd.of_dict _ hdict), ?_,
    ((SameRegs.of_regs _ hwregs).trans huregs).trans (SameRegs.of_regs _ hregs), fun b hb hout => ?_⟩
  · rw [← hod, ← hchecks]
    exact SameOd.of_dict [] hdict _ _ _ List.not_mem_nil
  · have hcounted := SameBytes.of_mem humem (huod.interleaved (interleave_not_mem_checkKeys _)) huflash
    exact ((hbytes b).trans (hcounted.1 b hb)).trans (hput.bytes b hb hout)

theorem done_checkRun_of_error (hop : d.op = 0x0410) {budget : Option Nat} {rs : List PathRes} {cut : Bool} {fl : Nat}
    (hfound : checkFound s d budget = ((rs, cut), fl)) (herr : rs.any (fun r => r.err) = true) :
    ∃ t e, s.done (checkRun s id d budget) = .next t ∧
      t = { s with free := t.free, mem := t.mem, dict := t.dict, regs := t.regs, descs := t.descs } ∧
      t.desc? id = some e ∧ e.result = some { status := 0x0576, outcome := 0, flags := 0 } ∧
      (∀ j, j ≠ id → t.desc? j = s.desc? j) ∧ t.dict = s.dict ∧ SameRegs [baseCLE d.die + 0x20] s t ∧
      t.reg (baseCLE d.die + 0x20) = (s.reg (baseCLE d.die + 0x20) + 1) % 2 ^ 64 ∧
      ∀ b, isRegSpace b = false → (∀ a, a ∈ writable (s.rngsOf d) → s.loc a ≠ s.loc b) → t.byteAt b = s.byteAt b := by
  rw [checkRun_of_error hfound herr]
  have hscribbled : OpEffect [] (writable (s.rngsOf d)) s ((cleOuts d).foldl (fun s r => s.scribble r.1 r.2) s) :=
    List.foldlRecOn _ _ (OpEffect.refl s) fun u hu r hr => hu.scribble fun i hi =>
      mem_writable (cleOuts_subset hop hr) (Nat.le_add_right _ _) (Nat.add_lt_add_left hi _)
  have hwdict : ((cleOuts d).foldl (fun s r => s.scribble r.1 r.2) s).dict = s.dict := by
    obtain ⟨k, m, hframe⟩ := foldl_free_mem_frame (fun (u : State) (r : Nat × Nat) => scribble_frame u r.1 r.2) (cleOuts d) s
    rw [hframe]
  unfold cleFault
  generalize (cleOuts d).foldl (fun s r => s.scribble r.1 r.2) s = w at hscribbled hwdict ⊢
  have hwregs : w.regs = s.regs := by obtain ⟨k, m, q, rfl⟩ := hscribbled.frame; rfl
  have hframe : ∃ k m q r, w.bumpReg (baseCLE d.die + 0x20) = { s with free := k, mem := m, dict := q, regs := r } := by
    obtain ⟨k, m, q, rfl⟩ := hscribbled.frame
    exact ⟨k, m, q, _, rfl⟩
  obtain ⟨t, hnext, ht, hself, hother, hdict, hregs, hbytes⟩ := done_of_check (id := id) (d := d) hs hframe hd rfl
    (fun hu => finish_desc hu 0x0576 0) (fun j hj => (State.updDesc_desc _ id j _).trans (if_neg (Ne.symm hj)))
  have hreg (a : Nat) : t.reg a = if baseCLE d.die + 0x20 = a then (s.reg (baseCLE d.die + 0x20) + 1) % 2 ^ 64 else s.reg a := by
    have hbumped := State.bumpReg_reg w (baseCLE d.die + 0x20) 1 a
    simp only [State.reg, hwregs] at hbumped
    simp only [State.reg, hregs, hbumped]
  refine ⟨t, _, hnext, ht, hself, rfl, hother, hdict.trans hwdict, fun a ha => ?_, (hreg _).trans (if_pos rfl), fun b hb hout => ?_⟩
  · rw [hreg, if_neg (Ne.symm (List.ne_of_not_mem_cons ha))]
  · have hbumped : SameBytes w (w.bumpReg (baseCLE d.die + 0x20)) := SameBytes.of_dict rfl rfl rfl
    exact ((hbytes b).trans (hbumped.1 b hb)).trans (hscribbled.bytes b hb hout)

/-- What the end of a check comes to, with `budget` groups examined in all where a stop instant ends it (R196–R200, R204). -/
theorem done_checkRun (hop : d.op = 0x0410) (budget : Option Nat) :
    ∃ t st fl e, s.done (checkRun s id d budget) = .next t ∧
      t = { s with free := t.free, mem := t.mem, dict := t.dict, regs := t.regs, descs := t.descs } ∧
      t.desc? id = some e ∧ e.result = some { status := st, outcome := 0, flags := fl } ∧ (∀ j, j ≠ id → t.desc? j = s.desc? j) ∧
      st ∈ [0, 0x0160, 0x0161, 0x0162, 0x0576] ∧ (budget = some 0 → st = 0x0161) ∧ SameOd (checkKeys d.die) s t ∧
      (st ≠ 0x0576 → t.od 0x2800 0x02 = (s.od 0x2800 0x02 + 1) % 2 ^ 32 ∧ SameRegs (checkRegs d.die) s t) ∧
      (st = 0x0576 → t.dict = s.dict ∧ SameRegs [baseCLE d.die + 0x20] s t ∧
        t.reg (baseCLE d.die + 0x20) = (s.reg (baseCLE d.die + 0x20) + 1) % 2 ^ 64) ∧
      (d.aux.length = 2 * d.f 42 2 + 1 → ∀ b, isRegSpace b = false →
        (∀ a, a ∈ writable (s.rngsOf d) → s.loc a ≠ s.loc b) → t.byteAt b = s.byteAt b) := by
  obtain ⟨hlen, hprof⟩ := (yields_examPaths s d (checkPaths d) budget false false).runFlg
  have hnothing (h : budget = some 0) : ∀ r, r ∈ (checkFound s d budget).1.1 → r = PathRes.unexamined := by
    subst h
    exact (yields_examPaths_unexamined s d (checkPaths d) false false).runFlg
  generalize hfound : checkFound s d budget = x at hnothing
  rw [← checkFound, hfound] at hlen hprof
  obtain ⟨⟨rs, cut⟩, fl⟩ := x
  cases herr : rs.any (fun r => r.err) with
  | false =>
    obtain ⟨t, e, hnext, ht, hself, hres, hother, hod, hchecks, hregs, hbytes⟩ := done_checkRun_of_sound hs hd hfound herr
    have hmem := checkStatus_mem d rs cut
    have hne : checkStatus d rs cut ≠ 0x0576 := by
      intro h
      rw [h] at hmem
      exact absurd hmem (by decide)
    refine ⟨t, _, fl, e, hnext, ht, hself, hres, hother, List.mem_append_left [0x0576] hmem,
      fun h => checkStatus_of_unexamined (hnothing h) cut, hod, fun _ => ⟨hchecks, hregs⟩, fun h => absurd h hne,
      fun haux b hb hout => hbytes b hb fun a ha => hout a (resultArea_subset hop ?_ hprof ha)⟩
    rw [hlen, checkPaths_length haux]
  | true =>
    obtain ⟨t, e, hnext, ht, hself, hres, hother, hdict, hregs, hcount, hbytes⟩ := done_checkRun_of_error hs hd hop hfound herr
    refine ⟨t, _, 0, e, hnext, ht, hself, hres, hother, by decide, fun h => ?_, SameOd.of_dict _ hdict, fun h => absurd rfl h,
      fun _ => ⟨hdict, hregs, hcount⟩, fun _ => hbytes⟩
    obtain ⟨r, hr, hbad⟩ := List.any_eq_true.mp herr
    rw [hnothing h r hr] at hbad
    exact absurd hbad (by decide)

end

end Sys2Proof.Machine

namespace Sys2Proof

open Sys2Proof.Machine

/-! ### The commands (R188, R200) -/

section
variable {s : State} {id : Nat} {d : Desc} (hd : s.desc? id = some d) (hres : d.result = none) (hop : d.op = 0x0410)
  (hstop : s.stopOf d = none)
include hd hres hop hstop

/-- The command of a running check: it ends the check that its engine runs, before its stop instant. -/
theorem pathCheck_of_running (hst : d.st = .running) (hreg : s.regReads d = []) : s.pathCheck id =
    if s.runningCheck d.die = some id ∧ s.stopDue d = false then checkRun s id d none else s :=
  runCle_of_running hd hst hres hop (.inr rfl) hstop hreg (p := anyDesc) rfl _

theorem pathCheck_of_idle (hreg : s.regReads d = []) (h : s.runningCheck d.die ≠ some id ∨ s.stopDue d = true) :
    s.pathCheck id = s := by
  by_cases hst : d.st = .running
  · rw [pathCheck_of_running hd hres hop hstop hst hreg, if_neg]
    rintro ⟨hrun, hdue⟩
    rw [hdue] at h
    exact h.elim (fun h => h hrun) Bool.false_ne_true
  · have hon : s.opOn id 0x0410 = none := by simp [State.opOn, hd, hst]
    simp only [State.pathCheck, State.runCle, hon]

theorem checkStop_of_due (hst : d.st ≠ .waiting) (hdue : s.stopDue d = true) (k : Nat) : s.checkStop id k =
    checkRun s id d (some (if s.runningCheck d.die = some id then max k (checkDone d) else checkDone d)) := by
  simp [State.checkStop, hd, hres, hop, hstop, hst, hdue]

omit hres hop hstop in
theorem checkStop_of_not_due (hdue : s.stopDue d = false) (k : Nat) : s.checkStop id k = s := by
  simp [State.checkStop, hd, hdue]

end

/-- Settles O38. A check writes a record for each of its paths and a profile of at most 256 values where it writes one, so that
nothing outside its result and its profiles changes; where no group was examined no path is selected, whatever the maps hold. -/
theorem pathChecks : Obligations.PathChecks := by
  unfold Obligations.PathChecks
  intro s id k budget d hs hd hst hres hop hstop hreg hbudget
  have hrngs {b : Nat} (h : ∀ g, g ∈ s.rngsOf d → g.wr = true → ∀ k, k < g.n → s.loc (g.a + k) ≠ s.loc b) :
      ∀ a, a ∈ writable (s.rngsOf d) → s.loc a ≠ s.loc b := by
    rintro a ⟨g, hg, hwr, hlo, hhi⟩
    rw [← Nat.add_sub_cancel' hlo]
    exact h g hg hwr _ (by omega)
  refine ⟨fun hrunning hrun hdue => ?_, fun hdue => ?_, fun hidle => ?_, fun hdue => ?_⟩
  · have hexec : exec (.pathCheck id) s = s.done (s.pathCheck id) := rfl
    rw [hexec, pathCheck_of_running hd hres hop hstop hrunning hreg, if_pos ⟨hrun, hdue⟩]
    obtain ⟨t, st, fl, e, hnext, ht, hself, hresult, hother, hmem, _, hod, hsound, herror, hbytes⟩ := done_checkRun hs hd hop none
    exact ⟨t, st, fl, e, hnext, ht, hself, hresult, hother, hmem, hod, hsound, herror,
      fun haux b hb hout => hbytes haux b hb (hrngs hout)⟩
  · have hexec : exec (.checkStopInstant id k) s = s.done (s.checkStop id k) := rfl
    rw [hexec, checkStop_of_due hd hres hop hstop hst hdue, ← hbudget]
    obtain ⟨t, st, fl, e, hnext, ht, hself, hresult, hother, hmem, hnothing, hod, hsound, herror, hbytes⟩ :=
      done_checkRun hs hd hop (some budget)
    exact ⟨t, st, fl, e, hnext, ht, hself, hresult, hother, hmem, fun h => hnothing (congrArg some h), hod, hsound, herror,
      fun haux b hb hout => hbytes haux b hb (hrngs hout)⟩
  · have hexec : exec (.pathCheck id) s = s.done (s.pathCheck id) := rfl
    rw [hexec, pathCheck_of_idle hd hres hop hstop hreg hidle]
    exact State.done_of_same hs rfl rfl rfl
  · have hexec : exec (.checkStopInstant id k) s = s.done (s.checkStop id k) := rfl
    rw [hexec, checkStop_of_not_due hd hdue]
    exact State.done_of_same hs rfl rfl rfl

end Sys2Proof
end

section
/-! What a safety cause changes (R371, R372, R386): the island and the notices, and on the entry to Safe-Hold the descriptors that it
ends. No entry of the fusion engine is among what it writes. -/

namespace Sys2Proof.Machine

/-- The entries that a raised cause may write: verdicts, mailbox collisions, and the module's last state change. -/
def causeKeys : List Nat :=
  [odKey 0x2200 3 0, odKey 0x2500 0x14 0, odKey 0x2000 6 0, odKey 0x2000 7 0, odKey 0x2000 0x0A 0]

/-- From `s` to `t` nothing has changed but what a safety cause may change. -/
structure CauseOnly (s t : State) : Prop where
  frame : ∃ k m x r ds pg q y md i b, t = { s with
    free := k, mem := m, dict := x, regs := r, descs := ds, pages := pg, maps := q, b2h := y, md := md, isl := i, brd := b }
  od : SameOd causeKeys s t

namespace CauseOnly

variable {s t u : State}

theorem refl (s : State) : CauseOnly s s := ⟨⟨_, _, _, _, _, _, _, _, _, _, _, rfl⟩, SameOd.of_dict _ rfl⟩

theorem trans (h : CauseOnly s t) (k : CauseOnly t u) : CauseOnly s u := by
  obtain ⟨⟨_, _, _, _, _, _, _, _, _, _, _, rfl⟩, hod⟩ := h
  exact ⟨k.frame, hod.trans k.od⟩

theorem of_isl (s : State) (i : Isl) : CauseOnly s { s with isl := i } :=
  ⟨⟨_, _, _, _, _, _, _, _, _, _, _, rfl⟩, SameOd.of_dict _ rfl⟩

theorem of_md (s : State) (m : Mod) : CauseOnly s { s with md := m } :=
  ⟨⟨_, _, _, _, _, _, _, _, _, _, _, rfl⟩, SameOd.of_dict _ rfl⟩

theorem of_b2h (s : State) (y : AMap Mbox) : CauseOnly s { s with b2h := y } :=
  ⟨⟨_, _, _, _, _, _, _, _, _, _, _, rfl⟩, SameOd.of_dict _ rfl⟩

theorem setOd (s : State) {i j : Nat} (v : Nat) (h : odKey i j 0 ∈ causeKeys) : CauseOnly s (s.setOd i j v) :=
  ⟨⟨_, _, _, _, _, _, _, _, _, _, _, rfl⟩, (SameOd.of_dict causeKeys rfl).setOd i j v 0 h⟩

theorem toHost (s : State) (m w : Nat) : CauseOnly s (s.toHost m w) := by
  unfold State.toHost State.countColl
  dsimp only
  split
  · exact (of_b2h s _).trans (setOd _ _ (by simp [causeKeys]))
  · exact of_b2h s _

theorem sendNotice (s : State) (kind st : Nat) (l : List Byte) : CauseOnly s (s.sendNotice kind st l) :=
  (of_md s { s.md with notices := (s.md.notices + 1) % 2 ^ 32 }).trans (toHost _ _ _)

theorem notice (s : State) (kind st src : Nat) (l : List Byte) : CauseOnly s (s.notice kind st src l) := by
  unfold State.notice
  split
  · exact of_md s _
  · dsimp only
    split
    · exact (sendNotice s kind st l).trans (of_md _ _)
    · exact sendNotice s kind st l

theorem verdict (s : State) (c : Nat) : CauseOnly s (s.verdict c) := by
  have hreg : CauseOnly s (s.bumpReg (baseSAF + 0x18)) := ⟨⟨_, _, _, _, _, _, _, _, _, _, _, rfl⟩, SameOd.of_dict _ rfl⟩
  have hdraw (u : State) : CauseOnly u u.freeDetail.2 := ⟨⟨_, _, _, _, _, _, _, _, _, _, _, rfl⟩, SameOd.of_dict _ rfl⟩
  exact ((hreg.trans (setOd _ _ (by simp [causeKeys]))).trans (hdraw _)).trans (notice _ _ _ _ _)

theorem takeSafe (s : State) (c r : Nat) : CauseOnly s (s.takeSafe c r) := by
  obtain ⟨i, h⟩ := takeSafe_frame s c r
  rw [h]
  exact of_isl s i

theorem safeHoldEntry (s : State) : CauseOnly s s.safeHoldEntry := by
  obtain ⟨k, m, ds, pg, q, h⟩ := endWhere_frame s (fun d => decide (2 ≤ d.cls) && decide (d.st ≠ .running)) 0x030C 0x03
  unfold State.safeHoldEntry
  rw [h]
  exact ⟨⟨_, _, _, _, _, _, _, _, _, _, _, rfl⟩, SameOd.of_dict _ rfl⟩

end CauseOnly

/-- The module's record and entries as it enters state `st`; the descriptors follow. -/
def State.entering (s : State) (st status : Nat) : State :=
  let u := { s with
    md := { s.md with st := st, at_ := s.barTime }
    brd := { s.brd with unplanned := s.brd.unplanned && !(decide (7 ≤ st ∧ st ≤ 10)) } }
  ((u.setOd 0x2000 0x06 s.md.st).setOd 0x2000 0x07 status).bumpOd 0x2000 0x0A

theorem CauseOnly.entering (s : State) (st status : Nat) : CauseOnly s (s.entering st status) := by
  have hrec : CauseOnly s { s with
      md := { s.md with st := st, at_ := s.barTime }
      brd := { s.brd with unplanned := s.brd.unplanned && !(decide (7 ≤ st ∧ st ≤ 10)) } } :=
    ⟨⟨_, _, _, _, _, _, _, _, _, _, _, rfl⟩, SameOd.of_dict _ rfl⟩
  exact ((hrec.trans (setOd _ _ (by simp [causeKeys]))).trans (setOd _ _ (by simp [causeKeys]))).trans
    (setOd _ _ (by simp [causeKeys]))

/-- On the entry to Safe-Hold descriptors are refused, and the change is noticed and entered as an error (R73, R351, R365). -/
theorem enterState_safeHold (s : State) (status : Nat) : ∃ l, s.enterState 11 status =
    ((s.entering 11 status).safeHoldEntry.sendNotice 1 status l).enterErr status 0 := ⟨_, rfl⟩

namespace CauseOnly

theorem enterState_safeHold (s : State) (status : Nat) : CauseOnly s (s.enterState 11 status) := by
  obtain ⟨l, h⟩ := Machine.enterState_safeHold s status
  rw [h]
  exact (((entering s 11 status).trans (safeHoldEntry _)).trans (sendNotice _ _ _ _)).trans (of_md _ _)

/-- While the safe state is held the module may enter no state but Safe-Hold (Table 14-4). -/
theorem modUpdate_of_safe {s : State} (h : s.isl.safe ≠ 0) (status : Nat) : CauseOnly s (s.modUpdate status) := by
  unfold State.modUpdate
  split
  · have hranked : s.ranked = 11 := if_pos h
    rw [hranked]
    exact enterState_safeHold s status
  · exact refl s

end CauseOnly

/-- The island leaves the safe state only by the lift: a reaction holds it or leaves it as it was. -/
theorem takeSafe_safe (s : State) (c r : Nat) : (s.takeSafe c r).isl.safe = s.isl.safe ∨ (s.takeSafe c r).isl.safe ≠ 0 := by
  unfold State.takeSafe
  split
  · exact .inl rfl
  split
  · split
    · exact .inl rfl
    · exact .inr Nat.one_ne_zero
  split
  · exact .inl rfl
  · exact .inr (Nat.succ_ne_zero 1)

/-- A cause that is newly raised: it is in force, has its verdict, and its reaction follows. -/
def State.judged (s : State) (c : Nat) : State :=
  let s := { s with isl := { s.isl with causes := s.isl.causes ||| (2 ^ c) } }
  if 3 ≤ c then s.verdict c else s

theorem raiseCause_of_new {s : State} {c : Nat} (h : (s.hasCause c && !causeEvent c) = false) : s.raiseCause c =
    if (s.judged c).isl.safe = ((s.judged c).takeSafe c ((s.judged c).reaction c)).isl.safe then
      (s.judged c).takeSafe c ((s.judged c).reaction c)
    else ((s.judged c).takeSafe c ((s.judged c).reaction c)).modUpdate (causeStatus c) := by
  unfold State.raiseCause
  rw [h]
  rfl

namespace CauseOnly

theorem judged (s : State) (c : Nat) : CauseOnly s (s.judged c) := by
  unfold State.judged
  dsimp only
  split
  · exact (of_isl s _).trans (verdict _ c)
  · exact of_isl s _

theorem raiseCause (s : State) (c : Nat) : CauseOnly s (s.raiseCause c) := by
  cases h : (s.hasCause c && !causeEvent c) with
  | true =>
    unfold State.raiseCause
    rw [if_pos h]
    exact refl s
  | false =>
    rw [raiseCause_of_new h]
    have htaken := (judged s c).trans (takeSafe (s.judged c) c ((s.judged c).reaction c))
    split
    · exact htaken
    · rename_i hne
      exact htaken.trans (modUpdate_of_safe ((takeSafe_safe _ _ _).resolve_left (Ne.symm hne)) _)

theorem condCause (s : State) (c : Nat) (on : Bool) : CauseOnly s (s.condCause c on) := by
  unfold State.condCause State.dropCause
  split
  · exact raiseCause s c
  split
  · exact refl s
  · exact of_isl s _

theorem fseReport (s : State) : CauseOnly s s.fseReport := (condCause s 10 _).trans (condCause _ 11 _)

theorem judgeCrc (s : State) (idx sub : Nat) : CauseOnly s (s.judgeCrc idx sub) := by
  unfold State.judgeCrc
  split
  · exact condCause s 16 _
  · exact refl s

variable {s t : State}

theorem pending (h : CauseOnly s t) : t.pending = s.pending := by
  obtain ⟨⟨_, _, _, _, _, _, _, _, _, _, _, rfl⟩, _⟩ := h
  rfl

theorem flash (h : CauseOnly s t) : t.flash = s.flash := by
  obtain ⟨⟨_, _, _, _, _, _, _, _, _, _, _, rfl⟩, _⟩ := h
  rfl

theorem fse (h : CauseOnly s t) : t.fse = s.fse := by
  obtain ⟨⟨_, _, _, _, _, _, _, _, _, _, _, rfl⟩, _⟩ := h
  rfl

/-- No cause writes an entry of an object beyond 0x2500. -/
theorem od_fuse (h : CauseOnly s t) {i : Nat} (hi : 0x2501 ≤ i) (j : Nat) : t.od i j = s.od i j := by
  refine h.od i j 0 fun hmem => ?_
  simp only [causeKeys, odKey, List.mem_cons, List.not_mem_nil, or_false] at hmem
  omega

end CauseOnly

end Sys2Proof.Machine
end

section
/-! Writes of the fusion engine's entries (R209, R214, R217, R227, R231, R233–R235) as accesses of the dictionary: their effect, and
what the answer leaves of it. -/

namespace Sys2Proof.Machine

/-! ### Readers of the engine's tables -/

theorem src_congr {s t : State} (h : t.fse = s.fse) (n : Nat) : t.src n = s.src n := by
  unfold State.src
  rw [h]

theorem fset_congr {s t : State} (h : t.fse = s.fse) (i : Nat) : t.fset i = s.fset i := by
  unfold State.fset
  rw [h]

/-- The answer of an access writes no entry of an object beyond 0x2002. -/
theorem od_of_answer {s t : State} (h : SameOd [odKey 0x2002 3 0] s t) {i : Nat} (hi : 0x2003 ≤ i) (j : Nat) : t.od i j = s.od i j := by
  refine h i j 0 fun hmem => ?_
  rw [List.mem_singleton] at hmem
  unfold odKey at hmem
  omega

theorem setOd_od_of_ne (s : State) (v : Nat) {i j p q : Nat} (hj : j < 256) (hq : q < 256) (h : i ≠ p ∨ j ≠ q) :
    (s.setOd i j v).od p q = s.od p q :=
  State.setOd_od_ne s v (by unfold odKey; omega)

/-! ### The effect of a write -/

section

variable {s : State} {idx sub inst v : Nat} {x : Seg} {r : State × Nat}

theorem effMod_of_fuse (hlo : 0x2610 ≤ idx) (hhi : idx ≤ 0x2680) : s.effMod idx sub v x = none := by
  have hbelow (k : Nat) (hk : k < 0x2610) : idx ≠ k := by omega
  have hout (lo hi : Nat) (hk : hi < 0x2610) : within idx lo hi = false := by
    unfold within
    exact decide_eq_false (by omega)
  simp [State.effMod, hbelow, hout]

/-- A write of one of the engine's own entries has the engine's effect, and the island judges its configuration anew (R395). -/
theorem effect_of_effFuse (hlo : 0x2610 ≤ idx) (hhi : idx ≤ 0x2680) (h : s.effFuse idx sub v = some r) :
    s.effect idx sub inst v x = (r.1.judgeCrc idx sub, r.2) := by
  unfold State.effect
  rw [effMod_of_fuse hlo hhi, h]
  rfl

theorem judgeCrc_of_not_safety (hidx : idx ≠ 0x2200) (h : inSafetySet idx sub = false) (u : State) : u.judgeCrc idx sub = u := by
  simp [State.judgeCrc, h, hidx]

end

/-- What a set, an inertial source or the enable of a source configures is no part of the safety configuration (R395). -/
theorem inSafetySet_of_fuse {idx sub : Nat} (h : 0x2670 ≤ idx ∧ idx ≤ 0x2680 ∨ 0x2610 ≤ idx ∧ idx < 0x2650 ∧ sub = 1) :
    inSafetySet idx sub = false := by
  have hne (k : Nat) (hk : k < 0x2610) : idx ≠ k := by omega
  have hout (lo hi : Nat) (hk : hi < idx ∨ idx < lo) : within idx lo hi = false := by
    unfold within
    exact decide_eq_false (by omega)
  have hsub : within idx 0x2610 0x264F = true → within sub 0x0C 0x0F = false := by
    obtain h | ⟨_, _, rfl⟩ := h
    · rw [hout 0x2610 0x264F (by omega)]
      exact nofun
    · exact fun _ => rfl
  unfold inSafetySet
  rw [hout 0x2220 0x226F (by omega), hout 0x2280 0x22BF (by omega), hout 0x2740 0x277F (by omega), hout 0x2660 0x266F (by omega)]
  simpa [hne] using hsub

section

variable {s : State} {v : Nat}

theorem effFuse_source {n : Nat} (hn : n < 64) : s.effFuse (0x2610 + n) 1 v =
    some (if v = 1 ∧ ¬ s.srcOn n then (s.setOd (0x2610 + n) 1 1).startSource n else s.setOd (0x2610 + n) 1 v, 0) := by
  have hin : within (0x2610 + n) 0x2610 0x264F = true := decide_eq_true (by omega)
  simp [State.effFuse, hin]

theorem effFuse_group {g : Nat} (hg : g < 16) : s.effFuse (0x2660 + g) 1 v =
    some (if v = 1 then (if s.grpOn g then s else (s.setOd (0x2660 + g) 1 1).startGroup g)
          else if s.grpOn g then (s.setOd (0x2660 + g) 1 0).stopGroup g (s.claimsOut g) else s, 0) := by
  have hout : within (0x2660 + g) 0x2610 0x264F = false := decide_eq_false (by omega)
  have hin : within (0x2660 + g) 0x2660 0x266F = true := decide_eq_true (by omega)
  simp [State.effFuse, hin, hout]

theorem effFuse_set {i : Nat} (hi : i < 8) : s.effFuse (0x2670 + i) 1 v =
    some (if v = 1 then (if s.setOn i then s else (s.setOd (0x2670 + i) 1 1).startSet i) else (s.setOd (0x2670 + i) 1 0).stopSet i, 0) := by
  have hsource : within (0x2670 + i) 0x2610 0x264F = false := decide_eq_false (by omega)
  have hgroup : within (0x2670 + i) 0x2660 0x266F = false := decide_eq_false (by omega)
  have hin : within (0x2670 + i) 0x2670 0x2677 = true := decide_eq_true (by omega)
  simp [State.effFuse, hin, hsource, hgroup]

theorem effFuse_inertial : s.effFuse 0x2680 1 v = some ((s.setOd 0x2680 1 v).egoTurn v, 0) := by
  simp [State.effFuse, within]

theorem effFuse_resetPose : s.effFuse 0x2680 9 v =
    some ({ s with fse := { s.fse with ego := { s.fse.ego with reset := true } } }, 0) := by
  simp [State.effFuse, within]

end

/-! ### The command -/

section

variable {s r : State} {path idx sub v : Nat}

/-- An accepted write of one of the engine's entries: its effect with the island's judgement, in canonical form, and its answer. -/
theorem access_fuse (hs : Invariant s) (h : Accepted s path idx sub 1 v) (hlo : 0x2610 ≤ idx) (hhi : idx ≤ 0x2680)
    (he : s.effFuse idx sub v = some (r, 0)) (hp : r.pending = s.pending) (hf : r.flash = s.flash) :
    ∃ t, s.done (s.access path idx sub 1 v Seg.none) = .next t ∧
      t = { r.judgeCrc idx sub with mem := cellCanon 0 (r.judgeCrc idx sub).mem, dict := t.dict, md := t.md } ∧
      SameOd [odKey 0x2002 3 0] (r.judgeCrc idx sub) t ∧ Answered path 0 t := by
  have hgroup : isGroup idx = false := decide_eq_false (by omega)
  have hcause := CauseOnly.judgeCrc r idx sub
  obtain ⟨t, ht, hframe, hod, hans, _⟩ := access_spec Seg.none hgroup h (by omega) (effect_of_effFuse hlo hhi he)
  have hpending : t.pending = s.pending := by rw [hframe]; exact hcause.pending.trans hp
  have hflash : t.flash = s.flash := by rw [hframe]; exact hcause.flash.trans hf
  have hmem : t.mem = (r.judgeCrc idx sub).mem := by rw [hframe]
  rw [ht]
  refine ⟨_, State.done_of_flash hs hpending hflash, ?_, hod, hans⟩
  rw [hmem]
  conv_lhs => rw [hframe]

/-- The same of an entry outside the safety configuration. -/
theorem access_fuse_of_not_safety (hs : Invariant s) (h : Accepted s path idx sub 1 v)
    (hidx : 0x2670 ≤ idx ∧ idx ≤ 0x2680 ∨ 0x2610 ≤ idx ∧ idx < 0x2650 ∧ sub = 1) (he : s.effFuse idx sub v = some (r, 0))
    (hr : r = { s with mem := r.mem, dict := r.dict, fse := r.fse }) (hm : Memory.wf r.mem = true) :
    ∃ t, s.done (s.access path idx sub 1 v Seg.none) = .next t ∧
      t = { s with mem := r.mem, dict := t.dict, fse := r.fse, md := t.md } ∧ SameOd [odKey 0x2002 3 0] r t ∧ Answered path 0 t := by
  obtain ⟨t, hnext, hframe, hod, hans⟩ := access_fuse hs h (by omega) (by omega) he (by rw [hr]) (by rw [hr])
  rw [judgeCrc_of_not_safety (by omega) (inSafetySet_of_fuse hidx)] at hframe hod
  refine ⟨t, hnext, ?_, hod, hans⟩
  rw [cellCanon_of_wf 0 _ hm] at hframe
  rw [hr] at hframe
  exact hframe

/-- The same of one that leaves memory alone. -/
theorem access_fuse_quiet (hs : Invariant s) (h : Accepted s path idx sub 1 v)
    (hidx : 0x2670 ≤ idx ∧ idx ≤ 0x2680 ∨ 0x2610 ≤ idx ∧ idx < 0x2650 ∧ sub = 1) (he : s.effFuse idx sub v = some (r, 0))
    (hr : r = { s with dict := r.dict, fse := r.fse }) (hil : r.interleaved = s.interleaved) :
    ∃ t, s.done (s.access path idx sub 1 v Seg.none) = .next t ∧ t = { s with dict := t.dict, fse := t.fse, md := t.md } ∧
      t.fse = r.fse ∧ SameBytes s t ∧ SameOd [odKey 0x2002 3 0] r t ∧ Answered path 0 t := by
  have hmem : r.mem = s.mem := by rw [hr]
  obtain ⟨t, hnext, hframe, hod, hans⟩ :=
    access_fuse_of_not_safety hs h hidx he (by rw [hr]) (by rw [hmem]; exact hs.1)
  have hfse : t.fse = r.fse := by rw [hframe]
  have htmem : t.mem = s.mem := by rw [hframe]; exact hmem
  have htil : t.interleaved = s.interleaved := (hod.interleaved (by decide)).trans hil
  have htflash : t.flash = s.flash := by rw [hframe]
  refine ⟨t, hnext, ?_, hfse, SameBytes.of_mem htmem htil htflash, hod, hans⟩
  rw [hmem, ← hfse] at hframe
  exact hframe

/-- The command that switches a voting group: `w` is the state before a cause follows from it. -/
theorem access_group {w : State} {g : Nat} (hs : Invariant s) (hg : g < 16) (h : Accepted s path (0x2660 + g) 1 1 v)
    (he : s.effFuse (0x2660 + g) 1 v = some (r, 0)) (hw : w = { s with dict := w.dict, fse := w.fse }) (hr : CauseOnly w r) :
    ∃ t, s.done (s.access path (0x2660 + g) 1 1 v Seg.none) = .next t ∧
      t = { s with free := t.free, mem := t.mem, dict := t.dict, regs := t.regs, descs := t.descs, pages := t.pages, maps := t.maps,
                   b2h := t.b2h, md := t.md, isl := t.isl, fse := t.fse, brd := t.brd } ∧
      t.flash = s.flash ∧ Answered path 0 t ∧ t.fse = w.fse ∧ ∀ i j, 0x2501 ≤ i → t.od i j = w.od i j := by
  have hpending : r.pending = s.pending := by rw [hr.pending, hw]
  have hflash : r.flash = s.flash := by rw [hr.flash, hw]
  obtain ⟨t, hnext, hframe, hod, hans⟩ := access_fuse hs h (by omega) (by omega) he hpending hflash
  have hcause := hr.trans (CauseOnly.judgeCrc r (0x2660 + g) 1)
  have hodw : ∀ i j, 0x2501 ≤ i → t.od i j = w.od i j := fun i j hi => (od_of_answer hod (by omega) j).trans (hcause.od_fuse hi j)
  have htflash : t.flash = s.flash := by rw [hframe]; exact hcause.flash.trans (by rw [hw])
  have htfse : t.fse = w.fse := by rw [hframe]; exact hcause.fse
  refine ⟨t, hnext, ?_, htflash, hans, htfse, hodw⟩
  obtain ⟨⟨_, _, _, _, _, _, _, _, _, _, _, hu⟩, _⟩ := hcause
  rw [hu, hw] at hframe
  rw [hframe]

end

end Sys2Proof.Machine
end

section
/-! Sources, groups, sets and ego-motion as they start and stop (R214, R217, R223, R227, R231, R235). -/

namespace Sys2Proof.Machine

theorem mem_maskList {m n : Nat} (h : n ∈ maskList m) : n < 64 := List.mem_range.mp (List.mem_filter.mp h).1

/-! ### Entries that are cleared one after another -/

section

variable {α : Type} (i j : α → Nat)

/-- Clear the entry that each element of a list names. -/
def State.clearOds (s : State) (l : List α) : State := l.foldl (fun s x => s.setOd (i x) (j x) 0) s

theorem clearOds_frame (s : State) (l : List α) : ∃ q, s.clearOds i j l = { s with dict := q } :=
  List.foldlRecOn l _ (motive := fun u => ∃ q, u = { s with dict := q }) ⟨_, rfl⟩ fun u hu x _ => by
    obtain ⟨q, rfl⟩ := hu
    exact ⟨_, rfl⟩

theorem clearOds_od_of_ne {s : State} {l : List α} {p q : Nat} (hj : ∀ x, x ∈ l → j x < 256) (hq : q < 256)
    (h : ∀ x, x ∈ l → i x ≠ p ∨ j x ≠ q) : (s.clearOds i j l).od p q = s.od p q :=
  List.foldlRecOn l _ (motive := fun u => u.od p q = s.od p q) rfl fun u hu x hx =>
    (setOd_od_of_ne u 0 (hj x hx) hq (h x hx)).trans hu

theorem clearOds_od {s : State} {l : List α} (hj : ∀ x, x ∈ l → j x < 256) {x : α} (hx : x ∈ l) :
    (s.clearOds i j l).od (i x) (j x) = 0 := by
  induction l using List.reverseRecOn with
  | nil => exact absurd hx List.not_mem_nil
  | append_singleton l y ih =>
    unfold State.clearOds
    rw [List.foldl_append, List.foldl_cons, List.foldl_nil]
    by_cases hkey : i y = i x ∧ j y = j x
    · rw [hkey.1, hkey.2]
      exact State.setOd_od_self _ _ _ _ _
    · rw [setOd_od_of_ne _ 0 (hj y (by simp)) (hj x hx) (by omega)]
      refine ih (fun z hz => hj z (by simp [hz])) ?_
      obtain h | h := List.mem_append.mp hx
      · exact h
      · rw [List.mem_singleton] at h
        exact absurd ⟨by rw [h], by rw [h]⟩ hkey

end

/-! ### Sources (R209, R214, R223) -/

section

variable (s : State) (n : Nat)

theorem startSource_frame : ∃ q, s.startSource n =
    { s.setSrc n { Src.zero with frozen := (s.src n).frozen, held := (s.src n).held } with dict := q } :=
  clearOds_frame _ _ _ _

theorem startSource_src (m : Nat) : (s.startSource n).src m =
    if n = m then { Src.zero with frozen := (s.src n).frozen, held := (s.src n).held } else s.src m := by
  obtain ⟨q, h⟩ := startSource_frame s n
  rw [h, ← State.setSrc_src]
  rfl

theorem startSource_counts {i : Nat} (hi : i < 7) : (s.startSource n).so n (0x11 + i) = 0 :=
  clearOds_od (fun _ => srcIdx n) (0x11 + ·) (fun x hx => by have := List.mem_range.mp hx; omega) (List.mem_range.mpr hi)

/-- The counters apart, every entry stays. -/
theorem startSource_od {p q : Nat} (hq : q < 256) (h : srcIdx n ≠ p ∨ q < 0x11) : (s.startSource n).od p q = s.od p q :=
  clearOds_od_of_ne _ _ (fun x hx => by have := List.mem_range.mp hx; omega) hq (fun x _ => by omega)

end

/-! ### Voting groups (R227, R230) -/

section

variable (s : State) (g : Nat)

/-- The group's own running state as it starts. -/
def State.freshGroup : State := (s.setGrp g Grp.zero).setOd (0x2660 + g) 9 0

theorem startGroup_of_output (h : s.so ((s.members g).headD 0) 2 = 3 ∨ s.so ((s.members g).headD 0) 2 = 5) : s.startGroup g =
    (((s.freshGroup g).setOd (srcIdx (48 + g)) 2 6).setOd (srcIdx (48 + g)) 1 1).startSource (48 + g) := if_pos h

theorem startGroup_of_no_output (h : ¬ (s.so ((s.members g).headD 0) 2 = 3 ∨ s.so ((s.members g).headD 0) 2 = 5)) :
    s.startGroup g = s.freshGroup g := if_neg h

/-- A group starts with no vote and no outvoted member, and no set and no ego-motion with it. -/
theorem startGroup_spec : ∃ q srcs, s.startGroup g =
    { s with dict := q, fse := { (s.setGrp g Grp.zero).fse with srcs := srcs } } := by
  by_cases h : s.so ((s.members g).headD 0) 2 = 3 ∨ s.so ((s.members g).headD 0) 2 = 5
  · rw [startGroup_of_output s g h]
    generalize hu : ((s.freshGroup g).setOd (srcIdx (48 + g)) 2 6).setOd (srcIdx (48 + g)) 1 1 = u
    have hframe : ∃ q, u = { s.setGrp g Grp.zero with dict := q } := by
      rw [← hu]
      exact ⟨_, rfl⟩
    obtain ⟨q, rfl⟩ := hframe
    obtain ⟨q', hq⟩ := startSource_frame { s.setGrp g Grp.zero with dict := q } (48 + g)
    exact ⟨q', _, hq⟩
  · rw [startGroup_of_no_output s g h]
    exact ⟨_, _, rfl⟩

theorem startGroup_od {q : Nat} (hq : q < 256) :
    (s.startGroup g).od (0x2660 + g) q = if q = 9 then 0 else s.od (0x2660 + g) q := by
  have hfresh : (s.freshGroup g).od (0x2660 + g) q = if q = 9 then 0 else s.od (0x2660 + g) q := by
    split
    · rename_i h9
      rw [h9]
      exact State.setOd_od_self _ _ _ _ _
    · exact setOd_od_of_ne (s.setGrp g Grp.zero) 0 (by omega) hq (by omega)
  have hout : srcIdx (48 + g) ≠ 0x2660 + g := by unfold srcIdx; omega
  by_cases h : s.so ((s.members g).headD 0) 2 = 3 ∨ s.so ((s.members g).headD 0) 2 = 5
  · rw [startGroup_of_output s g h, startSource_od _ _ hq (.inl hout), setOd_od_of_ne _ _ (by omega) hq (.inl hout),
      setOd_od_of_ne _ _ (by omega) hq (.inl hout), hfresh]
  · rw [startGroup_of_no_output s g h, hfresh]

/-- The output source of a group of IMU or odometry sources is enabled and numbers its samples anew. -/
theorem startGroup_output (h : s.so ((s.members g).headD 0) 2 = 3 ∨ s.so ((s.members g).headD 0) 2 = 5) :
    (s.startGroup g).so (48 + g) 1 = 1 ∧ (s.startGroup g).so (48 + g) 2 = 6 ∧ ((s.startGroup g).src (48 + g)).seq = 0 := by
  rw [startGroup_of_output s g h]
  refine ⟨?_, ?_, ?_⟩
  · exact (startSource_od _ _ (by omega) (.inr (by omega))).trans (State.setOd_od_self _ _ _ _ _)
  · refine (startSource_od _ _ (by omega) (.inr (by omega))).trans ?_
    exact (setOd_od_of_ne _ _ (by omega) (by omega) (.inr (by omega))).trans (State.setOd_od_self _ _ _ _ _)
  · rw [startSource_src, if_pos rfl]
    rfl

/-- A stopped group, before the island hears of it: its members' health is cleared, and the output source it claimed is disabled. -/
def State.stoppedGroup (claimed : Bool) : State :=
  let s := (State.clearOds srcIdx (fun _ => 0x10) s (s.members g)).setGrp g Grp.zero
  if claimed then s.setOd (srcIdx (48 + g)) 1 0 else s

theorem stopGroup_eq (claimed : Bool) : s.stopGroup g claimed = (s.stoppedGroup g claimed).fseReport := rfl

theorem stoppedGroup_spec (claimed : Bool) : ∃ q, s.stoppedGroup g claimed = { s.setGrp g Grp.zero with dict := q } := by
  obtain ⟨q, hq⟩ := clearOds_frame srcIdx (fun _ => 0x10) s (s.members g)
  unfold State.stoppedGroup
  rw [hq]
  dsimp only
  split <;> exact ⟨_, rfl⟩

theorem stoppedGroup_od_of_ne (claimed : Bool) {p q : Nat} (hq : q < 256) (h : 0x2650 ≤ p) (hg : g < 16) :
    (s.stoppedGroup g claimed).od p q = s.od p q := by
  have hclear : (State.clearOds srcIdx (fun _ => 0x10) s (s.members g)).od p q = s.od p q := by
    refine clearOds_od_of_ne _ _ (fun _ _ => by omega) hq fun n hn => ?_
    have hlt := mem_maskList hn
    unfold srcIdx
    omega
  unfold State.stoppedGroup
  dsimp only
  split
  · exact (setOd_od_of_ne _ _ (by omega) hq (by unfold srcIdx; omega)).trans hclear
  · exact hclear

theorem stoppedGroup_health (claimed : Bool) {n : Nat} (hn : n ∈ s.members g) : (s.stoppedGroup g claimed).so n 0x10 = 0 := by
  have hclear : (State.clearOds srcIdx (fun _ => 0x10) s (s.members g)).od (srcIdx n) 0x10 = 0 :=
    clearOds_od srcIdx (fun _ => 0x10) (fun _ _ => by omega) hn
  unfold State.stoppedGroup
  dsimp only
  split
  · exact (setOd_od_of_ne _ _ (by omega) (by omega) (.inr (by omega))).trans hclear
  · exact hclear

theorem stoppedGroup_output : (s.stoppedGroup g true).srcOn (48 + g) = false :=
  beq_false_of_ne ((State.setOd_od_self _ _ _ _ _).trans_ne Nat.zero_ne_one)

end

/-! ### Fusion sets (R217, R235) -/

section

variable (i : Nat) (s : State)

/-- Set `i` has used no sample of source `n`. -/
def State.unuse (n : Nat) : State :=
  if AMap.getD i 0 (s.src n).used = 0 then s else s.setSrc n { s.src n with used := AMap.put 0 i 0 (s.src n).used }

theorem unuse_frame (n : Nat) : ∃ x, s.unuse i n = { s with fse := { s.fse with srcs := x } } := by
  unfold State.unuse
  split <;> exact ⟨_, rfl⟩

theorem unuse_used (n m : Nat) :
    AMap.getD i 0 ((s.unuse i n).src m).used = if n = m then 0 else AMap.getD i 0 (s.src m).used := by
  unfold State.unuse
  by_cases h : n = m
  · subst h
    rw [if_pos rfl]
    split
    · assumption
    · rw [State.setSrc_src, if_pos rfl]
      exact AMap.getD_put_self i 0 (0 : Nat) _
  · rw [if_neg h]
    split
    · rfl
    · rw [State.setSrc_src, if_neg h]

theorem foldl_unuse_frame (l : List Nat) : ∃ x, l.foldl (State.unuse i) s = { s with fse := { s.fse with srcs := x } } :=
  List.foldlRecOn l _ (motive := fun u => ∃ x, u = { s with fse := { s.fse with srcs := x } }) ⟨_, rfl⟩ fun u hu n _ => by
    obtain ⟨x, rfl⟩ := hu
    exact unuse_frame i _ n

theorem foldl_unuse_used {l : List Nat} {m : Nat} (h : m ∈ l ∨ AMap.getD i 0 (s.src m).used = 0) :
    AMap.getD i 0 ((l.foldl (State.unuse i) s).src m).used = 0 := by
  induction l generalizing s with
  | nil => exact h.resolve_left List.not_mem_nil
  | cons n l ih =>
    refine ih (s.unuse i n) ?_
    rw [unuse_used]
    by_cases hn : n = m
    · exact .inr (if_pos hn)
    · rw [if_neg hn]
      exact h.imp (fun hm => (List.mem_cons.mp hm).resolve_left (Ne.symm hn)) id

/-- What a set holds as it starts: its instants are numbered from 1, and a timer's first cut stands (R217). -/
def State.freshSet : FSet :=
  { s.fset i with num := 0, cuts := if (s.od (0x2670 + i) 3).testBit 7 then [s.fseTime + s.od (0x2670 + i) 4] else [] }

theorem setFset_src (x : FSet) (n : Nat) : (s.setFset i x).src n = s.src n := rfl

theorem startSet_spec : ∃ x, s.startSet i = { s with fse := { (s.setFset i (s.freshSet i)).fse with srcs := x } } ∧
    ∀ n, n < 64 → AMap.getD i 0 ((s.startSet i).src n).used = 0 := by
  obtain ⟨x, h⟩ := foldl_unuse_frame i s (List.range 64)
  have hstart : s.startSet i = ((List.range 64).foldl (State.unuse i) s).setFset i
      (((List.range 64).foldl (State.unuse i) s).freshSet i) := rfl
  refine ⟨x, ?_, fun n hn => ?_⟩
  · rw [hstart, h]
    rfl
  · rw [hstart, setFset_src]
    exact foldl_unuse_used i s (.inl (List.mem_range.mpr hn))

end

/-! ### Ego-motion (R231, R233) -/

theorem word_mod {k a : Nat} {l : List (Nat × Nat)} (h : ∀ p, p ∈ l → k ≤ p.1) : word ((0, a) :: l) % 2 ^ k = a % 2 ^ k := by
  have hzero : word ((0, a) :: l) = l.foldl (fun w p => w + p.2 * 2 ^ p.1) a := by
    unfold word
    rw [List.foldl_cons, Nat.zero_add, Nat.pow_zero, Nat.mul_one]
  rw [hzero]
  refine List.foldlRecOn l _ (motive := fun w => w % 2 ^ k = a % 2 ^ k) rfl fun w hw p hp => ?_
  have hdvd : 2 ^ k ∣ p.2 * 2 ^ p.1 := Dvd.dvd.mul_left (Nat.pow_dvd_pow 2 (h p hp)) _
  rw [Nat.add_mod, Nat.mod_eq_zero_of_dvd hdvd, Nat.add_zero, Nat.mod_mod, hw]

/-- The low bytes of a longer read. -/
theorem rd_mod (s : State) (a n m : Nat) : s.rd a (n + m) % 256 ^ n = s.rd a n := by
  induction n generalizing a with
  | zero => simp [State.rd, Nat.mod_one]
  | succ n ih =>
    have hb : (s.byteAt a).toNat < 256 := (s.byteAt a).isLt
    have hlow : ((s.byteAt a).toNat + 256 * s.rd (a + 1) (n + m)) % 256 = (s.byteAt a).toNat := by omega
    have hhigh : ((s.byteAt a).toNat + 256 * s.rd (a + 1) (n + m)) / 256 = s.rd (a + 1) (n + m) := by omega
    rw [Nat.add_right_comm, State.rd, State.rd, Nat.pow_succ', Nat.mod_mul, hlow, hhigh, ih]

/-- Ego-motion with its inertial source set anew: integration begins from the reset pose. -/
def Ego.restarted (e : Ego) : Ego :=
  { e with q := [0x3F800000, 0, 0, 0], v := [0, 0, 0], p := [0, 0, 0], steps := 0, valid := false, reset := true, skipped := false,
           gen := (e.gen + 2) % 2 ^ 32 }

/-- The record begins with its generation. -/
theorem writeEgo_spec (s : State) : ∃ w, s.writeEgo =
    ({ s with fse := { s.fse with ego := { s.fse.ego with gen := (s.fse.ego.gen + 2) % 2 ^ 32 } } }).wrHub (s.od 0x2680 2) 128 w ∧
      w % 2 ^ 32 = (s.fse.ego.gen + 2) % 2 ^ 32 := by
  have harr {b : Nat} (hb : 32 ≤ b) {l : List Nat} {p : Nat × Nat}
      (hp : p ∈ (List.range l.length).map (fun i => (b + 32 * i, l.getD i 0 % 2 ^ 32))) : 32 ≤ p.1 := by
    obtain ⟨i, _, rfl⟩ := List.mem_map.mp hp
    exact hb.trans (Nat.le_add_right _ _)
  refine ⟨_, rfl, (word_mod fun p hp => ?_).trans (Nat.mod_mod _ _)⟩
  simp only [List.append_eq, List.mem_append, List.mem_cons, List.not_mem_nil, or_false] at hp
  obtain (((((((rfl | rfl | rfl) | hq) | hv) | hp) | hw) | ha) | rfl | rfl) := hp
  · exact Nat.le_refl 32
  · exact Nat.le_of_ble_eq_true rfl
  · exact Nat.le_of_ble_eq_true rfl
  · exact harr (by omega) hq
  · exact harr (by omega) hv
  · exact harr (by omega) hp
  · exact harr (by omega) hw
  · exact harr (by omega) ha
  · exact Nat.le_of_ble_eq_true rfl
  · exact Nat.le_of_ble_eq_true rfl

/-- The pose is reset and a new record of it stands in hub SRAM (R231, R233). -/
theorem egoTurn_spec {s : State} {v : Nat} (hv : v ≠ 0xFF) : ∃ w, s.egoTurn v =
    ({ s with fse := { s.fse with ego := s.fse.ego.restarted } }).wr (hub (s.od 0x2680 2)) (toBytes 128 w) ∧
      w % 2 ^ 32 = (s.fse.ego.gen + 2) % 2 ^ 32 := by
  obtain ⟨w, hw, hgen⟩ := writeEgo_spec { s with fse := { s.fse with ego := { s.fse.ego.pose with reset := true, skipped := false } } }
  refine ⟨w, ?_, hgen⟩
  unfold State.egoTurn
  rw [if_neg hv]
  exact hw

end Sys2Proof.Machine
end

section
/-! The commands that switch what the fusion engine runs (R209, R214, R217, R227, R231, R233–R235). -/

namespace Sys2Proof

open Sys2Proof.Machine

section

variable {s : State} {path : Nat} (hs : Invariant s)
include hs

/-! ### Sources -/

theorem exec_sourceEnable {n : Nat} (hn : n < 64) (h : Accepted s path (0x2610 + n) 1 1 1) (hoff : s.srcOn n = false) :
    ∃ t, exec (.sourceEnable path n) s = .next t ∧ t = { s with dict := t.dict, fse := t.fse, md := t.md } ∧ SameBytes s t ∧
      Answered path 0 t ∧ t.srcOn n = true ∧ t.src n = { Src.zero with frozen := (s.src n).frozen, held := (s.src n).held } ∧
      (∀ i, i < 7 → t.so n (0x11 + i) = 0) ∧ ∀ m, m ≠ n → t.src m = s.src m := by
  have heff : s.effFuse (0x2610 + n) 1 1 = some ((s.setOd (0x2610 + n) 1 1).startSource n, 0) := by
    rw [effFuse_source hn, if_pos ⟨rfl, by rw [hoff]; exact Bool.false_ne_true⟩]
  have hil : ((s.setOd (0x2610 + n) 1 1).startSource n).interleaved = s.interleaved := by
    unfold State.interleaved
    rw [startSource_od _ _ (by omega) (.inl (by unfold srcIdx; omega)), setOd_od_of_ne _ _ (by omega) (by omega) (.inl (by omega))]
  have hframe : (s.setOd (0x2610 + n) 1 1).startSource n = { s with
      dict := ((s.setOd (0x2610 + n) 1 1).startSource n).dict, fse := ((s.setOd (0x2610 + n) 1 1).startSource n).fse } := by
    obtain ⟨q, hq⟩ := startSource_frame (s.setOd (0x2610 + n) 1 1) n
    rw [hq]
    rfl
  obtain ⟨t, hnext, ht, hfse, hbytes, hod, hans⟩ := access_fuse_quiet hs h (.inr ⟨by omega, by omega, rfl⟩) heff hframe hil
  have hsrc (m : Nat) := (src_congr hfse m).trans (startSource_src (s.setOd (0x2610 + n) 1 1) n m)
  refine ⟨t, hnext, ht, hbytes, hans, ?_, (hsrc n).trans (if_pos rfl), fun i hi => ?_, fun m hm => (hsrc m).trans (if_neg (Ne.symm hm))⟩
  · unfold State.srcOn
    rw [od_of_answer hod (by omega), startSource_od _ _ (by omega) (.inr (by omega)), State.setOd_od_self]
    rfl
  · exact (od_of_answer hod (by unfold srcIdx; omega) _).trans (startSource_counts _ _ hi)

/-- A write that is stored and has no other effect in the engine. -/
theorem exec_setSource {n v : Nat} (hn : n < 64) (h : Accepted s path (0x2610 + n) 1 1 v) (hv : ¬ (v = 1 ∧ ¬ s.srcOn n)) :
    ∃ t, s.done (s.access path (0x2610 + n) 1 1 v Seg.none) = .next t ∧ t = { s with dict := t.dict, md := t.md } ∧ SameBytes s t ∧
      Answered path 0 t ∧ t.srcOn n = (v == 1) ∧ SameOd [odKey (0x2610 + n) 1 0, odKey 0x2002 3 0] s t := by
  have heff : s.effFuse (0x2610 + n) 1 v = some (s.setOd (0x2610 + n) 1 v, 0) := by rw [effFuse_source hn, if_neg hv]
  have hil : (s.setOd (0x2610 + n) 1 v).interleaved = s.interleaved := by
    unfold State.interleaved
    rw [setOd_od_of_ne _ _ (by omega) (by omega) (.inl (by omega))]
  obtain ⟨t, hnext, ht, hfse, hbytes, hod, hans⟩ := access_fuse_quiet hs h (.inr ⟨by omega, by omega, rfl⟩) heff rfl hil
  refine ⟨t, hnext, ?_, hbytes, hans, ?_, ?_⟩
  · rw [hfse] at ht
    exact ht
  · unfold State.srcOn
    rw [od_of_answer hod (by omega), State.setOd_od_self]
  · exact ((SameOd.of_dict _ rfl).setOd _ 1 v 0 (List.mem_cons_self ..)).trans
      fun i j k hk => hod i j k fun hmem => hk (List.mem_cons_of_mem _ hmem)

/-! ### Voting groups -/

theorem exec_votingGroupEnable {g : Nat} (hg : g < 16) (h : Accepted s path (0x2660 + g) 1 1 1) (hoff : s.grpOn g = false) :
    ∃ t, exec (.votingGroupEnable path g) s = .next t ∧
      t = { s with free := t.free, mem := t.mem, dict := t.dict, regs := t.regs, descs := t.descs, pages := t.pages, maps := t.maps,
                   b2h := t.b2h, md := t.md, isl := t.isl, fse := t.fse, brd := t.brd } ∧ t.flash = s.flash ∧
      Answered path 0 t ∧ t.grpOn g = true ∧ t.grp g = Grp.zero ∧ t.od (0x2660 + g) 9 = 0 ∧ (∀ h, h ≠ g → t.grp h = s.grp h) ∧
      t.fse.sets = s.fse.sets ∧ t.fse.ego = s.fse.ego ∧
      (s.so ((s.members g).headD 0) 2 = 3 ∨ s.so ((s.members g).headD 0) 2 = 5 →
        t.srcOn (48 + g) = true ∧ t.so (48 + g) 2 = 6 ∧ (t.src (48 + g)).seq = 0) := by
  have heff : s.effFuse (0x2660 + g) 1 1 = some ((s.setOd (0x2660 + g) 1 1).startGroup g, 0) := by
    rw [effFuse_group hg, if_pos rfl, if_neg (by rw [hoff]; exact Bool.false_ne_true)]
  obtain ⟨q, srcs, hspec⟩ := startGroup_spec (s.setOd (0x2660 + g) 1 1) g
  obtain ⟨t, hnext, ht, hflash, hans, hfse, hod⟩ := access_group hs hg h heff (by rw [hspec]; rfl) (CauseOnly.refl _)
  have hentry {q : Nat} (hq : q < 256) := (hod (0x2660 + g) q (by omega)).trans (startGroup_od (s.setOd (0x2660 + g) 1 1) g hq)
  have hfse' := hfse.trans (congrArg State.fse hspec)
  have hgrp (k : Nat) : t.grp k = if g = k then Grp.zero else s.grp k := by
    rw [← State.setGrp_grp s g k Grp.zero]
    unfold State.grp
    rw [hfse']
    rfl
  refine ⟨t, hnext, ht, hflash, hans, ?_, (hgrp g).trans (if_pos rfl), hentry (by omega),
    fun k hk => (hgrp k).trans (if_neg (Ne.symm hk)), ?_, ?_, fun htype => ?_⟩
  · unfold State.grpOn
    rw [hentry (by omega), if_neg (by omega), State.setOd_od_self]
    rfl
  · rw [hfse']
    rfl
  · rw [hfse']
    rfl
  · have hmembers : (s.setOd (0x2660 + g) 1 1).members g = s.members g := by
      unfold State.members
      rw [setOd_od_of_ne _ _ (by omega) (by omega) (.inr (by omega))]
    have htype' : (s.setOd (0x2660 + g) 1 1).so (((s.setOd (0x2660 + g) 1 1).members g).headD 0) 2 =
        s.so ((s.members g).headD 0) 2 := by
      rw [hmembers]
      exact setOd_od_of_ne _ _ (by omega) (by omega) (.inr (by omega))
    obtain ⟨hon, htyp, hseq⟩ := startGroup_output (s.setOd (0x2660 + g) 1 1) g (by rw [htype']; exact htype)
    refine ⟨?_, (hod _ _ (by unfold srcIdx; omega)).trans htyp, by rw [src_congr hfse]; exact hseq⟩
    exact beq_iff_eq.mpr ((hod _ _ (by omega)).trans hon)

theorem exec_votingGroupDisable {g : Nat} (hg : g < 16) (h : Accepted s path (0x2660 + g) 1 1 0) (hon : s.grpOn g = true) :
    ∃ t, exec (.votingGroupDisable path g) s = .next t ∧
      t = { s with free := t.free, mem := t.mem, dict := t.dict, regs := t.regs, descs := t.descs, pages := t.pages, maps := t.maps,
                   b2h := t.b2h, md := t.md, isl := t.isl, fse := t.fse, brd := t.brd } ∧ t.flash = s.flash ∧
      Answered path 0 t ∧ t.grpOn g = false ∧ t.grp g = Grp.zero ∧ t.fse.srcs = s.fse.srcs ∧ (∀ h, h ≠ g → t.grp h = s.grp h) ∧
      (∀ n, n ∈ s.members g → t.so n 0x10 = 0) ∧ (s.claimsOut g = true → t.srcOn (48 + g) = false) := by
  have heff : s.effFuse (0x2660 + g) 1 0 =
      some (((s.setOd (0x2660 + g) 1 0).stoppedGroup g (s.claimsOut g)).fseReport, 0) := by
    rw [effFuse_group hg, if_neg (by omega), if_pos hon, stopGroup_eq]
  obtain ⟨q, hspec⟩ := stoppedGroup_spec (s.setOd (0x2660 + g) 1 0) g (s.claimsOut g)
  obtain ⟨t, hnext, ht, hflash, hans, hfse, hod⟩ := access_group hs hg h heff (by rw [hspec]; rfl) (CauseOnly.fseReport _)
  have hfse' := hfse.trans (congrArg State.fse hspec)
  have hgrp (k : Nat) : t.grp k = if g = k then Grp.zero else s.grp k := by
    rw [← State.setGrp_grp s g k Grp.zero]
    unfold State.grp
    rw [hfse']
    rfl
  have hmembers : (s.setOd (0x2660 + g) 1 0).members g = s.members g := by
    unfold State.members
    rw [setOd_od_of_ne _ _ (by omega) (by omega) (.inr (by omega))]
  refine ⟨t, hnext, ht, hflash, hans, ?_, (hgrp g).trans (if_pos rfl), ?_, fun k hk => (hgrp k).trans (if_neg (Ne.symm hk)),
    fun n hn => ?_, fun hclaim => ?_⟩
  · unfold State.grpOn
    rw [hod _ _ (by omega), stoppedGroup_od_of_ne _ _ _ (by omega) (by omega) hg, State.setOd_od_self]
    rfl
  · rw [hfse']
    rfl
  · exact (hod _ _ (by unfold srcIdx; omega)).trans (stoppedGroup_health _ _ _ (by rw [hmembers]; exact hn))
  · have hout := stoppedGroup_output (s.setOd (0x2660 + g) 1 0) g
    rw [hclaim] at hod
    unfold State.srcOn at hout ⊢
    rw [hod _ _ (by omega), hout]

/-! ### Fusion sets -/

theorem exec_fusionSetEnable {i : Nat} (hi : i < 8) (h : Accepted s path (0x2670 + i) 1 1 1) (hoff : s.setOn i = false) :
    ∃ t, exec (.fusionSetEnable path i) s = .next t ∧ t = { s with dict := t.dict, fse := t.fse, md := t.md } ∧ SameBytes s t ∧
      Answered path 0 t ∧ t.setOn i = true ∧ (t.fset i).num = 0 ∧ (t.fset i).insts = (s.fset i).insts ∧
      ((s.od (0x2670 + i) 3).testBit 7 = false → (t.fset i).cuts = []) ∧
      ((s.od (0x2670 + i) 3).testBit 7 = true → (t.fset i).cuts = [s.fseTime + s.od (0x2670 + i) 4]) ∧
      ∀ n, n < 64 → AMap.getD i 0 (t.src n).used = 0 := by
  have heff : s.effFuse (0x2670 + i) 1 1 = some ((s.setOd (0x2670 + i) 1 1).startSet i, 0) := by
    rw [effFuse_set hi, if_pos rfl, if_neg (by rw [hoff]; exact Bool.false_ne_true)]
  have hkeep {p q : Nat} (hq : q < 256) (hne : 0x2670 + i ≠ p ∨ 1 ≠ q) : (s.setOd (0x2670 + i) 1 1).od p q = s.od p q :=
    setOd_od_of_ne s 1 (by omega) hq hne
  obtain ⟨x, hspec, hused⟩ := startSet_spec i (s.setOd (0x2670 + i) 1 1)
  obtain ⟨t, hnext, ht, hfse, hbytes, hod, hans⟩ := access_fuse_quiet hs h (.inl (by omega)) heff (by rw [hspec]; rfl)
    (by unfold State.interleaved; rw [hspec]; exact congrArg (· == 1) (hkeep (by omega) (.inl (by omega))))
  have hset : t.fset i = (s.setOd (0x2670 + i) 1 1).freshSet i := by
    rw [fset_congr hfse, hspec]
    exact (State.setFset_fset _ i i _).trans (if_pos rfl)
  have hfresh : (s.setOd (0x2670 + i) 1 1).freshSet i = s.freshSet i := by
    unfold State.freshSet
    rw [hkeep (by omega) (.inr (by omega)), hkeep (by omega) (.inr (by omega))]
    rfl
  rw [hfresh] at hset
  refine ⟨t, hnext, ht, hbytes, hans, ?_, by rw [hset]; rfl, by rw [hset]; rfl, fun hlead => ?_, fun htimer => ?_,
    fun n hn => by rw [src_congr hfse]; exact hused n hn⟩
  · have hon : ((s.setOd (0x2670 + i) 1 1).startSet i).od (0x2670 + i) 1 = 1 := by
      rw [hspec]
      exact State.setOd_od_self s _ _ _ _
    unfold State.setOn
    rw [od_of_answer hod (by omega), hon]
    rfl
  · rw [hset]
    exact if_neg (by rw [hlead]; exact Bool.false_ne_true)
  · rw [hset]
    exact if_pos htimer

theorem exec_fusionSetDisable {i : Nat} (hi : i < 8) (h : Accepted s path (0x2670 + i) 1 1 0) :
    ∃ t, exec (.fusionSetDisable path i) s = .next t ∧ t = { s with dict := t.dict, fse := t.fse, md := t.md } ∧ SameBytes s t ∧
      Answered path 0 t ∧ t.setOn i = false ∧ t.fset i = { s.fset i with cuts := [] } ∧ t.fse.srcs = s.fse.srcs ∧
      (∀ j, j ≠ i → t.fset j = s.fset j) ∧ SameOd [odKey (0x2670 + i) 1 0, odKey 0x2002 3 0] s t := by
  have heff : s.effFuse (0x2670 + i) 1 0 = some ((s.setOd (0x2670 + i) 1 0).stopSet i, 0) := by
    rw [effFuse_set hi, if_neg (by omega)]
  obtain ⟨t, hnext, ht, hfse, hbytes, hod, hans⟩ := access_fuse_quiet hs h (.inl (by omega)) heff rfl
    (congrArg (· == 1) (setOd_od_of_ne s 0 (by omega) (by omega) (.inl (by omega))))
  have hset (j : Nat) : t.fset j = if i = j then { s.fset i with cuts := [] } else s.fset j :=
    (fset_congr hfse j).trans (State.setFset_fset _ i j _)
  refine ⟨t, hnext, ht, hbytes, hans, ?_, (hset i).trans (if_pos rfl), by rw [hfse]; rfl,
    fun j hj => (hset j).trans (if_neg (Ne.symm hj)), ?_⟩
  · unfold State.setOn
    rw [od_of_answer hod (by omega)]
    exact congrArg (· == 1) (State.setOd_od_self s _ _ _ _)
  · refine SameOd.trans (t := (s.setOd (0x2670 + i) 1 0).stopSet i) ?_
      fun i j k hk => hod i j k fun hmem => hk (List.mem_cons_of_mem _ hmem)
    exact ((SameOd.of_dict _ rfl).setOd _ 1 0 0 (List.mem_cons_self ..)).trans (SameOd.of_dict _ rfl)

/-! ### Ego-motion -/

theorem exec_inertialOff (h : Accepted s path 0x2680 1 1 0xFF) :
    ∃ t, exec (.inertialSourceWrite path 0xFF) s = .next t ∧ t = { s with dict := t.dict, md := t.md } ∧ SameBytes s t ∧
      Answered path 0 t ∧ t.od 0x2680 1 = 0xFF := by
  have heff : s.effFuse 0x2680 1 0xFF = some (s.setOd 0x2680 1 0xFF, 0) := effFuse_inertial
  obtain ⟨t, hnext, ht, hfse, hbytes, hod, hans⟩ := access_fuse_quiet hs h (.inl (by omega)) heff rfl
    (congrArg (· == 1) (setOd_od_of_ne s 0xFF (by omega) (by omega) (.inl (by omega))))
  refine ⟨t, hnext, ?_, hbytes, hans, (od_of_answer hod (by omega) 1).trans (State.setOd_od_self s _ _ _ _)⟩
  rw [hfse] at ht
  exact ht

theorem exec_inertialSource {v : Nat} (h : Accepted s path 0x2680 1 1 v) (hv : v ≠ 0xFF) (hrec : s.od 0x2680 2 + 128 ≤ hubSize) :
    ∃ t, exec (.inertialSourceWrite path v) s = .next t ∧
      t = { s with mem := t.mem, dict := t.dict, md := t.md, fse := { s.fse with ego := s.fse.ego.restarted } } ∧
      SameBytesBut (hub (s.od 0x2680 2)) 128 s t ∧ Answered path 0 t ∧ t.od 0x2680 1 = v ∧
      t.rd (hub (s.od 0x2680 2)) 4 = (s.fse.ego.gen + 2) % 2 ^ 32 := by
  obtain ⟨w, hturn, hgen⟩ := egoTurn_spec (s := s.setOd 0x2680 1 v) hv
  have hwhere : (s.setOd 0x2680 1 v).od 0x2680 2 = s.od 0x2680 2 := setOd_od_of_ne s v (by omega) (by omega) (.inr (by omega))
  rw [hwhere] at hturn
  obtain ⟨u, hu⟩ : ∃ u, u = { s.setOd 0x2680 1 v with fse := { s.fse with ego := s.fse.ego.restarted } } := ⟨_, rfl⟩
  have heff : s.effFuse 0x2680 1 v = some (u.wr (hub (s.od 0x2680 2)) (toBytes 128 w), 0) := by
    rw [effFuse_inertial, hturn, hu]
    rfl
  have hwr := wr_eq u (hub (s.od 0x2680 2)) (toBytes 128 w)
  have hwf := Memory.wf_wr u (hub (s.od 0x2680 2)) (toBytes 128 w) (by rw [hu]; exact hs.1)
  obtain ⟨t, hnext, ht, hod, hans⟩ := access_fuse_of_not_safety hs h (.inl (by omega)) heff
    (by rw [hwr, hu]; rfl) hwf
  have huil : u.interleaved = s.interleaved := by
    rw [hu]
    exact congrArg (· == 1) (setOd_od_of_ne s v (by omega) (by omega) (.inl (by omega)))
  have htil : t.interleaved = (u.wr (hub (s.od 0x2680 2)) (toBytes 128 w)).interleaved := hod.interleaved (by decide)
  have hbyte (a : Nat) : t.byteAt a = (u.wr (hub (s.od 0x2680 2)) (toBytes 128 w)).byteAt a :=
    byteAt_congr (by rw [ht]) htil (by rw [ht, hwr, hu]; rfl) a
  have hall : t.rd (hub (s.od 0x2680 2)) 128 = w % 256 ^ 128 :=
    (rd_congr_range fun i _ => hbyte _).trans (rd_wr_hub u 128 w hrec)
  refine ⟨t, hnext, ?_, ⟨fun b hb hout => ?_, by rw [ht]⟩, hans, ?_, ?_⟩
  · have hmem : t.mem = (u.wr (hub (s.od 0x2680 2)) (toBytes 128 w)).mem := by rw [ht]
    have hfse : (u.wr (hub (s.od 0x2680 2)) (toBytes 128 w)).fse = { s.fse with ego := s.fse.ego.restarted } := by
      rw [hwr, hu]
    rw [← hmem, hfse] at ht
    exact ht
  · rw [hbyte, wr_byteAt_out u _ b _ hb fun i hi => ?_]
    · exact byteAt_congr (by rw [hu]; rfl) huil (by rw [hu]; rfl) b
    · rw [loc_congr huil, loc_congr huil]
      exact hout i (by rwa [toBytes_length] at hi)
  · rw [od_of_answer hod (by omega), hwr, hu]
    exact State.setOd_od_self s _ _ _ _
  · have hlow := rd_mod t (hub (s.od 0x2680 2)) 4 124
    rw [hall] at hlow
    rw [← hlow, Nat.mod_mod_of_dvd w (pow_dvd_pow 256 (by omega : 4 ≤ 128))]
    exact hgen

theorem exec_resetPose (h : Accepted s path 0x2680 9 1 1) :
    ∃ t, exec (.resetPose path) s = .next t ∧
      t = { s with dict := t.dict, md := t.md, fse := { s.fse with ego := { s.fse.ego with reset := true } } } ∧ SameBytes s t ∧
      Answered path 0 t ∧ SameOd [odKey 0x2002 3 0] s t := by
  obtain ⟨t, hnext, ht, hfse, hbytes, hod, hans⟩ := access_fuse_quiet hs h (.inl (by omega)) effFuse_resetPose rfl rfl
  refine ⟨t, hnext, ?_, hbytes, hans, (SameOd.of_dict _ rfl).trans hod⟩
  rw [hfse] at ht
  exact ht

end

/-- Settles O53. Each command is an accepted write of one of the engine's own entries: its effect is the entry's, and where the entry
belongs to the safety configuration the island's judgement follows, which writes none of the engine's entries. -/
theorem fusionControl : Obligations.FusionControl := by
  unfold Obligations.FusionControl
  intro s path hs _
  refine ⟨fun n hn h => ⟨exec_sourceEnable hs hn h, fun hon => ?_⟩, fun n hn h => ?_, fun g hg => exec_votingGroupEnable hs hg,
    fun g hg => exec_votingGroupDisable hs hg, fun i hi => exec_fusionSetEnable hs hi, fun i hi => exec_fusionSetDisable hs hi,
    fun v h => ⟨?_, exec_inertialSource hs h⟩, exec_resetPose hs⟩
  · obtain ⟨t, hnext, ht, hbytes, hans, hsrc, _⟩ := exec_setSource hs hn h (fun hstart => hstart.2 hon)
    exact ⟨t, hnext, ht, hbytes, hans, hsrc⟩
  · exact exec_setSource hs hn h (fun hstart => absurd hstart.1 (by omega))
  · rintro rfl
    exact exec_inertialOff hs h

end Sys2Proof
end

section
/-! A statement that a descriptor's end refutes. A sample that freezes a safety-marked source raises cause 10 (R223, R386); the reaction
takes the module to Safe-Hold, which ends what waits on a core (R73), and what a started operation leaves of its outputs is undefined
(R88). Where those lie in the source's ring, the sample's bytes are gone with them. -/

namespace Sys2Proof.Machine

/-! ### What the entry to Safe-Hold leaves of an output (R73, R88) -/

/-- An undefined byte of DRAM has the value drawn for it. -/
theorem scribble_byteAt (s : State) {a n i : Nat} (h : a + n ≤ 2 ^ 36) (hi : i < n) :
    (s.scribble a n).byteAt (a + i) = BitVec.ofNat 8 (Config.free s.free i) := by
  have hlen : ((List.range n).map (fun i => BitVec.ofNat 8 (Config.free s.free i))).length = n := by
    rw [List.length_map, List.length_range]
  have hread := wr_byteAt_in { s with free := s.free + 1 } a ((List.range n).map (fun i => BitVec.ofNat 8 (Config.free s.free i)))
    (fun j hj => isRegSpace_of_lt (by omega))
    (fun j k hj hk e => Nat.add_left_cancel ((dram_loc_inj _ (a + j) (a + k) (by omega) (by omega)).mp e)) i (by omega)
  rw [List.getElem_map, List.getElem_range] at hread
  exact hread

section

variable {s : State} {id : Nat} {d : Desc} {r w : Rng}

/-- Safe-Hold ends the one outstanding descriptor, a stopped one, and makes its output undefined. -/
theorem safeHoldEntry_of_stopped (hds : s.descs = [(id, d)]) (hcls : 2 ≤ d.cls) (hst : d.st = .stopped) (hres : d.result = none)
    (hop : d.op ≤ 0xFF) (hrngs : s.rngsOf d = [r, w]) (hr : r.wr = false) (hw : w.wr = true) :
    ∃ ds, s.safeHoldEntry = { s.scribble w.a w.n with descs := ds } := by
  have hd : s.desc? id = some d := by
    unfold State.desc?
    rw [hds]
    exact if_pos rfl
  have hcut : s.cutEffects id d = s.scribble w.a w.n := by
    unfold State.cutEffects State.scribbleOuts
    rw [if_pos hop, hrngs]
    simp [hr, hw]
  refine ⟨s.safeHoldEntry.descs, ?_⟩
  unfold State.safeHoldEntry State.endWhere
  rw [hds, List.foldl_cons, List.foldl_nil]
  simp only [hd, Option.any_some, hcls, hst, decide_true, ne_eq, reduceCtorEq, not_false_eq_true, Bool.and_self, if_true]
  unfold State.endDesc
  rw [hd]
  dsimp only
  rw [hres, hst, hcut]
  rfl

theorem enterState_byteAt (status a : Nat) : (s.enterState 11 status).byteAt a = (s.entering 11 status).safeHoldEntry.byteAt a := by
  obtain ⟨l, h⟩ := enterState_safeHold s status
  have hod := CauseOnly.sendNotice (s.entering 11 status).safeHoldEntry 1 status l
  rw [h]
  refine byteAt_congr ?_ (hod.od.interleaved (by decide)) ?_ a
  · obtain ⟨x, y, m, hn⟩ := sendNotice_frame (s.entering 11 status).safeHoldEntry 1 status l
    rw [hn]
  · obtain ⟨x, y, m, hn⟩ := sendNotice_frame (s.entering 11 status).safeHoldEntry 1 status l
    rw [hn]

end

/-! ### A cause that is raised in Mission (R371, R372) -/

/-- A notice leaves the module's state and Barista's as they are. -/
theorem notice_state (s : State) (kind st src : Nat) (l : List Byte) :
    (s.notice kind st src l).md.st = s.md.st ∧ (s.notice kind st src l).md.barista = s.md.barista := by
  have hsend : (s.sendNotice kind st l).md = { s.md with notices := (s.md.notices + 1) % 2 ^ 32 } := by
    unfold State.sendNotice
    dsimp only
    obtain ⟨x, y, h⟩ := toHost_frame { s with md := { s.md with notices := (s.md.notices + 1) % 2 ^ 32 } } 1
      (ofBytes (toBytes 4 ((s.md.notices + 1) % 2 ^ 32) ++ toBytes 2 kind ++ toBytes 2 st ++ toBytes 8 s.barTime
        ++ (l ++ List.replicate (48 - l.length) 0)))
    rw [h]
  have herr (u : State) : (u.enterErr st src).md.st = u.md.st ∧ (u.enterErr st src).md.barista = u.md.barista := by
    unfold State.enterErr
    dsimp only
    split <;> exact ⟨rfl, rfl⟩
  unfold State.notice
  split
  · exact ⟨rfl, rfl⟩
  · dsimp only
    split
    · rw [(herr _).1, (herr _).2, hsend]
      exact ⟨rfl, rfl⟩
    · rw [hsend]
      exact ⟨rfl, rfl⟩

/-- A newly raised cause that carries a status has the detail of its notice drawn. -/
theorem judged_frame (s : State) {c : Nat} (hc : 3 ≤ c) : ∃ x r y m, s.judged c = { s with
    free := s.free + 1, dict := x, regs := r, b2h := y, md := m, isl := { s.isl with causes := s.isl.causes ||| (2 ^ c) } } ∧
      m.st = s.md.st ∧ m.barista = s.md.barista := by
  unfold State.judged State.verdict
  dsimp only
  rw [if_pos hc]
  generalize hu : State.freeDetail _ = u
  have hdraw : ∃ x r, u.2 = { s with
      free := s.free + 1, dict := x, regs := r, isl := { s.isl with causes := s.isl.causes ||| (2 ^ c) } } := by
    rw [← hu]
    exact ⟨_, _, rfl⟩
  obtain ⟨x, r, hdraw⟩ := hdraw
  obtain ⟨x', y, m, hnotice⟩ := notice_frame u.2 2 (causeStatus c) 0 u.1
  have hstate := notice_state u.2 2 (causeStatus c) 0 u.1
  rw [hnotice, hdraw] at hstate
  rw [hnotice, hdraw]
  exact ⟨_, _, _, _, rfl, hstate⟩

/-- Cause 10 with the reaction SS1, newly raised in Mission, takes the module to Safe-Hold. -/
theorem raiseCause_frozen_of_mission {s : State} (hnew : s.hasCause 10 = false) (hsafe : s.isl.safe = 0) (hreact : s.od 0x2202 10 = 1)
    (hst : s.md.st = 7) (hb : s.md.barista = 0) :
    ∃ v : State, s.raiseCause 10 = v.enterState 11 (causeStatus 10) ∧ v.descs = s.descs ∧ v.free = s.free + 1 := by
  obtain ⟨x, r, y, m, hj, hmst, hmb⟩ := judged_frame s (c := 10) (by omega)
  have hreaction : (s.judged 10).reaction 10 = 1 := ((CauseOnly.judged s 10).od 0x2202 10 0 (by decide)).trans hreact
  have hjsafe : (s.judged 10).isl.safe = 0 := by rw [hj]; exact hsafe
  obtain ⟨i, htake, hone⟩ : ∃ i : Isl, (s.judged 10).takeSafe 10 1 = { s.judged 10 with isl := i } ∧ i.safe = 1 := by
    unfold State.takeSafe
    rw [if_neg Nat.one_ne_zero, if_pos rfl, if_neg (fun h => h hjsafe)]
    exact ⟨_, rfl, rfl⟩
  refine ⟨(s.judged 10).takeSafe 10 1, ?_, by rw [htake, hj], by rw [htake, hj]⟩
  rw [raiseCause_of_new (by rw [hnew]; rfl), hreaction, htake, if_neg (by rw [hjsafe, hone]; exact Nat.zero_ne_one)]
  have hranked : State.ranked { s.judged 10 with isl := i } = 11 := if_pos (by rw [hone]; exact Nat.one_ne_zero)
  have hmission : ({ s.judged 10 with isl := i } : State).md.st = 7 ∧ ({ s.judged 10 with isl := i } : State).md.barista = 0 := by
    rw [hj]
    exact ⟨hmst.trans hst, hmb.trans hb⟩
  unfold State.modUpdate
  rw [hranked, if_pos ⟨by rw [hmission.1], hmission.2, by rw [hmission.1]; omega⟩]

section

variable {s : State} {id : Nat} {d : Desc} {r w : Rng}

/-- So the output of a stopped descriptor is undefined once a source is frozen. -/
theorem raiseCause_frozen_byteAt (hnew : s.hasCause 10 = false) (hsafe : s.isl.safe = 0) (hreact : s.od 0x2202 10 = 1)
    (hst : s.md.st = 7) (hb : s.md.barista = 0) (hds : s.descs = [(id, d)]) (hcls : 2 ≤ d.cls) (hstop : d.st = .stopped)
    (hres : d.result = none) (hop : d.op ≤ 0xFF) (hrngs : ∀ u : State, u.rngsOf d = [r, w]) (hr : r.wr = false) (hw : w.wr = true)
    (hdram : w.a + w.n ≤ 2 ^ 36) {i : Nat} (hi : i < w.n) :
    (s.raiseCause 10).byteAt (w.a + i) = BitVec.ofNat 8 (Config.free (s.free + 1) i) := by
  obtain ⟨v, hraise, hdescs, hfree⟩ := raiseCause_frozen_of_mission hnew hsafe hreact hst hb
  obtain ⟨ds, hhold⟩ := safeHoldEntry_of_stopped (s := v.entering 11 (causeStatus 10)) (hdescs.trans hds) hcls hstop hres hop
    (hrngs _) hr hw
  rw [hraise, enterState_byteAt, hhold, ← hfree]
  exact scribble_byteAt (v.entering 11 (causeStatus 10)) hdram hi

end

/-! ### A sample of a source that stands alone -/

section

variable {s : State} {n : Nat}

theorem overdueCuts_of_no_set (h : ∀ i, i < 8 → s.setOn i = false) : s.overdueCuts = s :=
  List.foldlRecOn (List.range 8) _ (motive := fun u => u = s) rfl fun u hu i hi => by
    subst hu
    exact if_neg (by rw [h i (List.mem_range.mp hi)]; exact Bool.false_ne_true)

theorem leadCuts_of_no_set (h : ∀ i, i < 8 → s.setOn i = false) : s.leadCuts n = s :=
  List.foldlRecOn (List.range 8) _ (motive := fun u => u = s) rfl fun u hu i hi => by
    subst hu
    exact if_neg fun hon => Bool.false_ne_true ((h i (List.mem_range.mp hi)).symm.trans hon.1)

/-- Neither a set nor a group nor ego-motion follows the samples of a source that stands alone. -/
theorem sample_of_alone {k : Nat} {m : Smp} (h : Alone s n) (hslot : s.slotFor n ((s.src n).seq + 1) = some k)
    (hdies : (s.diesOf ⟨s.so n 5, s.so n 6 * s.so n 7, true, false⟩).any (fun d => (s.die d).st != 0) = false)
    (hafter : Alone (s.takeSample n k m) n) (hseq : ((s.takeSample n k m).src n).seq ≠ (s.src n).seq) :
    s.sample n m = s.takeSample n k m := by
  obtain ⟨hset, _, _⟩ := h
  obtain ⟨hset', hgroup', hego'⟩ := hafter
  have hego (u : State) (hu : u.od 0x2680 1 ≠ n) : u.egoArrive n = u := if_pos hu
  have hstore : s.store n m = s.takeSample n k m := by
    unfold State.store
    dsimp only
    rw [overdueCuts_of_no_set hset, hslot]
    dsimp only
    rw [if_neg (by rw [hdies]; exact Bool.false_ne_true), leadCuts_of_no_set hset', hego _ hego']
  unfold State.sample State.groupArrive
  dsimp only
  rw [hstore, if_neg hseq, hgroup']

/-- What a cause changes lets a source stand alone. -/
theorem CauseOnly.alone {t : State} (h : CauseOnly s t) (k : Alone s n) : Alone t n := by
  obtain ⟨hset, hgroup, hego⟩ := k
  refine ⟨fun i hi => ?_, ?_, ?_⟩
  · unfold State.setOn
    rw [h.od_fuse (by omega)]
    exact hset i hi
  · have hsame : (fun g => t.grpOn g && (t.od (0x2660 + g) 2).testBit n) = fun g => s.grpOn g && (s.od (0x2660 + g) 2).testBit n := by
      funext g
      unfold State.grpOn
      rw [h.od_fuse (by omega), h.od_fuse (by omega)]
    unfold State.groupOf
    rw [hsame]
    exact hgroup
  · rw [h.od_fuse (by omega)]
    exact hego

theorem alone_of_entries (hset : (List.range 8).all (fun i => !s.setOn i) = true) (hgroup : s.groupOf n = none)
    (hego : s.od 0x2680 1 ≠ n) : Alone s n :=
  ⟨fun i hi => by simpa using List.all_eq_true.mp hset i (List.mem_range.mpr hi), hgroup, hego⟩

end

/-- Where a marked source is frozen and no group is enabled, the report raises cause 10 and drops cause 11. -/
theorem fseReport_byteAt {s : State} (hfrozen : (List.range 64).any (fun n => s.marked n && (s.src n).frozen) = true)
    (hgroups : (List.range 16).all (fun g => !s.grpOn g) = true) (a : Nat) : s.fseReport.byteAt a = (s.raiseCause 10).byteAt a := by
  have hlost : (List.range 16).any (fun g => s.grpOn g && (s.grp g).verdict == 2 && (maskList (s.od (0x2660 + g) 2)).any s.marked) =
      false := by
    refine List.any_eq_false.mpr fun g hg => ?_
    have hoff : s.grpOn g = false := by simpa using List.all_eq_true.mp hgroups g hg
    rw [hoff]
    exact Bool.false_ne_true
  have hreport : s.fseReport = (s.raiseCause 10).dropCause 11 := by
    unfold State.fseReport
    rw [hlost, hfrozen]
    rfl
  rw [hreport]
  unfold State.dropCause
  split <;> rfl

/-- A command's end changes no byte. -/
theorem done_byteAt {s t u : State} (h : s.done u = .next t) (a : Nat) : t.byteAt a = u.byteAt a := by
  unfold State.done at h
  cases h
  unfold State.byteAt
  simp only [cellGet_cellCanon]
  rfl

/-! ### A camera's second frame with one number -/

/-- A preempted absolute value of class B: 32 × 32 elements of INT8 from 0x20000 to 0x10000. -/
def preemptedAbs : Desc :=
  { State.reset.mkDesc 0 (word [(0, 0x0B0B0010), (192, 0x20000), (336, 0x10000), (384, 32), (416, 32), (448, 8), (480, 1)]) with
    st := .stopped, cls := 4, preempted := true }

/-- Mission, with that descriptor outstanding. Source 0 is a camera with its ring at 0x10000; it is safety-marked, checks frame
numbers, and freezes at the first suspect frame. Its last frame has number 1. -/
def overlaidRing : State :=
  let s := { State.reset with
    descs := [(0, preemptedAbs)]
    nextId := 1
    md := { Mod.boot with st := 7, barista := 0, bootMode := false }
    isl := { Isl.boot with causes := 0, safe := 0 }
    fse := { Fse.zero with srcs := [(0, { Src.zero with seq := 1, slot := 1, frame := 1, sawFrame := true })] } }
  [(1, 1), (2, 1), (5, 0x10000), (8, 0x2000), (0x0D, 1), (0x0F, 6)].foldl (fun s p => s.setOd 0x2610 p.1 p.2)
    (s.setOd 0x2601 1 (2 ^ 0x1E))

theorem preemptedAbs_rngsOf (u : State) : u.rngsOf preemptedAbs = [rdTile 0x20000 1024, wrTile 0x10000 1024] := by
  have hop : preemptedAbs.op = 0x0010 := by decide +kernel
  have hinfo : u.rngsOf preemptedAbs = (elementwiseInfo State.reset preemptedAbs).rngs := by
    simp only [State.rngsOf, opInfo, hop]
    rfl
  rw [hinfo]
  decide +kernel

/-- The frame of the byte `b` with number 1. -/
def repeatedFrame (b : Byte) : Smp := { bytes := [b], frame := 1, start := 0, bad := false, skip := [], vals := [] }

theorem overlaidRing_alone : Alone overlaidRing 0 :=
  alone_of_entries (by decide +kernel) (by decide +kernel) (by decide +kernel)

theorem overlaidRing_slotFor : overlaidRing.slotFor 0 ((overlaidRing.src 0).seq + 1) = some 2 := by decide +kernel

theorem overlaidRing_sources : (overlaidRing.sourcesOn 1 0).filter (fun n => overlaidRing.so n 4 % 16 == 0) = [0] := by decide +kernel

theorem overlaidRing_diesOf :
    overlaidRing.diesOf ⟨overlaidRing.so 0 5, overlaidRing.so 0 6 * overlaidRing.so 0 7, true, false⟩ = [0] := by
  decide +kernel

theorem overlaidRing_storable (b : Byte) : Storable overlaidRing 0 2 [b] := by
  have hone : 1 ≤ overlaidRing.so 0 6 := by decide +kernel
  refine ⟨overlaidRing_slotFor, by decide +kernel, hone, fun d hd => ?_⟩
  rw [overlaidRing_diesOf, List.mem_singleton] at hd
  rw [hd]
  rfl

theorem overlaidRing_packPackets (b : Byte) : packPackets (overlaidRing.csiTakes 0) [(0x1E, [b])] [] [] = ([b], []) := by
  have htakes : overlaidRing.csiTakes 0 0x1E = true := by decide +kernel
  simp [packPackets, htakes]

theorem overlaidRing_csiFrame (b : Byte) :
    overlaidRing.csiFrame 0 0 1 0 false [(0x1E, [b])] = overlaidRing.sample 0 (repeatedFrame b) := by
  have htime : overlaidRing.fseTime - 0 = 0 := by decide +kernel
  unfold State.csiFrame
  rw [overlaidRing_sources, List.foldl_cons, List.foldl_nil]
  dsimp only
  rw [overlaidRing_packPackets, htime]
  rfl

/-- The sample of either frame is stored as far as its report, which begins in Mission with source 0 frozen. -/
theorem overlaidRing_takeSample {b : Byte} (hb : b = 0 ∨ b = 1) :
    ∃ w : State, overlaidRing.takeSample 0 2 (repeatedFrame b) = w.fseReport ∧ w.descs = [(0, preemptedAbs)] ∧ w.free = 0 ∧
      w.isl.safe = 0 ∧ w.hasCause 10 = false ∧ w.od 0x2202 10 = 1 ∧ w.md.st = 7 ∧ w.md.barista = 0 ∧ (w.src 0).seq = 2 ∧ Alone w 0 ∧
      (List.range 64).any (fun n => w.marked n && (w.src n).frozen) = true ∧ (List.range 16).all (fun g => !w.grpOn g) = true := by
  obtain rfl | rfl := hb <;>
  · unfold State.takeSample
    exact ⟨_, if_neg (by decide +kernel), by decide +kernel, by decide +kernel, by decide +kernel, by decide +kernel, by decide +kernel,
      by decide +kernel, by decide +kernel, by decide +kernel,
      alone_of_entries (by decide +kernel) (by decide +kernel) (by decide +kernel), by decide +kernel, by decide +kernel⟩

/-- Whichever byte the frame brings, its slot holds the byte drawn for the descriptor's output. -/
theorem overlaidRing_csiFrame_byteAt {b : Byte} (hb : b = 0 ∨ b = 1) :
    (overlaidRing.csiFrame 0 0 1 0 false [(0x1E, [b])]).byteAt (0x10000 + 128) = BitVec.ofNat 8 (Config.free 1 128) := by
  obtain ⟨w, htake, hdescs, hfree, hsafe, hnew, hreact, hst, hbarista, hseq, halone, hfrozen, hgroups⟩ := overlaidRing_takeSample hb
  have hcause := CauseOnly.fseReport w
  have hframe := overlaidRing_csiFrame b
  have hsample : overlaidRing.sample 0 (repeatedFrame b) = w.fseReport := by
    rw [← htake]
    refine sample_of_alone overlaidRing_alone overlaidRing_slotFor (by rw [overlaidRing_diesOf]; decide +kernel) ?_ ?_
    · rw [htake]
      exact hcause.alone halone
    · rw [htake, src_congr hcause.fse, hseq]
      decide +kernel
  have hbyte := raiseCause_frozen_byteAt hnew hsafe hreact hst hbarista hdescs (by decide +kernel) (by decide +kernel)
    (by decide +kernel) (by decide +kernel) preemptedAbs_rngsOf rfl rfl (by decide) (i := 128) (by decide)
  rw [hfree] at hbyte
  rw [hframe, hsample, fseReport_byteAt hfrozen hgroups]
  exact hbyte

end Sys2Proof.Machine

namespace Sys2Proof

open Sys2Proof.Machine

/-- Refutes O54: a camera's frame that freezes its safety-marked source takes the module to Safe-Hold in the same command, which
ends a preempted descriptor and makes its output undefined; where that output lies in the source's ring, the slot of the sample holds
the same byte whatever the frame brought. -/
theorem not_samplesAndInstants : ¬ Obligations.SamplesAndInstants := by
  unfold Obligations.SamplesAndInstants
  intro h
  obtain ⟨_, _, _, hcsi, _⟩ := h overlaidRing ⟨rfl, rfl⟩
  have hslot {b : Byte} (hb : b = 0 ∨ b = 1) : b = BitVec.ofNat 8 (Config.free 1 128) := by
    obtain ⟨hone, _⟩ := hcsi 0 0 1 0 false [(0x1E, [b])]
    obtain ⟨t, hnext, hstored⟩ := hone 0 2 ([b], []) overlaidRing_sources (overlaidRing_packPackets b).symm overlaidRing_alone
      (overlaidRing_storable b)
    obtain ⟨_, _, _, _, _, _, _, _, _, _, _, _, _, _, hbytes⟩ := hstored
    have hread : t.byteAt (0x10000 + 128) = b := hbytes 0 Nat.one_pos
    rw [← hread, done_byteAt hnext, overlaidRing_csiFrame_byteAt hb]
  have hsame : (0 : Byte) = 1 := (hslot (.inl rfl)).trans (hslot (.inr rfl)).symm
  exact absurd hsame (by decide)

end Sys2Proof
end

section
/-! The module enters a state (R73, R350, R351): what the change leaves of the rest, whichever state it is. -/

namespace Sys2Proof.Machine

/-- From `s` to `t` at most the module has entered a state: its record, the notices and the descriptors of that entry, and the
interim records that wait at the dies. -/
structure Enters (s t : State) : Prop where
  frame : ∃ k m x ds es pg q y md b, t = { s with
    free := k, mem := m, dict := x, descs := ds, dies := es, pages := pg, maps := q, b2h := y, md := md, brd := b }
  die : ∀ d, t.die d = { s.die d with notes := (t.die d).notes }
  decaf : t.md.decaf = s.md.decaf

namespace Enters

variable {s t u : State}

theorem of_descs (s : State) (ds : AMap Desc) : Enters s { s with descs := ds } :=
  ⟨⟨_, _, _, _, _, _, _, _, _, _, rfl⟩, fun _ => rfl, rfl⟩

theorem refl (s : State) : Enters s s := of_descs s s.descs

theorem trans (h : Enters s t) (k : Enters t u) : Enters s u := by
  obtain ⟨⟨_, _, _, _, _, _, _, _, _, _, rfl⟩, hdie, hdecaf⟩ := h
  refine ⟨k.frame, fun d => ?_, k.decaf.trans hdecaf⟩
  rw [k.die d, hdie d]

theorem foldl {α : Type} {f : State → α → State} (hf : ∀ u x, Enters u (f u x)) (l : List α) (s : State) : Enters s (l.foldl f s) :=
  List.foldlRecOn l f (refl s) fun u hu x _ => hu.trans (hf u x)

theorem of_b2h (s : State) (y : AMap Mbox) : Enters s { s with b2h := y } :=
  ⟨⟨_, _, _, _, _, _, _, _, _, _, rfl⟩, fun _ => rfl, rfl⟩

theorem of_md (s : State) {m : Mod} (h : m.decaf = s.md.decaf) : Enters s { s with md := m } :=
  ⟨⟨_, _, _, _, _, _, _, _, _, _, rfl⟩, fun _ => rfl, h⟩

theorem setOd (s : State) (i j v k : Nat) : Enters s (s.setOd i j v k) :=
  ⟨⟨_, _, _, _, _, _, _, _, _, _, rfl⟩, fun _ => rfl, rfl⟩

theorem toHost (s : State) (m w : Nat) : Enters s (s.toHost m w) := by
  unfold State.toHost State.countColl
  dsimp only
  split
  · exact (of_b2h s _).trans (setOd _ _ _ _ _)
  · exact of_b2h s _

theorem sendNotice (s : State) (kind st : Nat) (l : List Byte) : Enters s (s.sendNotice kind st l) :=
  (of_md s (m := { s.md with notices := (s.md.notices + 1) % 2 ^ 32 }) rfl).trans (toHost _ _ _)

theorem enterErr (s : State) (status src : Nat) : Enters s (s.enterErr status src) := by
  refine of_md s ?_
  dsimp only
  split
  · rfl
  · rfl

theorem noteHub (s : State) (d o : Nat) (l : List Byte) : Enters s (s.noteHub d o l) := by
  unfold State.noteHub
  split
  · obtain ⟨m, h⟩ := wr_frame s (hub o) l
    rw [h]
    exact ⟨⟨_, _, _, _, _, _, _, _, _, _, rfl⟩, fun _ => rfl, rfl⟩
  · refine ⟨⟨_, _, _, _, _, _, _, _, _, _, rfl⟩, fun e => ?_, rfl⟩
    rw [State.setDie_die]
    split
    · rename_i he
      rw [← he]
    · rfl

theorem delayFor (s : State) (id : Nat) (d : Desc) (r : Nat) : Enters s (s.delayFor id d r) := by
  unfold State.delayFor
  dsimp only
  split
  · exact of_descs s _
  split
  · exact (of_descs s _).trans (noteHub _ _ _ _)
  · exact of_descs s _

theorem decafEntry (s : State) : Enters s s.decafEntry := by
  refine foldl (fun u p => ?_) s.descs s
  unfold decafOne
  dsimp only
  split
  · exact refl u
  split
  · exact of_descs u _
  · exact delayFor u _ _ _

theorem safeHoldEntry (s : State) : Enters s s.safeHoldEntry := by
  obtain ⟨k, m, ds, pg, q, h⟩ := endWhere_frame s (fun d => decide (2 ≤ d.cls) && decide (d.st ≠ .running)) 0x030C 0x03
  unfold State.safeHoldEntry
  rw [h]
  exact ⟨⟨_, _, _, _, _, _, _, _, _, _, rfl⟩, fun _ => rfl, rfl⟩

theorem entering (s : State) (st status : Nat) : Enters s (s.entering st status) :=
  ⟨⟨_, _, _, _, _, _, _, _, _, _, rfl⟩, fun _ => rfl, rfl⟩

theorem enterState (s : State) (st status : Nat) : Enters s (s.enterState st status) := by
  have hentry (u : State) : Enters u (if st = 10 then u.decafEntry else if st = 11 then u.safeHoldEntry else u) := by
    split
    · exact decafEntry u
    split
    · exact safeHoldEntry u
    · exact refl u
  have herr (u : State) (c : Prop) [Decidable c] : Enters u (if c then u.enterErr status 0 else u) := by
    split
    · exact enterErr u status 0
    · exact refl u
  unfold State.enterState
  exact (((entering s st status).trans (hentry _)).trans (sendNotice _ _ _ _)).trans (herr _ _)

theorem modUpdate (s : State) (status : Nat) : Enters s (s.modUpdate status) := by
  unfold State.modUpdate
  split
  · exact enterState s _ status
  · exact refl s

theorem regs (h : Enters s t) : t.regs = s.regs := by
  obtain ⟨⟨_, _, _, _, _, _, _, _, _, _, rfl⟩, _⟩ := h
  rfl

theorem isl (h : Enters s t) : t.isl = s.isl := by
  obtain ⟨⟨_, _, _, _, _, _, _, _, _, _, rfl⟩, _⟩ := h
  rfl

end Enters

end Sys2Proof.Machine
end

section
/-! The Espresso block's outputs (R239, R242, R249–R251): frames on the body segment, an image that is sent, the hold output. -/

namespace Sys2Proof.Machine

/-! ### Frames on the body segment (R242) -/

theorem foldl_wire_frame {α : Type} {f : State → α → State} (hf : ∀ u x, ∃ w, f u x = { u with wire := w }) (l : List α) (s : State) :
    ∃ w, l.foldl f s = { s with wire := w } := by
  refine List.foldlRecOn (b := s) (motive := fun u => ∃ w, u = { s with wire := w }) l f ⟨_, rfl⟩ (fun u hu x _ => ?_)
  obtain ⟨w, rfl⟩ := hu
  exact hf { s with wire := w } x

theorem foldl_toWire_frame {α : Type} (kind : Nat) (g : α → List Byte) (l : List α) (s : State) :
    ∃ w, l.foldl (fun s x => s.toWire kind (g x)) s = { s with wire := w } :=
  foldl_wire_frame (fun _ _ => ⟨_, rfl⟩) l s

/-! ### The end of a cause that is a condition (R371) -/

theorem dropCause_frame (s : State) (c : Nat) : ∃ k, s.dropCause c = { s with isl := { s.isl with causes := k } } ∧
    ∀ b, b ≠ c → k.testBit b = s.isl.causes.testBit b := by
  unfold State.dropCause
  split
  · exact ⟨_, rfl, fun _ _ => rfl⟩
  · refine ⟨_, rfl, fun b hb => ?_⟩
    rw [Nat.testBit_xor, Nat.testBit_two_pow_of_ne (Ne.symm hb), Bool.xor_false]

/-! ### An image that is sent (R251) -/

/-- The loop's record once image `img` has been sent in `n` frames for source `src`, `ns` after the inputs. -/
def Esp.sent (e : Esp) (img : List Byte) (src ns n : Nat) : Esp :=
  { e with out := img, src := src, compute := ns, phase := 4, outLeft := n, outDone := [], outSums := [], wkcOut := 0,
           mirrored := false }

/-- The longest time from the inputs to the outputs is kept, in Run. -/
def State.keepLongest (s : State) (ns : Nat) : State :=
  if s.esp.runs ∧ s.reg (baseESP + 0x30) < ns then s.setReg (baseESP + 0x30) ns else s

theorem keepLongest_spec (s : State) (ns : Nat) :
    ∃ r, s.keepLongest ns = { s with regs := r } ∧ ∀ a, a ≠ baseESP + 0x30 → AMap.getD a 0 r = AMap.getD a 0 s.regs := by
  unfold State.keepLongest
  split
  · exact ⟨_, rfl, fun a ha => AMap.getD_put_ne (Ne.symm ha) _ _ _ _⟩
  · exact ⟨_, rfl, fun _ _ => rfl⟩

/-- The frames of an output image leave. -/
def State.putFrames (s : State) (full : List Byte) : State :=
  (framesOf s.outLen).foldl (fun u f => u.toWire 1 ((full.drop f.1).take f.2)) s

/-- The block and the island note that image `img` has been sent for source `src`, `ns` after the inputs. -/
def State.noteSent (s : State) (img : List Byte) (src ns : Nat) : State :=
  ({ s.setEsp (s.esp.sent img src ns (framesOf s.outLen).length) with
    isl := { s.isl with frameAt := s.safTime, own := false } }).dropCause 15

theorem putFrames_frame (s : State) (full : List Byte) : ∃ w, s.putFrames full = { s with wire := w } :=
  foldl_toWire_frame 1 (fun f : Nat × Nat => (full.drop f.1).take f.2) _ s

theorem sendOut_eq (s : State) (img : List Byte) (src : Nat) : ∃ k full, s.sendOut img src =
    (({ s with free := k }.putFrames full).keepLongest (s.espTime - ({ s with free := k }.putFrames full).esp.inAt)).noteSent img src
      (s.espTime - ({ s with free := k }.putFrames full).esp.inAt) := ⟨_, _, rfl⟩

/-- What an image that is sent leaves of the state. -/
theorem sendOut_spec (s : State) (img : List Byte) (src : Nat) : ∃ k r c n w, s.sendOut img src = { s with
    free := k, regs := r, isl := { s.isl with causes := c, frameAt := s.safTime, own := false },
    esp := s.esp.sent img src (s.espTime - s.esp.inAt) n, wire := w } ∧
    SameRegs [baseESP + 0x30] s { s with regs := r } ∧ ∀ b, b ≠ 15 → c.testBit b = s.isl.causes.testBit b := by
  obtain ⟨k, full, heq⟩ := sendOut_eq s img src
  obtain ⟨w, hwire⟩ := putFrames_frame { s with free := k } full
  obtain ⟨r, hlong, hregs⟩ := keepLongest_spec { s with free := k, wire := w } (s.espTime - s.esp.inAt)
  have hsaf : AMap.getD baseSAF 0 r = s.safTime := hregs baseSAF (by unfold baseSAF baseESP; omega)
  obtain ⟨c, hdrop, hc⟩ := dropCause_frame ({ s.setEsp (s.esp.sent img src (s.espTime - s.esp.inAt)
      (framesOf ({ s with free := k, regs := r, wire := w } : State).outLen).length) with
    free := k, regs := r, isl := { s.isl with frameAt := s.safTime, own := false }, wire := w }) 15
  refine ⟨k, r, c, _, w, Eq.trans ?_ hdrop, fun a ha => hregs a (by simpa using ha), hc⟩
  rw [heq, hwire, hlong, ← hsaf]
  rfl

/-! ### The hold output (R250) -/

theorem holdOut_eq (s : State) : ∃ k img, s.holdOut =
    { (s.bumpReg (baseESP + 0x18)).bumpOd 0x2700 0x19 with free := k }.sendOut img 0xFF := by
  unfold State.holdOut
  dsimp only
  split
  · exact ⟨_, _, rfl⟩
  split
  · exact ⟨_, _, rfl⟩
  · exact ⟨_, _, rfl⟩

/-- What the hold output leaves of the state: it is counted, and an image is sent. -/
theorem holdOut_spec (s : State) : ∃ k r c img ns n w, s.holdOut = { s with
    free := k, dict := (s.bumpOd 0x2700 0x19).dict, regs := r, isl := { s.isl with causes := c, frameAt := s.safTime, own := false },
    esp := s.esp.sent img 0xFF ns n, wire := w } := by
  obtain ⟨k, img, heq⟩ := holdOut_eq s
  obtain ⟨k', r, c, n, w, hsent, _⟩ := sendOut_spec { (s.bumpReg (baseESP + 0x18)).bumpOd 0x2700 0x19 with free := k } img 0xFF
  have hsaf : (s.bumpReg (baseESP + 0x18)).safTime = s.safTime :=
    (State.bumpReg_reg _ _ _ _).trans (if_neg (by unfold baseESP baseSAF; omega))
  refine ⟨k', r, c, img, (s.bumpReg (baseESP + 0x18)).espTime - s.esp.inAt, n, w, heq.trans (hsent.trans ?_)⟩
  rw [← hsaf]
  rfl

end Sys2Proof.Machine
end

section
/-! The program of a cycle (R245, R247): what its submission to both sides' rings leaves alone. -/

namespace Sys2Proof.Machine

/-- From `s` to `t` at most the program of a cycle has been submitted: memory, the counts of dropped doorbells, the contexts, the
doorbells that wait at the dies, and the sequence numbers of the two sides. -/
structure Submits (s t : State) : Prop where
  frame : ∃ m x cs ds p q a b, t = { s with
    mem := m, dict := x, ctxs := cs, dies := ds, esp := { s.esp with seqP := p, seqS := q, nextP := a, nextS := b } }
  od : SameOdBelow 0x5000 s t
  die : ∀ d, t.die d = { s.die d with doors := (t.die d).doors }

namespace Submits

variable {s t u : State}

theorem of_mem (s : State) (m : List Host.Cell) : Submits s { s with mem := m } :=
  ⟨⟨_, _, _, _, _, _, _, _, rfl⟩, SameOdBelow.of_dict _ rfl, fun _ => rfl⟩

theorem refl (s : State) : Submits s s := of_mem s s.mem

theorem trans (h : Submits s t) (k : Submits t u) : Submits s u := by
  obtain ⟨⟨_, _, _, _, _, _, _, _, rfl⟩, hod, hdie⟩ := h
  refine ⟨k.frame, hod.trans k.od, fun d => ?_⟩
  rw [k.die d, hdie d]

theorem foldl {α : Type} {f : State → α → State} (hf : ∀ u x, Submits u (f u x)) (l : List α) (s : State) : Submits s (l.foldl f s) :=
  List.foldlRecOn l f (refl s) fun u hu x _ => hu.trans (hf u x)

theorem wr (s : State) (a : Nat) (l : List Byte) : Submits s (s.wr a l) := by
  obtain ⟨m, h⟩ := wr_frame s a l
  rw [h]
  exact of_mem s m

theorem ring (s : State) (c p : Nat) : Submits s (s.ring c p) := by
  by_cases h : s.takesDoor c p
  · rw [ring_of_takes h]
    exact ⟨⟨_, _, _, _, _, _, _, _, rfl⟩, SameOdBelow.of_dict _ rfl, fun _ => rfl⟩
  · rw [ring_of_not_takes h]
    exact ⟨⟨_, _, _, _, _, _, _, _, rfl⟩, (SameOdBelow.of_dict 0x5000 rfl).bumpOd (Nat.le_refl _) _ _ _ _, fun _ => rfl⟩

theorem door (s : State) (c p : Nat) : Submits s (s.door c p) := by
  by_cases h : s.doorWaits (s.home c)
  · rw [door_of_waits p h]
    refine ⟨⟨_, _, _, _, _, _, _, _, rfl⟩, SameOdBelow.of_dict _ rfl, fun d => ?_⟩
    rw [State.setDie_die]
    split
    · rename_i hd
      rw [← hd]
    · rfl
  · rw [door_of_not_waits p h]
    exact ring s c p

theorem unpackTo (s : State) (c : Nat) : Submits s (s.unpackTo c) := by
  unfold State.unpackTo
  dsimp only
  split
  · exact wr s _ _
  · exact (wr s _ _).trans (foldl (fun u _ => wr u _ _) _ _)

theorem submitAll (c dl : Nat) (reloc : List Nat) (l : List (Nat × Nat)) (seq k a : Nat) (s : State) :
    Submits s (submitAll c dl reloc l seq k a s) := by
  induction l generalizing seq k a s with
  | nil => exact door s c k
  | cons p l ih =>
    obtain ⟨w, n⟩ := p
    unfold Machine.submitAll
    exact ((foldl (fun u _ => wr u _ _) _ s).trans (wr _ _ _)).trans (ih _ _ _ _)

theorem numbers (s : State) (p q a b : Nat) : Submits s (s.setEsp { s.esp with seqP := p, seqS := q, nextP := a, nextS := b }) :=
  ⟨⟨_, _, _, _, _, _, _, _, rfl⟩, SameOdBelow.of_dict _ rfl, fun _ => rfl⟩

theorem program (s : State) (e : Nat) (reloc : List Nat) : Submits s (s.program e reloc) := by
  have hunpack (u : State) : Submits u (if u.esp.absent then u else u.unpackTo s.standby) := by
    split
    · exact refl u
    · exact unpackTo u _
  have hsubmit (u : State) (next dl : Nat) :
      Submits u (if u.esp.absent then (u, 0) else u.submit s.standby next dl reloc).1 := by
    split
    · exact refl u
    · exact submitAll _ _ _ _ _ _ _ u
  unfold State.program
  split
  · exact refl s
  · exact ((((unpackTo s _).trans (hunpack _)).trans (submitAll _ _ _ _ _ _ _ _)).trans (hsubmit _ _ _)).trans (numbers _ _ _ _ _)

end Submits

/-- What follows the input phase: the program is submitted, in Run. -/
theorem afterInput_submits (s : State) (e : Nat) (reloc : List Nat) :
    Submits (s.setEsp { s.esp with inAt := s.espTime, phase := if s.esp.runs then 2 else 4 }) (s.afterInput e reloc) :=
  Submits.program _ e reloc

end Sys2Proof.Machine
end

section
/-! Sensor ingress beside the Espresso block (R214–R232): the odometry sources of an input image, and all that their samples set off,
leave the loop's record and its registers alone. -/

namespace Sys2Proof.Machine

/-! ### What a safety cause counts (R372) -/

theorem verdict_regs (s : State) (c : Nat) : SameRegs [baseSAF + 0x18] s (s.verdict c) := by
  obtain ⟨x, y, m, h⟩ := notice_frame ((s.bumpReg (baseSAF + 0x18)).bumpOd 0x2200 3).freeDetail.2 2 (causeStatus c) 0
    ((s.bumpReg (baseSAF + 0x18)).bumpOd 0x2200 3).freeDetail.1
  have hverdict : s.verdict c = { ((s.bumpReg (baseSAF + 0x18)).bumpOd 0x2200 3).freeDetail.2 with dict := x, b2h := y, md := m } := h
  rw [hverdict]
  exact SameRegs.bumpReg (SameRegs.of_regs (s := s) _ rfl) _ _ List.mem_cons_self

theorem raiseCause_regs (s : State) (c : Nat) : SameRegs [baseSAF + 0x18] s (s.raiseCause c) := by
  have hjudged : SameRegs [baseSAF + 0x18] s (s.judged c) := by
    unfold State.judged
    dsimp only
    split
    · exact verdict_regs _ c
    · exact SameRegs.of_regs _ rfl
  have htaken (r : Nat) : SameRegs [baseSAF + 0x18] s ((s.judged c).takeSafe c r) := by
    obtain ⟨i, h⟩ := takeSafe_frame (s.judged c) c r
    rw [h]
    exact hjudged
  cases h : (s.hasCause c && !causeEvent c) with
  | true =>
    unfold State.raiseCause
    rw [if_pos h]
    exact SameRegs.of_regs _ rfl
  | false =>
    rw [raiseCause_of_new h]
    split
    · exact htaken _
    · exact (htaken _).trans (SameRegs.of_regs _ (Enters.modUpdate _ _).regs)

theorem takeSafe_causes (s : State) (c r : Nat) : (s.takeSafe c r).isl.causes = s.isl.causes ∧ (s.takeSafe c r).isl.sent = s.isl.sent := by
  unfold State.takeSafe
  split
  · exact ⟨rfl, rfl⟩
  split
  · split
    · exact ⟨rfl, rfl⟩
    · exact ⟨rfl, rfl⟩
  split
  · exact ⟨rfl, rfl⟩
  · exact ⟨rfl, rfl⟩

theorem judged_causes (s : State) (c : Nat) :
    (s.judged c).isl.causes = s.isl.causes ||| (2 ^ c) ∧ (s.judged c).isl.sent = s.isl.sent := by
  unfold State.judged
  dsimp only
  split
  · obtain ⟨k, x, r, y, m, h⟩ := verdict_frame { s with isl := { s.isl with causes := s.isl.causes ||| (2 ^ c) } } c
    rw [h]
    exact ⟨rfl, rfl⟩
  · exact ⟨rfl, rfl⟩

/-- A raised cause is in force, and the limit check's last values stay. -/
theorem raiseCause_causes (s : State) (c : Nat) :
    (s.raiseCause c).isl.causes.testBit c = true ∧ (s.raiseCause c).isl.sent = s.isl.sent := by
  cases h : (s.hasCause c && !causeEvent c) with
  | true =>
    unfold State.raiseCause
    rw [if_pos h]
    exact ⟨(Bool.and_eq_true_iff.mp h).1, rfl⟩
  | false =>
    obtain ⟨hcauses, hsent⟩ := judged_causes s c
    obtain ⟨hcauses', hsent'⟩ := takeSafe_causes (s.judged c) c ((s.judged c).reaction c)
    have htaken : ((s.judged c).takeSafe c ((s.judged c).reaction c)).isl.causes.testBit c = true := by
      rw [hcauses', hcauses, Nat.testBit_or, Nat.testBit_two_pow_self, Bool.or_true]
    rw [raiseCause_of_new h]
    split
    · exact ⟨htaken, hsent'.trans hsent⟩
    · rw [(Enters.modUpdate _ _).isl]
      exact ⟨htaken, hsent'.trans hsent⟩

/-! ### What the fusion engine leaves of the Espresso block -/

/-- The registers in which a sample, an instant or a cause is counted. -/
def ingressRegs : List Nat := [baseFSE + 0x28, baseFSE + 0x30, baseFSE + 0x38, baseFSE + 0x40, baseSAF + 0x18]

/-- From `s` to `t` the loop's record is as it was, and no register has changed but the counts of the fusion engine and the island. -/
structure Ingress (s t : State) : Prop where
  esp : t.esp = s.esp
  regs : SameRegs ingressRegs s t

namespace Ingress

variable {s t u : State}

theorem of_same (he : t.esp = s.esp) (hr : t.regs = s.regs) : Ingress s t := ⟨he, SameRegs.of_regs _ hr⟩

theorem refl (s : State) : Ingress s s := of_same rfl rfl

theorem trans (h : Ingress s t) (k : Ingress t u) : Ingress s u := ⟨k.esp.trans h.esp, h.regs.trans k.regs⟩

theorem foldl {α : Type} {f : State → α → State} (hf : ∀ u x, Ingress u (f u x)) (l : List α) (s : State) : Ingress s (l.foldl f s) :=
  List.foldlRecOn l f (refl s) fun u hu x _ => hu.trans (hf u x)

theorem bumpReg (h : Ingress s t) {a : Nat} (n : Nat) (ha : a ∈ ingressRegs) : Ingress s (t.bumpReg a n) :=
  ⟨h.esp, h.regs.bumpReg _ _ ha⟩

theorem setOd (h : Ingress s t) (i j v k : Nat) : Ingress s (t.setOd i j v k) := h.trans (of_same rfl rfl)

theorem bumpOd (h : Ingress s t) (i j n w k : Nat) : Ingress s (t.bumpOd i j n w k) := h.setOd i j _ k

theorem setSrc (h : Ingress s t) (n : Nat) (x : Src) : Ingress s (t.setSrc n x) := h.trans (of_same rfl rfl)

theorem setGrp (h : Ingress s t) (g : Nat) (x : Grp) : Ingress s (t.setGrp g x) := h.trans (of_same rfl rfl)

theorem setFset (h : Ingress s t) (i : Nat) (x : FSet) : Ingress s (t.setFset i x) := h.trans (of_same rfl rfl)

theorem wr (h : Ingress s t) (a : Nat) (l : List Byte) : Ingress s (t.wr a l) := by
  obtain ⟨m, hm⟩ := wr_frame t a l
  rw [hm]
  exact h.trans (of_same rfl rfl)

theorem raiseCause (s : State) (c : Nat) : Ingress s (s.raiseCause c) := by
  obtain ⟨⟨_, _, _, _, _, _, _, _, _, _, _, h⟩, _⟩ := CauseOnly.raiseCause s c
  refine ⟨by rw [h], fun a ha => raiseCause_regs s c a fun hmem => ha ?_⟩
  rw [List.mem_singleton.mp hmem]
  simp [ingressRegs]

theorem dropCause (s : State) (c : Nat) : Ingress s (s.dropCause c) := by
  obtain ⟨k, h, _⟩ := dropCause_frame s c
  rw [h]
  exact of_same rfl rfl

theorem condCause (s : State) (c : Nat) (on : Bool) : Ingress s (s.condCause c on) := by
  unfold State.condCause
  split
  · exact raiseCause s c
  · exact dropCause s c

theorem fseReport (s : State) : Ingress s s.fseReport := (condCause s 10 _).trans (condCause _ 11 _)

/-! #### Instants (R217–R221) -/

theorem knock (s : State) (c p : Nat) : Ingress s (s.knock c p) := by
  by_cases h : s.loopOwns c
  · rw [knock_of_loopOwns p h]
    exact of_same rfl rfl
  rw [knock_of_not_loopOwns p h]
  by_cases hdoor : s.doorWaits (s.home c)
  · rw [door_of_waits p hdoor]
    exact of_same rfl rfl
  rw [door_of_not_waits p hdoor]
  by_cases hring : s.takesDoor c p
  · rw [ring_of_takes hring]
    exact of_same rfl rfl
  · rw [ring_of_not_takes hring]
    exact of_same rfl rfl

theorem holdSlot (s : State) (add : Bool) (p : Nat × Nat) : Ingress s (s.holdSlot add p) := ((refl s).setSrc _ _).wr _ _

theorem useMember (i : Nat) (s : State) (m : Mem) : Ingress s (useMember i s m) := by
  have hused (x : Src) : Ingress s (if m.flags.testBit 1 then (s.setSrc m.src x).bumpOd (srcIdx m.src) 0x13 else s.setSrc m.src x) := by
    split
    · exact ((refl s).setSrc _ _).bumpOd _ _ _ _ _
    · exact (refl s).setSrc _ _
  unfold Machine.useMember
  dsimp only
  split
  · exact hused _
  · exact (hused _).trans (holdSlot _ _ _)

theorem fire (s : State) (i tk : Nat) : Ingress s (s.fire i tk) := by
  have htell {u : State} (h : Ingress s u) (c p e : Nat) : Ingress s (if c = 0xFFFF then u else
      if (u.knock c p).od 0x5000 0x18 c = e then u.knock c p else (u.knock c p).bumpOd (0x2670 + i) 0x0B) := by
    split
    · exact h
    split
    · exact h.trans (knock u c p)
    · exact (h.trans (knock u c p)).bumpOd _ _ _ _ _
  unfold State.fire
  dsimp only
  split
  · exact (refl s).bumpOd _ _ _ _ _
  · exact htell ((((((refl s).wr _ _).trans (foldl (useMember i) _ _)).setFset _ _).bumpReg 1 (by simp [ingressRegs])).bumpOd _ _ _ _ _)
      _ _ _

theorem cutOne (s : State) (t : Nat) (due : Nat → Bool) : Ingress s (s.cutOne t due) := by
  unfold State.cutOne
  dsimp only
  split
  · exact refl s
  split
  · exact ((refl s).setFset _ _).trans (fire _ _ _)
  · exact refl s

theorem cutsBefore (t n : Nat) (s : State) : Ingress s (cutsBefore t n s) := by
  induction n generalizing s with
  | zero => exact refl s
  | succ n ih =>
    unfold Machine.cutsBefore
    split
    · split
      · exact (cutOne s t _).trans (ih _)
      · exact refl s
    · exact refl s

theorem overdueCuts (s : State) : Ingress s s.overdueCuts :=
  foldl (fun u i => by
    split
    · exact cutsBefore i _ u
    · exact refl u) _ s

theorem leadCuts (s : State) (n : Nat) : Ingress s (s.leadCuts n) :=
  foldl (fun u i => by
    split
    · exact of_same rfl rfl
    · exact refl u) _ s

/-! #### Ego-motion (R231, R232) -/

/-- The ego state of the fusion engine is another. -/
theorem ego (s : State) (e : Ego) : Ingress s { s with fse := { s.fse with ego := e } } := of_same rfl rfl

theorem writeEgo (s : State) : Ingress s s.writeEgo := (ego s _).wr _ _

theorem egoArrive (s : State) (n : Nat) : Ingress s (s.egoArrive n) := by
  have hstep (lost : Bool) (e : Ego) : Ingress s
      (if lost then ({ s with fse := { s.fse with ego := e } }).writeEgo else s.egoStep n) := by
    split
    · exact (ego s e).trans (writeEgo _)
    · exact (ego s _).trans (writeEgo _)
  unfold State.egoArrive
  dsimp only
  by_cases h : s.od 0x2680 1 ≠ n
  · rw [if_pos h]
    exact refl s
  · rw [if_neg h]
    exact hstep _ _

/-! #### Samples (R214–R216, R224, R225) -/

theorem judgeOwn (s : State) (n : Nat) : Ingress s (s.judgeOwn n) := by
  unfold State.judgeOwn
  dsimp only
  split
  · exact of_same rfl rfl
  · exact refl s

theorem judgePair (s : State) (n m : Nat) : Ingress s (s.judgePair n m) := by
  unfold State.judgePair
  dsimp only
  split
  · split
    · exact of_same rfl rfl
    · exact refl s
  · exact refl s

theorem judgeRate (s : State) (n : Nat) : Ingress s (s.judgeRate n) := by
  unfold State.judgeRate
  dsimp only
  refine ((judgeOwn s n).trans (foldl (fun u m => judgePair u n m) _ _)).trans (foldl (fun u m => ?_) _ _)
  split
  · exact of_same rfl rfl
  · exact refl u

theorem counted (h : Ingress s t) (c : Prop) [Decidable c] (n i : Nat) {a : Nat} (ha : a ∈ ingressRegs) :
    Ingress s (if c then (t.bumpOd (srcIdx n) i).bumpReg a else t) := by
  split
  · exact (h.bumpOd _ _ _ _ _).bumpReg 1 ha
  · exact h

theorem takeSample (s : State) (n k : Nat) (m : Smp) : Ingress s (s.takeSample n k m) := by
  have hreport (u : State) (c : Prop) [Decidable c] : Ingress u (if c then u else u.fseReport) := by
    split
    · exact refl u
    · exact fseReport u
  have hjudged (u : State) (l : List Byte) (x : Src) (v : Nat) :
      Ingress u ((((u.wr (u.so n 5 + k * u.so n 6) l).setSrc n x).setOd (srcIdx n) 0x16 v).judgeRate n) :=
    ((((refl u).wr _ _).setSrc _ _).setOd _ _ _ _).trans (judgeRate _ n)
  unfold State.takeSample
  refine Ingress.trans ?_ (hreport _ _)
  refine Ingress.counted (Ingress.counted ?_ _ _ _ (by simp [ingressRegs])) _ _ _ (by simp [ingressRegs])
  exact ((hjudged s _ _ _).wr _ _).bumpOd _ _ _ _ _

theorem dropSample (s : State) (n : Nat) : Ingress s (s.dropSample n) :=
  (((refl s).setSrc _ _).bumpOd _ _ _ _ _).bumpReg 1 (by simp [ingressRegs])

theorem store (s : State) (n : Nat) (m : Smp) : Ingress s (s.store n m) := by
  unfold State.store
  dsimp only
  split
  · exact (overdueCuts s).trans (dropSample _ n)
  split
  · exact (overdueCuts s).trans (dropSample _ n)
  · exact (((overdueCuts s).trans (takeSample _ n _ m)).trans (leadCuts _ n)).trans (egoArrive _ n)

/-! #### Voting groups (R228, R229) -/

theorem judgeGroup (s : State) (g : Nat) : Ingress s (s.judgeGroup g) := by
  have hjudged {u : State} (h : Ingress s u) (v : Nat) : Ingress s (if (u.grp g).verdict = v then u else
      ((u.setGrp g { u.grp g with verdict := v }).bumpOd (0x2660 + g) 9).fseReport) := by
    split
    · exact h
    · exact ((h.setGrp _ _).bumpOd _ _ _ _ _).trans (fseReport _)
  exact hjudged (foldl (fun u _ => (refl u).setOd _ _ _ _) _ s) _

theorem judgeVote (g type : Nat) (med : List Nat) (s : State) (n : Nat) : Ingress s (judgeVote g type med s n) := by
  have hruns (c : Prop) [Decidable c] (x y : Grp) : Ingress s (if c then s.setGrp g x else s.setGrp g y) := by
    split
    · exact (refl s).setGrp _ _
    · exact (refl s).setGrp _ _
  unfold Machine.judgeVote
  dsimp only
  by_cases h : (s.src n).seq = 0
  · rw [if_pos h]
    exact refl s
  · rw [if_neg h]
    exact hruns _ _ _

theorem vote (s : State) (g type : Nat) : Ingress s (s.vote g type) := by
  have hstore (u : State) (lost : Bool) (m : Smp) : Ingress u (if lost then u else u.store (48 + g) m) := by
    split
    · exact refl u
    · exact store u _ m
  unfold State.vote
  refine Ingress.trans ?_ (hstore _ _ _)
  have hdraw : Ingress s s.draw.2 := of_same rfl rfl
  exact hdraw.trans (foldl (judgeVote g type _) _ _)

theorem groupArrive (s : State) (n : Nat) : Ingress s (s.groupArrive n) := by
  unfold State.groupArrive
  dsimp only
  split
  · exact refl s
  split
  · exact ((judgeGroup s _).trans (vote _ _ _)).trans (judgeGroup _ _)
  · exact judgeGroup s _

theorem sample (s : State) (n : Nat) (m : Smp) : Ingress s (s.sample n m) := by
  unfold State.sample
  dsimp only
  split
  · exact store s n m
  · exact (store s n m).trans (groupArrive _ n)

theorem odometry (s : State) (image : List Byte) : Ingress s (s.odometry image) := foldl (fun u n => sample u n _) _ s

end Ingress

end Sys2Proof.Machine
end

section
/-! The tick of the Espresso loop (R239, R252, R257): what begins a cycle, and what its first outputs leave alone. -/

namespace Sys2Proof.Machine

/-- From `s` to `t` a cycle that has begun goes on: what the tick has settled stays, and so do descriptors and objects. -/
structure KeepsTick (s t : State) : Prop where
  md : t.md = s.md
  descs : t.descs = s.descs
  objs : t.objs = s.objs
  table : t.isl.table = s.isl.table
  nextTab : t.isl.nextTab = s.isl.nextTab
  tickAt : t.esp.tickAt = s.esp.tickAt
  ring : t.esp.ring = s.esp.ring
  st : t.esp.st = s.esp.st
  takeover : t.esp.takeover = s.esp.takeover
  swapped : t.esp.swapped = s.esp.swapped
  absent : t.esp.absent = s.esp.absent
  count : t.od 0x2700 0x17 = s.od 0x2700 0x17

namespace KeepsTick

variable {s t u : State}

theorem refl (s : State) : KeepsTick s s := ⟨rfl, rfl, rfl, rfl, rfl, rfl, rfl, rfl, rfl, rfl, rfl, rfl⟩

theorem trans (h : KeepsTick s t) (k : KeepsTick t u) : KeepsTick s u where
  md := k.md.trans h.md
  descs := k.descs.trans h.descs
  objs := k.objs.trans h.objs
  table := k.table.trans h.table
  nextTab := k.nextTab.trans h.nextTab
  tickAt := k.tickAt.trans h.tickAt
  ring := k.ring.trans h.ring
  st := k.st.trans h.st
  takeover := k.takeover.trans h.takeover
  swapped := k.swapped.trans h.swapped
  absent := k.absent.trans h.absent
  count := k.count.trans h.count

theorem phase (s : State) (a p : Nat) : KeepsTick s (s.setEsp { s.esp with inAt := a, phase := p }) :=
  ⟨rfl, rfl, rfl, rfl, rfl, rfl, rfl, rfl, rfl, rfl, rfl, rfl⟩

theorem sendOut (s : State) (img : List Byte) (src : Nat) : KeepsTick s (s.sendOut img src) := by
  obtain ⟨k, r, c, n, w, h, _⟩ := sendOut_spec s img src
  rw [h]
  exact ⟨rfl, rfl, rfl, rfl, rfl, rfl, rfl, rfl, rfl, rfl, rfl, rfl⟩

theorem holdOut (s : State) : KeepsTick s s.holdOut := by
  obtain ⟨k, r, c, img, ns, n, w, h⟩ := holdOut_spec s
  rw [h]
  exact ⟨rfl, rfl, rfl, rfl, rfl, rfl, rfl, rfl, rfl, rfl, rfl, State.bumpOd_od_ne s 1 32 (by unfold odKey; omega)⟩

theorem of_submits (h : Submits s t) : KeepsTick s t := by
  obtain ⟨⟨_, _, _, _, _, _, _, _, rfl⟩, hod, _⟩ := h
  exact ⟨rfl, rfl, rfl, rfl, rfl, rfl, rfl, rfl, rfl, rfl, rfl, hod _ _ _ (by unfold odKey; omega)⟩

theorem afterInput (s : State) (e : Nat) (reloc : List Nat) : KeepsTick s (s.afterInput e reloc) :=
  (phase s _ _).trans (of_submits (afterInput_submits s e reloc))

theorem tickOut (s : State) (st left : Nat) : KeepsTick s (s.tickOut st left) := by
  have hsent : KeepsTick s (if st = 1 then s.holdOut else if left ≠ 0 then s.sendOut s.fallback 0xFF else s) := by
    split
    · exact holdOut s
    split
    · exact sendOut s _ _
    · exact refl s
  have hinput (u : State) (h : KeepsTick s u) : KeepsTick s (if u.inLen == 0 then u.afterInput 0 [] else u) := by
    split
    · exact h.trans (afterInput u 0 [])
    · exact h
  exact hinput _ (hsent.trans (phase _ _ 1))

end KeepsTick

/-- The limit table that awaits the tick is taken. -/
def State.adopt (s : State) : State :=
  match s.isl.nextTab with
  | some t => { s with isl := { s.isl with table := t, nextTab := none } }
  | none => s

/-- The roles change after a takeover. -/
def Esp.exchange (e : Esp) : Esp :=
  if e.takeover then { e with takeover := false, swapped := !e.swapped, absent := true, nextP := e.nextS, nextS := e.nextP } else e

/-- The state of the loop in the cycle that begins. -/
def Esp.nextSt (e : Esp) : Nat := if e.st = 1 ∧ e.start then 2 else if e.st = 2 ∧ e.stopLeft = 1 then 1 else e.st

/-- The loop's record as a cycle begins, with ring state `ring`, the period and the length of the input image. -/
def Esp.begin (e : Esp) (ring period len : Nat) : Esp :=
  { e with
    st := e.nextSt, start := false, stopLeft := e.stopLeft - 1, ring := ring % 4, tickAt := e.tickAt + period,
    cycle := if e.nextSt = 2 then (if e.st = 1 then 1 else e.cycle + 1) else e.cycle, phase := 1, done := [],
    merging := List.replicate len 0, wkcs := [], wkcIn := 0, wkcOut := 0, inNs := 0, side := none,
    stats := if ring = 2 then [0x0193] else [], flags := 0, src := 0xFF, compute := 0, mirrored := true,
    run := if e.st = 1 then 0 else e.run, told := if e.st = 1 then false else e.told }

/-- The cycle has begun and is counted. -/
def State.begin (s : State) (ring : Nat) : State :=
  { s.setEsp (s.esp.exchange.begin ring (s.lo 3) s.inLen) with md := { s.md with bodyDown := ring == 3 } }.bumpOd 0x2700 0x17

theorem overdueCycle_of_closed {s : State} (h : s.esp.phase = 5) : s.overdueCycle = s := by
  unfold State.overdueCycle State.inputCutoff State.budgetEnd State.closeCycle
  simp [h]

/-- A tick that is due begins a cycle, its input frames leave, and it goes on with the outputs that a tick itself sends. -/
theorem cycleTick_of_due {s : State} (hst : s.esp.st ≠ 0) (hdue : s.esp.tickAt + s.lo 3 ≤ s.espTime) (hphase : s.esp.phase = 5)
    (ring : Nat) : ∃ w, s.cycleTick ring = ({ s.adopt.begin ring with wire := w }).tickOut s.adopt.esp.exchange.nextSt
      (s.adopt.esp.exchange.stopLeft - 1) := by
  obtain ⟨w, hwire⟩ := foldl_toWire_frame 0 (fun f : Nat × Nat => List.replicate f.2 (0 : Byte))
    (framesOf (s.adopt.begin ring).inLen) (s.adopt.begin ring)
  refine ⟨w, ?_⟩
  rw [← hwire]
  unfold State.cycleTick
  rw [if_neg (by omega), overdueCycle_of_closed hphase]
  rfl

theorem cycleTick_of_not_due {s : State} (h : s.esp.st = 0 ∨ s.espTime < s.esp.tickAt + s.lo 3) (ring : Nat) : s.cycleTick ring = s := by
  unfold State.cycleTick
  rw [if_pos h]

theorem adopt_spec (s : State) : s.adopt = { s with isl := s.adopt.isl } ∧ s.adopt.isl.nextTab = none ∧
    ∀ tab, s.isl.nextTab = some tab → s.adopt.isl.table = tab := by
  unfold State.adopt
  split
  · rename_i x h
    exact ⟨rfl, rfl, fun tab htab => Option.some.inj (h.symm.trans htab)⟩
  · rename_i h
    exact ⟨rfl, h, fun tab htab => absurd (h.symm.trans htab) nofun⟩

theorem Esp.exchange_spec (e : Esp) : e.exchange.takeover = false ∧ e.exchange.swapped = (e.swapped != e.takeover) ∧
    e.exchange.absent = (e.absent || e.takeover) ∧ e.exchange.tickAt = e.tickAt ∧ e.exchange.nextSt = e.nextSt := by
  unfold Esp.exchange
  cases h : e.takeover <;> simp [h, Esp.nextSt]

/-- A tick a period after the last begins a cycle (R239, R252, R257). -/
theorem exec_cycleTick {s : State} (hst : s.esp.st ≠ 0) (hdue : s.esp.tickAt + s.lo 3 ≤ s.espTime)
    (hphase : s.esp.phase = 5) (ring : Nat) :
    ∃ t, exec (.cycleTick ring) s = .next t ∧ t.esp.tickAt = s.esp.tickAt + s.lo 3 ∧ t.esp.ring = ring % 4 ∧
      t.od 0x2700 0x17 = (s.od 0x2700 0x17 + 1) % 2 ^ 32 ∧ t.md = { s.md with bodyDown := (ring == 3) } ∧ t.isl.nextTab = none ∧
      (∀ tab, s.isl.nextTab = some tab → t.isl.table = tab) ∧
      t.esp.st = (if s.esp.st = 1 ∧ s.esp.start = true then 2 else if s.esp.st = 2 ∧ s.esp.stopLeft = 1 then 1 else s.esp.st) ∧
      t.esp.takeover = false ∧ t.esp.swapped = (s.esp.swapped != s.esp.takeover) ∧ t.esp.absent = (s.esp.absent || s.esp.takeover) ∧
      t.descs = s.descs ∧ t.objs = s.objs := by
  obtain ⟨w, htick⟩ := cycleTick_of_due hst hdue hphase ring
  obtain ⟨hadopt, hnone, htable⟩ := adopt_spec s
  have hkept := KeepsTick.tickOut { s.adopt.begin ring with wire := w } s.adopt.esp.exchange.nextSt
    (s.adopt.esp.exchange.stopLeft - 1)
  rw [← htick, hadopt] at hkept
  obtain ⟨htakeover, hswapped, habsent, htickAt, hnext⟩ := s.esp.exchange_spec
  refine ⟨_, rfl, ?_, hkept.ring, ?_, hkept.md, hkept.nextTab.trans hnone, fun tab h => hkept.table.trans (htable tab h), ?_, ?_, ?_, ?_,
    hkept.descs, hkept.objs⟩
  · exact hkept.tickAt.trans (congrArg (· + s.lo 3) htickAt)
  · exact hkept.count.trans (State.bumpOd_od_self _ _ _ _ _ _)
  · exact hkept.st.trans hnext
  · exact hkept.takeover.trans htakeover
  · exact hkept.swapped.trans hswapped
  · exact hkept.absent.trans habsent

end Sys2Proof.Machine
end

section
/-! The input phase of a cycle (R242, R243, R256): copies that merge, the image that is complete, and the cutoff. -/

namespace Sys2Proof.Machine

/-! ### The SubDevice table -/

theorem lo_congr {s t : State} (hd : t.dict = s.dict) (i : Nat) : t.lo i = s.lo i := by
  unfold State.lo State.od
  rw [hd]

theorem subds_congr {s t : State} (hm : t.mem = s.mem) (hd : t.dict = s.dict) (hr : t.regs = s.regs) : t.subds = s.subds := by
  have hint : t.interleaved = s.interleaved := (SameOd.of_dict [] hd).interleaved (by simp)
  unfold State.subds
  rw [lo_congr hd]
  refine List.map_congr_left fun i _ => ?_
  unfold State.subd
  rw [lo_congr hd]
  exact rd_congr (byteAt_congr hm hint hr) _ _

/-! ### A copy of an input frame (R242) -/

/-- The loop's record once a copy of the input frame `k` over the bytes `f` has come in. -/
def Esp.merge (e : Esp) (k port wkc : Nat) (f : Nat × Nat) (data : List Byte) : Esp :=
  { e with done := insNat (2 * k + port) e.done,
           merging := overlay e.merging f.1 (orBytes ((e.merging.drop f.1).take f.2) (data.take f.2)),
           wkcs := AMap.put 0 k (AMap.getD k 0 e.wkcs + wkc) e.wkcs, wkcIn := e.wkcIn + wkc }

/-- A copy of a frame that is due, and that has not been seen on its port, is not dropped. -/
theorem copy_expected {s : State} {k port : Nat} (hphase : s.esp.phase = 1) (hk : k < (framesOf s.inLen).length) (hport : port < 2)
    (hnew : 2 * k + port ∉ s.esp.done) : ¬ (s.esp.phase = 0 ∨ (framesOf s.inLen).length ≤ k ∨ 2 ≤ port ∨ ¬ true = true ∨
      s.esp.done.contains (2 * k + port) = true) := by
  rintro (h | h | h | h | h)
  · omega
  · omega
  · omega
  · exact h rfl
  · exact hnew (List.contains_iff_mem.mp h)

/-- Have the copies of the input frame `k` all come in? -/
def State.frameIn (s : State) (k : Nat) : Bool := decide (s.copiesDue ≤ (s.esp.done.filter (fun d => d / 2 == k)).length)

/-- The image is valid once its frames `fs` have come in, each with its counter. -/
def State.judgeImage (s : State) (fs : List (Nat × Nat)) (e : Nat) (reloc : List Nat) : State :=
  if (List.range fs.length).all s.frameIn && (List.range fs.length).all (fun j =>
      AMap.getD j 0 s.esp.wkcs == expectWkc (s.subds.map subIn) (fs.getD j (0, 0))) then s.inputValid e reloc else s

/-- A frame that is whole has its FSoE frames read. -/
def State.readFrame (s : State) (k : Nat) (f : Nat × Nat) : State := if s.frameIn k then s.fsoeRead f else s

/-- A frame that is whole with another counter than expected is counted. -/
def State.countShort (s : State) (whole : Bool) (sum : Nat) (f : Nat × Nat) : State :=
  if whole && sum != expectWkc (s.subds.map subIn) f then (s.raiseFlag 2 0).bumpReg (baseESP + 0x28) else s

section

variable {s : State} {k port : Nat} (hphase : s.esp.phase = 1) (hk : k < (framesOf s.inLen).length) (hport : port < 2)
  (hnew : 2 * k + port ∉ s.esp.done) (htime : s.espTime ≤ s.esp.tickAt + s.cutoff)
include hphase hk hport hnew htime

/-- A copy in time merges; its frame is judged once it is whole, and then the image. -/
theorem inputReturn_of_taken (wkc : Nat) (data : List Byte) (e : Nat) (reloc : List Nat) {u : State}
    (hu : u = s.setEsp (s.esp.merge k port wkc ((framesOf s.inLen).getD k (0, 0)) data)) :
    s.inputReturn k port wkc true data e reloc = ((u.readFrame k ((framesOf s.inLen).getD k (0, 0))).countShort (u.frameIn k)
      (AMap.getD k 0 s.esp.wkcs + wkc) ((framesOf s.inLen).getD k (0, 0))).judgeImage (framesOf s.inLen) e reloc := by
  subst hu
  unfold State.inputReturn
  rw [if_neg (copy_expected hphase hk hport hnew), if_neg (Nat.not_lt.mpr htime)]
  dsimp only
  rw [if_neg (by simp [hphase])]
  rfl

/-- While copies of its frame are missing, a copy merges and nothing else happens. -/
theorem inputReturn_of_missing
    (hmissing : ((insNat (2 * k + port) s.esp.done).filter (fun d => d / 2 == k)).length < s.copiesDue)
    (wkc : Nat) (data : List Byte) (e : Nat) (reloc : List Nat) : s.inputReturn k port wkc true data e reloc =
      s.setEsp (s.esp.merge k port wkc ((framesOf s.inLen).getD k (0, 0)) data) := by
  have hout : (s.setEsp (s.esp.merge k port wkc ((framesOf s.inLen).getD k (0, 0)) data)).frameIn k = false :=
    decide_eq_false (Nat.not_le.mpr hmissing)
  have hall : (List.range (framesOf s.inLen).length).all
      (s.setEsp (s.esp.merge k port wkc ((framesOf s.inLen).getD k (0, 0)) data)).frameIn = false :=
    List.all_eq_false.mpr ⟨k, List.mem_range.mpr hk, by rw [hout]; exact Bool.false_ne_true⟩
  rw [inputReturn_of_taken hphase hk hport hnew htime wkc data e reloc rfl]
  simp only [State.readFrame, State.countShort, State.judgeImage, hout, hall, Bool.false_and, Bool.false_eq_true, if_false]

end

theorem exec_inputFrameReturn_missing {s : State} (hs : Invariant s) {k port : Nat} (hphase : s.esp.phase = 1)
    (hk : k < (framesOf s.inLen).length) (hport : port < 2) (hnew : 2 * k + port ∉ s.esp.done)
    (htime : s.espTime ≤ s.esp.tickAt + s.cutoff)
    (hmissing : ((insNat (2 * k + port) s.esp.done).filter (fun d => d / 2 == k)).length < s.copiesDue)
    (wkc : Nat) (data : List Byte) (e : Nat) (reloc : List Nat) :
    ∃ t, exec (.inputFrameReturn k port wkc true data e reloc) s = .next t ∧ t = { s with esp := t.esp } ∧ SameBytes s t ∧
      t.esp = { s.esp with
        done := insNat (2 * k + port) s.esp.done, merging := t.esp.merging, wkcs := t.esp.wkcs, wkcIn := s.esp.wkcIn + wkc } ∧
      AMap.getD k 0 t.esp.wkcs = AMap.getD k 0 s.esp.wkcs + wkc := by
  have hexec : exec (.inputFrameReturn k port wkc true data e reloc) s = s.done (s.inputReturn k port wkc true data e reloc) := rfl
  rw [hexec, inputReturn_of_missing hphase hk hport hnew htime hmissing]
  exact ⟨_, State.done_of_same hs rfl rfl rfl, rfl, SameBytes.of_dict rfl rfl rfl, rfl, AMap.getD_put_self _ _ _ _⟩

/-! ### The FSoE frames and the battery of an input image (R255, R256) -/

theorem fsoeRead_frame (s : State) (f : Nat × Nat) : ∃ i, s.fsoeRead f = { s with isl := i } := by
  have hend (u : State) (c : Bool) : ∃ i, (if c then u.dropCause 13 else u) = { u with isl := i } := by
    split
    · obtain ⟨k, hdrop, _⟩ := dropCause_frame u 13
      exact ⟨_, hdrop⟩
    · exact ⟨_, rfl⟩
  refine List.foldlRecOn (b := s) (motive := fun u => ∃ i, u = { s with isl := i }) (List.range 64) _ ⟨_, rfl⟩ (fun u hu c _ => ?_)
  obtain ⟨i, rfl⟩ := hu
  dsimp only
  split
  · exact hend { s with isl := _ } _
  · exact ⟨_, rfl⟩

/-- From `s` to `t` at most battery values have been taken: charge, flags, confirm times and the limit of the Governor. -/
def BatteryOnly (s t : State) : Prop :=
  ∃ x g a b c d, t = { s with dict := x, gov := g, esp := { s.esp with soc := a, critical := b, lowAt := c, highAt := d } }

theorem batteryField_only (s : State) (w : Nat) : BatteryOnly s (batteryField s w) := by
  unfold batteryField
  dsimp only
  split
  · exact ⟨_, _, _, _, _, _, rfl⟩
  · exact ⟨_, _, _, _, _, _, rfl⟩
  · exact ⟨_, _, _, _, _, _, rfl⟩
  · exact ⟨_, _, _, _, _, _, rfl⟩

theorem battery_only (s : State) : BatteryOnly s s.battery := by
  have hfields (l : List Nat) : BatteryOnly s (l.foldl batteryField s) := by
    refine List.foldlRecOn (b := s) (motive := fun u => BatteryOnly s u) l batteryField ⟨_, _, _, _, _, _, rfl⟩ (fun u hu w _ => ?_)
    obtain ⟨_, _, _, _, _, _, rfl⟩ := hu
    exact batteryField_only _ w
  unfold State.battery
  dsimp only
  split
  · obtain ⟨_, _, _, _, _, _, h⟩ := hfields (s.fields.filter (fun w => !(fOut w) && fRole w != 0))
    rw [h]
    exact ⟨_, _, _, _, _, _, rfl⟩
  · exact hfields _

/-! ### A complete image (R242, R243) -/

theorem afterInput_esp (s : State) (e : Nat) (reloc : List Nat) :
    (s.afterInput e reloc).esp.age = s.esp.age ∧ (s.afterInput e reloc).esp.inNs = s.esp.inNs ∧
    (s.afterInput e reloc).esp.phase = (if s.esp.runs then 2 else 4) ∧ (s.afterInput e reloc).esp.inAt = s.espTime ∧
    (s.afterInput e reloc).regs = s.regs := by
  obtain ⟨⟨_, _, _, _, _, _, _, _, hframe⟩, _⟩ := afterInput_submits s e reloc
  rw [hframe]
  exact ⟨rfl, rfl, rfl, rfl, rfl⟩

/-- The loop's record as the merged image is taken for valid, `ns` after the tick. -/
def Esp.valid (e : Esp) (ns : Nat) : Esp := { e with image := e.merging, age := 0, inNs := ns }

theorem BatteryOnly.esp {s t : State} (h : BatteryOnly s t) : t.esp.age = s.esp.age ∧ t.esp.inNs = s.esp.inNs ∧
    t.esp.runs = s.esp.runs ∧ t.regs = s.regs := by
  obtain ⟨_, _, _, _, _, _, rfl⟩ := h
  exact ⟨rfl, rfl, rfl, rfl⟩

/-- A valid image is taken as the input of the cycle. -/
theorem inputValid_spec (s : State) (e : Nat) (reloc : List Nat) :
    (s.inputValid e reloc).esp.age = 0 ∧ (s.inputValid e reloc).esp.inNs = s.espTime - s.esp.tickAt ∧
    (s.inputValid e reloc).esp.phase = (if s.esp.runs then 2 else 4) ∧ (s.inputValid e reloc).esp.inAt = s.espTime ∧
    (s.inputValid e reloc).reg (baseESP + 0x10) = s.reg (baseESP + 0x10) := by
  obtain ⟨hage, hns, hruns, hregs⟩ := (battery_only (s.setEsp (s.esp.valid (s.espTime - s.esp.tickAt)))).esp
  have hingress (img : List Byte) := Ingress.odometry (s.setEsp (s.esp.valid (s.espTime - s.esp.tickAt))).battery img
  have hvalid : ∃ img, s.inputValid e reloc =
      ((s.setEsp (s.esp.valid (s.espTime - s.esp.tickAt))).battery.odometry img).afterInput e reloc := by
    unfold State.inputValid Esp.valid
    exact ⟨_, rfl⟩
  obtain ⟨img, hvalid⟩ := hvalid
  obtain ⟨hage', hns', hphase, hat, hregs'⟩ :=
    afterInput_esp ((s.setEsp (s.esp.valid (s.espTime - s.esp.tickAt))).battery.odometry img) e reloc
  have hreg {r : Nat} (hr : r ∉ ingressRegs) :
      ((s.setEsp (s.esp.valid (s.espTime - s.esp.tickAt))).battery.odometry img).reg r = s.reg r :=
    ((hingress img).regs r hr).trans (congrArg (AMap.getD r 0) hregs)
  rw [(hingress img).esp] at hage' hns' hphase
  rw [hvalid]
  refine ⟨hage'.trans hage, hns'.trans hns, hphase.trans (by rw [hruns]; rfl), hat.trans (hreg ?_),
    (congrArg (AMap.getD _ 0) hregs').trans (hreg ?_)⟩
  · unfold ingressRegs baseESP baseFSE baseSAF
    simp
  · unfold ingressRegs baseESP baseFSE baseSAF
    simp

/-- The one frame of an image, come in with its counter, makes the image valid. -/
theorem judgeImage_of_single {s : State} {fs : List (Nat × Nat)} (hlen : fs.length = 1) (hin : s.frameIn 0 = true)
    (hwkc : AMap.getD 0 0 s.esp.wkcs = expectWkc (s.subds.map subIn) (fs.getD 0 (0, 0))) (e : Nat) (reloc : List Nat) :
    s.judgeImage fs e reloc = s.inputValid e reloc := by
  unfold State.judgeImage
  rw [hlen]
  exact if_pos (by simp [List.range_succ, hin, hwkc])

/-- The one copy of a one-frame image, with the counter that is expected, makes the image valid. -/
theorem inputReturn_of_single {s : State} {port : Nat} (hphase : s.esp.phase = 1) (hport : port < 2)
    (hlen : (framesOf s.inLen).length = 1) (hring : s.esp.ring = 0) (hdone : s.esp.done = []) (hwkcs : s.esp.wkcs = [])
    (htime : s.espTime ≤ s.esp.tickAt + s.cutoff) {wkc : Nat}
    (hwkc : wkc = expectWkc (s.subds.map subIn) ((framesOf s.inLen).getD 0 (0, 0))) (data : List Byte) (e : Nat) (reloc : List Nat) :
    ∃ i, s.inputReturn 0 port wkc true data e reloc =
      { s.setEsp (s.esp.merge 0 port wkc ((framesOf s.inLen).getD 0 (0, 0)) data) with isl := i }.inputValid e reloc := by
  obtain ⟨i, hread⟩ := fsoeRead_frame (s.setEsp (s.esp.merge 0 port wkc ((framesOf s.inLen).getD 0 (0, 0)) data))
    ((framesOf s.inLen).getD 0 (0, 0))
  have hsubds : State.subds { s.setEsp (s.esp.merge 0 port wkc ((framesOf s.inLen).getD 0 (0, 0)) data) with isl := i } = s.subds :=
    subds_congr rfl rfl rfl
  have hhalf : port / 2 = 0 := Nat.div_eq_of_lt hport
  have hin {v : State} (hesp : v.esp = s.esp.merge 0 port wkc ((framesOf s.inLen).getD 0 (0, 0)) data) : v.frameIn 0 = true := by
    simp [State.frameIn, State.copiesDue, hesp, Esp.merge, hring, hdone, insNat, List.filter, hhalf]
  have hsum : AMap.getD 0 0 s.esp.wkcs + wkc = expectWkc (s.subds.map subIn) ((framesOf s.inLen).getD 0 (0, 0)) := by
    rw [hwkcs, ← hwkc]
    exact Nat.zero_add wkc
  have hjudge {v : State} (hesp : v.esp = s.esp.merge 0 port wkc ((framesOf s.inLen).getD 0 (0, 0)) data) (hsub : v.subds = s.subds) :
      v.judgeImage (framesOf s.inLen) e reloc = v.inputValid e reloc := by
    refine judgeImage_of_single hlen (hin hesp) ?_ e reloc
    rw [hsub, ← hsum, hesp]
    exact AMap.getD_put_self _ _ _ _
  refine ⟨i, ?_⟩
  rw [inputReturn_of_taken hphase (by omega) hport (by simp [hdone]) htime wkc data e reloc rfl, State.readFrame, if_pos (hin rfl), hread,
    State.countShort, hsubds, hsum, if_neg (by simp)]
  exact hjudge rfl hsubds

theorem exec_inputFrameReturn_single {s : State} {port : Nat} (hphase : s.esp.phase = 1) (hport : port < 2)
    (hlen : (framesOf s.inLen).length = 1) (hring : s.esp.ring = 0) (hdone : s.esp.done = []) (hwkcs : s.esp.wkcs = [])
    (htime : s.espTime ≤ s.esp.tickAt + s.cutoff) {wkc : Nat}
    (hwkc : wkc = expectWkc (s.subds.map subIn) ((framesOf s.inLen).getD 0 (0, 0))) (data : List Byte) (e : Nat) (reloc : List Nat) :
    ∃ t, exec (.inputFrameReturn 0 port wkc true data e reloc) s = .next t ∧ t.esp.age = 0 ∧
      t.esp.inNs = s.espTime - s.esp.tickAt ∧ t.esp.phase = (if s.esp.runs then 2 else 4) ∧ t.esp.inAt = s.espTime ∧
      t.reg (baseESP + 0x10) = s.reg (baseESP + 0x10) := by
  obtain ⟨i, heq⟩ := inputReturn_of_single hphase hport hlen hring hdone hwkcs htime hwkc data e reloc
  have hexec : exec (.inputFrameReturn 0 port wkc true data e reloc) s = s.done (s.inputReturn 0 port wkc true data e reloc) := rfl
  have hspec := inputValid_spec { s.setEsp (s.esp.merge 0 port wkc ((framesOf s.inLen).getD 0 (0, 0)) data) with isl := i } e reloc
  rw [← heq] at hspec
  exact ⟨_, hexec, hspec⟩

/-! ### The cutoff (R241, R243) -/

theorem raiseFlag_testBit (s : State) (b st : Nat) : (s.raiseFlag b st).esp.flags.testBit b = true := by
  refine (Nat.testBit_or _ _ b).trans ?_
  rw [Nat.testBit_two_pow_self, Bool.or_true]

/-- A cutoff that is due counts a missed cycle and goes on with the last image. -/
theorem inputCutoff_of_due {s : State} (hphase : s.esp.phase = 1) (hdue : s.esp.tickAt + s.cutoff ≤ s.espTime) (e : Nat)
    (reloc left : List Nat) : ∃ x, s.inputCutoff e reloc left =
        (((s.bumpReg (baseESP + 0x10)).bumpOd 0x2700 0x18).setEsp x).afterInput e reloc ∧
      x.flags.testBit 0 = true ∧ x.age = s.esp.age + 1 ∧ x.image = s.esp.image ∧ x.runs = s.esp.runs := by
  unfold State.inputCutoff
  rw [if_neg (by omega)]
  dsimp only
  split
  · exact ⟨_, rfl, raiseFlag_testBit ((s.bumpReg (baseESP + 0x10)).bumpOd 0x2700 0x18) 0 0x0190, rfl, rfl, rfl⟩
  · exact ⟨_, rfl, raiseFlag_testBit (((s.bumpReg (baseESP + 0x10)).bumpOd 0x2700 0x18).raiseFlag 0 0x0190) 0 0x0590, rfl, rfl, rfl⟩

theorem exec_inputCutoff {s : State} (hs : Invariant s) (hphase : s.esp.phase = 1) (hdue : s.esp.tickAt + s.cutoff ≤ s.espTime) (e : Nat)
    (reloc left : List Nat) :
    ∃ t, exec (.inputCutoff e reloc left) s = .next t ∧
      t = { s with mem := t.mem, dict := t.dict, regs := t.regs, ctxs := t.ctxs, dies := t.dies, esp := t.esp } ∧
      (∀ d, t.die d = { s.die d with doors := (t.die d).doors }) ∧
      t.od 0x2700 0x18 = (s.od 0x2700 0x18 + 1) % 2 ^ 32 ∧ SameRegs [baseESP + 0x10] s t ∧
      t.reg (baseESP + 0x10) = (s.reg (baseESP + 0x10) + 1) % 2 ^ 64 ∧ t.esp.age = s.esp.age + 1 ∧ t.esp.flags.testBit 0 = true ∧
      t.esp.image = s.esp.image ∧ t.esp.phase = (if s.esp.runs then 2 else 4) := by
  obtain ⟨x, heq, hflag, hage, himage, hruns⟩ := inputCutoff_of_due hphase hdue e reloc left
  have hcount : ((s.bumpReg (baseESP + 0x10)).bumpOd 0x2700 0x18).od 0x2700 0x18 = (s.od 0x2700 0x18 + 1) % 2 ^ 32 :=
    State.bumpOd_od_self _ _ _ _ _ _
  have hregs : SameRegs [baseESP + 0x10] s ((s.bumpReg (baseESP + 0x10)).bumpOd 0x2700 0x18) :=
    (SameRegs.of_regs _ rfl).bumpReg _ 1 List.mem_cons_self
  have hreg : ((s.bumpReg (baseESP + 0x10)).bumpOd 0x2700 0x18).reg (baseESP + 0x10) = (s.reg (baseESP + 0x10) + 1) % 2 ^ 64 :=
    (State.bumpReg_reg _ _ _ _).trans (if_pos rfl)
  have hbump : ∃ q r, (s.bumpReg (baseESP + 0x10)).bumpOd 0x2700 0x18 = { s with dict := q, regs := r } := ⟨_, _, rfl⟩
  obtain ⟨q, r, hbump⟩ := hbump
  rw [hbump] at heq hcount hregs hreg
  obtain ⟨⟨_, _, _, _, _, _, _, _, hframe⟩, hod, hdie⟩ := afterInput_submits (State.setEsp { s with dict := q, regs := r } x) e reloc
  have hkept := hod 0x2700 0x18 0 (by unfold odKey; omega)
  have hexec : exec (.inputCutoff e reloc left) s = s.done (s.inputCutoff e reloc left) := rfl
  rw [hexec, heq]
  rw [hframe] at hkept hdie ⊢
  exact ⟨_, State.done_of_flash hs rfl rfl, rfl, hdie, hkept.trans hcount, hregs, hreg, hage, hflag, himage,
    congrArg (fun r : Bool => if r then 2 else 4) hruns⟩

theorem inputCutoff_of_not_due {s : State} (h : s.esp.phase ≠ 1 ∨ s.espTime < s.esp.tickAt + s.cutoff) (e : Nat)
    (reloc left : List Nat) : s.inputCutoff e reloc left = s := if_pos h

end Sys2Proof.Machine
end

section
/-! Selection, limit check and budget (R248–R252): which outputs a cycle sends. -/

namespace Sys2Proof.Machine

/-! ### The standby takes over (R252) -/

theorem takeOver_tookOver (s : State) : TookOver s s.takeOver :=
  ⟨rfl, rfl, rfl, rfl, rfl, raiseFlag_testBit (s.setEsp { s.esp with phase := 3, side := some 1, takeover := true }) 7 0x0191,
    List.mem_cons_self, (SameRegs.of_regs (s := s) _ rfl).bumpReg _ 1 List.mem_cons_self, (State.bumpReg_reg _ _ _ _).trans (if_pos rfl),
    (SameOd.of_dict (s := s) _ rfl).bumpOd 0x2700 0x1A 1 32 0 List.mem_cons_self, State.bumpOd_od_self _ _ _ _ _ _⟩

/-! ### A side finishes (R248) -/

section

variable {s : State} (hs : Invariant s) (hphase : s.esp.phase = 2) (htime : s.espTime < s.esp.inAt + s.lo 4)
include hphase htime

theorem sideSuccess_primary : s.sideSuccess 0 =
    if s.sideGood s.primary s.esp.seqP then s.setEsp { s.esp with phase := 3, side := some 0 } else s := by
  unfold State.sideSuccess
  rw [if_neg (by omega), if_pos rfl]

theorem sideSuccess_standby (hgood : s.sideGood s.standby s.esp.seqS = true) (hpresent : s.esp.absent = false) : s.sideSuccess 1 =
    if s.sideBad s.primary s.esp.seqP then s.takeOver else s.setEsp { s.esp with side := some 1 } := by
  unfold State.sideSuccess
  rw [if_neg (by omega), if_neg Nat.one_ne_zero, if_pos ⟨rfl, by simp [hpresent], hgood⟩]

include hs

theorem exec_sideCycleSuccess_primary :
    (s.sideGood s.primary s.esp.seqP = true →
      exec (.sideCycleSuccess 0) s = .next { s with esp := { s.esp with phase := 3, side := some 0 } }) ∧
    (s.sideGood s.primary s.esp.seqP = false → exec (.sideCycleSuccess 0) s = .next s) := by
  have hexec : exec (.sideCycleSuccess 0) s = s.done (s.sideSuccess 0) := rfl
  rw [hexec, sideSuccess_primary hphase htime]
  constructor
  · intro hgood
    rw [if_pos hgood]
    exact State.done_of_same hs rfl rfl rfl
  · intro hbad
    rw [if_neg (by simp [hbad])]
    exact State.done_of_same hs rfl rfl rfl

theorem exec_sideCycleSuccess_standby (hgood : s.sideGood s.standby s.esp.seqS = true) (hpresent : s.esp.absent = false) :
    (s.sideBad s.primary s.esp.seqP = true → ∃ t, exec (.sideCycleSuccess 1) s = .next t ∧ TookOver s t) ∧
    (s.sideBad s.primary s.esp.seqP = false →
      exec (.sideCycleSuccess 1) s = .next { s with esp := { s.esp with side := some 1 } }) := by
  have hexec : exec (.sideCycleSuccess 1) s = s.done (s.sideSuccess 1) := rfl
  rw [hexec, sideSuccess_standby hphase htime hgood hpresent]
  constructor
  · intro hbad
    rw [if_pos hbad]
    exact ⟨_, State.done_of_same hs rfl rfl rfl, takeOver_tookOver s⟩
  · intro hwell
    rw [if_neg (by simp [hwell])]
    exact State.done_of_same hs rfl rfl rfl

end

/-! ### The budget ends (R250) -/

section

variable {s : State} (hs : Invariant s) (hphase : s.esp.phase = 2) (hend : s.esp.inAt + s.lo 4 ≤ s.espTime)
include hs hphase hend

theorem exec_budgetEnd_standby (hside : s.esp.side = some 1) : ∃ t, exec .budgetEnd s = .next t ∧ TookOver s t := by
  have hexec : exec .budgetEnd s = s.done s.budgetEnd := rfl
  have heq : s.budgetEnd = s.takeOver := by
    unfold State.budgetEnd
    rw [if_neg (by omega), if_pos hside]
  rw [hexec, heq]
  exact ⟨_, State.done_of_same hs rfl rfl rfl, takeOver_tookOver s⟩

theorem exec_budgetEnd_hold (hside : s.esp.side ≠ some 1) :
    ∃ t, exec .budgetEnd s = .next t ∧
      t = { s with free := t.free, dict := t.dict, regs := t.regs, isl := t.isl, esp := t.esp, wire := t.wire } ∧ SameBytes s t ∧
      t.esp.phase = 4 ∧ t.esp.src = 0xFF ∧ t.esp.flags.testBit 5 = true ∧ SameOd [odKey 0x2700 0x19 0] s t ∧
      t.od 0x2700 0x19 = (s.od 0x2700 0x19 + 1) % 2 ^ 32 := by
  have hexec : exec .budgetEnd s = s.done s.budgetEnd := rfl
  have heq : s.budgetEnd = (s.raiseFlag 5 0x0192).holdOut := by
    unfold State.budgetEnd
    rw [if_neg (by omega), if_neg hside]
  obtain ⟨k, r, c, img, ns, n, w, hhold⟩ := holdOut_spec (s.raiseFlag 5 0x0192)
  have hod : SameOd [odKey 0x2700 0x19 0] s (s.bumpOd 0x2700 0x19) :=
    (SameOd.of_dict _ rfl).bumpOd 0x2700 0x19 1 32 0 List.mem_cons_self
  have hcount : (s.bumpOd 0x2700 0x19).od 0x2700 0x19 = (s.od 0x2700 0x19 + 1) % 2 ^ 32 := State.bumpOd_od_self _ _ _ _ _ _
  have hint : (s.bumpOd 0x2700 0x19).interleaved = s.interleaved := hod.interleaved (by decide)
  rw [hexec, heq, hhold]
  exact ⟨_, State.done_of_same hs rfl rfl rfl, rfl, SameBytes.of_mem rfl hint rfl, rfl, rfl, raiseFlag_testBit s 5 0x0192, hod, hcount⟩

end

theorem budgetEnd_of_not_due {s : State} (h : s.esp.phase ≠ 2 ∨ s.espTime < s.esp.inAt + s.lo 4) : s.budgetEnd = s := if_pos h

/-! ### The limit check (R249, R387) -/

/-- The values of the limited outputs, kept for the next check. -/
def sentBy (vec : Nat → Nat) (table : List Nat) (sent : AMap Nat) : AMap Nat :=
  table.foldl (fun m w => AMap.ins (limIdx w) (vec (limIdx w)) m) sent

theorem get?_sentBy_of_get? (vec : Nat → Nat) (i : Nat) (table : List Nat) {m : AMap Nat} (h : AMap.get? i m = some (vec i)) :
    AMap.get? i (sentBy vec table m) = some (vec i) := by
  refine List.foldlRecOn (b := m) (motive := fun m => AMap.get? i m = some (vec i)) table _ h fun m hm w _ => ?_
  rw [AMap.get?_ins]
  split
  · rename_i hw
    rw [hw]
  · exact hm

theorem get?_sentBy (vec : Nat → Nat) (table : List Nat) (m : AMap Nat) {w : Nat} (hw : w ∈ table) :
    AMap.get? (limIdx w) (sentBy vec table m) = some (vec (limIdx w)) := by
  induction table generalizing m with
  | nil => exact absurd hw List.not_mem_nil
  | cons v table ih =>
    rcases List.mem_cons.mp hw with rfl | hmem
    · exact get?_sentBy_of_get? vec _ table ((AMap.get?_ins _ _ _ _).trans (if_pos rfl))
    · exact ih _ hmem

section

variable {s : State} (hs : Invariant s) {c : Nat} {vec : Nat → Nat} (hphase : s.esp.phase = 3)
  (hc : c = (if s.esp.side = some 1 then s.standby else s.primary)) (hvec : vec = (fun i => s.rd (s.vecAt c (s.lo 0x0E) + 4 * i) 4))
include hphase hc hvec

theorem limitDone_of_pass (hpass : s.limitsPass vec = true)
    (hnum : ∀ w, w ∈ s.fields → fOut w = true → isNan (outValue w (vec (fIdx w))) = false) :
    ∃ k img, s.limitDone = { s with free := k, isl := { s.isl with sent := sentBy vec s.isl.table s.isl.sent } }.sendOut img (s.home c) := by
  have hall : (s.fields.filter fOut).all (fun w => !(isNan (outValue w (vec (fIdx w))))) = true := by
    refine List.all_eq_true.mpr fun w hw => ?_
    obtain ⟨hmem, hout⟩ := List.mem_filter.mp hw
    rw [hnum w hmem hout, Bool.not_false]
  subst hc hvec
  unfold State.limitDone
  rw [if_neg (by simp [hphase])]
  dsimp only
  rw [hpass, hall]
  exact ⟨_, _, rfl⟩

theorem limitDone_of_fail (hfail : s.limitsPass vec = false ∨
    (∃ w, w ∈ s.fields ∧ fOut w = true ∧ isNan (outValue w (vec (fIdx w))) = true)) :
    s.limitDone = (((s.raiseFlag 6 0x0690).bumpReg (baseSAF + 0x30)).raiseCause 12).sendOut
      ((s.raiseFlag 6 0x0690).bumpReg (baseSAF + 0x30)).fallback 0xFF := by
  have hall : (s.limitsPass vec && (s.fields.filter fOut).all (fun w => !(isNan (outValue w (vec (fIdx w)))))) = false := by
    rcases hfail with hlim | ⟨w, hmem, hout, hnan⟩
    · rw [hlim, Bool.false_and]
    · have hnot : (s.fields.filter fOut).all (fun w => !(isNan (outValue w (vec (fIdx w))))) = false :=
        List.all_eq_false.mpr ⟨w, List.mem_filter.mpr ⟨hmem, hout⟩, by simp [hnan]⟩
      rw [hnot, Bool.and_false]
  subst hc hvec
  unfold State.limitDone
  rw [if_neg (by simp [hphase])]
  dsimp only
  rw [hall]
  rfl

theorem exec_limitCheckDone_fail (hfail : s.limitsPass vec = false ∨
    (∃ w, w ∈ s.fields ∧ fOut w = true ∧ isNan (outValue w (vec (fIdx w))) = true)) :
    ∃ t, exec .limitCheckDone s = .next t ∧ t.esp.phase = 4 ∧ t.esp.src = 0xFF ∧ t.isl.causes.testBit 12 = true ∧
      t.esp.flags.testBit 6 = true ∧ t.reg (baseSAF + 0x30) = (s.reg (baseSAF + 0x30) + 1) % 2 ^ 64 ∧ t.isl.sent = s.isl.sent := by
  have hflag := raiseFlag_testBit s 6 0x0690
  have hcount : ((s.raiseFlag 6 0x0690).bumpReg (baseSAF + 0x30)).reg (baseSAF + 0x30) = (s.reg (baseSAF + 0x30) + 1) % 2 ^ 64 :=
    (State.bumpReg_reg _ _ _ _).trans (if_pos rfl)
  have hesp := (Ingress.raiseCause ((s.raiseFlag 6 0x0690).bumpReg (baseSAF + 0x30)) 12).esp
  have hregs := raiseCause_regs ((s.raiseFlag 6 0x0690).bumpReg (baseSAF + 0x30)) 12 (baseSAF + 0x30)
    (by rw [List.mem_singleton]; omega)
  obtain ⟨hcause, hsent⟩ := raiseCause_causes ((s.raiseFlag 6 0x0690).bumpReg (baseSAF + 0x30)) 12
  have hexec : exec .limitCheckDone s = s.done s.limitDone := rfl
  rw [hexec, limitDone_of_fail hphase hc hvec hfail]
  generalize State.raiseCause _ 12 = v at hesp hregs hcause hsent ⊢
  obtain ⟨k, r, c', n, w, hout, hregs', hcauses⟩ := sendOut_spec v ((s.raiseFlag 6 0x0690).bumpReg (baseSAF + 0x30)).fallback 0xFF
  have hreg := (hregs' (baseSAF + 0x30) (by unfold baseSAF baseESP; simp)).trans (hregs.trans hcount)
  rw [hout]
  refine ⟨_, rfl, rfl, rfl, (hcauses 12 (by omega)).trans hcause, ?_, hreg, hsent⟩
  rw [hesp]
  exact hflag

include hs

theorem exec_limitCheckDone_pass (hpass : s.limitsPass vec = true)
    (hnum : ∀ w, w ∈ s.fields → fOut w = true → isNan (outValue w (vec (fIdx w))) = false) :
    ∃ t, exec .limitCheckDone s = .next t ∧
      t = { s with free := t.free, regs := t.regs, isl := t.isl, esp := t.esp, wire := t.wire } ∧ SameBytes s t ∧
      t.esp.phase = 4 ∧ t.esp.src = s.home c ∧ t.isl.frameAt = s.safTime ∧ t.isl.own = false ∧
      (∀ w, w ∈ s.isl.table → AMap.get? (limIdx w) t.isl.sent = some (vec (limIdx w))) := by
  obtain ⟨k, img, heq⟩ := limitDone_of_pass hphase hc hvec hpass hnum
  obtain ⟨k', r, c', n, w, hout, _⟩ := sendOut_spec
    { s with free := k, isl := { s.isl with sent := sentBy vec s.isl.table s.isl.sent } } img (s.home c)
  have hexec : exec .limitCheckDone s = s.done s.limitDone := rfl
  rw [hexec, heq, hout]
  exact ⟨_, State.done_of_same hs rfl rfl rfl, rfl, SameBytes.of_dict rfl rfl rfl, rfl, rfl, rfl, rfl,
    fun w hw => get?_sentBy vec s.isl.table s.isl.sent hw⟩

end

theorem limitDone_of_other {s : State} (h : s.esp.phase ≠ 3) : s.limitDone = s := if_pos h

end Sys2Proof.Machine
end

section
/-! The end of a cycle (R242, R243, R253, R258): output copies that return, the cycle's record, and the state mirror. -/

namespace Sys2Proof.AMap

variable {α : Type}

/-- A table whose keys rise reads what it lists. -/
theorem get?_eq_some_of_mem {p : Nat × α} {t : AMap α} (h : wf t = true) (hp : p ∈ t) : get? p.1 t = some p.2 := by
  induction t with
  | nil => exact absurd hp List.not_mem_nil
  | cons q t ih =>
    obtain ⟨j, w⟩ := q
    have hrise : risesFrom (some j) t = true := h
    unfold get?
    rcases List.mem_cons.mp hp with rfl | hmem
    · exact if_pos rfl
    · have hsome := Machine.get?_isSome_of_mem hmem
      have hne : j ≠ p.1 := fun e => by
        rw [get?_eq_none_of_risesFrom hrise (Nat.le_of_eq e.symm)] at hsome
        exact absurd hsome Bool.false_ne_true
      rw [if_neg hne]
      exact ih (risesFrom_none j t hrise) hmem

end Sys2Proof.AMap

namespace Sys2Proof.Machine

/-! ### The cycle's record (R258) -/

/-- In Run the record of a cycle that met its times is written, and the run of misses is over. -/
theorem closeCycle_of_met {s : State} (hphase : s.esp.phase = 4) (hst : s.esp.st = 2) (hin : 0x0190 ∉ s.esp.stats)
    (hout : 0x0192 ∉ s.esp.stats) : ∃ w p, s.closeCycle =
      (s.wrHub (s.lo 0x15 + 64 * (s.esp.cycle % max 1 (s.lo 0x16))) 64 w).setEsp
        { s.esp with phase := 5, prev := p, run := 0, told := false } ∧ w % 2 ^ 32 = s.esp.cycle % 2 ^ 32 := by
  have hmissed : (s.esp.stats.contains 0x0190 || s.esp.stats.contains 0x0192) = false := by
    simp [hin, hout]
  unfold State.closeCycle
  dsimp only
  rw [if_neg (by simp [hphase]), if_neg (by simp [hst]), hmissed]
  refine ⟨_, _, rfl, (word_mod fun p hp => ?_).trans (Nat.mod_mod _ _)⟩
  simp only [List.mem_cons, List.not_mem_nil, or_false] at hp
  rcases hp with rfl | rfl | rfl | rfl | rfl | rfl | rfl | rfl | rfl
  all_goals dsimp only; omega

/-- The record lies in hub SRAM and begins with the cycle's number (Table 10-6). -/
theorem closeCycle_spec {s : State} (hs : Invariant s) (hphase : s.esp.phase = 4) (hst : s.esp.st = 2) (hin : 0x0190 ∉ s.esp.stats)
    (hout : 0x0192 ∉ s.esp.stats) {a : Nat} (ha : a = s.lo 0x15 + 64 * (s.esp.cycle % max 1 (s.lo 0x16))) (hhub : a + 64 ≤ hubSize) :
    ∃ m p, s.closeCycle = { s with mem := m, esp := { s.esp with phase := 5, prev := p, run := 0, told := false } } ∧
      Invariant { s with mem := m } ∧ SameBytesBut (hub a) 64 s { s with mem := m } ∧
      State.rd { s with mem := m } (hub a) 4 = s.esp.cycle % 2 ^ 32 := by
  obtain ⟨w, p, hclose, hcycle⟩ := closeCycle_of_met hphase hst hin hout
  obtain ⟨m, hwr, hwf, hsame⟩ := wr_spec hs (hub a) (toBytes 64 w)
  have hread : State.rd { s with mem := m } (hub a) 64 = w % 256 ^ 64 := hwr ▸ rd_wr_hub s 64 w hhub
  have hfirst : State.rd { s with mem := m } (hub a) 64 % 256 ^ 4 = State.rd { s with mem := m } (hub a) 4 := rd_mod _ (hub a) 4 60
  rw [toBytes_length] at hsame
  rw [← ha] at hclose
  refine ⟨m, p, hclose.trans (congrArg (fun u : State => u.setEsp _) hwr), hwf, hsame, ?_⟩
  rw [← hfirst, hread, ← hcycle]
  omega

/-! ### A copy of an output frame (R242, R243) -/

/-- The loop's record once copy `c` of the output frame `k` has come back. -/
def Esp.returned (e : Esp) (c k wkc : Nat) : Esp :=
  { e with outDone := insNat c e.outDone, outSums := AMap.put 0 k (AMap.getD k 0 e.outSums + wkc) e.outSums }

/-- The frame of that copy is complete, with the sum of its counters. -/
def Esp.frameBack (e : Esp) (sum : Nat) : Esp := { e with outLeft := e.outLeft - 1, wkcOut := e.wkcOut + sum }

section

variable {s : State} (hs : Invariant s) {c k wkc : Nat} (hk : k = c / 2) (hphase : s.esp.phase ≠ 0) (hleft : s.esp.outLeft ≠ 0)
  (hlen : k < (framesOf s.outLen).length) (hnew : c ∉ s.esp.outDone)
include hk hphase hleft hlen hnew

theorem output_expected : ¬ (s.esp.phase = 0 ∨ s.esp.outLeft = 0 ∨ (framesOf s.outLen).length ≤ c / 2 ∨
    s.esp.outDone.contains c = true) := by
  subst hk
  rintro (h | h | h | h)
  · exact hphase h
  · exact hleft h
  · omega
  · exact hnew (List.contains_iff_mem.mp h)

theorem outputReturn_of_missing (hmissing : ((insNat c s.esp.outDone).filter (fun d => d / 2 == k)).length < s.copiesDue) :
    s.outputReturn c wkc = s.setEsp (s.esp.returned c k wkc) := by
  have hguard := output_expected hk hphase hleft hlen hnew
  subst hk
  unfold State.outputReturn
  dsimp only
  rw [if_neg hguard]
  exact if_pos hmissing

theorem outputReturn_of_whole (hwhole : s.copiesDue ≤ ((insNat c s.esp.outDone).filter (fun d => d / 2 == k)).length)
    (hwkc : AMap.getD k 0 s.esp.outSums + wkc = expectWkc (s.subds.map subOut) ((framesOf s.outLen).getD k (0, 0))) :
    s.outputReturn c wkc =
      if s.esp.outLeft = 1 then (s.setEsp ((s.esp.returned c k wkc).frameBack (AMap.getD k 0 s.esp.outSums + wkc))).closeCycle
      else s.setEsp ((s.esp.returned c k wkc).frameBack (AMap.getD k 0 s.esp.outSums + wkc)) := by
  have hguard := output_expected hk hphase hleft hlen hnew
  have hsubds : (s.setEsp (s.esp.returned c k wkc)).subds = s.subds := subds_congr rfl rfl rfl
  have hcopies : ¬ ((insNat c s.esp.outDone).filter (fun d => d / 2 == k)).length < (s.setEsp (s.esp.returned c k wkc)).copiesDue :=
    Nat.not_lt.mpr hwhole
  unfold Esp.returned at hsubds hcopies
  subst hk
  unfold State.outputReturn
  dsimp only
  rw [if_neg hguard, if_neg hcopies, hsubds, if_pos hwkc]
  rfl

theorem outputReturn_of_short (hwhole : s.copiesDue ≤ ((insNat c s.esp.outDone).filter (fun d => d / 2 == k)).length)
    (hmany : 2 ≤ s.esp.outLeft)
    (hwkc : AMap.getD k 0 s.esp.outSums + wkc ≠ expectWkc (s.subds.map subOut) ((framesOf s.outLen).getD k (0, 0))) :
    s.outputReturn c wkc = (s.bumpReg (baseESP + 0x28)).setEsp
      ((((s.setEsp (s.esp.returned c k wkc)).raiseFlag 2 0).esp).frameBack (AMap.getD k 0 s.esp.outSums + wkc)) := by
  have hguard := output_expected hk hphase hleft hlen hnew
  have hsubds : (s.setEsp (s.esp.returned c k wkc)).subds = s.subds := subds_congr rfl rfl rfl
  have hcopies : ¬ ((insNat c s.esp.outDone).filter (fun d => d / 2 == k)).length < (s.setEsp (s.esp.returned c k wkc)).copiesDue :=
    Nat.not_lt.mpr hwhole
  unfold Esp.returned at hsubds hcopies
  subst hk
  unfold State.outputReturn
  dsimp only
  rw [if_neg hguard, if_neg hcopies, hsubds, if_neg hwkc, if_neg (by omega)]
  rfl

include hs

theorem exec_outputFrameReturn_missing (hmissing : ((insNat c s.esp.outDone).filter (fun d => d / 2 == k)).length < s.copiesDue) :
    exec (.outputFrameReturn c wkc) s = .next { s with
      esp := { s.esp with outDone := insNat c s.esp.outDone,
                          outSums := AMap.put 0 k (AMap.getD k 0 s.esp.outSums + wkc) s.esp.outSums } } := by
  have hexec : exec (.outputFrameReturn c wkc) s = s.done (s.outputReturn c wkc) := rfl
  rw [hexec, outputReturn_of_missing hk hphase hleft hlen hnew hmissing]
  exact State.done_of_same hs rfl rfl rfl

section

variable (hwhole : s.copiesDue ≤ ((insNat c s.esp.outDone).filter (fun d => d / 2 == k)).length)
include hwhole

theorem exec_outputFrameReturn_whole (hmany : 2 ≤ s.esp.outLeft)
    (hwkc : AMap.getD k 0 s.esp.outSums + wkc = expectWkc (s.subds.map subOut) ((framesOf s.outLen).getD k (0, 0))) :
    exec (.outputFrameReturn c wkc) s = .next { s with
      esp := { s.esp with outDone := insNat c s.esp.outDone,
                          outSums := AMap.put 0 k (AMap.getD k 0 s.esp.outSums + wkc) s.esp.outSums,
                          outLeft := s.esp.outLeft - 1, wkcOut := s.esp.wkcOut + (AMap.getD k 0 s.esp.outSums + wkc) } } := by
  have hexec : exec (.outputFrameReturn c wkc) s = s.done (s.outputReturn c wkc) := rfl
  rw [hexec, outputReturn_of_whole hk hphase hleft hlen hnew hwhole hwkc, if_neg (by omega)]
  exact State.done_of_same hs rfl rfl rfl

theorem exec_outputFrameReturn_last {a : Nat} (hone : s.esp.outLeft = 1) (hsent : s.esp.phase = 4) (hrun : s.esp.st = 2)
    (hin : 0x0190 ∉ s.esp.stats) (hout : 0x0192 ∉ s.esp.stats) (ha : a = s.lo 0x15 + 64 * (s.esp.cycle % max 1 (s.lo 0x16)))
    (hhub : a + 64 ≤ hubSize)
    (hwkc : AMap.getD k 0 s.esp.outSums + wkc = expectWkc (s.subds.map subOut) ((framesOf s.outLen).getD k (0, 0))) :
    ∃ t, exec (.outputFrameReturn c wkc) s = .next t ∧ t = { s with mem := t.mem, esp := t.esp } ∧ SameBytesBut (hub a) 64 s t ∧
      t.esp.phase = 5 ∧ t.esp.outLeft = 0 ∧ t.esp.run = 0 ∧ t.rd (hub a) 4 = s.esp.cycle % 2 ^ 32 := by
  obtain ⟨m, p, hclose, hwf, hsame, hread⟩ := closeCycle_spec (a := a)
    (s := s.setEsp ((s.esp.returned c k wkc).frameBack (AMap.getD k 0 s.esp.outSums + wkc))) hs hsent hrun hin hout ha hhub
  have hexec : exec (.outputFrameReturn c wkc) s = s.done (s.outputReturn c wkc) := rfl
  rw [hexec, outputReturn_of_whole hk hphase hleft hlen hnew hwhole hwkc, if_pos hone, hclose]
  refine ⟨_, State.done_of_wf rfl hwf, rfl, hsame, rfl, ?_, rfl, hread⟩
  exact Nat.sub_eq_zero_of_le (Nat.le_of_eq hone)

theorem exec_outputFrameReturn_short (hmany : 2 ≤ s.esp.outLeft)
    (hwkc : AMap.getD k 0 s.esp.outSums + wkc ≠ expectWkc (s.subds.map subOut) ((framesOf s.outLen).getD k (0, 0))) :
    ∃ t, exec (.outputFrameReturn c wkc) s = .next t ∧ t = { s with regs := t.regs, esp := t.esp } ∧ SameBytes s t ∧
      t.esp.flags.testBit 2 = true ∧ t.esp.outLeft = s.esp.outLeft - 1 ∧ SameRegs [baseESP + 0x28] s t ∧
      t.reg (baseESP + 0x28) = (s.reg (baseESP + 0x28) + 1) % 2 ^ 64 := by
  have hregs : SameRegs [baseESP + 0x28] s (s.bumpReg (baseESP + 0x28)) := (SameRegs.of_regs _ rfl).bumpReg _ 1 List.mem_cons_self
  have hreg : (s.bumpReg (baseESP + 0x28)).reg (baseESP + 0x28) = (s.reg (baseESP + 0x28) + 1) % 2 ^ 64 :=
    (State.bumpReg_reg _ _ _ _).trans (if_pos rfl)
  have hexec : exec (.outputFrameReturn c wkc) s = s.done (s.outputReturn c wkc) := rfl
  rw [hexec, outputReturn_of_short hk hphase hleft hlen hnew hwhole hmany hwkc]
  exact ⟨_, State.done_of_same hs rfl rfl rfl, rfl, SameBytes.of_dict rfl rfl rfl,
    raiseFlag_testBit (s.setEsp (s.esp.returned c k wkc)) 2 0, rfl, hregs, hreg⟩

end

end

theorem outputReturn_of_unexpected {s : State} {c : Nat} (h : s.esp.phase = 0 ∨ s.esp.outLeft = 0 ∨
    (framesOf s.outLen).length ≤ c / 2 ∨ c ∈ s.esp.outDone) (wkc : Nat) : s.outputReturn c wkc = s := by
  rw [← List.contains_iff_mem] at h
  exact if_pos h

end Sys2Proof.Machine
end

section
/-! The state mirror (R253): pinned streams, and ranges of cluster SRAM. -/

namespace Sys2Proof.Machine

/-! ### A copy within cluster SRAM -/

/-- A pasted cell reads what the list of cells gives it, or what it read before. -/
theorem cellGet_cellPaste {lo k : Nat} {v : Byte} {cs : List Host.Cell} (hval : ∀ c, c ∈ cs → c.1 = k → c.2 = v) (m : List Host.Cell)
    (hin : (∃ c, c ∈ cs ∧ c.1 = k) ∨ cellGet 0 (lo + k) m = v) : cellGet 0 (lo + k) (cellPaste 0 lo cs m) = v := by
  induction cs generalizing m with
  | nil =>
    rcases hin with ⟨c, hc, _⟩ | hm
    · exact absurd hc List.not_mem_nil
    · exact hm
  | cons c cs ih =>
    refine ih (fun d hd => hval d (List.mem_cons_of_mem _ hd)) (cellSet 0 (lo + c.1) c.2 m) ?_
    by_cases hc : c.1 = k
    · right
      rw [cellGet_cellSet, if_pos (by rw [hc]), ← hval c List.mem_cons_self hc]
      split
      · rename_i hzero
        exact hzero.symm
      · rfl
    · rcases hin with ⟨d, hd, hk⟩ | hm
      · rcases List.mem_cons.mp hd with rfl | hmem
        · exact absurd hk hc
        · exact .inl ⟨d, hmem, hk⟩
      · right
        rw [cellGet_cellSet, if_neg (by omega)]
        exact hm

/-- A slice of cells pasted over a cleared range reads there what the slice's range reads. -/
theorem cellGet_paste_slice {x y n k : Nat} (hk : k < n) {m : List Host.Cell} (hm : Memory.wf m = true) :
    cellGet 0 (y + k) (cellPaste 0 y (cellSlice x n m) (cellClear y n m)) = cellGet 0 (x + k) m := by
  have hwf : AMap.wf m = true := (Bool.and_eq_true_iff.mp hm).1
  refine cellGet_cellPaste (fun c hc hck => ?_) _ ?_
  · obtain ⟨d, hd, rfl⟩ := List.mem_map.mp hc
    obtain ⟨hmem, hrange⟩ := List.mem_filter.mp hd
    have hlo := of_decide_eq_true hrange
    have hkey : d.1 = x + k := by dsimp only at hck; omega
    unfold cellGet AMap.getD
    rw [← hkey, AMap.get?_eq_some_of_mem hwf hmem]
    rfl
  · rcases AMap.getD_eq_or_mem (x + k) (0 : Byte) m with hzero | hmem
    · right
      have hcleared : AMap.get? (y + k) (cellClear y n m) = none := by
        unfold cellClear
        rw [AMap.get?_keep (y + k) (fun a => !decide (y ≤ a ∧ a < y + n)), decide_eq_true (by omega)]
        rfl
      unfold cellGet
      rw [hzero, AMap.getD, hcleared]
      rfl
    · left
      refine ⟨(k, AMap.getD (x + k) 0 m), List.mem_map.mpr ⟨_, List.mem_filter.mpr ⟨hmem, decide_eq_true (by omega)⟩, ?_⟩, rfl⟩
      dsimp only
      rw [Nat.add_sub_cancel_left]

/-- Cluster SRAM lies above DRAM and below the window of hub SRAM (R16). -/
theorem inClusSram_range {a n : Nat} (h : inClusSram a n = true) : 2 ^ 36 ≤ a ∧ a + n < 0x020080000000 := by
  obtain ⟨g, hg, hrange⟩ := List.any_eq_true.mp h
  have hlt := List.mem_range.mp hg
  have hin := of_decide_eq_true hrange
  unfold clusBase at hin
  omega

/-- A location of cluster SRAM is its address. -/
theorem loc_of_range (s : State) {a : Nat} (hlo : 2 ^ 36 ≤ a) (hhi : a < 0x020080000000) : s.loc a = a := by
  unfold State.loc unalias
  rw [if_neg (by omega), if_neg (by omega)]

/-- A copy within cluster SRAM. -/
theorem copyMem_clusSram {s : State} (hs : Invariant s) {x y n : Nat} (hx : inClusSram x n = true) (hy : inClusSram y n = true) :
    ∃ m, s.copyMem x y n = { s with mem := m } ∧ Invariant { s with mem := m } ∧ SameBytesBut y n s { s with mem := m } ∧
      ∀ k, k < n → State.byteAt { s with mem := m } (y + k) = s.byteAt (x + k) := by
  obtain ⟨hxlo, hxhi⟩ := inClusSram_range hx
  obtain ⟨hylo, hyhi⟩ := inClusSram_range hy
  have hwf := Memory.wf_copyMem s x y n hs.1
  have hslice : s.slice x n = cellSlice x n s.mem := by
    unfold State.slice
    rw [isRegSpace_of_lt (by omega), if_neg (by simp; omega), loc_of_range s hxlo (by omega)]
  have hcopy : s.copyMem x y n = { s with mem := cellPaste 0 y (cellSlice x n s.mem) (cellClear y n s.mem) } := by
    unfold State.copyMem State.paste
    rw [if_neg (by omega), hslice, loc_of_range s hylo (by omega)]
  rw [hcopy] at hwf
  refine ⟨_, hcopy, ⟨hwf, hs.2⟩, ⟨fun b hb hout => ?_, rfl⟩, fun k hk => ?_⟩
  · have hloc (i : Nat) (hi : i < n) : y + i ≠ s.loc b := by
      rw [← loc_of_range s (a := y + i) (by omega) (by omega)]
      exact hout i hi
    have hcells : cellGet 0 (s.loc b) (cellPaste 0 y (cellSlice x n s.mem) (cellClear y n s.mem)) = cellGet 0 (s.loc b) s.mem := by
      rw [← hslice]
      exact (cellGet_cellPaste_of_not_mem (fun c hc => hloc c.1 (slice_lt hc)) _).trans (cellGet_cellClear_of_not_mem hloc _)
    simp only [State.byteAt, hb, Bool.false_eq_true, if_false]
    exact hcells
  · have hcells := cellGet_paste_slice (x := x) (y := y) hk hs.1
    have hyk : State.loc { s with mem := cellPaste 0 y (cellSlice x n s.mem) (cellClear y n s.mem) } (y + k) = y + k :=
      loc_of_range _ (by omega) (by omega)
    have hxk : s.loc (x + k) = x + k := loc_of_range s (by omega) (by omega)
    have hyreg : isRegSpace (y + k) = false := isRegSpace_of_lt (by omega)
    have hxreg : isRegSpace (x + k) = false := isRegSpace_of_lt (by omega)
    simp only [State.byteAt, hyreg, hxreg, hyk, hxk, Bool.false_eq_true, if_false]
    exact hcells

/-! ### The mirror (R253) -/

section

variable {s : State} (hs : Invariant s) (hst : s.esp.st = 2) (hphase : 4 ≤ s.esp.phase) (honce : s.esp.mirrored = false)
  (hpresent : s.esp.absent = false) (hstay : s.esp.takeover = false) {a b n x y : Nat} (hx : x = (if s.esp.swapped then b else a))
  (hy : y = (if s.esp.swapped then a else b))
include hst hphase honce hpresent hstay hx hy

/-- One item is mirrored from the primary to the standby. -/
theorem mirror_single (kind : Nat) : s.mirror [(kind, a, b, n)] =
    (mirrorOne s (kind, x, y, n)).setEsp { (mirrorOne s (kind, x, y, n)).esp with mirrored := true } := by
  have hguard : ¬ (s.esp.st ≠ 2 ∨ s.esp.phase < 4 ∨ s.esp.mirrored = true ∨ s.esp.absent = true ∨ s.esp.takeover = true) := by
    simp only [honce, hpresent, hstay, Bool.false_eq_true, or_false]
    omega
  have hsides : (if s.esp.swapped then (kind, b, a, n) else (kind, a, b, n)) = (kind, x, y, n) := by
    subst hx hy
    cases s.esp.swapped with
    | false => rfl
    | true => rfl
  unfold State.mirror
  rw [if_neg hguard, ← hsides]
  rfl

include hs

theorem exec_stateMirror_copy (hn : n ≤ 8192) (hfrom : inClusSram x n = true) (hto : inClusSram y n = true) :
    ∃ t, exec (.stateMirror [(1, a, b, n)]) s = .next t ∧ t = { s with mem := t.mem, esp := { s.esp with mirrored := true } } ∧
      SameBytesBut y n s t ∧ ∀ k, k < n → t.byteAt (y + k) = s.byteAt (x + k) := by
  obtain ⟨m, hcopy, hwf, hsame, hbytes⟩ := copyMem_clusSram hs hfrom hto
  have hone : mirrorOne s (1, x, y, n) = { s with mem := m } := (if_pos ⟨hn, hfrom, hto⟩).trans hcopy
  have hexec : exec (.stateMirror [(1, a, b, n)]) s = s.done (s.mirror [(1, a, b, n)]) := rfl
  rw [hexec, mirror_single hst hphase honce hpresent hstay hx hy, hone]
  exact ⟨_, State.done_of_wf rfl hwf, rfl, hsame, hbytes⟩

theorem exec_stateMirror_none (hout : 8192 < n ∨ inClusSram x n = false ∨ inClusSram y n = false) :
    exec (.stateMirror [(1, a, b, n)]) s = .next { s with esp := { s.esp with mirrored := true } } := by
  have hnot : ¬ (n ≤ 8192 ∧ inClusSram x n = true ∧ inClusSram y n = true) := by
    rintro ⟨hn, hfrom, hto⟩
    rcases hout with h | h | h
    · omega
    · exact Bool.false_ne_true (h.symm.trans hfrom)
    · exact Bool.false_ne_true (h.symm.trans hto)
  have hone : mirrorOne s (1, x, y, n) = s := if_neg hnot
  have hexec : exec (.stateMirror [(1, a, b, n)]) s = s.done (s.mirror [(1, a, b, n)]) := rfl
  rw [hexec, mirror_single hst hphase honce hpresent hstay hx hy, hone]
  exact State.done_of_same hs rfl rfl rfl

theorem exec_stateMirror_stream (hfrom : (s.strm x).st = .pinned) (hto : (s.strm y).st = .pinned) :
    ∃ t, exec (.stateMirror [(0, a, b, n)]) s = .next t ∧ t = { s with strs := t.strs, esp := { s.esp with mirrored := true } } ∧
      SameBytes s t ∧ t.strm y = { s.strm y with data := (s.strm x).data, reset := (s.strm x).reset } ∧
      ∀ z, z ≠ y → t.strm z = s.strm z := by
  have hset (z : Nat) := State.setStrm_strm s y z { s.strm y with data := (s.strm x).data, reset := (s.strm x).reset }
  have hone : mirrorOne s (0, x, y, n) = s.setStrm y { s.strm y with data := (s.strm x).data, reset := (s.strm x).reset } :=
    if_pos ⟨hfrom, hto⟩
  have hexec : exec (.stateMirror [(0, a, b, n)]) s = s.done (s.mirror [(0, a, b, n)]) := rfl
  rw [hexec, mirror_single hst hphase honce hpresent hstay hx hy, hone]
  exact ⟨_, State.done_of_same hs rfl rfl rfl, rfl, SameBytes.of_dict rfl rfl rfl, (hset y).trans (if_pos rfl),
    fun z hz => (hset z).trans (if_neg (Ne.symm hz))⟩

end

theorem mirror_of_barred {s : State} (h : s.esp.st ≠ 2 ∨ s.esp.phase < 4 ∨ s.esp.mirrored = true ∨ s.esp.absent = true ∨
    s.esp.takeover = true) (l : List (Nat × Nat × Nat × Nat)) : s.mirror l = s := if_pos h

end Sys2Proof.Machine

namespace Sys2Proof

open Sys2Proof.Machine

/-- Settles O52. Each clause of the cycle is one event of it: the tick and its outputs keep what the tick settled; a copy of an input
frame merges, and the complete image is taken; cutoff and budget count and go on; the selected side's vector is checked; the last
output copy closes the cycle; the mirror copies once. -/
theorem loopCycle : Obligations.LoopCycle := by
  unfold Obligations.LoopCycle
  intro s hs
  have hkeep {t : State} (h : t = s) : s.done t = .next s := by
    rw [h]
    exact State.done_of_same hs rfl rfl rfl
  refine ⟨fun ring hst hdue hphase => exec_cycleTick hst hdue hphase ring,
    fun ring h => hkeep (cycleTick_of_not_due h ring),
    fun k port wkc data e reloc hphase hk hport hnew htime =>
      ⟨fun hmissing => exec_inputFrameReturn_missing hs hphase hk hport hnew htime hmissing wkc data e reloc,
        fun hzero hlen hring hdone hwkcs hwkc => ?_⟩,
    fun e reloc left hphase hdue => exec_inputCutoff hs hphase hdue e reloc left,
    fun e reloc left h => hkeep (inputCutoff_of_not_due h e reloc left),
    fun hphase htime => ⟨(exec_sideCycleSuccess_primary hs hphase htime).1, (exec_sideCycleSuccess_primary hs hphase htime).2,
      exec_sideCycleSuccess_standby hs hphase htime⟩,
    fun c vec hphase hc hvec => ⟨exec_limitCheckDone_pass hs hphase hc hvec, exec_limitCheckDone_fail hphase hc hvec⟩,
    fun h => hkeep (limitDone_of_other h),
    fun hphase hend hside => exec_budgetEnd_standby hs hphase hend hside,
    fun hphase hend hside => exec_budgetEnd_hold hs hphase hend hside,
    fun h => hkeep (budgetEnd_of_not_due h),
    fun c k wkc hk hphase hleft hlen hnew =>
      ⟨exec_outputFrameReturn_missing hs hk hphase hleft hlen hnew, fun hwhole hwkc =>
        ⟨fun hmany => exec_outputFrameReturn_whole hs hk hphase hleft hlen hnew hwhole hmany hwkc,
          fun a hone hsent hrun hin hout ha hhub =>
            exec_outputFrameReturn_last hs hk hphase hleft hlen hnew hwhole hone hsent hrun hin hout ha hhub hwkc⟩,
        exec_outputFrameReturn_short hs hk hphase hleft hlen hnew⟩,
    fun c wkc h => hkeep (outputReturn_of_unexpected h wkc),
    fun a b n x y hst hphase honce hpresent hstay hx hy =>
      ⟨exec_stateMirror_copy hs hst hphase honce hpresent hstay hx hy, exec_stateMirror_none hs hst hphase honce hpresent hstay hx hy,
        exec_stateMirror_stream hs hst hphase honce hpresent hstay hx hy⟩,
    fun l h => hkeep (mirror_of_barred h l)⟩
  subst hzero
  exact exec_inputFrameReturn_single hphase hport hlen hring hdone hwkcs htime hwkc data e reloc

end Sys2Proof
end

section
/-! The loop's commands (R254, R257): Arm, Start, Stop, Disarm and Rejoin, as accesses to their dictionary entries. -/

namespace Sys2Proof.Machine

/-! ### The commands as accesses -/

/-- A write beside the safety configuration whose effect is the unit's own. -/
theorem effect_of_effUnit {s : State} {idx sub inst v : Nat} {x : Seg} {r : State × Nat} (hmod : s.effMod idx sub v x = none)
    (hfuse : s.effFuse idx sub v = none) (hunit : s.effUnit idx sub inst v x = some r) (hidx : idx ≠ 0x2200)
    (hset : inSafetySet idx sub = false) : s.effect idx sub inst v x = r := by
  unfold State.effect
  rw [hmod, hfuse, hunit]
  exact Prod.ext (judgeCrc_of_not_safety hidx hset r.1) rfl

theorem effect_loopCommand (s : State) (inst v : Nat) (x : Seg) :
    s.effect 0x2700 2 inst v x = s.loopCommand v x.ids x.delay x.ring :=
  effect_of_effUnit (by simp [State.effMod, within]) (by simp [State.effFuse, within]) rfl (by decide) (by decide)

theorem effect_rejoin (s : State) (inst v : Nat) (x : Seg) : s.effect 0x2700 0x26 inst v x = s.rejoin :=
  effect_of_effUnit (by simp [State.effMod, within]) (by simp [State.effFuse, within]) rfl (by decide) (by decide)

theorem effect_bodySdo (s : State) (inst v : Nat) (x : Seg) :
    s.effect 0x2701 6 inst v x = ((s.setOd 0x2701 6 v).bodySdo (v == 1) x.ok x.data, 0) :=
  effect_of_effUnit (by simp [State.effMod, within]) (by simp [State.effFuse, within]) rfl (by decide) (by decide)

/-- An accepted write whose effect keeps the invariant: the effect, and its answer. -/
theorem access_done {s r : State} {path idx sub len v st : Nat} {x : Seg} (hg : isGroup idx = false) (h : Accepted s path idx sub len v)
    (hn : idx ≠ 0x2000) (he : s.effect idx sub (s.instOf path idx sub) v x = (r, st)) (hr : Invariant r) (hp : r.pending = s.pending) :
    ∃ q m, s.done (s.access path idx sub len v x) = .next { r with dict := q, md := m } ∧
      SameOd [odKey 0x2002 3 0] r { r with dict := q, md := m } ∧ Answered path st { r with dict := q, md := m } ∧
      m.bodyDown = r.md.bodyDown := by
  obtain ⟨t, ht, hframe, hod, hans, _, _, hmd⟩ := access_spec x hg h (fun hc => hn hc.1) he
  have hdown : t.md.bodyDown = r.md.bodyDown := by rw [hmd]
  rw [hframe] at hod hans
  rw [ht, hframe]
  exact ⟨t.dict, t.md, State.done_of_wf hp hr, hod, hans, hdown⟩

/-- The same of an effect that leaves memory and dictionary alone. -/
theorem access_quiet {s r : State} {path idx sub len v st : Nat} {x : Seg} (hs : Invariant s) (hg : isGroup idx = false)
    (h : Accepted s path idx sub len v) (hn : idx ≠ 0x2000) (he : s.effect idx sub (s.instOf path idx sub) v x = (r, st))
    (hm : r.mem = s.mem) (hd : r.dict = s.dict) (hf : r.flash = s.flash) (hp : r.pending = s.pending) :
    ∃ q m, s.done (s.access path idx sub len v x) = .next { r with dict := q, md := m } ∧ SameBytes s { r with dict := q, md := m } ∧
      Answered path st { r with dict := q, md := m } ∧ m.bodyDown = r.md.bodyDown := by
  obtain ⟨q, m, hnext, hod, hans, hdown⟩ := access_done hg h hn he (Invariant.of_mem hs hm hf) hp
  have hint : State.interleaved { r with dict := q, md := m } = s.interleaved :=
    ((SameOd.of_dict _ hd).trans hod).interleaved (by decide)
  exact ⟨q, m, hnext, SameBytes.of_mem hm hint hf, hans, hdown⟩

/-- A loop command without effect on memory and dictionary. -/
theorem access_loop {s r : State} {path v st : Nat} {x : Seg} (hs : Invariant s) (h : Accepted s path 0x2700 2 1 v)
    (he : s.loopCommand v x.ids x.delay x.ring = (r, st)) (hm : r.mem = s.mem) (hd : r.dict = s.dict) (hf : r.flash = s.flash)
    (hp : r.pending = s.pending) :
    ∃ q m, s.done (s.access path 0x2700 2 1 v x) = .next { r with dict := q, md := m } ∧ SameBytes s { r with dict := q, md := m } ∧
      Answered path st { r with dict := q, md := m } ∧ m.bodyDown = r.md.bodyDown :=
  access_quiet hs rfl h (by decide) ((effect_loopCommand s _ v x).trans he) hm hd hf hp

/-- A loop command that is refused. -/
theorem access_loop_refused {s : State} {path v st : Nat} {x : Seg} (hs : Invariant s) (h : Accepted s path 0x2700 2 1 v)
    (he : s.loopCommand v x.ids x.delay x.ring = (s, st)) :
    ∃ t, s.done (s.access path 0x2700 2 1 v x) = .next t ∧ t = { s with dict := t.dict, md := t.md } ∧ SameBytes s t ∧
      Answered path st t := by
  obtain ⟨q, m, hnext, hsame, hans, _⟩ := access_loop hs h he rfl rfl rfl rfl
  exact ⟨_, hnext, rfl, hsame, hans⟩

/-! ### Start, Stop, Disarm and Rejoin -/

section

variable {s : State} {path : Nat} (hs : Invariant s)
include hs

theorem exec_loopStart (h : Accepted s path 0x2700 2 1 2) :
    (s.esp.st = 1 → s.loopLegal = true → s.esp.stopLeft = 0 → s.periodOk = true →
      ∃ t, exec (.loopStart path) s = .next t ∧ t = { s with dict := t.dict, md := t.md, esp := t.esp } ∧ SameBytes s t ∧
        Answered path 0 t ∧ t.esp = { s.esp with
          start := true, nextP := s.od 0x5000 0x0E s.primary, nextS := s.od 0x5000 0x0E s.standby }) ∧
    (s.esp.st ≠ 1 →
      ∃ t, exec (.loopStart path) s = .next t ∧ t = { s with dict := t.dict, md := t.md } ∧ SameBytes s t ∧ Answered path 0x03D0 t) := by
  constructor
  · intro hst hlegal hleft hperiod
    have hstart : s.loopStart = (s.setEsp { s.esp with
        start := true, nextP := s.od 0x5000 0x0E s.primary, nextS := s.od 0x5000 0x0E s.standby }, 0) := by
      unfold State.loopStart
      rw [if_neg (by simp [hst, hlegal, hleft]), if_neg (by simp [hperiod])]
    obtain ⟨q, m, hnext, hsame, hans, _⟩ := access_loop (x := Seg.none) hs h hstart rfl rfl rfl rfl
    exact ⟨_, hnext, rfl, hsame, hans, rfl⟩
  · intro hst
    exact access_loop_refused (x := Seg.none) hs h (if_pos (.inl hst))

theorem exec_loopStop (h : Accepted s path 0x2700 2 1 3) :
    (s.esp.st = 2 → s.esp.stopLeft = 0 →
      ∃ t, exec (.loopStop path) s = .next t ∧ t = { s with dict := t.dict, md := t.md, esp := { s.esp with stopLeft := 17 } } ∧
        SameBytes s t ∧ Answered path 0 t) ∧
    (s.esp.st ≠ 2 →
      ∃ t, exec (.loopStop path) s = .next t ∧ t = { s with dict := t.dict, md := t.md } ∧ SameBytes s t ∧ Answered path 0x03D0 t) := by
  constructor
  · intro hst hleft
    have hstop : s.loopStop = (s.setEsp { s.esp with stopLeft := 17 }, 0) := if_neg (by simp [hst, hleft])
    obtain ⟨q, m, hnext, hsame, hans, _⟩ := access_loop (x := Seg.none) hs h hstop rfl rfl rfl rfl
    exact ⟨_, hnext, rfl, hsame, hans⟩
  · intro hst
    exact access_loop_refused (x := Seg.none) hs h (if_pos (.inl hst))

theorem exec_loopDisarm (h : Accepted s path 0x2700 2 1 4) :
    (s.esp.st = 1 →
      ∃ t, exec (.loopDisarm path) s = .next t ∧
        t = { s with dict := t.dict, md := t.md, esp := { s.esp with
          st := 0, start := false, phase := 0, sub := (List.range (s.lo 6)).map (fun d => (d, 2)) } } ∧ SameBytes s t ∧
        Answered path 0 t ∧ t.md.bodyDown = false) ∧
    (s.esp.st ≠ 1 →
      ∃ t, exec (.loopDisarm path) s = .next t ∧ t = { s with dict := t.dict, md := t.md } ∧ SameBytes s t ∧ Answered path 0x03D0 t) := by
  constructor
  · intro hst
    have hdisarm : s.loopDisarm = ({ s.setEsp { s.esp with
        st := 0, start := false, phase := 0, sub := (List.range (s.lo 6)).map (fun d => (d, 2)) } with
      md := { s.md with bodyDown := false } }, 0) := if_neg (by simp [hst])
    obtain ⟨q, m, hnext, hsame, hans, hdown⟩ := access_loop (x := Seg.none) hs h hdisarm rfl rfl rfl rfl
    exact ⟨_, hnext, rfl, hsame, hans, hdown⟩
  · intro hst
    exact access_loop_refused (x := Seg.none) hs h (if_pos hst)

theorem exec_rejoinStandby (h : Accepted s path 0x2700 0x26 1 1) :
    (s.esp.absent = true → s.standby ≠ 0xFFFF →
      ∃ t, exec (.rejoinStandby path) s = .next t ∧ t = { s with dict := t.dict, md := t.md, esp := { s.esp with absent := false } } ∧
        SameBytes s t ∧ Answered path 0 t) ∧
    (s.esp.absent = false ∨ s.standby = 0xFFFF →
      ∃ t, exec (.rejoinStandby path) s = .next t ∧ t = { s with dict := t.dict, md := t.md } ∧ SameBytes s t ∧ Answered path 0x01D0 t) := by
  have haccess {r : State} {st : Nat} (he : s.rejoin = (r, st)) := access_quiet (x := Seg.none) (r := r) (st := st) hs rfl h (by decide)
    ((effect_rejoin s _ 1 Seg.none).trans he)
  constructor
  · intro habsent hstandby
    have hrejoin : s.rejoin = (s.setEsp { s.esp with absent := false }, 0) := if_pos ⟨habsent, hstandby⟩
    obtain ⟨q, m, hnext, hsame, hans, _⟩ := haccess hrejoin rfl rfl rfl rfl
    exact ⟨_, hnext, rfl, hsame, hans⟩
  · intro hnot
    have hrejoin : s.rejoin = (s, 0x01D0) := by
      refine if_neg ?_
      rintro ⟨habsent, hstandby⟩
      rcases hnot with h | h
      · exact Bool.false_ne_true (h.symm.trans habsent)
      · exact hstandby h
    obtain ⟨q, m, hnext, hsame, hans, _⟩ := haccess hrejoin rfl rfl rfl rfl
    exact ⟨_, hnext, rfl, hsame, hans⟩

end

/-! ### Arm (R237, R241) -/

theorem startUp_of_none {s : State} {w : Nat} (h : lf w 26 2 = 0) : s.startUp w = s := if_pos h

theorem foldl_startUp (l : List Nat) (s : State) :
    ∃ w, l.foldl State.startUp s = { s with wire := w } ∧ ((∀ d, d ∈ l → lf d 26 2 = 0) → w = s.wire) := by
  induction l generalizing s with
  | nil => exact ⟨_, rfl, fun _ => rfl⟩
  | cons d l ih =>
    by_cases h : lf d 26 2 = 0
    · obtain ⟨w, hl, hw⟩ := ih s
      rw [List.foldl_cons, startUp_of_none h]
      exact ⟨w, hl, fun hall => hw fun e he => hall e (List.mem_cons_of_mem _ he)⟩
    · obtain ⟨w, hl, _⟩ := ih (s.startUp d)
      have hwire : s.startUp d = { s with wire := (s.startUp d).wire } := by
        unfold State.startUp
        rw [if_neg h]
        rfl
      rw [List.foldl_cons, hl, hwire]
      exact ⟨w, rfl, fun hall => absurd (hall d List.mem_cons_self) h⟩

/-- The entries that Arm writes: the measured ring delay, the cutoff and the counters of the loop. -/
def armKeys : List Nat :=
  [odKey 0x2700 0x12 0, odKey 0x2700 0x13 0, odKey 0x2700 0x17 0, odKey 0x2700 0x18 0, odKey 0x2700 0x19 0, odKey 0x2700 0x1A 0,
    odKey 0x2700 0x1B 0]

/-- The dictionary after Arm. -/
def State.armOd (s : State) (delay : Nat) : State :=
  (List.range 5).foldl (fun t i => t.setOd 0x2700 (0x17 + i) 0)
    ((s.setOd 0x2700 0x12 (delay % 2 ^ 32)).setOd 0x2700 0x13 (s.setOd 0x2700 0x12 (delay % 2 ^ 32)).cutoff)

/-- Entries cleared one after another. -/
theorem clearCounts_od (l : List Nat) (s : State) (j : Nat) : (l.foldl (fun t i => t.setOd 0x2700 (0x17 + i) 0) s).od 0x2700 j =
    if 0x17 ≤ j ∧ j - 0x17 ∈ l then 0 else s.od 0x2700 j := by
  induction l generalizing s with
  | nil => simp
  | cons i l ih =>
    rw [List.foldl_cons, ih]
    by_cases hj : 0x17 + i = j
    · subst hj
      rw [State.setOd_od_self]
      simp
    · have hkey : odKey 0x2700 (0x17 + i) 0 ≠ odKey 0x2700 j 0 := by
        unfold odKey
        omega
      have hmem : (0x17 ≤ j ∧ j - 0x17 ∈ i :: l) ↔ (0x17 ≤ j ∧ j - 0x17 ∈ l) := by
        rw [List.mem_cons]
        constructor
        · rintro ⟨hlo, h | h⟩
          · omega
          · exact ⟨hlo, h⟩
        · rintro ⟨hlo, h⟩
          exact ⟨hlo, .inr h⟩
      rw [State.setOd_od_ne _ _ hkey]
      simp only [hmem]

theorem armOd_spec (s : State) (delay : Nat) : ∃ q, s.armOd delay = { s with dict := q } ∧ SameOd armKeys s { s with dict := q } ∧
    State.od { s with dict := q } 0x2700 0x12 = delay % 2 ^ 32 ∧ State.od { s with dict := q } 0x2700 0x17 = 0 := by
  have hdelay : SameOd armKeys s (s.setOd 0x2700 0x12 (delay % 2 ^ 32)) :=
    (SameOd.of_dict (s := s) _ rfl).setOd 0x2700 0x12 (delay % 2 ^ 32) 0 (by simp [armKeys])
  have hkeys : SameOd armKeys s (s.armOd delay) := by
    refine List.foldlRecOn (motive := fun t => SameOd armKeys s t) (List.range 5) _
      (hdelay.setOd 0x2700 0x13 _ 0 (by simp [armKeys])) fun t ht i hi => ht.setOd _ _ _ _ ?_
    have hlt := List.mem_range.mp hi
    interval_cases i
    all_goals simp [armKeys]
  have hframe : ∃ q, s.armOd delay = { s with dict := q } :=
    List.foldlRecOn (motive := fun t => ∃ q, t = { s with dict := q }) (List.range 5) _ ⟨_, rfl⟩ fun t ht i _ => by
      obtain ⟨q, rfl⟩ := ht
      exact ⟨_, rfl⟩
  have hring : (s.armOd delay).od 0x2700 0x12 = delay % 2 ^ 32 := by
    unfold State.armOd
    rw [clearCounts_od, if_neg (by omega), State.setOd_od_ne _ _ (by decide)]
    exact State.setOd_od_self _ _ _ _ _
  have hcount : (s.armOd delay).od 0x2700 0x17 = 0 := by
    unfold State.armOd
    rw [clearCounts_od, if_pos (by decide)]
  obtain ⟨q, hq⟩ := hframe
  rw [hq] at hkeys hring hcount
  exact ⟨q, hq, hkeys, hring, hcount⟩

/-- Arm from Off, with a valid configuration. -/
theorem loopArm_of_valid {s : State} {ids : List (Nat × Nat)} {delay : Nat} (hst : s.esp.st = 0) (hlegal : s.loopLegal = true)
    (htable : s.tableOk ids = true) (hfields : s.fieldsOk = true) (htemplate : s.templateOk = true) (hfsoe : s.fsoeOk = true)
    (hperiod : (s.setOd 0x2700 0x12 (delay % 2 ^ 32)).periodOk = true) (ring : Nat) {q : AMap Nat}
    (hq : s.armOd delay = { s with dict := q }) :
    ∃ w, ((∀ d, d ∈ s.subds → lf d 26 2 = 0) → w = s.wire) ∧ s.loopArm ids delay ring = ({ s with
      dict := q
      md := { s.md with bodyDown := ring == 3 }
      isl := { s.isl with period := s.lo 3, conns := s.connList, frameAt := s.safTime, own := false }
      esp := { Esp.zero with
        st := 1, ring := ring % 4, absent := (s.ctxC == 0xFFFF), tickAt := s.espTime - s.lo 3,
        sub := (List.range (s.lo 6)).map (fun d => (d, 3)), period := s.lo 3, soc := s.esp.soc, log := s.esp.log,
        sdo := s.esp.sdo, phase := 5 }
      wire := w }, 0) := by
  obtain ⟨w, hfold, hw⟩ := foldl_startUp s.subds (State.setEsp { s with dict := q } { Esp.zero with
    st := 1, ring := ring % 4, absent := (s.ctxC == 0xFFFF), tickAt := s.espTime - s.lo 3,
    sub := (List.range (s.lo 6)).map (fun d => (d, 3)), period := s.lo 3, soc := s.esp.soc, log := s.esp.log,
    sdo := s.esp.sdo, phase := 5 })
  refine ⟨w, fun h => hw h, ?_⟩
  unfold State.armOd at hq
  unfold State.loopArm
  rw [if_neg (by simp [hst, hlegal])]
  dsimp only
  rw [if_neg (by simp [htable, hfields, htemplate, hfsoe]), if_neg (by rw [hperiod]; decide), hq, hfold]
  rfl

section

variable {s : State} {path : Nat} {x : Seg} (hs : Invariant s) (h : Accepted s path 0x2700 2 1 1)
include hs h

theorem exec_loopArm_valid (hst : s.esp.st = 0) (hlegal : s.loopLegal = true) (htable : s.tableOk x.ids = true)
    (hfields : s.fieldsOk = true) (htemplate : s.templateOk = true) (hfsoe : s.fsoeOk = true)
    (hperiod : (s.setOd 0x2700 0x12 (x.delay % 2 ^ 32)).periodOk = true) :
    ∃ t, exec (.loopArm path x) s = .next t ∧ t = { s with dict := t.dict, md := t.md, isl := t.isl, esp := t.esp, wire := t.wire } ∧
      SameBytes s t ∧ Answered path 0 t ∧ t.md.bodyDown = (x.ring == 3) ∧
      ((∀ w, w ∈ s.subds → lf w 26 2 = 0) → t.wire = s.wire) ∧ t.od 0x2700 0x12 = x.delay % 2 ^ 32 ∧ t.od 0x2700 0x17 = 0 ∧
      t.esp = { Esp.zero with
        st := 1, ring := x.ring % 4, absent := (s.ctxC == 0xFFFF), tickAt := s.espTime - s.lo 3,
        sub := (List.range (s.lo 6)).map (fun d => (d, 3)), period := s.lo 3, soc := s.esp.soc, log := s.esp.log,
        sdo := s.esp.sdo, phase := 5 } ∧
      t.isl = { s.isl with period := s.lo 3, conns := s.connList, frameAt := s.safTime, own := false } := by
  obtain ⟨q, hq, hkeys, hdelay, hcount⟩ := armOd_spec s x.delay
  obtain ⟨w, hw, harm⟩ := loopArm_of_valid hst hlegal htable hfields htemplate hfsoe hperiod x.ring hq
  obtain ⟨q', m, hnext, hod, hans, hdown⟩ := access_done rfl h (by decide) ((effect_loopCommand s _ 1 x).trans harm)
    (Invariant.of_mem hs rfl rfl) rfl
  have hint : State.interleaved { s with dict := q' } = s.interleaved :=
    (hod.interleaved (by decide)).trans (hkeys.interleaved (by decide))
  exact ⟨_, hnext, rfl, SameBytes.of_mem rfl hint rfl, hans, hdown, hw, (hod 0x2700 0x12 0 (by decide)).trans hdelay,
    (hod 0x2700 0x17 0 (by decide)).trans hcount, rfl, rfl⟩

theorem exec_loopArm_table (hst : s.esp.st = 0) (hlegal : s.loopLegal = true) (htable : s.tableOk x.ids = false) :
    ∃ t, exec (.loopArm path x) s = .next t ∧ t = { s with dict := t.dict, md := t.md } ∧ SameBytes s t ∧ Answered path 0x0390 t := by
  have harm : s.loopArm x.ids x.delay x.ring = (s, 0x0390) := by
    unfold State.loopArm
    rw [if_neg (by simp [hst, hlegal])]
    exact if_pos (by simp [htable])
  exact access_loop_refused hs h harm

theorem exec_loopArm_on (hst : s.esp.st ≠ 0) :
    ∃ t, exec (.loopArm path x) s = .next t ∧ t = { s with dict := t.dict, md := t.md } ∧ SameBytes s t ∧ Answered path 0x03D0 t :=
  access_loop_refused hs h (if_pos (.inl hst))

end

end Sys2Proof.Machine
end

section
/-! What the loop does beside its cycle (R237, R239, R256, R353): SDOs and acyclic frames on the body segment, emergencies, and the
battery's Decaf. -/

namespace Sys2Proof.Machine

/-! ### The bytes beside a range -/

theorem sameBytesBut_of_sameBytes {a n : Nat} {s t u v : State} (h : SameBytesBut a n t u) (hst : SameBytes s t)
    (hint : t.interleaved = s.interleaved) (huv : SameBytes u v) : SameBytesBut a n s v := by
  refine ⟨fun b hb hout => ?_, (huv.2.trans h.2).trans hst.2⟩
  refine ((huv.1 b hb).trans (h.1 b hb fun i hi => ?_)).trans (hst.1 b hb)
  rw [loc_congr hint, loc_congr hint]
  exact hout i hi

theorem length_rdBytes (s : State) (a n : Nat) : (s.rdBytes a n).length = n := by
  induction n generalizing a with
  | zero => rfl
  | succ n ih => rw [State.rdBytes, List.length_cons, ih]

theorem rdBytes_congr {s t : State} (h : ∀ a, t.byteAt a = s.byteAt a) (a n : Nat) : t.rdBytes a n = s.rdBytes a n := by
  induction n generalizing a with
  | zero => rfl
  | succ n ih => rw [State.rdBytes, State.rdBytes, h, ih]

/-! ### An SDO that the channel transfers (R237) -/

/-- What goes on the body segment for an SDO command: the request of an upload, or the data of a download. -/
def State.sdoFrames (s : State) (up : Bool) : State :=
  if up then s.toWire 2 []
  else (framesOf (max 1 (s.od 0x2701 5))).foldl
    (fun u f => u.toWire 2 (((s.rdBytes (hub (s.od 0x2701 4)) (s.od 0x2701 5)).drop f.1).take f.2)) s

theorem sdoFrames_frame (s : State) (up : Bool) : ∃ w, s.sdoFrames up = { s with wire := w } := by
  unfold State.sdoFrames
  split
  · exact ⟨_, rfl⟩
  · exact foldl_toWire_frame 2 (fun f : Nat × Nat => ((s.rdBytes (hub (s.od 0x2701 4)) (s.od 0x2701 5)).drop f.1).take f.2) _ s

/-- A download of up to one frame's data is one frame. -/
theorem sdoFrames_wire {s : State} (h : s.od 0x2701 5 ≤ 1486) : (s.sdoFrames false).wire =
    (s.copiesOf 2 (s.rdBytes (hub (s.od 0x2701 4)) (s.od 0x2701 5)) ++ s.wire).take 64 := by
  have hframes : framesOf (max 1 (s.od 0x2701 5)) = [(0, max 1 (s.od 0x2701 5))] := by
    have hone : ceilDiv (max 1 (s.od 0x2701 5)) 1486 = 1 := by
      unfold ceilDiv
      omega
    unfold framesOf
    rw [hone]
    simp only [List.range_one, List.map_cons, List.map_nil, Nat.mul_zero, Nat.sub_zero]
    rw [Nat.min_eq_right (by omega)]
  have hdata : (s.rdBytes (hub (s.od 0x2701 4)) (s.od 0x2701 5)).take (max 1 (s.od 0x2701 5)) =
      s.rdBytes (hub (s.od 0x2701 4)) (s.od 0x2701 5) := List.take_of_length_le (by rw [length_rdBytes]; omega)
  unfold State.sdoFrames
  rw [if_neg Bool.false_ne_true, hframes]
  exact congrArg (fun l => (s.copiesOf 2 l ++ s.wire).take 64) hdata

/-- The data of a successful upload lie in hub SRAM. -/
def State.sdoData (s : State) (up ok : Bool) (l : List Byte) : State :=
  if up && ok then s.wr (hub (s.od 0x2701 4)) (l.take (s.od 0x2701 5)) else s

/-- An SDO that goes: its frames, the data of an upload, and its status. -/
theorem sdoDone_eq (s : State) (up ok : Bool) (l : List Byte) : ∃ k w z,
    s.sdoDone up ok l = (State.sdoData { s with free := k, wire := w } up ok l).setOd 0x2701 7 (if ok then 0 else z) ∧
    (up = false → s.od 0x2701 5 ≤ 1486 →
      w = (s.copiesOf 2 (s.rdBytes (hub (s.od 0x2701 4)) (s.od 0x2701 5)) ++ s.wire).take 64) := by
  obtain ⟨w, hw⟩ := sdoFrames_frame { s with free := s.free + 1 } up
  refine ⟨s.free + 1, w, Config.free s.free 0 % 0x700, ?_, fun hup hlen => ?_⟩
  · unfold State.sdoFrames at hw
    unfold State.sdoDone
    dsimp only [State.draw]
    rw [hw]
    rfl
  · have hwire := sdoFrames_wire (s := { s with free := s.free + 1 }) hlen
    have hdata := rdBytes_congr (s := s) (t := { s with free := s.free + 1 }) (fun _ => rfl) (hub (s.od 0x2701 4)) (s.od 0x2701 5)
    rw [← hup, hw] at hwire
    exact hwire.trans (congrArg (fun d => (s.copiesOf 2 d ++ s.wire).take 64) hdata)

/-- The data of an upload that succeeds are all that an SDO writes to memory. -/
theorem sdoData_spec {s : State} (hs : Invariant s) (up ok : Bool) (l : List Byte) : ∃ m, s.sdoData up ok l = { s with mem := m } ∧
    Invariant { s with mem := m } ∧ (up = false ∨ ok = false → m = s.mem) ∧
    (up = true → ok = true → l.length = s.od 0x2701 5 → s.od 0x2701 4 + s.od 0x2701 5 ≤ hubSize →
      SameBytesBut (hub (s.od 0x2701 4)) (s.od 0x2701 5) s { s with mem := m } ∧
      ∀ i, i < s.od 0x2701 5 → State.byteAt { s with mem := m } (hub (s.od 0x2701 4) + i) = l.getD i 0) := by
  unfold State.sdoData
  by_cases h : (up && ok) = true
  · obtain ⟨hup, hok⟩ := Bool.and_eq_true_iff.mp h
    obtain ⟨m, hwr, hwf, hsame⟩ := wr_spec hs (hub (s.od 0x2701 4)) (l.take (s.od 0x2701 5))
    rw [if_pos h]
    refine ⟨m, hwr, hwf, fun hnot => ?_, fun _ _ hlen hhub => ?_⟩
    · simp [hup, hok] at hnot
    · have hall : l.take (s.od 0x2701 5) = l := List.take_of_length_le (Nat.le_of_eq hlen)
      rw [hall] at hsame hwr
      rw [← hlen] at hhub ⊢
      refine ⟨hsame, fun i hi => ?_⟩
      rw [← hwr]
      exact wr_hub_byteAt s _ l hhub i hi
  · rw [if_neg h]
    exact ⟨s.mem, rfl, hs, fun _ => rfl, fun hup hok => absurd (Bool.and_eq_true_iff.mpr ⟨hup, hok⟩) h⟩

/-- What an SDO that goes leaves of the state. -/
theorem sdoDone_spec {s : State} (hs : Invariant s) (up ok : Bool) (l : List Byte) : ∃ k m q w,
    s.sdoDone up ok l = { s with free := k, mem := m, dict := q, wire := w } ∧ Invariant { s with mem := m } ∧
    SameOd [odKey 0x2701 7 0] s { s with dict := q } ∧ (ok = true → State.od { s with dict := q } 0x2701 7 = 0) ∧
    (up = false ∨ ok = false → m = s.mem) ∧
    (up = false → s.od 0x2701 5 ≤ 1486 →
      w = (s.copiesOf 2 (s.rdBytes (hub (s.od 0x2701 4)) (s.od 0x2701 5)) ++ s.wire).take 64) ∧
    (up = true → ok = true → l.length = s.od 0x2701 5 → s.od 0x2701 4 + s.od 0x2701 5 ≤ hubSize →
      SameBytesBut (hub (s.od 0x2701 4)) (s.od 0x2701 5) s { s with mem := m } ∧
      ∀ i, i < s.od 0x2701 5 → State.byteAt { s with mem := m } (hub (s.od 0x2701 4) + i) = l.getD i 0) := by
  obtain ⟨k, w, z, hdone, hwire⟩ := sdoDone_eq s up ok l
  obtain ⟨m, hdata, hwf, hquiet, hbytes⟩ := sdoData_spec (s := { s with free := k, wire := w }) hs up ok l
  have hod : SameOd [odKey 0x2701 7 0] s (s.setOd 0x2701 7 (if ok then 0 else z)) :=
    (SameOd.of_dict _ rfl).setOd 0x2701 7 _ 0 List.mem_cons_self
  have hstatus : (s.setOd 0x2701 7 (if ok then 0 else z)).od 0x2701 7 = if ok then 0 else z := State.setOd_od_self _ _ _ _ _
  rw [hdata] at hdone
  exact ⟨k, m, _, w, hdone, hwf, hod, fun hok => hstatus.trans (if_pos hok), hquiet, hwire, hbytes⟩

/-! ### The SDO command (R237) -/

/-- The state in which the command code `v` of the channel has been stored. -/
def State.sdoAsked (s : State) (v : Nat) : State := s.setOd 0x2701 6 v

theorem sdoAsked_od (s : State) (v : Nat) {i j : Nat} (h : odKey 0x2701 6 0 ≠ odKey i j 0) : (s.sdoAsked v).od i j = s.od i j :=
  State.setOd_od_ne s v h

theorem sdoAsked_interleaved (s : State) (v : Nat) : (s.sdoAsked v).interleaved = s.interleaved :=
  ((SameOd.of_dict (s := s) [odKey 0x2701 6 0] rfl).setOd 0x2701 6 v 0 List.mem_cons_self).interleaved (by decide)

theorem sdoAsked_sameBytes (s : State) (v : Nat) : SameBytes s (s.sdoAsked v) := SameBytes.of_mem rfl (sdoAsked_interleaved s v) rfl

theorem sdoAsked_acyclicOk (s : State) (v n : Nat) : (s.sdoAsked v).acyclicOk n = s.acyclicOk n := by
  have hperiod : (s.sdoAsked v).lo 3 = s.lo 3 := sdoAsked_od s v (by decide)
  unfold State.acyclicOk
  rw [hperiod]
  rfl

theorem sdoAsked_sdoLen (s : State) (v : Nat) (up : Bool) : (s.sdoAsked v).sdoLen up = s.sdoLen up := by
  unfold State.sdoLen
  rw [sdoAsked_od s v (by decide)]

section

variable {s : State} {path v : Nat} {x : Seg} (hs : Invariant s) (h : Accepted s path 0x2701 6 1 v)
include hs h

/-- An SDO command that must wait is kept with what the SubDevice answers. -/
theorem access_sdo_waits (hok : s.acyclicOk (s.sdoLen (v == 1)) = false) :
    ∃ t, s.done (s.access path 0x2701 6 1 v x) = .next t ∧ SameBytes s t ∧ Answered path 0 t ∧
      t = { s with dict := t.dict, md := t.md, esp := { s.esp with sdo := some (v == 1, x.ok, x.data) } } := by
  have hwaits : (s.sdoAsked v).bodySdo (v == 1) x.ok x.data = (s.sdoAsked v).setEsp { s.esp with sdo := some (v == 1, x.ok, x.data) } := by
    unfold State.bodySdo
    rw [sdoAsked_sdoLen, sdoAsked_acyclicOk, hok]
    exact if_neg Bool.false_ne_true
  obtain ⟨q, m, hnext, hod, hans, _⟩ := access_done rfl h (by decide)
    ((effect_bodySdo s _ v x).trans (congrArg (·, 0) hwaits)) (Invariant.of_mem hs rfl rfl) rfl
  have hint : State.interleaved { s with dict := q } = s.interleaved := (hod.interleaved (by decide)).trans (sdoAsked_interleaved s v)
  exact ⟨_, hnext, SameBytes.of_mem rfl hint rfl, hans, rfl⟩

/-- An SDO command that goes is answered, and leaves what its transfer leaves. -/
theorem access_sdo_goes (hok : s.acyclicOk (s.sdoLen (v == 1)) = true) :
    ∃ k m q w n, s.done (s.access path 0x2701 6 1 v x) = .next { s with free := k, mem := m, dict := q, md := n, wire := w } ∧
      Answered path 0 { s with dict := q, md := n } ∧ State.interleaved { s with dict := q } = s.interleaved ∧
      (x.ok = true → State.od { s with dict := q } 0x2701 7 = 0) ∧ ((v == 1) = false → m = s.mem) ∧
      ((v == 1) = false → s.od 0x2701 5 ≤ 1486 →
        w = (s.copiesOf 2 (s.rdBytes (hub (s.od 0x2701 4)) (s.od 0x2701 5)) ++ s.wire).take 64) ∧
      ((v == 1) = true → x.ok = true → x.data.length = s.od 0x2701 5 → s.od 0x2701 4 + s.od 0x2701 5 ≤ hubSize →
        SameBytesBut (hub (s.od 0x2701 4)) (s.od 0x2701 5) s { s with mem := m } ∧
        ∀ i, i < s.od 0x2701 5 → State.byteAt { s with mem := m } (hub (s.od 0x2701 4) + i) = x.data.getD i 0) := by
  have hgoes : (s.sdoAsked v).bodySdo (v == 1) x.ok x.data = (s.sdoAsked v).sdoDone (v == 1) x.ok x.data := by
    unfold State.bodySdo
    rw [sdoAsked_sdoLen, sdoAsked_acyclicOk]
    exact if_pos hok
  obtain ⟨k, m, q, w, hdone, hwf, hod, hstatus, hquiet, hwire, hbytes⟩ :=
    sdoDone_spec (s := s.sdoAsked v) (Invariant.of_mem hs rfl rfl) (v == 1) x.ok x.data
  obtain ⟨q', n, hnext, hod', hans, _⟩ := access_done rfl h (by decide)
    ((effect_bodySdo s _ v x).trans (congrArg (·, 0) (hgoes.trans hdone))) hwf rfl
  have hoff : (s.sdoAsked v).od 0x2701 4 = s.od 0x2701 4 := sdoAsked_od s v (by decide)
  have hlen : (s.sdoAsked v).od 0x2701 5 = s.od 0x2701 5 := sdoAsked_od s v (by decide)
  have hdata := rdBytes_congr (byteAt_congr (s := s) (t := s.sdoAsked v) rfl (sdoAsked_interleaved s v) rfl)
  have hmem : State.interleaved { s with mem := m } = State.interleaved { s.sdoAsked v with mem := m } := (sdoAsked_interleaved s v).symm
  rw [hoff, hlen] at hwire hbytes
  rw [hdata] at hwire
  refine ⟨k, m, q', w, n, hnext, hans, ?_, fun hx => ?_, fun hup => hquiet (.inl hup), hwire, fun hup hx hl hhub => ?_⟩
  · exact (hod'.interleaved (by decide)).trans ((hod.interleaved (by decide)).trans (sdoAsked_interleaved s v))
  · exact (hod' 0x2701 7 0 (by decide)).trans (hstatus hx)
  · obtain ⟨hsame, hget⟩ := hbytes hup hx hl hhub
    exact ⟨sameBytesBut_of_sameBytes hsame (sdoAsked_sameBytes s v) (sdoAsked_interleaved s v) (SameBytes.of_mem rfl hmem rfl),
      fun i hi => (byteAt_congr (s := { s.sdoAsked v with mem := m }) (t := { s with mem := m }) rfl hmem rfl _).trans (hget i hi)⟩

end

theorem exec_subdeviceSdoUpload {s : State} {path : Nat} {x : Seg} (hs : Invariant s) (h : Accepted s path 0x2701 6 1 1)
    (hx : x.ok = true) (hok : s.acyclicOk 0 = true) (hlen : x.data.length = s.od 0x2701 5)
    (hhub : s.od 0x2701 4 + s.od 0x2701 5 ≤ hubSize) :
    ∃ t, exec (.subdeviceSdoUpload path x) s = .next t ∧
      t = { s with free := t.free, mem := t.mem, dict := t.dict, md := t.md, wire := t.wire } ∧
      SameBytesBut (hub (s.od 0x2701 4)) (s.od 0x2701 5) s t ∧ t.od 0x2701 7 = 0 ∧ Answered path 0 t ∧
      ∀ k, k < s.od 0x2701 5 → t.byteAt (hub (s.od 0x2701 4) + k) = x.data.getD k 0 := by
  obtain ⟨k, m, q, w, n, hnext, hans, hint, hstatus, _, _, hbytes⟩ := access_sdo_goes hs h hok
  obtain ⟨hsame, hget⟩ := hbytes rfl hx hlen hhub
  refine ⟨_, hnext, rfl, sameBytesBut_of_sameBytes hsame (SameBytes.refl s) rfl (SameBytes.of_mem rfl hint rfl), hstatus hx, hans,
    fun i hi => ?_⟩
  exact (byteAt_congr (s := { s with mem := m }) (t := { s with mem := m, dict := q }) rfl hint rfl _).trans (hget i hi)

theorem exec_subdeviceSdoDownload {s : State} {path : Nat} {x : Seg} (hs : Invariant s) (h : Accepted s path 0x2701 6 1 2)
    (hx : x.ok = true) (hok : s.acyclicOk (min 1486 (s.od 0x2701 5)) = true) :
    ∃ t, exec (.subdeviceSdoDownload path x) s = .next t ∧
      t = { s with free := t.free, dict := t.dict, md := t.md, wire := t.wire } ∧ SameBytes s t ∧ t.od 0x2701 7 = 0 ∧ Answered path 0 t ∧
      (s.od 0x2701 5 ≤ 1486 → t.wire = (s.copiesOf 2 (s.rdBytes (hub (s.od 0x2701 4)) (s.od 0x2701 5)) ++ s.wire).take 64) := by
  obtain ⟨k, m, q, w, n, hnext, hans, hint, hstatus, hquiet, hwire, _⟩ := access_sdo_goes hs h hok
  rw [hquiet rfl] at hnext
  exact ⟨_, hnext, rfl, SameBytes.of_mem rfl hint rfl, hstatus hx, hans, hwire rfl⟩

/-! ### Acyclic frames (R239) -/

/-- SubDevices that come back to Op are in Op. -/
theorem getD_foldl_put (back : List Nat) (m : AMap Nat) {d : Nat} (h : d ∈ back ∨ AMap.getD d 0 m = 3) :
    AMap.getD d 0 (back.foldl (fun m d => AMap.put 0 d 3 m) m) = 3 := by
  induction back generalizing m with
  | nil => exact h.resolve_left List.not_mem_nil
  | cons e back ih =>
    refine ih _ ?_
    by_cases he : e = d
    · subst he
      exact .inr (AMap.getD_put_self _ _ _ _)
    · refine h.imp (fun hd => (List.mem_cons.mp hd).resolve_left (Ne.symm he)) fun hm => ?_
      exact (AMap.getD_put_ne he _ _ _ _).trans hm

theorem acyclicOk_iff {s : State} (hst : s.esp.st ≠ 0) (n : Nat) :
    s.acyclicOk n = true ↔ 4 ≤ s.esp.phase ∧ s.espTime + 80 * (52 + max n 32) + 10000 ≤ s.esp.tickAt + s.lo 3 := by
  simp [State.acyclicOk, hst]

/-- Without an SDO command that waits, an acyclic frame goes in its place. -/
theorem acyclicFrame_of_none {s : State} (h : s.esp.sdo = none) (l : List Byte) (back : List Nat) : s.acyclicFrame l back =
    if s.esp.st = 0 ∨ s.acyclicOk l.length = false then s else (s.toWire 2 l).setEsp { s.esp with
      sub := back.foldl (fun m d => AMap.put 0 d 3 m) s.esp.sub, acyclic := s.esp.acyclic - 1 } := by
  unfold State.acyclicFrame
  dsimp only
  rw [h]

/-- An SDO command that waits goes first. -/
theorem acyclicFrame_of_some {s : State} {up ok : Bool} {dat : List Byte} (h : s.esp.sdo = some (up, ok, dat)) (l : List Byte)
    (back : List Nat) : s.acyclicFrame l back =
      if s.acyclicOk (s.sdoLen up) then (s.setEsp { s.esp with sdo := none }).sdoDone up ok dat else s := by
  unfold State.acyclicFrame
  dsimp only
  rw [h]

section

variable {s : State} (hs : Invariant s) (l : List Byte) (back : List Nat)
include hs

theorem exec_acyclicFrame_goes (hnone : s.esp.sdo = none) (hst : s.esp.st ≠ 0) (hphase : 4 ≤ s.esp.phase)
    (htime : s.espTime + 80 * (52 + max l.length 32) + 10000 ≤ s.esp.tickAt + s.lo 3) :
    ∃ t, exec (.acyclicFrame l back) s = .next t ∧
      t = { s with esp := t.esp, wire := (s.copiesOf 2 l ++ s.wire).take 64 } ∧ SameBytes s t ∧
      t.esp = { s.esp with sub := t.esp.sub, acyclic := s.esp.acyclic - 1 } ∧ ∀ d, d ∈ back → AMap.getD d 0 t.esp.sub = 3 := by
  have hok := (acyclicOk_iff hst l.length).mpr ⟨hphase, htime⟩
  have hframe : s.acyclicFrame l back = (s.toWire 2 l).setEsp { s.esp with
      sub := back.foldl (fun m d => AMap.put 0 d 3 m) s.esp.sub, acyclic := s.esp.acyclic - 1 } :=
    (acyclicFrame_of_none hnone l back).trans (if_neg (by simp [hst, hok]))
  have hexec : exec (.acyclicFrame l back) s = s.done (s.acyclicFrame l back) := rfl
  rw [hexec, hframe]
  exact ⟨_, State.done_of_same hs rfl rfl rfl, rfl, SameBytes.of_dict rfl rfl rfl, rfl, fun d hd => getD_foldl_put back _ (.inl hd)⟩

theorem exec_acyclicFrame_none (hnone : s.esp.sdo = none) (hbarred : s.esp.st = 0 ∨ s.esp.phase < 4 ∨
    s.esp.tickAt + s.lo 3 < s.espTime + 80 * (52 + max l.length 32) + 10000) : exec (.acyclicFrame l back) s = .next s := by
  have hout : s.esp.st = 0 ∨ s.acyclicOk l.length = false := by
    by_cases hst : s.esp.st = 0
    · exact .inl hst
    · right
      rw [← Bool.not_eq_true, acyclicOk_iff hst]
      omega
  have hframe : s.acyclicFrame l back = s := (acyclicFrame_of_none hnone l back).trans (if_pos hout)
  have hexec : exec (.acyclicFrame l back) s = s.done (s.acyclicFrame l back) := rfl
  rw [hexec, hframe]
  exact State.done_of_same hs rfl rfl rfl

theorem exec_acyclicFrame_sdo {up ok : Bool} {dat : List Byte} (hsome : s.esp.sdo = some (up, ok, dat))
    (hok : s.acyclicOk (s.sdoLen up) = true) :
    ∃ t, exec (.acyclicFrame l back) s = .next t ∧
      t = { s with free := t.free, mem := t.mem, dict := t.dict, wire := t.wire, esp := { s.esp with sdo := none } } ∧
      SameOd [odKey 0x2701 7 0] s t ∧ (ok = true → t.od 0x2701 7 = 0) ∧ (up = false ∨ ok = false → SameBytes s t) := by
  have hframe : s.acyclicFrame l back = (s.setEsp { s.esp with sdo := none }).sdoDone up ok dat :=
    (acyclicFrame_of_some hsome l back).trans (if_pos hok)
  obtain ⟨k, m, q, w, hdone, hwf, hod, hstatus, hquiet, _⟩ := sdoDone_spec (s := s.setEsp { s.esp with sdo := none }) hs up ok dat
  have hint : State.interleaved { s with dict := q } = s.interleaved := hod.interleaved (by decide)
  have hexec : exec (.acyclicFrame l back) s = s.done (s.acyclicFrame l back) := rfl
  rw [hexec, hframe, hdone]
  exact ⟨_, State.done_of_wf rfl hwf, rfl, hod, hstatus, fun h => SameBytes.of_mem (hquiet h) hint rfl⟩

theorem exec_acyclicFrame_sdo_waits {up ok : Bool} {dat : List Byte} (hsome : s.esp.sdo = some (up, ok, dat))
    (hok : s.acyclicOk (s.sdoLen up) = false) : exec (.acyclicFrame l back) s = .next s := by
  have hframe : s.acyclicFrame l back = s :=
    (acyclicFrame_of_some hsome l back).trans (if_neg (by rw [hok]; exact Bool.false_ne_true))
  have hexec : exec (.acyclicFrame l back) s = s.done (s.acyclicFrame l back) := rfl
  rw [hexec, hframe]
  exact State.done_of_same hs rfl rfl rfl

/-! ### The battery (R256, R353) -/

/-- A battery that is critical, or has been low for the confirm time, takes the module to Decaf. -/
theorem exec_batteryDecafRequest_enters (hb : s.md.barista = 0) (hst : 7 ≤ s.md.st) (hdecaf : s.md.decaf = false)
    (hlow : s.esp.critical = true ∨ (s.esp.lowAt ≠ 0 ∧ s.esp.lowAt + s.lo 0x22 * 1000 ≤ s.espTime)) :
    ∃ t, exec .batteryDecafRequest s = .next t ∧
      t = { s with free := t.free, mem := t.mem, dict := t.dict, descs := t.descs, dies := t.dies, pages := t.pages, maps := t.maps,
                   b2h := t.b2h, md := t.md, brd := t.brd } ∧ t.md.decaf = true ∧
      ∀ d, t.die d = { s.die d with notes := (t.die d).notes } := by
  have hasks : ((s.esp.lowAt != 0 && decide (s.esp.lowAt + s.lo 0x22 * 1000 ≤ s.espTime) || s.esp.critical) && !s.md.decaf) = true := by
    rw [hdecaf]
    rcases hlow with h | ⟨hset, hdue⟩
    · simp [h]
    · simp [hset, hdue]
  have henter : s.batteryDecaf = ({ s with md := { s.md with decaf := true } }).modUpdate 0 := by
    unfold State.batteryDecaf
    rw [if_neg (by omega)]
    exact if_pos hasks
  obtain ⟨⟨k, m, x, ds, es, pg, q, y, md, b, hupd⟩, hdie, hset⟩ := Enters.modUpdate { s with md := { s.md with decaf := true } } 0
  have hexec : exec .batteryDecafRequest s = s.done s.batteryDecaf := rfl
  rw [hexec, henter]
  rw [hupd] at hdie hset ⊢
  exact ⟨_, State.done_of_flash hs rfl rfl, rfl, hset, hdie⟩

end

theorem batteryDecaf_of_out {s : State} (h : s.md.barista ≠ 0 ∨ s.md.st < 7) : s.batteryDecaf = s := if_pos h

end Sys2Proof.Machine

namespace Sys2Proof

open Sys2Proof.Machine

/-- Settles O51. The commands and the SDO channel are accesses whose effect is the block's own, answered by the access's rule; an
acyclic frame goes when the outputs have left and the next tick is far enough; the battery's request is the module's entry to the
state that Decaf ranks. -/
theorem loopCommands : Obligations.LoopCommands := by
  unfold Obligations.LoopCommands
  intro s path hs _
  exact ⟨fun x h => ⟨exec_loopArm_valid hs h, exec_loopArm_table hs h, exec_loopArm_on hs h⟩,
    exec_loopStart hs, exec_loopStop hs, exec_loopDisarm hs, exec_rejoinStandby hs,
    fun x h hx hok hlen hhub => exec_subdeviceSdoUpload hs h hx hok hlen hhub,
    fun x h hx hok => exec_subdeviceSdoDownload hs h hx hok,
    fun x => ⟨fun h hok => access_sdo_waits hs h hok, fun h hok => access_sdo_waits hs h hok⟩,
    exec_batteryDecafRequest_enters hs,
    fun h => (congrArg s.done (batteryDecaf_of_out h)).trans (State.done_of_same hs rfl rfl rfl),
    fun station msg => State.done_of_same hs rfl rfl rfl,
    fun l back => ⟨exec_acyclicFrame_goes hs l back, fun up ok dat => exec_acyclicFrame_sdo hs l back,
      fun up ok dat => exec_acyclicFrame_sdo_waits hs l back, exec_acyclicFrame_none hs l back⟩⟩

end Sys2Proof
end
